-- ==== Sys2Proof/Word.lean ====
section
/-! DEFINITION. Word types and the plainest arithmetic on them. -/

namespace Sys2Proof

/-- One byte of any memory of the module. -/
abbrev Byte := BitVec 8

/-- A 32-bit register or FP32 word (registers are 32 bits wide, R444). -/
abbrev Word := BitVec 32

/-- A 64-bit value (positions of R374, stroke counter of R50, module time of R517). -/
abbrev Word64 := BitVec 64

/-- Saturating increment of a 32-bit counter (the counters of R92, R139, R203 … saturate at 0xFFFF_FFFF). -/
def satInc (w : Word) (n : Nat) : Word := BitVec.ofNat 32 (min (w.toNat + n) 4294967295)

/-- Ceiling division of naturals. -/
def ceilDiv (a b : Nat) : Nat := (a + b - 1) / b

/-- The bits [hi:lo] of a natural number read as bits (R8). -/
def bitsOf (x hi lo : Nat) : Nat := (x >>> lo) % 2 ^ (hi + 1 - lo)

/-- Bit `i` of a natural number read as bits (R8). -/
def bitAt (x i : Nat) : Bool := (x >>> i) % 2 == 1

/-- Boolean as the number 0 or 1. -/
def b2n (b : Bool) : Nat := if b then 1 else 0

end Sys2Proof
end

