-- ==== Sys2Proof/Syntax.lean ====
section
/-! DEFINITION. The commands of the block: one constructor of `Instr` per row of spec/opcode_table.json, with the
operands that name the unit it acts on and, where the event's own outcome comes from outside the module
(a medium, a sensor, a peer, a host), that outcome. -/

namespace Sys2Proof

/-- The four requesters of register accesses (R452). -/
inductive Requester where
  | pumphouse
  | port1
  | port0
  | debug
  deriving DecidableEq, Repr

/-- Why a Tiller is failed (R492). -/
inductive TillerCause where
  | sramEcc
  | stalledArray
  | railFault
  | rootLoss
  deriving DecidableEq, Repr

/-- A command message of R61 as it lies decoded, with its source port (R62: 0 host port 0, 1 host port 1,
2 Ziori, 3 Pumphouse). `crcOk` says that its crc field matched; `reservedOk` that version is 0x01 and every reserved
field is 0. -/
structure CmdMsg where
  source : Nat
  crcOk : Bool
  reservedOk : Bool
  cmd : Nat
  paddock : Nat
  serial : Nat
  atStroke : Nat
  tillers : Nat
  job : Nat
  k : Nat
  wheelLen : Nat
  sprintSlots : Nat
  lpddrGib : Nat
  sounderSlots : Nat
  wheelRef : Nat
  deriving DecidableEq, Repr

/-- A tier page of a job: the key of its table entry (R328, R338). -/
structure PageRef where
  job : Nat
  vpn : Nat
  deriving DecidableEq, Repr

/-- A descriptor that a plan of a Wellhead feeds to its Sheaf (none: a list runs), and the job it is queued for (R256). -/
structure SheafFeed where
  bytes : List Byte
  job : Nat
  deriving DecidableEq, Repr

/-- The same with the tier pages on flash that the command finds uncorrectable (R257, R348). -/
structure GatherFeed extends SheafFeed where
  bad : List Nat
  deriving DecidableEq, Repr

/-- A Rhizome packet: the fields of the 16-byte header of R164 that the receiver uses, and the payload bytes. -/
structure Packet where
  kind : Nat
  vc : Nat
  cls : Nat
  leg : Nat
  via : Nat
  dst : Nat
  src : Nat
  units : Nat
  space : Nat
  tail : Bool
  advEn : Bool
  advCtr : Nat
  tag : Nat
  headSkip : Nat
  tailLen : Nat
  addr : Nat
  payload : List Byte
  deriving DecidableEq, Repr

/-- A Ziori message (R422) with the flit stream it came on (R426): the port it arrived on, source node, destination
node, virtual channel, and the eseq of its first flit. -/
structure ZioMsg where
  port : Nat
  src : Nat
  dst : Nat
  vc : Nat
  eseq : Nat
  flits : Nat
  op : Nat
  space : Nat
  tiller : Nat
  advEn : Bool
  advCtr : Nat
  addr : Nat
  length : Nat
  payload : List Byte
  deriving DecidableEq, Repr

/-- A frame mark of R428 as received: the port, the sender's stroke and phase, hops, authority, pair, ring id, and how
far the mark's boundary lies from the module's own, in nanoseconds. -/
structure FrameMark where
  port : Nat
  stroke : Nat
  phase : Nat
  hops : Nat
  authority : Nat
  pair : Nat
  ringId : Nat
  offsetNs : Int
  deriving DecidableEq, Repr

/-- A unit that waits on a sync counter (R389). -/
inductive WaitUnit where
  | array (tiller array : Nat)
  | winnow (tiller : Nat)
  | sheaf (die : Nat)
  | chain (tiller group : Nat)
  | siphon (die chan : Nat)
  | packet (site tag : Nat)
  deriving DecidableEq, Repr

/-- The commands: rows of spec/opcode_table.json, in the table's order. -/
inductive Instr where
  | doorbellWrite (port ring : Nat) (value : Word64) (aligned8 : Bool)
  | submit (ring : Nat)
  | cancel (ring : Nat)
  | admitDurable (slot : Nat)
  | frontDurable (slot : Nat)
  | citationMapPost (slot : Nat)
  | prefillComplete (slot : Nat)
  | doneDurable (slot : Nat)
  | journalProgrammed (wellhead jserial : Nat)
  | dedupExpiry (subscriber : Nat) (tag : Word64)
  | journalRetentionExpiry (slot : Nat)
  | deadlineExpiry (slot : Nat)
  | strokeBoundary (inputWatts : Nat) (paddockWatts : List Nat) (ready : List Nat)
  | compositionCut
  | batchListWrite
  | decodeStepEnd (job usIntoStroke nsIntoUs : Nat) (uncorrectable : List Nat)
  | shareLookup (slot : Nat)
  | pageWaitPark (job : Nat)
  | park (slot : Nat)
  | replayCatchUp (slot : Nat) (steps : List (List Nat)) (unreadable : List Nat) (tiller : Nat)
  | egressGrant (slice port : Nat)
  | calendarPass (slice : Nat)
  | telemetrySample (slice : Nat)
  | heatHalving
  | loadJob (m : CmdMsg)
  | removeJob (m : CmdMsg)
  | setWheel (m : CmdMsg)
  | drain (m : CmdMsg)
  | resume (m : CmdMsg)
  | resize (m : CmdMsg)
  | retireTiller (m : CmdMsg)
  | readmitTiller (m : CmdMsg)
  | replanBoundary (ready : List Nat)
  | tillerFault (tiller : Nat) (cause : TillerCause)
  | sparePromotion (paddock : Nat)
  | quarantineEnd (tiller : Nat) (pass : Bool)
  | tileProduct (tiller array : Nat)
  | tilePrepass (tiller array : Nat)
  | tileEnd (tiller array : Nat)
  | splitSecondPass (tiller array : Nat)
  | tileDrain (tiller array : Nat)
  | epilogueDrain (tiller group : Nat)
  | deferredDrain (tiller group : Nat)
  | partialApply (tiller : Nat)
  | addFinish (tiller group : Nat)
  | fabricWrite (p : Packet)
  | fabricReadReq (p : Packet)
  | fabricReadResp (p : Packet)
  | fabricPartial (p : Packet)
  | ctrOp (p : Packet)
  | ctrResp (p : Packet)
  | regReq (p : Packet) (req : Requester) (write : Bool) (value : Word)
  | regResp (p : Packet)
  | linkRetry (site port retries : Nat)
  | routeSwitch (pauseNs : Nat)
  | routerFailure (site : Nat)
  | select (tiller : Nat)
  | sample (tiller : Nat) (drafts : List Nat)
  | winnowEnd (tiller : Nat)
  | maskFetch (tiller : Nat)
  | grammarRegister (req : Requester) (id : Nat)
  | grammarUnregister (req : Requester) (id : Nat)
  | catalogueFreed (recipe : Bool) (id : Nat)
  | catalogueGraceExpiry (slot : Nat)
  | tokenizerRegister (req : Requester) (id : Nat)
  | tokenizerUnregister (req : Requester) (id : Nat)
  | tokenise (lane : Nat)
  | detokenise (slot token : Nat)
  | sheafTableSet (req : Requester) (id : Nat)
  | sheafTableClear (req : Requester) (id : Nat)
  | sheafTableAmend (req : Requester) (id : Nat)
  | gather (die : Nat) (fed : GatherFeed)
  | gatherSum (die : Nat) (fed : GatherFeed)
  | scatter (die : Nat) (fed : SheafFeed)
  | prefetch (die : Nat) (fed : GatherFeed)
  | sheafEnd (die : Nat) (fed : List Byte)
  | feedbackEvent (table : Nat)
  | sheafUpdateApply (table : Nat)
  | forcedApply (wellhead : Nat)
  | recipeRegister (req : Requester) (id : Nat)
  | recipeUnregister (req : Requester) (id : Nat)
  | frontEncode (slot : Nat) (vector : List Byte)
  | searchCall (slot : Nat)
  | frontCandidates (slot : Nat) (unreadable : List Nat)
  | frontRerank (slot : Nat) (unreadable : List Nat)
  | frontPack (slot : Nat)
  | searchBuild (search : Nat)
  | searchRound (search : Nat)
  | nodeRead (search pick : Nat) (uncorrectable : Bool)
  | hubWindowClose (well page : Nat) (uncorrectable : Bool)
  | searchAbort (search : Nat)
  | indexOpen (req : Requester) (slot : Nat)
  | indexWrite (req : Requester) (slot : Nat)
  | indexSeal (req : Requester) (slot : Nat)
  | indexActivate (req : Requester) (slot : Nat)
  | activationApply (slot : Nat)
  | indexLoad (req : Requester) (slot : Nat)
  | indexDiscard (req : Requester) (slot : Nat)
  | indexSlotFreed (slot : Nat)
  | planStage (req : Requester) (job : Nat)
  | planUnstage (req : Requester) (job : Nat)
  | planFlush (req : Requester) (job : Nat)
  | cisHostWrite (req : Requester) (value : Word)
  | moveComplete (page : PageRef)
  | flashPageRead (job va len : Nat) (uncorrectable : List Nat)
  | eraseIntent (wellhead loc : Nat)
  | eraseIssue (loc : Nat)
  | eraseComplete (loc : Nat) (ok : Bool)
  | blockVerify (loc : Nat) (failing : List Nat)
  | reclaim (well partition : Nat)
  | programFail (loc : Nat) (erase : Bool)
  | readOnlyEntry (well : Nat)
  | holdupFlush (durationUs : Nat)
  | holdupMeasure (decijoules : Nat)
  | mapCheckpoint
  | wellFailure (well : Nat)
  | wellReturn (well : Nat)
  | imageCreate (req : Requester) (id : Nat)
  | imageWrite (req : Requester) (id : Nat)
  | imageSeal (req : Requester) (id : Nat)
  | imageDelete (req : Requester) (id : Nat)
  | layout (req : Requester)
  | ringCreate (req : Requester) (ring : Nat)
  | ringDestroy (req : Requester) (ring : Nat)
  | consumerIndexPost (ring : Nat)
  | consumerIndexRead (ring : Nat) (value : Word64)
  | crossPortFence (firstRing secondRing : Nat)
  | counterWindowRead (port offset width : Nat)
  | counterWindowAdd (port offset width : Nat) (value : Word)
  | sycRead (req : Requester) (wh : Nat)
  | sycAdd (req : Requester) (wh : Nat)
  | sycWait (req : Requester) (wh : Nat)
  | sycCas (req : Requester) (wh : Nat)
  | sycClaim (req : Requester) (wh core : Nat)
  | sycRelease (req : Requester) (wh core : Nat)
  | waitPark (unit : WaitUnit) (counter threshold : Nat)
  | waitSatisfied (wellhead : Nat)
  | waitReissue (wellhead : Nat)
  | siphonTransfer (die chan : Nat) (fed : List Byte)
  | siphonEnd (die chan : Nat) (fed : List Byte)
  | siphonComplete (die chan : Nat)
  | perstRelease (port : Nat)
  | configRequest (port reg : Nat) (write rrsSv : Bool) (value : Word)
  | bar2Access (port offset len : Nat) (write poisoned : Bool) (data : List Byte)
  | hptWinWrite (req : Requester) (port : Nat) (value : Word)
  | portReset (port : Nat)
  | hostReadFail (port addr len : Nat)
  | zioWrite (m : ZioMsg)
  | zioPartial (m : ZioMsg)
  | zioCtrAdd (m : ZioMsg)
  | zioCommand (m : ZioMsg)
  | zioRecord (m : ZioMsg)
  | zioCtrl (port vc credits : Nat) (nak : Bool) (lseq : Nat) (src dst : Nat) (eack : Nat)
  | headerCrcNak (port : Nat)
  | e2eResend (port : Nat)
  | streamTeardown (dst vc wellhead : Nat)
  | frameMarkSend (port phase : Nat)
  | frameMarkReceive (m : FrameMark)
  | pairJoin (pair : Nat) (mark : Option FrameMark)
  | joinClear (req : Requester) (pair : Nat)
  | pairLeave (pair : Nat)
  | timingLeave
  | laneDrop (port lane : Nat)
  | portTrainRetry (port : Nat) (trained : Bool)
  | portQuarantineEnd (port : Nat) (pass : Bool)
  | nodeWrite (req : Requester) (value : Word)
  | pgStatAck (req : Requester) (page : Nat) (value : Word)
  | sqFieldWrite (req : Requester) (page offset : Nat) (value : Word)
  | pgErrAck (req : Requester) (page : Nat) (value : Word)
  | pgIndAddrWrite (req : Requester) (page : Nat) (value : Word)
  | pgIndDataRead (req : Requester) (page : Nat)
  | pgIndDataWrite (req : Requester) (page : Nat) (value : Word)
  | pgMboxReq (req : Requester) (page : Nat) (value : Word)
  | mboxSnapshot (req : Requester) (page : Nat)
  | pgMboxData3Read (req : Requester) (page : Nat)
  | registerWrite (req : Requester) (page offset : Nat) (byteEnables : Nat) (value : Word)
  | clkMuxSwitch (req : Requester) (die : Nat) (value : Word)
  | muxSwitchComplete (die domain : Nat)
  | muxHang (die domain : Nat)
  | clkDomReset (req : Requester) (die : Nat) (value : Word)
  | oscStable (die : Nat)
  | pllLockConfirm (die : Nat)
  | trimSourceSwitch (die source : Nat) (trim : Int)
  | rootLoss (die : Nat)
  | restartWait (unstableWellhead : Option Nat)
  | sequencerChange (tiller : Nat)
  | inputLow (centivolts : Nat)
  | inputOvervoltage
  | pwrCapWrite (req : Requester) (offset : Nat) (value : Word)
  | hotspotHigh (tiller : Nat) (eighths : Int)
  | hotspotTrip (die : Nat)
  | chkFeed8 (req : Requester) (unit : Nat) (value : Word)
  | chkFeed16 (req : Requester) (unit : Nat) (value : Word)
  | chkFeed32 (req : Requester) (unit : Nat) (value : Word)
  | chkRestart (req : Requester) (unit : Nat)
  | chkCfgWrite (req : Requester) (unit : Nat) (value : Word)
  | chkScanCompute (req : Requester) (unit : Nat)
  | chkScanAppend (req : Requester) (unit : Nat)
  | chkScanVerify (req : Requester) (unit : Nat)
  | chkScanDone (unit : Nat)
  | hbmFrameRetire (tiller frame : Nat)
  | hbmStackFail (tiller : Nat)
  | flashDieFail (well channel die : Nat)
  | flashChannelFail (well channel : Nat)
  | wellheadFailure (wellhead : Nat)
  | coreFailure (core : Nat)
  | marginPlannerRun (tiller : Nat) (leastSlack : List Int) (failing : List (Nat × Nat)) (quietEnough : Bool)
  | powerOn
  | restart
  | fuseLoad (eccOk : Bool)
  | firmwareLoad
  | mount (decijoules : Nat) (wells : List Nat)
  | rebuild
  | recovery
  | serviceEntry
  | shutdown (req : Requester)
  | dbgReset (req : Requester)
  | provision (req : Requester)
  | raiseLock (req : Requester) (arg : Nat)
  | raiseSec (req : Requester) (arg : Nat)
  | storeFw (req : Requester)
  | firmwarePersist
  | timeStage (req : Requester)
  | timeCancel (req : Requester)
  | tapIdcode
  | tapSamplePreload (pins : List Bool)
  | tapExtest (pins : List Bool) (leave : Bool)
  | tapDtmcs (write : Bool) (value : Word)
  | tapDmi (op addr : Nat) (value : Word)
  | tapRegacc (act write : Bool) (offset : Nat) (value : Word)
  | tapUnlock (key signature : List Byte)
  | tapBypass (bit : Bool)
  | hartHalt (core : Nat)
  | hartResume (core : Nat)
  | hartStep (core : Nat)
  | triggerHit (core trigger access addr : Nat)
  | accessRegister (core regno : Nat) (write : Bool) (value : Word64)
  | accessMemory (core addr size : Nat) (write : Bool) (value : Word64)
  | systemBusAccess (addr size : Nat) (write : Bool) (value : Word64)
  | ndmreset
  | dbgClaimScan (req : Requester) (value : Word)
  | claimScanDone
  | dbgClaimForce (req : Requester)
  | smbPresence
  | smbInletTemp
  | smbOutletTemp
  | smbHotspot
  | smbInputPower
  | smbPhase
  | smbSerial
  | hostReadReissue (port : Nat) (ok : Bool)
  | hostPortReturn (port lanes speed : Nat)
  | zioriPortTrained (port lanes peer delayNs : Nat)
  | spareFailure (tiller : Nat)
  deriving DecidableEq, Repr

end Sys2Proof
end

