-- ==== Sys2Proof/Config.lean ====
section
/-! DEFINITION. What an implementation fixes and what the spec leaves open: constants with no body, so that nothing can
be proved about their values. -/

namespace Sys2Proof.Config

/-- A fresh byte whose value the spec leaves undefined (a discarded flash page, R359; an uncorrectable payload, R425). -/
opaque freeByte : Nat → BitVec 8

/-- A fresh 32-bit word whose value the spec leaves undefined. -/
opaque freeWord : Nat → BitVec 32

/-- The fresh nonce of an unlock attempt (R524). -/
opaque freeNonce : Nat → BitVec 128

/-- A fresh boolean outcome the spec leaves open. -/
opaque freeBool : Nat → Bool

/-- Internal rings of quarter `q` (R371: fixed by the firmware version and the variant, at most 4,096). -/
opaque internalRingsRaw : Nat → Nat

/-- Internal rings of quarter `q`, bounded as R371 bounds them. -/
def internalRings (q : Nat) : Nat := min (internalRingsRaw q) 4096

/-- The plan's batch size B (R90), read by the module from a plan whose layout beyond R328 the spec does not give. -/
opaque planBatch : List (BitVec 8) → Nat

/-- What a plan's model makes of a token at a position before its first layer (R186, R187: the plan's own computation is not given). -/
opaque planEmbed : List (BitVec 8) → Nat → Nat → List (BitVec 32)

/-- The keys of a layer at a position, group by group, after the positional encoding, FP32 (R183). -/
opaque planKey : List (BitVec 8) → Nat → Nat → List (BitVec 32) → List (BitVec 32)

/-- The values of a layer at a position, group by group, FP32. -/
opaque planValue : List (BitVec 8) → Nat → Nat → List (BitVec 32) → List (BitVec 32)

/-- The queries of a layer at a position, head by head, FP32. -/
opaque planQuery : List (BitVec 8) → Nat → Nat → List (BitVec 32) → List (BitVec 32)

/-- What a layer passes on, from what it was given and what attention gave. -/
opaque planNext : List (BitVec 8) → Nat → List (BitVec 32) → List (BitVec 32) → List (BitVec 32)

/-- The FP32 score that a re-ranker's plan returns for a sequence (R281: the plan's own computation is not given). -/
opaque planScore : List (BitVec 8) → List Nat → BitVec 32

/-- Where in module-reserved LPDDR a slot's KV page table, token history and grammar context lie: device addresses (R185, R221 give no
places). -/
opaque kvTableAt : Nat → Nat
/-- The token history of a slot. -/
opaque historyAt : Nat → Nat
/-- The grammar context of a slot. -/
opaque grmContextAt : Nat → Nat

/-- Where in module-reserved LPDDR the page directory of a job lies (R331 gives no place). -/
opaque pageDirAt : Nat → Nat
/-- Where the leaf of a job's 4 GiB span lies. -/
opaque pageLeafAt : Nat → Nat → Nat

/-- Where a plan puts the descriptor list of an array of a rank (R128): a plan's layout beyond R328 is not given. -/
opaque planList : List (BitVec 8) → Nat → Nat → Nat

/-- Where a plan puts the list of a unit of a rank other than an array (Winnow 0, Sheaf 1, Siphon channel c at 16 + c). -/
opaque planUnitList : List (BitVec 8) → Nat → Nat → Nat

/-- Where a plan puts the epilogue descriptor table of a group of a rank (R148, R159). -/
opaque planEpi : List (BitVec 8) → Nat → Nat → Nat

/-- Bytes of LPDDR that a staged plan's tables take and that are available to it (R330 check 9: availability is not
stated). -/
opaque tableSpace : Nat → Bool

/-- Offset of the power management control register in configuration space (R404 names the capability and no offset). -/
opaque pmcsrOffset : Nat
/-- Offset of the low word of the Device Serial Number in configuration space (R404 names the capability and no offset). -/
opaque dsnLow : Nat
/-- Offset of the high word of the Device Serial Number. -/
opaque dsnHigh : Nat
/-- The words of configuration space that begin a capability, the power management one apart, and their ids (R404, R405). -/
opaque capHead : Nat → Bool
/-- The id of a capability by the offset of its first word (R404, R405). -/
opaque capId : Nat → Nat

/-- Where the firmware keeps the Quern buffers of a slot (R245 gives the fields of the descriptor and no placement). -/
opaque qrnPlace : Nat → Nat

/-- A tokenizer table of a length still fits the tokenizer store (R240 gives no size). -/
opaque tokSpace : Nat → Bool

/-- A plan names a Sheaf table (R255): a plan's layout beyond R328 is not given. -/
opaque planNamesTable : List (BitVec 8) → Nat → Bool

/-- Where a plan puts its batch index list (R262). -/
opaque planIndexList : List (BitVec 8) → Nat

/-- The batch counter of a plan (R262), as a counter field ([31] enable, [16:0] id). -/
opaque planBatchCtr : List (BitVec 8) → Nat

/-- Width, height and channels that an image encoder's plan declares (R275): a plan's layout beyond R328 is not given. -/
opaque planImage : List (BitVec 8) → Nat × Nat × Nat

/-- A recipe image of a length still fits the recipe store (R270 gives no size). -/
opaque rcpSpace : Nat → Bool

/-- Spare blocks of a Well at first mount (R346, R368 give no number). -/
opaque spareBlocks : Nat → Nat

/-- The firmware images in the two boot slots of a tray as it ships (R543). -/
opaque shippedA : List (BitVec 8)

/-- The image in slot B. -/
opaque shippedB : List (BitVec 8)

/-- The module serial that manufacture fuses (R514). -/
opaque fusedSerial : BitVec 64

/-- The firmware key hash that manufacture fuses (R514). -/
opaque fusedFwHash : BitVec 384

/-- The debug key hash that manufacture fuses (R514). -/
opaque fusedDbgHash : BitVec 384

/-- The silicon revision and the manufacturer code of IDCODE (R522), which the spec does not give: bits [31:28] and [11:1]. -/
opaque idcode : BitVec 32

/-- The carrier's two address straps of the management endpoint (R531). -/
opaque smbStraps : BitVec 2

end Sys2Proof.Config
end

