-- ==== Sys2Proof/Machine/State.lean ====
section
/-! DEFINITION. The state of the block as plain data: every register, queue, table, counter and mode the spec gives the
module, the queue of waiting commands, the state after reset, and the outcomes' reason types. -/

namespace Sys2Proof.Machine

/-- A table keyed by naturals: an association list whose keys strictly rise (Tbl.wf of Machine/Ops.lean). -/
abbrev Tbl (α : Type) := List (Nat × α)

/-- One requester's copy of the indirect pair and mailbox of a page (R445, R452). `indAddr` is the word address; `req` is the selector of a
snapshot asked for, as it stood then (R454). -/
structure Ctx where
  indAddr : Nat := 0
  mboxSel : Word := 0
  valid : Bool := false
  badSel : Bool := false
  req : Option Word := none
  d0 : Word := 0
  d1 : Word := 0
  d2 : Word := 0
  d3 : Word := 0
  deriving DecidableEq, Repr

/-- The header state of one register page (R445, R449, R451): page sequence, err_freeze, PG_ERR, PG_STAT.reset's
recorded value, the set SQ bits with their recorded values (keyed offset × 32 + bit), the four contexts. -/
structure Page where
  seq : Nat := 0
  errFreeze : Bool := false
  errCode : Nat := 0
  errSeq : Nat := 0
  errCount : Nat := 0
  reset : Option Nat := some 0
  sq : Tbl Nat := []
  cPump : Ctx := {}
  cPort1 : Ctx := {}
  cPort0 : Ctx := {}
  cDebug : Ctx := {}
  deriving DecidableEq, Repr

/-- Time of the module: the stroke counter (R50), module time at the latest boundary (R517), the microsecond reached
within the stroke (R53), the length of the present stroke (R51), a staged time write (R519), whether time has been set,
the time value kept in the boot partition (R520), a saved value still to be resumed from, and the stroke of the latest composition
cut. -/
structure TimeSt where
  stroke : Word64 := 0
  boundNs : Word64 := 0
  phaseUs : Nat := 0
  strokeNs : Nat := 50000
  staged : Option Word64 := none
  timeSet : Bool := false
  bootNs : Word64 := 0
  resume : Option Word64 := none
  cut : Option Nat := none
  deriving DecidableEq, Repr

/-- A ring (R372 to R374): `resv` is the next position not yet allotted to a record, `filled` the allotted positions
whose records are made and not yet written, `issued` the producer index that the latest issued index write covers (a port that
is down holds its writes, R413), `waiting` says that a wait of the full ring has been counted (R381), `postedCi` is the
consumer index last posted (R377). -/
structure Ring where
  kind : Nat := 0
  recBytes : Nat := 64
  log2 : Nat := 6
  base : Nat := 0
  idx : Nat := 0
  port : Nat := 0
  core : Nat := 0
  bind : Nat := 0
  prod : Nat := 0
  cons : Nat := 0
  resv : Nat := 0
  issued : Nat := 0
  filled : Tbl (List Byte) := []
  waiting : Bool := false
  postedCi : Nat := 0
  deriving DecidableEq, Repr

/-- A parked WAIT (R389). -/
structure Park where
  unit : WaitUnit
  ctr : Nat
  thr : Nat
  deriving DecidableEq, Repr

/-- A requester's counter-operation registers of one SYC page (R391). -/
structure SycOp where
  id : Nat := 0
  a : Word := 0
  b : Word := 0
  state : Nat := 0
  status : Nat := 0
  old : Word := 0
  deriving DecidableEq, Repr

/-- Rings, sync counters and parked waits (R371 to R392). `parked` are the WAITs parked, in order, `retry` those
answered RETRY, `answered` those answered whose unit has not gone on yet; `syc` is keyed Wellhead × 4 + requester; `fenced`
are the ring pairs whose index-block read of R380 has returned. -/
structure NoriaSt where
  rings : Tbl Ring := []
  ctrs : Tbl Word := []
  parked : List Park := []
  retry : List Park := []
  answered : List Park := []
  syc : Tbl SycOp := []
  fenced : List (Nat × Nat) := []
  deriving DecidableEq, Repr

/-- One host port (R404 to R418): PERST# released, strokes since its release, configuration space and register pages ready,
link, D3hot, window, posted writes held while the port is down, and reads that failed and wait to be reissued. -/
structure HostPort where
  released : Bool := false
  strokes : Nat := 0
  cfgReady : Bool := false
  pagesReady : Bool := false
  linkUp : Bool := false
  width : Nat := 0
  speed : Nat := 0
  flit : Bool := false
  d3hot : Bool := false
  win : Nat := 0
  held : List (Nat × List Byte) := []
  failed : List (Nat × Nat) := []
  deriving DecidableEq, Repr

/-- The states of a request slot (R41). -/
inductive SlotState where
  | free | admitted | front | prefill | decode | parked | replay | draining | done
  deriving DecidableEq, Repr

/-- An entry of a slot's KV page table (R185). -/
structure KvEnt where
  shared : Bool
  promptOnly : Bool
  fill : Nat
  page : Nat
  deriving DecidableEq, Repr

/-- A history entry of a slot (R185). -/
structure Hist where
  w : Nat
  quiet : Nat
  stepStart : Bool
  token : Nat
  deriving DecidableEq, Repr

/-- The live grammar context of a request (R221): state, flags, stack of return states. -/
structure GrmCtx where
  state : Nat := 0
  ended : Bool := false
  stack : List Nat := []
  deriving DecidableEq, Repr

/-- A kept candidate passage (R279 to R281): id, search score, document, span, token ids, fused score, and its re-rank score
once it has one; scores are FP32 words. -/
structure Cand where
  pid : Nat
  score : Nat
  doc : Nat := 0
  spanStart : Nat := 0
  spanLen : Nat := 0
  tokens : List Nat := []
  fused : Nat := 0
  rerank : Option Nat := none
  deriving DecidableEq, Repr

/-- A request slot (R41 to R43, R74, R185): the descriptor's 256 bytes and what the module keeps beside it. `opened` are the
tokens the present step has chosen, `drafts`, `specBase`, `specOpen`, `scratch` its speculative positions (R230; a scratch
context of none allows no token), `detok` tokens delivered and not yet detokenised (seq, token, last), `lastTok` the latest token
detokenised with the number of its records (R249), `tokAsk` says that a Quern lane has its text, `spent` counts the strokes from its
acceptance to the latest start, `admitBound` the time of the boundary that opened the stroke of its admission (R89), `cost` and
`aggCost` its cost at either meter (R74), `fencedTo` the rings for which the read of R380 has followed its ACCEPT, `outBase` and
`citBase` where its output and citation rings stood at admission, `parkDue` says that it is to be parked at the next boundary (R41),
`kvGrant` the page ids that the cut has set aside for its next step, `pageWait` that the latest cut of its job left it out for want of
one, `waitStrokes` the strokes it has so waited in a row (R199), `refused` that it was refused after its slot was allocated (R32) and
waits in DONE for the boundary that frees it. -/
structure Slot where
  state : SlotState := .free
  desc : List Byte := []
  core : Nat := 0
  input : List Byte := []
  admitStroke : Nat := 0
  admitNs : Nat := 0
  admitBound : Nat := 0
  acceptNs : Option Nat := none
  acceptStroke : Nat := 0
  acceptPos : Nat := 0
  admitDurable : Bool := false
  cost : Nat := 0
  aggCost : Nat := 0
  dSvcC : Bool := false
  dSvcP : Bool := false
  dAggC : Bool := false
  dAggP : Bool := false
  svcWP : Nat := 0
  svcWG : Nat := 0
  aggWP : Nat := 0
  aggWG : Nat := 0
  colour : Nat := 0
  promptRefunded : Bool := false
  doneRefunded : Bool := false
  tokensOut : Nat := 0
  promptTokens : List Nat := []
  replays : Nat := 0
  degraded : Bool := false
  skipped : Nat := 0
  cancel : Bool := false
  removed : Bool := false
  cutSeq : Option Nat := none
  natural : Option Nat := none
  doneCode : Option Nat := none
  donePos : Nat := 0
  doneStroke : Nat := 0
  doneNs : Nat := 0
  doneDurable : Bool := false
  spent : Nat := 0
  indexGen : Nat := 0
  genSlot : Option Nat := none
  frontJournaled : Bool := false
  frontDurable : Bool := false
  frontIds : List Nat := []
  mapPending : Bool := false
  mapRecs : List (List Byte) := []
  leftOut : Nat := 0
  sprintSlot : Bool := false
  lastStep : Nat := 0
  history : List Hist := []
  replayPos : Nat := 0
  recCount : Nat := 0
  suppress : Nat := 0
  w : Nat := 0
  quiet : Nat := 0
  kv : List KvEnt := []
  spilled : List Nat := []
  kvGrant : Nat := 0
  pageWait : Bool := false
  waitStrokes : Nat := 0
  grm : GrmCtx := {}
  drafts : List Nat := []
  opened : List Nat := []
  specBase : Nat := 0
  specOpen : Bool := false
  scratch : Option GrmCtx := none
  detok : List (Nat × Nat × Bool) := []
  heldBytes : List Byte := []
  lastTok : Option (Nat × Nat × Nat) := none
  fencedTo : List Nat := []
  outBase : Nat := 0
  citBase : Nat := 0
  parkDue : Bool := false
  refused : Bool := false
  frontStage : Nat := 0
  tokAsk : Bool := false
  tokDone : Bool := false
  question : List Nat := []
  qTrunc : Bool := false
  reranked : List Nat := []
  queryVec : List Byte := []
  search : Option Nat := none
  returned : Nat := 0
  cands : List Cand := []
  deriving DecidableEq, Repr

/-- A journal record of R44 as the owning Wellhead keeps it: its bytes, whether it is durable (R30) and programmed. -/
structure JRec where
  wh : Nat
  typ : Nat
  slot : Nat
  jserial : Nat
  bytes : List Byte
  durable : Bool := false
  programmed : Bool := false
  deriving DecidableEq, Repr

/-- An entry of the de-duplication set (R32). -/
structure Dedup where
  sub : Nat
  tag : Nat
  slot : Nat
  acceptNs : Nat
  deriving DecidableEq, Repr

/-- What the module still knows of a live request after a start beside its journal records (R34, R47, R77, R90; log entry 86): where
its output and citation rings stood at admission, the replays it has undergone, its colour, what it debited, and what the front
stage counted: candidates returned and passages re-ranked (R285). -/
structure ReqBase where
  out : Nat := 0
  cit : Nat := 0
  replays : Nat := 0
  colour : Nat := 0
  cost : Nat := 0
  dSvcC : Bool := false
  dSvcP : Bool := false
  dAggC : Bool := false
  dAggP : Bool := false
  svcWP : Nat := 0
  svcWG : Nat := 0
  aggWP : Nat := 0
  aggWG : Nat := 0
  promptRefunded : Bool := false
  degraded : Bool := false
  skipped : Nat := 0
  returned : Nat := 0
  reranked : List Nat := []
  deriving DecidableEq, Repr

/-- Requests, journal and de-duplication set (R26 to R49). `bases` holds by slot what a start leaves of the requests that were live. -/
structure ReqSt where
  slots : Tbl Slot := []
  journal : List JRec := []
  jserial : Tbl Nat := []
  dedup : List Dedup := []
  bases : Tbl ReqBase := []
  deriving DecidableEq, Repr

/-- The states of a paddock (R64). -/
inductive PadState where
  | empty | running | drained | halted
  deriving DecidableEq, Repr

/-- A paddock (R54 to R60, R64): its quotas, its Tillers in rank order, the ranks hosted by another Tiller (R493), its
jobs in the order of loading, its wheel, the sprint step under way (opening stroke), and the promotion in flight. -/
structure Paddock where
  state : PadState := .empty
  heldState : PadState := .running
  tillers : List Nat := []
  ranks : List (Option Nat) := []
  hosted : List (Nat × Nat) := []
  noHost : Bool := false
  lpddrGib : Nat := 0
  sounder : Nat := 0
  sprintS : Nat := 0
  sprintPub : Nat := 0
  jobs : List Nat := []
  wheel : Option (List Nat) := none
  wheelPos : Nat := 0
  occupant : Nat := 0
  stepOpen : Option Nat := none
  heldCmds : List CmdMsg := []
  deriving DecidableEq, Repr

/-- A received command with the stroke it was received in, in order of arrival (R62), and whether its paddock was HALTED then, so that
it is held while the paddock stays so (R64). -/
structure Recvd where
  stroke : Nat
  msg : CmdMsg
  halted : Bool := false
  deriving DecidableEq, Repr

/-- A re-plan event waiting for its boundary (R65, R66, R67): a command with the least boundary it may take effect at, and the number
under which its staging is reported complete. -/
structure Due where
  stroke : Nat
  msg : CmdMsg
  key : Nat := 0
  deriving DecidableEq, Repr

/-- A promotion in flight (R66): failed Tiller, spare named, paddock, stroke of detection. -/
structure Promo where
  failed : Nat
  spare : Option Nat
  paddock : Nat
  detect : Nat
  transient : Bool
  deriving DecidableEq, Repr

/-- A Tiller in quarantine (R67): since which stroke, and the port whose READMIT_TILLER put it there. -/
structure Quar where
  tiller : Nat
  since : Nat
  cmd : Option CmdMsg
  deriving DecidableEq, Repr

/-- Paddocks, commands and re-plan events (R50 to R68). -/
structure PadSt where
  pads : Tbl Paddock := []
  recvd : List Recvd := []
  due : List Due := []
  dueKey : Nat := 0
  promos : List Promo := []
  quars : List Quar := []
  rejoin : List (Nat × Option CmdMsg) := []
  deriving DecidableEq, Repr

/-- A meter (R71 to R76, R82): eight words in force, staged words by index, buckets in 1/256 units and accumulators. -/
structure Meter where
  w : List Word := [0, 0, 0, 0, 0, 0, 0, 0]
  staged : Tbl Word := []
  tc : Nat := 0
  tp : Nat := 0
  accC : Nat := 0
  accP : Nat := 0
  deriving DecidableEq, Repr

/-- A shaper (R83 to R85): four words in force, staged words, bucket in bytes, time of the last refill in microseconds,
the time its calendar entry falls due (none: eligible). -/
structure Shaper where
  w : List Word := [0, 0, 0, 0]
  staged : Tbl Word := []
  bucket : Int := 0
  lastUs : Nat := 0
  due : Option Nat := none
  deriving DecidableEq, Repr

/-- An output record composed and waiting for its egress grant (R86, R88). -/
structure ERec where
  slot : Nat
  ring : Nat
  bytes : List Byte
  stroke : Nat
  deriving DecidableEq, Repr

/-- The traffic manager (R69 to R95). Meter keys: 4s + v for service meters, 0x10000 + s for aggregates. Calendar keys:
slice × 8192 + slot, overflow slots at + 4096; entries are (queue, due microsecond) in order of entry. `calUs` is each slice's
microsecond of module time, `passes` its calendar passes since the latest boundary; `rrPos` is keyed
(slice × 4 + port) × 4 + service and holds twice the queue that the round has reached, plus one while that queue is being visited;
`prevElig` is keyed job × 4 + slice; `keptMeters`, `keptShapers` and `keptRegs` are the entries and registers as they stood at the
latest boundary, which a restart brings back (R95). -/
structure TmgSt where
  meters : Tbl Meter := []
  shapers : Tbl Shaper := []
  cal : Tbl (List (Nat × Nat)) := []
  calUs : Tbl Nat := []
  queues : Tbl (List ERec) := []
  deficit : Tbl Nat := []
  rrPos : Tbl Nat := []
  vs : Tbl Nat := []
  prevElig : Tbl (List Nat) := []
  refusedSince : Tbl Nat := []
  active : List Nat := []
  headDelay : Tbl Nat := []
  passes : Tbl Nat := []
  keptMeters : Tbl Meter := []
  keptShapers : Tbl Shaper := []
  keptRegs : Tbl Word := []
  deriving DecidableEq, Repr

/-- A region of a plan (R329). -/
structure Region where
  va : Nat
  pages : Nat
  place : Nat
  backing : Nat
  rank : Nat
  flags : Nat
  sramAddr : Nat
  srcId : Nat
  srcOff : Nat
  deriving DecidableEq, Repr

/-- A staged plan (R328 to R330): header bytes, regions, KV descriptor, the plan image's device address and length,
and, once loaded, its paddock and loading order; the batch of its present step, the batch composed for the next stroke, and
the own strokes its present step has run (R53, R57). -/
structure Plan where
  hdr : List Byte := []
  regions : List Region := []
  kvd : List Byte := []
  image : List Byte := []
  loaded : Option Nat := none
  order : Nat := 0
  freeing : Bool := false
  ready : Bool := true
  batch : List Nat := []
  next : List Nat := []
  ran : Nat := 0
  deriving DecidableEq, Repr

/-- A page entry of R331, with `acc` the mark that the closing stroke has accessed the page (R332). -/
structure Pte where
  valid : Bool := false
  tier : Nat := 3
  moving : Bool := false
  pinned : Bool := false
  lost : Bool := false
  backing : Nat := 0
  heat : Nat := 0
  dirty : Nat := 0
  tiller : Nat := 0
  loc : Nat := 0
  hold : Bool := false
  acc : Bool := false
  deriving DecidableEq, Repr

/-- A move of R338: job, page, destination tier and Tiller, kind (0 victim, 1 promotion, 2 scan demotion). -/
structure Move where
  job : Nat
  vpn : Nat
  tier : Nat
  tiller : Nat
  kind : Nat
  deriving DecidableEq, Repr

/-- The Cistern (R325 to R345). `ptes` is keyed job × 2^32 + va/65536; `hbmUsed` and `lpUsed` list frames in use
(HBM key: Tiller × 2^24 + frame); `thr` and `thrStaged` are the thresholds of R343 by job; `overQuotas` are the paddocks over quota (R327),
`ranMoves` the moves each Wellhead has ended in this stroke (R338), `halvedAt` one more than the stroke at whose boundary heats were
last halved (R333), 0 before the first. -/
structure CisSt where
  plans : Tbl Plan := []
  ptes : Tbl Pte := []
  thr : Tbl Word := []
  thrStaged : Tbl Word := []
  moves : List Move := []
  hostGib : Nat := 64
  loadSeq : Nat := 0
  hbmUsed : List Nat := []
  lpUsed : List Nat := []
  hbmRetired : List Nat := []
  overQuotas : List Nat := []
  ranMoves : Tbl Nat := []
  halvedAt : Nat := 0
  deriving DecidableEq, Repr

/-- A KV page record (R184). -/
structure KvPage where
  hash : Nat := 0
  refs : Nat := 1
  fill : Nat := 0
  listed : Bool := false
  promptOnly : Bool := true
  tokens : List Nat := []
  deriving DecidableEq, Repr

/-- KV pools and share tables (R180 to R205): pages keyed job × 2^24 + page id; share table of a job: page ids. -/
structure KvSt where
  pages : Tbl KvPage := []
  share : Tbl (List Nat) := []
  deriving DecidableEq, Repr

/-- An exact value: NaN, an infinity, or a signed dyadic mant × 2^exp (a zero keeps its sign). -/
inductive Val where
  | nan
  | inf (neg : Bool)
  | fin (neg : Bool) (mant : Nat) (exp : Int)
  deriving DecidableEq, Repr

/-- The accumulator of a cell (R106): acc, sticky flags and anchor. -/
structure Acc where
  acc : Int := 0
  nan : Bool := false
  pos : Bool := false
  neg : Bool := false
  anchor : Int := 0
  deriving DecidableEq, Repr
/-- The roles of a Tiller (R16, R137): role register encoding 0 unknown, 1 in service, 2 spare, 3 retired. -/
inductive Role where
  | unknown | inService | spare | retired
  deriving DecidableEq, Repr

/-- A tile under way in an array (R125, R128, R133): its descriptor, the epilogue entry copied with it (R148), whether it
runs as NaN (R132, R158), whether it is written nowhere (BAD_CRC), the job it belongs to, and the outputs computed so far, column by column, as
FP32 words or exact partial words. -/
structure Tile where
  addr : Nat
  desc : List Byte
  epi : List Byte
  nan : Bool
  silent : Bool
  job : Nat
  cols : List (List Nat) := []
  full : Bool := false
  deriving DecidableEq, Repr

/-- The running totals of a fixed-order contraction (R112): what the contraction is (formats, shape, k_total, and where its
operands begin), and for each output (64 i + j) the k its total reaches and the total. -/
structure FixedRun where
  ident : List Int := []
  totals : Tbl (Nat × Nat) := []
  deriving DecidableEq, Repr

/-- A matrix array (R122, R136, R140): bypassed columns in order of bypass, retirement, the change waiting for the next
tile boundary (R135), bad columns pending, its sequencer state, whose list is next (R134), the tile in WAIT, between
its two passes or stalled before the shadow registers (R124), the tile in the shadow registers, the anchors it holds
(address and words by 64 i + j), and the totals of its latest fixed-order contraction. -/
structure MatArray where
  bypass : List Nat := []
  retired : Bool := false
  change : Option (List Nat × Bool) := none
  pending : List Nat := []
  state : Nat := 0
  turn : Nat := 0
  tile : Option Tile := none
  shadow : Option Tile := none
  heldAt : Option Nat := none
  held : Tbl Nat := []
  fixed : FixedRun := {}
  deriving DecidableEq, Repr

/-- An epilogue chain (R127, R143, R151, R152): gate tags (address, job), the arrays whose drain waits in its shadow
registers in order of readiness, drains taken, deferred drains (arrays, whose shadow registers keep them), ADD finishes
deferred, and ADD finishes that needed no deferral. -/
structure Chain where
  tags : List (Nat × Nat) := []
  order : List Nat := []
  ready : List Tile := []
  deferred : List Nat := []
  finishes : List Tile := []
  prompt : List Tile := []
  deriving DecidableEq, Repr

/-- A contribution handed to the exact-partial adder (R153): buffer address, words by output index, counter field, and
whether it came over the Rhizome, so that its advance leaves as a CTR_OP (R171). -/
structure Contrib where
  addr : Nat
  words : Tbl Nat
  ctr : Nat
  remote : Bool := false
  deriving DecidableEq, Repr

/-- A Tiller: role and paddock (R16, R137), arrays, chains, the adder's waiting contributions, and its descriptor lists:
the next descriptor's address by (rank × 96 + array) of each job (key job × 65,536 + rank × 96 + array; R128, R134, R493),
and the second passes that a pre-emption left over, under the same keys (R133). -/
structure Tiller where
  role : Role := .unknown
  pad : Option Nat := none
  arrays : Tbl MatArray := []
  chains : Tbl Chain := []
  adder : List Contrib := []
  lists : Tbl Nat := []
  rests : Tbl Tile := []
  deriving DecidableEq, Repr

/-- The Tillers (R16, R121 to R142): capability generation, Tillers that leave service at the next re-plan boundary
(R495), and the stroke of the earliest marking of a column that is still pending (R504). -/
structure TilSt where
  tillers : Tbl Tiller := []
  capGen : Nat := 0
  leaving : List Nat := []
  marked : Option Nat := none
  deriving DecidableEq, Repr

/-- The Rhizome (R162 to R179): route generation, dead sites in force, dead sites found since, links down (site × 4
+ port), packets in flight, the stroke a router fault was detected in, whether a boundary's route switch pauses injection and
the packets that wait for its end (R173), and links whose latest flit is being sent again (R175). -/
structure RhzSt where
  gen : Nat := 0
  dead : List Nat := []
  found : List Nat := []
  down : List Nat := []
  flight : List Packet := []
  detect : Option Nat := none
  pausing : Bool := false
  held : List Packet := []
  retrying : List Nat := []
  deriving DecidableEq, Repr

/-- A Ziori port (R420, R424, R425, R437, R439): state 0 DOWN, 1 TRAINING, 2 QUARANTINE, 3 UP, 4 FAILED; lanes in use,
lanes not dropped, peer node, delay, credits by virtual channel, link sequences sent and expected, whether flits are
being dropped until a resend, the stroke quarantine began, and the flits sent that a resend may need. -/
structure ZioPort where
  state : Nat := 0
  width : Nat := 0
  good : Nat := 255
  peer : Nat := 0
  delay : Nat := 0
  cred0 : Nat := 128
  cred2 : Nat := 1024
  cred3 : Nat := 512
  txSeq : Nat := 0
  txAck : Nat := 0
  rxSeq : Nat := 0
  dropping : Bool := false
  since : Nat := 0
  store : List (List Byte) := []
  deriving DecidableEq, Repr

/-- A ring pair (R431 to R434): state 0 LOOPBACK, 1 JOINING, 2 JOINED, 3 LEAVING, 4 FAILED; bypass, authority, hops, a
leave to begin at the next boundary, a leave whose port failed, no joining until join is cleared (R430), and the mark of R433
step 3 once checked with the stroke it was checked in, and when its leave began (R434). -/
structure ZioPair where
  state : Nat := 0
  opened : Bool := false
  authority : Nat := 0
  hops : Nat := 255
  leave : Bool := false
  failed : Bool := false
  barred : Bool := false
  checked : Option FrameMark := none
  checkedAt : Nat := 0
  leftNs : Nat := 0
  deriving DecidableEq, Repr

/-- A message in a source's replay store (R426): the message with its stream's eseq, and whether it has been sent. -/
structure ZioOut where
  msg : ZioMsg
  sent : Bool := false
  deriving DecidableEq, Repr

/-- Ziori (R419 to R440): ports, pairs, outgoing messages, next eseq of each outgoing stream and expected eseq of each
incoming one (keys node × 4 + vc), time of each outgoing stream's latest acknowledgement, the timing pair, marks out of
alignment in a row, the ring stroke the next boundary takes, and the correction of the present stroke in ns. -/
structure ZioSt where
  ports : Tbl ZioPort := []
  pairs : Tbl ZioPair := []
  out : List ZioOut := []
  txNext : Tbl Nat := []
  rxNext : Tbl Nat := []
  ackNs : Tbl Nat := []
  timing : Option Nat := none
  badMarks : Nat := 0
  takeStroke : Option Nat := none
  trimNs : Int := 0
  records : List (List Byte) := []
  deriving DecidableEq, Repr

/-- The Winnow and the Sieve of a Tiller (R210, R224, R225, R232): the next descriptor's address while a list runs, a list base written
while the descriptor at hand was already fetched, cached masks in order of use as (grammar, mask id), masks being fetched, and the mask
that a SAMPLE waits for or has waited for. -/
structure WinSt where
  at_ : Option Nat := none
  next : Option Nat := none
  cache : List (Nat × Nat) := []
  fetching : List (Nat × Nat) := []
  waiting : Option (Nat × Nat) := none
  deriving DecidableEq, Repr

/-- Quern lanes (R245): each lane's work ring of descriptors, and slots whose core waits for room in a ring. -/
structure QrnSt where
  lanes : Tbl (List (List Byte)) := []
  wait : List Nat := []
  deriving DecidableEq, Repr

/-- A Sheaf table (R253, R263): its descriptor, an amended descriptor waiting for the next apply boundary, the last consumed
event serial, and the boundary it was last applied at. -/
structure ShfTable where
  desc : List Byte := []
  amended : Option (List Byte) := none
  serial : Nat := 0
  applied : Option Nat := none
  deriving DecidableEq, Repr

/-- A merge entry (R264): event count and merged gradient. -/
structure ShfEntry where
  events : Nat := 0
  grad : List Nat := []
  deriving DecidableEq, Repr

/-- The Sheafs (R252 to R269): tables, merge entries keyed table × 2^36 + row, each Tiller Sheaf's next descriptor address by
die, and the stroke of each job's latest batch list (R262). -/
structure ShfSt where
  tables : Tbl ShfTable := []
  entries : Tbl ShfEntry := []
  lists : Tbl Nat := []
  batch : Tbl Nat := []
  deriving DecidableEq, Repr


/-- The states of a generation slot (R313). -/
inductive GenState where
  | free | loading | sealed | active | retiring | freeing
  deriving DecidableEq, Repr

/-- A generation slot (R290 to R318): header, open_serial, extents loaded, stale groups (region × 2^32 + group, region 1 for a
hub copy on Well 00 and 3 for one on Well 01), a Well lost while loading, an ACTIVATE waiting for its boundary, and what
WRITE has laid: next group of each region and the last passage_id. -/
structure GenSlot where
  state : GenState := .free
  hdr : List Byte := []
  serial : Nat := 0
  extents : Bool := false
  stale : List Nat := []
  lost : Bool := false
  pend : Bool := false
  ordNext : Nat := 0
  hubNext : Nat := 0
  passNext : Nat := 0
  lastPid : Option Nat := none
  extCrc : Nat := 0
  deriving DecidableEq, Repr

/-- The states of a search slot (R306); a slot not in the table is FREE. BUILD and WALK are entered in one step. -/
inductive SearchState where
  | queued | walk | done | abort
  deriving DecidableEq, Repr

/-- An entry of the candidate queue (R303): node, the hub copy its entry names, its score, and whether it is read. -/
structure SEnt where
  node : Nat
  hub : Option Nat
  score : Nat
  read : Bool
  deriving DecidableEq, Repr

/-- A best read node (R303, R304): node, passage id, exact score, and where its passage record lies (R294). -/
structure SRes where
  node : Nat
  pid : Nat
  score : Nat
  off : Nat := 0
  units : Nat := 0
  deriving DecidableEq, Repr

/-- A picked entry of the present round: unanswered, absent, or read (passage id, exact score, neighbour entries). -/
structure Pick where
  node : Nat
  hub : Option Nat
  answered : Bool := false
  absent : Bool := false
  pid : Nat := 0
  score : Nat := 0
  off : Nat := 0
  units : Nat := 0
  nbr : List Nat := []
  deriving DecidableEq, Repr

/-- A search (R302 to R306): request slot, order of issue, pinned generation slot, parameters, query vector, and the walk. -/
structure Search where
  state : SearchState := .queued
  slot : Nat := 0
  order : Nat := 0
  gen : Nat := 0
  l : Nat := 1
  beam : Nat := 1
  out : Nat := 1
  vec : List Byte := []
  q : List SEnt := []
  res : List SRes := []
  seen : List Nat := []
  reads : Nat := 0
  skipped : Nat := 0
  capped : Bool := false
  picks : List Pick := []
  deriving DecidableEq, Repr

/-- A node read on its way (R307, R309): Well it was sent to, search, pick, and for a hub read the hub page of its
window. -/
structure NRead where
  well : Nat
  search : Nat
  pick : Nat
  hubPage : Option Nat := none
  plane : Nat := 0
  deriving DecidableEq, Repr

/-- Graph search (R290 to R324): generation slots, latest open_serial, searches by search slot number, calls that wait for
one, the number of the next call, and node reads on their way in order of issue. -/
structure IdxSt where
  gens : Tbl GenSlot := []
  openSerial : Nat := 0
  searches : Tbl Search := []
  waiting : List Nat := []
  nextCall : Nat := 0
  nreads : List NRead := []
  deriving DecidableEq, Repr

/-- A Well (R368): state 0 ABSENT, 1 MOUNTING, 2 PRESENT, 3 QUARANTINE, 4 FAILED; spare blocks left; the stroke its
quarantine began; erases of its blocks in TLC and in pSLC (R358); blocks retired
since first mount. -/
structure Well where
  state : Nat := 1
  spare : Nat := 0
  since : Nat := 0
  tlcErases : Nat := 0
  slcErases : Nat := 0
  retired : Nat := 0
  deriving DecidableEq, Repr

/-- A model image (R367): READY or WRITING, its length, the ranges written (start, end), and marked single (R365). -/
structure ModelImage where
  ready : Bool := false
  bytes : Nat := 0
  written : List (Nat × Nat) := []
  single : Bool := false
  deriving DecidableEq, Repr

/-- The states of a block (R354). -/
inductive BlkState where
  | erased | opened | verify | sealed | released | erasing | halfErased | retired
  deriving DecidableEq, Repr

/-- A block (R354, R358, R360): erases, erase_serial of its stamp page, the serial of its retained intent, and its open
page: partition, mode, layout_gen, open_serial; data pages programmed, pages that could not be read, and the page a
flash group holds from its start (whole groups of index and passage; none for mapped pages). -/
structure Block where
  state : BlkState := .erased
  erases : Nat := 0
  stamp : Nat := 0
  intent : Option Nat := none
  part : Nat := 0
  tlc : Bool := false
  layoutGen : Nat := 0
  serial : Nat := 0
  used : Nat := 0
  bad : List Nat := []
  deriving DecidableEq, Repr

/-- The queue of a plane (R349): the blocks whose erases have arrived, in order of arrival; the first is in progress while `running`,
stands suspended while `suspended`, and `suspends` counts its suspensions. The walker reads that wait at a plane are in IdxSt.nreads. -/
structure PlaneQ where
  erases : List Nat := []
  running : Bool := false
  suspended : Bool := false
  suspends : Nat := 0
  deriving DecidableEq, Repr

/-- The layout record (R353): blocks per die of index, passage and spill, and its generation. -/
structure Layout where
  index : Nat := 5200
  passage : Nat := 1100
  spill : Nat := 400
  gen : Nat := 0
  deriving DecidableEq, Repr

/-- The Windlass (R346 to R370): blocks keyed by loc[30:5] of R297; map entries of R352 keyed
(partition × 2 + copy) × 2^64 + logical page; journal streams' Wells keyed Wellhead × 2 + copy; failed dies
(Well × 32 + channel × 4 + die) and channels (Well × 8 + channel); the strokes counted since the latest checkpoint; the latest checkpoint of the map. -/
structure WdlSt where
  mounted : Bool := false
  readOnly : Bool := false
  roDue : Bool := false
  writeThrough : Bool := false
  wells : Tbl Well := []
  images : Tbl ModelImage := []
  blocks : Tbl Block := []
  map : Tbl Nat := []
  layout : Layout := {}
  streams : Tbl Nat := []
  deadDies : List Nat := []
  deadChans : List Nat := []
  sinceCkpt : Nat := 0
  ckpt : Tbl Nat := []
  planes : Tbl PlaneQ := []
  deriving DecidableEq, Repr
/-- A Siphon channel (R393, R402): list base and priority, the next descriptor's address while it runs a list, the descriptor whose
bytes are moved and whose completion is due, with its address, and the job it runs for (R401). -/
structure SipChan where
  base : Nat := 0
  prio : Nat := 0
  at_ : Option Nat := none
  job : Nat := 0
  moved : Option (List Byte) := none
  addr : Nat := 0
  deriving DecidableEq, Repr

/-- A registered catalogue image (grammar, tokenizer or recipe; R219, R240, R270). -/
structure CatImg where
  bytes : List Byte := []
  closed : Bool := false
  deriving DecidableEq, Repr

/-- The catalogues (R219, R240, R270); `pending` are unregistrations awaiting the last live request, as (kind, id) with
kind 0 grammar, 2 recipe. -/
structure CatSt where
  grm : Tbl CatImg := []
  tok : Tbl CatImg := []
  rcp : Tbl CatImg := []
  deriving DecidableEq, Repr
/-- The clocks and the rail of a die (R464 to R474, R478): trim source and trim in 0.01 ppm, oscillator judged stable, PLL
lock confirmed, what toggles, multiplexers (sel, current, pending as bits by domain, by domain the stroke its pending switch was
asked for in, and the domains whose pending switch has been logged as hung), the stroke a register-bus reset began, a root or reference lost, and of a Tiller: operating point, margin
offset and rail in force, and the sequencer's latest target (point, offset). -/
structure ClkDie where
  src : Nat := 0
  trim : Nat := 0
  oscOk : Bool := false
  locked : Bool := false
  oscAlive : Bool := true
  pllAlive : Bool := false
  sel : Nat := 0
  cur : Nat := 0
  pend : Nat := 0
  since : Tbl Nat := []
  hung : List Nat := []
  busDown : Option Nat := none
  lost : Bool := false
  op : Nat := 3
  offset : Nat := 0
  mv : Nat := 0
  want : Option (Nat × Nat) := none
  deriving DecidableEq, Repr

/-- A lowering of a paddock by the cap controller (R476): paddock, stroke, the average then, and the recorded fall. -/
structure PwrDrop where
  pad : Nat
  stroke : Nat
  avg : Nat
  fall : Option Nat := none
  deriving DecidableEq, Repr

/-- Power entry and caps (R475 to R479): input power of the last 20 strokes (newest first), the stroke of the latest point
change by the controller, its lowerings (newest first), strokes of headroom in a row, the point the controller allows each
paddock, each paddock's point, Tillers above their temperature limit, the latest lowering for heat by paddock, input
energy in microjoules and a disconnected input. -/
structure PwrSt where
  watts : List Nat := []
  lastChange : Option Nat := none
  drops : List PwrDrop := []
  calm : Nat := 0
  allow : Tbl Nat := []
  padOp : Tbl Nat := []
  hot : List Nat := []
  heatAt : Tbl Nat := []
  energyUj : Nat := 0
  cut : Bool := false
  deriving DecidableEq, Repr

/-- A check-value unit (R481 to R489): parameters, running state c, whether a scan is busy, the status of the latest scan and
its payload bytes, and the outcome (status, payload bytes, counter field) of a busy one. -/
structure ChkUnit where
  preset : Nat := 1
  width : Nat := 32
  refin : Bool := true
  refout : Bool := true
  poly : Nat := 0x1EDC6F41
  init : Nat := 0xFFFFFFFF
  xorout : Nat := 0xFFFFFFFF
  c : Nat := 0xFFFFFFFF
  busy : Option (Nat × Nat × Nat) := none
  status : Option Nat := none
  payload : Nat := 0
  deriving DecidableEq, Repr


/-- The margin planner of a Tiller (R502 to R506): running, a run completed with its outcome, the offset planned, module time
of the latest completed run, and strokes at P0 with busy arrays. -/
structure Planner where
  running : Bool := false
  done : Bool := false
  outcome : Nat := 0
  offset : Nat := 0
  lastRunNs : Option Nat := none
  duty : Nat := 0
  deriving DecidableEq, Repr

/-- Faults and ageing (R490 to R506): failed Wellheads and cores, safe states, permanence and failure times by Tiller,
and the bypasses the boot partition keeps (Tiller × 128 + array; entry 64 marks a retired array). -/
structure FltSt where
  failedWh : List Nat := []
  failedCores : List Nat := []
  safe : Bool := false
  permanent : List Nat := []
  tillerTimes : Tbl (List Nat) := []
  planners : Tbl Planner := []
  bypass : Tbl (List Nat) := []
  deriving DecidableEq, Repr

/-- The fuse block (R514). `repair` fields: dead Tillers, first spares, bypassed columns by Tiller × 128 + array. -/
structure Fuses where
  serial : Nat := 0
  variant : Nat := 0
  trim : Tbl Nat := []
  dead : List Nat := []
  spares : List Nat := [0, 8, 59, 67]
  bypass : Tbl (List Nat) := []
  fwKeyHash : Nat := 0
  dbgKeyHash : Nat := 0
  secMin : Nat := 0
  permit0 : Nat := 0
  permit1 : Nat := 0
  lock : Nat := 0
  provisioned : Bool := false
  deriving DecidableEq, Repr

/-- The configuration record of the boot partition (R509): paddocks, loaded jobs with their paddocks in order of loading,
roles and paddocks of the Tillers, permanent retirements. -/
structure CfgRec where
  pads : Tbl Paddock := []
  jobs : List (Nat × Nat) := []
  roles : Tbl (Role × Option Nat) := []
  deriving DecidableEq, Repr

/-- Start-up, fuses, firmware and boot partition (R507 to R516). `started` says that the clocks phase has ended; the
firmware slots hold image bytes; `shadow` is the fuse shadow of Wellheads 1 to 3; `perm0`, `perm1`, `lock` are the
permissions and lock level in force; `slotA`, `slotB` the boot partition's images; `bankCharged` says that the hold-up bank has
held 54 V since power-on (R537), `flushed` that a hold-up flush has just run (R542), `fuseHold` that FUSE_LOAD is held (R508). -/
structure BootSt where
  powered : Bool := false
  started : Bool := false
  lpddrKept : Bool := false
  phase : Nat := 0
  phaseDone : Bool := false
  ready : Bool := false
  fuses : Fuses := {}
  shadow : Option Fuses := none
  applied : Option Fuses := none
  perm0 : Nat := 0xFFFF000F
  perm1 : Nat := 0xFFFF000F
  lock : Nat := 0
  slotA : List Byte := []
  slotB : List Byte := []
  running : Nat := 3
  runImage : List Byte := []
  persist : Option (List Byte) := none
  fwHold : Bool := false
  clean : Bool := false
  flushDone : Bool := false
  flushUs : Nat := 0
  cfg : CfgRec := {}
  rings : Tbl Ring := []
  resetState : Nat := 0
  shutting : Bool := false
  waitJobs : List (Nat × Nat) := []
  readmits : List Nat := []
  firstStroke : Nat := 0
  upStrokes : Nat := 0
  restartDue : Bool := false
  bankCharged : Bool := false
  flushed : Bool := false
  fuseHold : Bool := false
  deriving DecidableEq, Repr

/-- Debug (R522 to R529): cores halted by the debugger, cores that halt when they leave reset, an unlock, failed attempts of
this start, UNLOCK refused until power-on, the nonce, a claim scan under way and the ids the latest one listed, cores with a
claim forced away; boundary-scan cells, an EXTEST under way; status and data of the latest REGACC; Debug Module registers
(by DMI address), core registers the debugger has written while the core is halted (core × 65536 + regno) and triggers
(core × 4 + index: tdata1, tdata2), and each core's selected trigger. -/
structure DbgSt where
  halted : List Nat := []
  haltOnReset : List Nat := []
  unlocked : Bool := false
  failures : Nat := 0
  barred : Bool := false
  nonce : BitVec 128 := 0
  scan : Option Nat := none
  claims : List Nat := []
  forced : List Nat := []
  cells : List Bool := []
  extest : Bool := false
  regStat : Nat := 0
  regData : Word := 0
  dm : Tbl Word := []
  hregs : Tbl Nat := []
  trig : Tbl (Nat × Nat) := []
  tsel : Tbl Nat := []
  deriving DecidableEq, Repr

/-- The address spaces held in the one memory list. -/
inductive Space where
  | lpddr
  | sram (tiller : Nat)
  | hbm (tiller : Nat)
  | host (port : Nat)
  | image (id : Nat)
  | store (job : Nat)
  | spill (job : Nat)
  | flash (page : Nat)
  | park (slot : Nat)
  deriving DecidableEq, Repr

/-- The memory: cells keyed by (space, address) in canonical form (Memory.wf of Machine/Ops.lean). -/
abbrev Memory := List Host.Cell

/-- The register file of the pages: header records, plain register words by BAR0 offset, and wide (mailbox) counters. -/
structure PagesSt where
  hdr : Tbl Page := []
  regs : Tbl Word := []
  wide : Tbl Nat := []
  deriving DecidableEq, Repr

/-- The state of the module. -/
structure State where
  pending : List Instr := []
  freeCount : Nat := 0
  reply : Option Nat := none
  mem : Memory := []
  pg : PagesSt := {}
  time : TimeSt := {}
  nor : NoriaSt := {}
  sip : Tbl SipChan := []
  smp : Tbl WinSt := []
  qrn : QrnSt := {}
  shf : ShfSt := {}
  hp0 : HostPort := {}
  hp1 : HostPort := {}
  req : ReqSt := {}
  pad : PadSt := {}
  tmg : TmgSt := {}
  cis : CisSt := {}
  kv : KvSt := {}
  cat : CatSt := {}
  flt : FltSt := {}
  til : TilSt := {}
  rhz : RhzSt := {}
  zio : ZioSt := {}
  idx : IdxSt := {}
  wdl : WdlSt := {}
  clk : Tbl ClkDie := []
  pwr : PwrSt := {}
  chk : Tbl ChkUnit := []
  boot : BootSt := {}
  dbg : DbgSt := {}
  deriving DecidableEq, Repr

/-- Why a step stops with a fault: the block has no fault (every error of the spec is an effect on the state). -/
inductive Fault where
  /-- Raised by no command: the block's errors are records, result codes and PG_ERR codes. Safe. -/
  | none
  deriving DecidableEq, Repr

/-- Why a command is refused by the model. -/
inductive Refusal where
  /-- Raised by an arm of Machine/Dispatch.lean whose command has no meaning yet. Safe: the model stops. -/
  | notModelled (mnemonic : String)
  deriving DecidableEq, Repr

/-- The module right after reset, before power-on (R462 and each block's reset rule): a tray as it ships (R543), with the values
that manufacture fixes left open. -/
def State.reset : State :=
  { boot := { slotA := Config.shippedA, slotB := Config.shippedB
              fuses := { serial := Config.fusedSerial.toNat, fwKeyHash := Config.fusedFwHash.toNat
                         dbgKeyHash := Config.fusedDbgHash.toNat } } }

end Sys2Proof.Machine
end

