-- ==== Sys2Proof/Machine/Ops.lean ====
section
/-! DEFINITION. The named operations: tables, the byte memory, little-endian fields, CRC-32C, register words, wide
counters, page contexts. -/

namespace Sys2Proof.Machine

/-! ### Tables -/

/-- The value stored under a key. -/
def Tbl.look {α : Type} : Tbl α → Nat → Option α
  | [], _ => none
  | (a, v) :: t, k => if a = k then some v else Tbl.look t k

/-- Store a value under a key, keeping the keys rising. -/
def Tbl.put {α : Type} : Tbl α → Nat → α → Tbl α
  | [], k, v => [(k, v)]
  | (a, x) :: t, k, v =>
    if k < a then (k, v) :: (a, x) :: t
    else if a = k then (k, v) :: t
    else (a, x) :: Tbl.put t k v

/-- Remove a key. A table of rising keys holds it at most once; every entry with it goes. -/
def Tbl.del {α : Type} : Tbl α → Nat → Tbl α
  | [], _ => []
  | (a, x) :: t, k => if a = k then Tbl.del t k else (a, x) :: Tbl.del t k

/-- The value under a key, or the default the table's missing entries stand for. -/
def Tbl.val {α : Type} (d : α) (m : Tbl α) (k : Nat) : α := (Tbl.look m k).getD d

/-- Store a value, removing the entry when it equals the default. -/
def Tbl.set {α : Type} [DecidableEq α] (d : α) (m : Tbl α) (k : Nat) (v : α) : Tbl α :=
  if v = d then Tbl.del m k else Tbl.put m k v

/-- The keys strictly rise. -/
def Tbl.wf {α : Type} : Tbl α → Bool
  | [] => true
  | [_] => true
  | (a, _) :: (b, y) :: t => decide (a < b) && Tbl.wf ((b, y) :: t)

/-- The keys of a table. -/
def Tbl.keys {α : Type} (m : Tbl α) : List Nat := m.map Prod.fst

/-! ### Memory -/

/-- What a byte that nothing has written reads as (DESIGN CHOICE, assumption 1). -/
def Memory.unlisted : Byte := 0

/-- The canonical form: addresses strictly rising, no entry equal to the unlisted value. -/
def Memory.wf (m : Memory) : Bool := Tbl.wf m && m.all (fun c => decide (c.2 ≠ Memory.unlisted))

/-- Read one byte at a cell key. -/
def Memory.read (m : Memory) (k : Nat) : Byte := (Tbl.look m k).getD Memory.unlisted

/-- Write one byte, keeping the canonical form. -/
def Memory.write (m : Memory) (k : Nat) (b : Byte) : Memory :=
  if b = Memory.unlisted then Tbl.del m k else Tbl.put m k b

/-- Write bytes at rising keys. -/
def Memory.writeBytes : Memory → Nat → List Byte → Memory
  | m, _, [] => m
  | m, k, b :: t => Memory.writeBytes (Memory.write m k b) (k + 1) t

/-- Read `n` bytes from a key up. -/
def Memory.readBytes (m : Memory) (k : Nat) : Nat → List Byte
  | 0 => []
  | n + 1 => Memory.read m k :: Memory.readBytes m (k + 1) n

/-- Make `n` bytes from a key up read as the unlisted value. -/
def Memory.clear (m : Memory) (k n : Nat) : Memory := m.filter (fun c => decide (c.1 < k) || decide (k + n ≤ c.1))

/-- Copy `n` bytes from one key to another (the ranges do not overlap). -/
def Memory.copy (m : Memory) (src dst n : Nat) : Memory :=
  (m.filter (fun c => decide (src ≤ c.1) && decide (c.1 < src + n))).foldl
    (fun m c => Memory.write m (dst + (c.1 - src)) c.2) (Memory.clear m dst n)

/-- The number of an address space: distinct spaces have distinct numbers. -/
def Space.num : Space → Nat
  | .lpddr => 0
  | .sram t => 8 * t + 1
  | .hbm t => 8 * t + 2
  | .host p => 8 * p + 3
  | .image i => 8 * i + 4
  | .store j => 8 * j + 5
  | .spill j => 8 * j + 6
  | .flash p => 8 * p + 7
  | .park n => 8 * n + 8

/-- The cell key of an address of a space (addresses are taken modulo 2^64). -/
def Space.key (sp : Space) (a : Nat) : Nat := sp.num * 18446744073709551616 + a % 18446744073709551616

/-- Read `n` bytes of a space. -/
def State.load (s : State) (sp : Space) (a n : Nat) : List Byte := Memory.readBytes s.mem (sp.key a) n

/-- Write bytes into a space. -/
def State.store (s : State) (sp : Space) (a : Nat) (bs : List Byte) : State :=
  { s with mem := Memory.writeBytes s.mem (sp.key a) bs }

/-! ### Little-endian fields (R8) -/

/-- The number a little-endian byte list stands for. -/
def leNat : List Byte → Nat
  | [] => 0
  | b :: t => b.toNat + 256 * leNat t

/-- The `n` little-endian bytes of a number. -/
def leBytes : Nat → Nat → List Byte
  | 0, _ => []
  | n + 1, v => BitVec.ofNat 8 (v % 256) :: leBytes n (v / 256)

/-- The `n`-byte little-endian field at offset `o` of a record. -/
def fld (bs : List Byte) (o n : Nat) : Nat := leNat ((bs.drop o).take n)

/-- A byte list cut or zero-padded to `n` bytes. -/
def padTo (n : Nat) (bs : List Byte) : List Byte := (bs ++ List.replicate (n - bs.length) (0 : Byte)).take n

/-- Replace the bytes at offset `o` by `new`. -/
def patch (bs : List Byte) (o : Nat) (new : List Byte) : List Byte :=
  bs.take o ++ new ++ bs.drop (o + new.length)

/-- The `n`-bit two's-complement value of a number. -/
def signed (bits v : Nat) : Int := if v % 2 ^ bits < 2 ^ (bits - 1) then (v % 2 ^ bits : Nat) else (v % 2 ^ bits : Nat) - (2 ^ bits : Nat)

/-- The `n`-bit word of an integer. -/
def unsigned (bits : Nat) (v : Int) : Nat := (v % (2 ^ bits : Nat)).toNat

/-- All bytes from offset `o` for `n` bytes are zero. -/
def zeros (bs : List Byte) (o n : Nat) : Bool := ((bs.drop o).take n).all (fun b => decide (b = 0))

/-! ### CRC-32C and CRC-64/XZ -/

/-- One reflected CRC bit step with polynomial `poly`. -/
def crcBit (poly c : Nat) : Nat := if c % 2 = 1 then (c / 2) ^^^ poly else c / 2

/-- `n` reflected CRC bit steps. -/
def crcBits (poly : Nat) : Nat → Nat → Nat
  | 0, c => c
  | n + 1, c => crcBits poly n (crcBit poly c)

/-- One byte of a reflected CRC. -/
def crcByte (poly c : Nat) (b : Byte) : Nat := crcBits poly 8 (c ^^^ b.toNat)

/-- CRC-32C: polynomial 0x1EDC6F41, reflected, initial value and final XOR all ones (preset 1 of R481). -/
def crc32c (bs : List Byte) : Nat := bs.foldl (crcByte 0x82F63B78) 0xFFFFFFFF ^^^ 0xFFFFFFFF

/-- CRC-64/XZ (R196). -/
def crc64xz (bs : List Byte) : Nat :=
  bs.foldl (crcByte 0xC96C5795D7870F42) 0xFFFFFFFFFFFFFFFF ^^^ 0xFFFFFFFFFFFFFFFF

/-- Bytes 0 to 3 of a record hold the CRC-32C of the rest. -/
def crcOk (bs : List Byte) : Bool := fld bs 0 4 == crc32c (bs.drop 4)

/-- Put the CRC-32C of a record's body in front of it. -/
def withCrc (body : List Byte) : List Byte := leBytes 4 (crc32c body) ++ body

/-! ### Time -/

/-- The present stroke number. -/
def State.strokeN (s : State) : Nat := s.time.stroke.toNat

/-- Module time in nanoseconds. -/
def State.nowNs (s : State) : Nat := (s.time.boundNs.toNat + min (1000 * s.time.phaseUs) 49999) % 18446744073709551616

/-! ### Registers -/

/-- The key of a page (R441). -/
def pageKey (die page : Nat) : Nat := die * 256 + page

/-- BAR0 offset of a register (R441). -/
def regKey (die page off : Nat) : Nat := die * 0x100000 + page * 0x1000 + off

/-- A stored register word. -/
def State.reg (s : State) (die page off : Nat) : Word := Tbl.val 0 s.pg.regs (regKey die page off)

/-- Store a register word. -/
def State.setReg (s : State) (die page off : Nat) (w : Word) : State :=
  { s with pg := { s.pg with regs := Tbl.set 0 s.pg.regs (regKey die page off) w } }

/-- Store a register word given as a number. -/
def State.setRegN (s : State) (die page off v : Nat) : State := s.setReg die page off (BitVec.ofNat 32 v)

/-- Advance a counter register, saturating at 0xFFFF_FFFF. -/
def State.bump (s : State) (die page off n : Nat) : State := s.setReg die page off (satInc (s.reg die page off) n)

/-- The key of a wide value: page, kind, index. -/
def wideKey (die page kind idx : Nat) : Nat := (pageKey die page * 16 + kind) * 0x10000000 + idx

/-- A wide counter read through the mailbox. -/
def State.wide (s : State) (die page kind idx : Nat) : Nat := Tbl.val 0 s.pg.wide (wideKey die page kind idx)

/-- The mailbox counters of a page saturate at 0xFFFF_FFFF: its chapter says so of its counters and gives them no 64 bits (R232, R251,
R268, R343, R368, R391, R402, R417, R439, R489, R506). -/
def wideSaturates (die page : Nat) : Bool :=
  (decide (die < 4) && [10, 13, 14, 32, 33].contains page) || (decide (8 ≤ die) && decide (die < 76) && [26, 36].contains page) ||
  (decide (die < 76) && [28, 29, 30].contains page) || (decide (80 ≤ die) && decide (die < 112) && page == 0)

/-- Overwrite a wide value (64 bits). -/
def State.setWide (s : State) (die page kind idx v : Nat) : State :=
  let w := Tbl.set 0 s.pg.wide (wideKey die page kind idx)
    (if wideSaturates die page then min v 0xFFFFFFFF else v % 18446744073709551616)
  { s with pg := { s.pg with wide := w } }

/-- Advance a wide counter: to its limit where it saturates, else modulo 2^64. -/
def State.bumpWide (s : State) (die page kind idx n : Nat) : State :=
  s.setWide die page kind idx (s.wide die page kind idx + n)

/-- The header record of a page; a page nothing has touched is as after reset (R462). -/
def State.page (s : State) (die page : Nat) : Page := Tbl.val {} s.pg.hdr (pageKey die page)

/-- Replace a page's header record. -/
def State.setPage (s : State) (die page : Nat) (p : Page) : State :=
  { s with pg := { s.pg with hdr := Tbl.set {} s.pg.hdr (pageKey die page) p } }

/-- A requester's context of a page (R452). -/
def Page.ctx (p : Page) : Requester → Ctx
  | .pumphouse => p.cPump
  | .port1 => p.cPort1
  | .port0 => p.cPort0
  | .debug => p.cDebug

/-- Replace a requester's context of a page. -/
def Page.setCtx (p : Page) : Requester → Ctx → Page
  | .pumphouse, c => { p with cPump := c }
  | .port1, c => { p with cPort1 := c }
  | .port0, c => { p with cPort0 := c }
  | .debug, c => { p with cDebug := c }

/-- Answer a value to the reader. -/
def State.answer (s : State) (v : Nat) : State := { s with reply := some v }

/-- Draw a free word (a value the spec leaves open). -/
def State.drawWord (s : State) : Word × State := (Config.freeWord s.freeCount, { s with freeCount := s.freeCount + 1 })

/-- Draw `n` free bytes. -/
def State.drawBytes (s : State) : Nat → List Byte × State
  | 0 => ([], s)
  | n + 1 =>
    let r := State.drawBytes { s with freeCount := s.freeCount + 1 } n
    (Config.freeByte s.freeCount :: r.1, r.2)

/-- The number of a requester in the application order of R457. -/
def requesterNum : Requester → Nat
  | .pumphouse => 0
  | .port1 => 1
  | .port0 => 2
  | .debug => 3

/-- The host port of a requester. -/
def requesterPort : Requester → Option Nat
  | .port0 => some 0
  | .port1 => some 1
  | _ => none

/-- A host port's state. -/
def State.hp (s : State) (p : Nat) : HostPort := if p = 0 then s.hp0 else s.hp1

/-- Replace a host port's state. -/
def State.setHp (s : State) (p : Nat) (h : HostPort) : State :=
  if p = 0 then { s with hp0 := h } else { s with hp1 := h }

/-- The lowest natural at or above `n` that is not in a rising list. -/
def lowestFree : List Nat → Nat → Nat
  | [], n => n
  | x :: t, n => if x < n then lowestFree t n else if x = n then lowestFree t (n + 1) else n

/-- One of the numbers below `n` that are not in the rising list `used`: the spec does not say which, so a free value
chooses (any unused number is chosen for some value). -/
def State.pickFree (s : State) (used : List Nat) (n : Nat) : Nat × State :=
  let r := s.drawWord
  let c := lowestFree used (r.1.toNat % n)
  (if c < n then c else lowestFree used 0, r.2)

/-- Insert a natural into a rising list without repeats. -/
def insNat (x : Nat) : List Nat → List Nat
  | [] => [x]
  | y :: t => if x < y then x :: y :: t else if x = y then y :: t else y :: insNat x t

/-- The least element of a list. -/
def leastNat : List Nat → Option Nat
  | [] => none
  | x :: t => match leastNat t with
    | none => some x
    | some y => some (min x y)

/-- The element with the least key, the first of equals. -/
def minBy {α : Type} (f : α → Nat) : List α → Option α
  | [] => none
  | x :: t => match minBy f t with
    | none => some x
    | some y => if f y < f x then some y else some x

/-- Put an element into a list sorted by rising key, after its equals. -/
def insBy {α : Type} (f : α → Nat) (x : α) : List α → List α
  | [] => [x]
  | y :: t => if f x < f y then x :: y :: t else y :: insBy f x t

/-- A stable sort by rising key. -/
def sortBy {α : Type} (f : α → Nat) : List α → List α
  | [] => []
  | x :: t => insByFront f x (sortBy f t)
where
  /-- Put an element before its equals. -/
  insByFront (f : α → Nat) (x : α) : List α → List α
    | [] => [x]
    | y :: t => if f x ≤ f y then x :: y :: t else y :: insByFront f x t

/-! ### Request slots -/

/-- A slot of the request table. -/
def State.slot (s : State) (n : Nat) : Slot := Tbl.val {} s.req.slots n

/-- Replace a slot. -/
def State.setSlot (s : State) (n : Nat) (x : Slot) : State :=
  { s with req := { s.req with slots := Tbl.set {} s.req.slots n x } }

/-- Change a slot. -/
def State.modSlot (s : State) (n : Nat) (f : Slot → Slot) : State := s.setSlot n (f (s.slot n))

end Sys2Proof.Machine
end

