-- ==== Sys2Proof/Machine/Flags.lean ====
section
/-! DEFINITION. Page events and acknowledgements: the page sequence, SQ bits and PG_ERR of R449 to R451. -/

namespace Sys2Proof.Machine

/-- The key of an SQ bit of a page. -/
def sqBit (off bit : Nat) : Nat := off * 32 + bit

/-- Carry a recorded value forward so that it stays within 127 of the sequence (R449). -/
def carrySeq (seq t : Nat) : Nat := if (seq + 256 - t % 256) % 256 ≤ 127 then t else (seq + 129) % 256

/-- A recorded value `t` is at or before S (R450). -/
def atOrBefore (t s : Nat) : Bool := (s + 256 - t % 256) % 256 < 128

/-- Log one error at sequence `n` (R451). -/
def Page.logErr (p : Page) (code : Nat) : Page :=
  if p.errFreeze && p.errCode != 0 then { p with errCount := min (p.errCount + 1) 255 }
  else { p with errCode := code, errSeq := p.seq, errCount := min (p.errCount + 1) 255 }

/-- One register-bus cycle with the given SQ bits set and errors logged (R449): no event leaves the page as it was. -/
def Page.events (p : Page) (sqs errs : List Nat) : Page :=
  if sqs.isEmpty && errs.isEmpty then p
  else
    let n := (p.seq + 1) % 256
    let p := { p with
      seq := n
      sq := sqs.foldl (fun m k => Tbl.put m k n) (p.sq.map (fun e => (e.1, carrySeq n e.2)))
      reset := p.reset.map (carrySeq n)
      errSeq := if p.errCode = 0 then p.errSeq else carrySeq n p.errSeq }
    errs.foldl Page.logErr p

/-- Set SQ bits and log errors on a page in one cycle. -/
def State.event (s : State) (die page : Nat) (sqs errs : List Nat) : State :=
  s.setPage die page ((s.page die page).events sqs errs)

/-- Log one error code on a page. -/
def State.err (s : State) (die page code : Nat) : State := s.event die page [] [code]

/-- A write of S to PG_STAT_ACK (R450). -/
def Page.statAck (p : Page) (sv : Nat) : Page :=
  { p with
    sq := p.sq.filter (fun e => !atOrBefore e.2 sv)
    reset := p.reset.bind (fun t => if atOrBefore t sv then none else some t) }

/-- A write to a block register that holds SQ fields at offset `off` (R450). -/
def Page.sqWrite (p : Page) (off : Nat) (v : Word) : Page :=
  { p with sq := p.sq.filter (fun e =>
      !(decide (e.1 / 32 = off) && bitAt v.toNat (e.1 % 32) && atOrBefore e.2 (bitsOf v.toNat 31 24))) }

/-- A write to PG_STAT, whose only SQ field is reset (R445, R450). -/
def Page.pgStatWrite (p : Page) (v : Word) : Page :=
  { p with reset := p.reset.bind (fun t =>
      if bitAt v.toNat 0 && atOrBefore t (bitsOf v.toNat 31 24) then none else some t) }

/-- A write of S to PG_ERR_ACK (R451). -/
def Page.errAck (p : Page) (sv : Nat) : Page :=
  if p.errCode ≠ 0 && atOrBefore p.errSeq sv then { p with errCode := 0, errCount := 0 } else p

/-- The SQ bits set in the register at `off`, as a word. -/
def Page.sqWord (p : Page) (off : Nat) : Nat :=
  p.sq.foldl (fun a e => if e.1 / 32 = off then a ||| 2 ^ (e.1 % 32) else a) 0

/-- PG_STAT as read (R445). -/
def Page.statWord (p : Page) : Nat :=
  p.seq * 0x1000000 + b2n (decide (p.errCode ≠ 0)) * 4 + b2n (!p.sq.isEmpty) * 2 + b2n p.reset.isSome

/-- PG_ERR as read (R445); an acknowledgement clears code and count and leaves seq (R451). -/
def Page.errWord (p : Page) : Nat := p.errSeq * 0x1000000 + p.errCount * 0x10000 + p.errCode

end Sys2Proof.Machine
end

