-- ==== Sys2Proof/Machine/Rings.lean ====
section
/-! DEFINITION. Noria rings and sync counters as shared operations: posting records, fault records, counter operations
(R371 to R392, R34, R490). -/

namespace Sys2Proof.Machine

/-- The live Wellhead that carries the parts of Wellhead `w` (R18; after a failure Wellhead (w + 2) mod 4, R498). -/
def State.whOf (s : State) (w : Nat) : Nat := if s.flt.failedWh.contains w then (w + 2) % 4 else w

/-- The Wellhead that owns ring `r` (R371). -/
def State.ringWh (s : State) (r : Nat) : Nat := s.whOf (r / 32768 % 4)

/-- A host port carries traffic: link up and not in D3hot (R413). -/
def HostPort.up (h : HostPort) : Bool := h.linkUp && !h.d3hot

/-- A read of host memory through the port is served: the port is up and no read of the address has failed (R412). -/
def HostPort.readOk (h : HostPort) (a : Nat) : Bool := h.up && !h.failed.any (fun e => e.1 == a)

/-- The port's BARs are served: configuration space ready and not in D3hot (R410, R413). -/
def HostPort.bars (h : HostPort) : Bool := h.cfgReady && !h.d3hot

/-- A posted write towards host memory: issued when the port is up, held in order when it is down (R379, R413). -/
def State.hostWrite (s : State) (p a : Nat) (bs : List Byte) : State :=
  if (s.hp p).up then (s.store (.host p) a bs).bumpWide p 13 2 0 bs.length
  else s.setHp p { s.hp p with held := (s.hp p).held ++ [(a, bs)] }

/-- The ring of a kind bound to `bind` (kinds limited to one per binding, R372). -/
def State.findRing (s : State) (kind bind : Nat) : Option Nat :=
  (s.nor.rings.find? (fun e => decide (e.2.kind = kind) && decide (e.2.bind = bind))).map Prod.fst

/-- Replace a ring's record. -/
def State.setRing (s : State) (rid : Nat) (r : Ring) : State :=
  { s with nor := { s.nor with rings := Tbl.put s.nor.rings rid r } }

/-- The number of entries of a ring. -/
def Ring.entries (r : Ring) : Nat := 2 ^ r.log2

/-- The ring has room for one more record (R374). -/
def Ring.hasRoom (r : Ring) : Bool := decide (r.prod - r.cons < r.entries)

/-- The address of the record at a position (R374). -/
def Ring.addr (r : Ring) (pos : Nat) : Nat := r.base + r.recBytes * (pos % r.entries)

/-- Write the records whose turn it is, in order of position, while there is room; answers how many. -/
def drainGo : Nat → State → Nat → Nat → State × Nat
  | 0, s, _, n => (s, n)
  | fuel + 1, s, rid, n =>
    match Tbl.look s.nor.rings rid with
    | none => (s, n)
    | some r =>
      match Tbl.look r.filled r.prod with
      | none => (s, n)
      | some rec =>
        if r.hasRoom then
          let s := s.hostWrite r.port (r.addr r.prod) rec
          drainGo fuel (s.setRing rid { r with prod := r.prod + 1, filled := Tbl.del r.filled r.prod, waiting := false })
            rid (n + 1)
        else (s, n)

/-- A wait of a full ring is counted once per wait (R381). -/
def State.noteFull (s : State) (rid : Nat) : State :=
  match Tbl.look s.nor.rings rid with
  | none => s
  | some r =>
    if (Tbl.look r.filled r.prod).isSome && !r.waiting then
      let w := s.ringWh rid
      ((s.setRing rid { r with waiting := true }).bump w 31 0x108 1).event w 31 [sqBit 0x118 1] []
    else s

/-- The index write of a ring is issued when its port is up (R31, R413). -/
def State.noteIssued (s : State) (rid : Nat) : State :=
  match Tbl.look s.nor.rings rid with
  | none => s
  | some r => if (s.hp r.port).up then s.setRing rid { r with issued := r.prod } else s

/-- Write the records of a ring whose turn it is and then the producer index that covers them (R379). -/
def State.drainRing (s : State) (rid : Nat) : State :=
  match Tbl.look s.nor.rings rid with
  | none => s
  | some r =>
    let g := drainGo r.filled.length s rid 0
    let s := g.1
    let w := s.ringWh rid
    let s := if g.2 = 0 then s else
      match Tbl.look s.nor.rings rid with
      | none => s
      | some r => (((s.hostWrite r.port r.idx (leBytes 8 r.prod)).noteIssued rid).bumpWide w 31 1 0 g.2).bumpWide w 31 3 0 1
    s.noteFull rid

/-- Allot the next position of a ring to a record (R44: the journal names it before the record is written). -/
def State.reserve (s : State) (rid : Nat) : Nat × State :=
  match Tbl.look s.nor.rings rid with
  | none => (0, s)
  | some r => (r.resv, s.setRing rid { r with resv := r.resv + 1 })

/-- Put the record of an allotted position into a ring. -/
def State.fillRing (s : State) (rid pos : Nat) (rec : List Byte) : State :=
  match Tbl.look s.nor.rings rid with
  | none => s
  | some r => (s.setRing rid { r with filled := Tbl.put r.filled pos rec }).drainRing rid

/-- Post a record whose bytes depend on its position. -/
def State.postRing (s : State) (rid : Nat) (mk : Nat → List Byte) : State :=
  let r := s.reserve rid
  r.2.fillRing rid r.1 (mk r.1)

/-- A ring has records waiting for room (R381). -/
def State.ringStuck (s : State) (rid : Nat) : Bool :=
  match Tbl.look s.nor.rings rid with
  | none => false
  | some r => (Tbl.look r.filled r.prod).isSome && !r.hasRoom

/-- The fields of a 64-byte completion, refusal or fault record (R34). -/
def record64 (kind code sub tag slot gen flags stroke ns out prompt aux0 aux1 pos : Nat) : List Byte :=
  withCrc (leBytes 1 kind ++ leBytes 1 code ++ leBytes 2 sub ++ leBytes 8 tag ++ leBytes 4 slot ++ leBytes 2 gen ++
    leBytes 2 flags ++ leBytes 8 stroke ++ leBytes 8 ns ++ leBytes 4 out ++ leBytes 4 prompt ++ leBytes 4 aux0 ++
    leBytes 4 aux1 ++ leBytes 8 pos)

/-- The FAULT record of a unit (R34, R490). -/
def State.faultRec (s : State) (code aux0 aux1 flags pos : Nat) : List Byte :=
  record64 4 code 0xFFFF 0 0xFFFFFFFF 0 flags s.strokeN s.nowNs 0 0 aux0 aux1 pos

/-- The same unit's fault already waits in the ring (R490). -/
def Ring.holdsFault (r : Ring) (code aux0 aux1 : Nat) : Bool :=
  r.filled.any (fun e => fld e.2 5 1 == code && fld e.2 0x30 4 == aux0 && fld e.2 0x34 4 == aux1)

/-- Post a FAULT record to the fault ring of one port; up to 4,096 wait, and beyond that they drop (R381, R490). -/
def State.faultTo (s : State) (port code aux0 aux1 flags : Nat) : State :=
  match s.findRing 3 port with
  | none => s
  | some rid =>
    match Tbl.look s.nor.rings rid with
    | none => s
    | some r =>
      if r.holdsFault code aux0 aux1 then s
      else if 4096 ≤ r.filled.length then
        (s.bump (s.ringWh rid) 31 0x10C 1).event (s.ringWh rid) 31 [sqBit 0x118 2] []
      else s.postRing rid (s.faultRec code aux0 aux1 flags)

/-- Post one FAULT record to the fault ring of each host port (R490). -/
def State.postFault (s : State) (code aux0 aux1 : Nat) : State :=
  (s.faultTo 0 code aux0 aux1 0).faultTo 1 code aux0 aux1 0

/-! ### Sync counters -/

/-- The value of a sync counter (R385; 0 at reset, R392). -/
def State.ctr (s : State) (c : Nat) : Word := Tbl.val 0 s.nor.ctrs c

/-- Set a sync counter. -/
def State.setCtr (s : State) (c : Nat) (v : Word) : State :=
  { s with nor := { s.nor with ctrs := Tbl.set 0 s.nor.ctrs c v } }

/-- The Wellhead that holds a counter (R18, R385). -/
def State.ctrWh (s : State) (c : Nat) : Nat := s.whOf (c / 32768 % 4)

/-- The owner id of a claim (R386). -/
def ownerId (cls index tag : Nat) : Nat := cls % 16 * 0x10000000 + index % 16 * 0x1000000 + tag % 0x1000000

/-- Class and index of a requester for R386; the Pumphouse's index is the core. -/
def requesterOwner : Requester → Nat → Nat → Nat
  | .port0, _, tag => ownerId 1 0 tag
  | .port1, _, tag => ownerId 1 1 tag
  | .pumphouse, core, tag => ownerId 2 core tag
  | .debug, _, tag => ownerId 3 0 tag

/-- The operations of R385 on a counter value: new value and status (0 OK, 1 FAILED, 2 BAD_OP). WAIT leaves the
value. -/
def ctrApply (op : Nat) (c a b owner : Nat) : Nat × Nat :=
  match op with
  | 0 => (c, 0)
  | 1 => ((c + a) % 4294967296, 0)
  | 2 => (c, 0)
  | 3 => if c = a then (b, 0) else (c, 1)
  | 4 => if c = 0 then (owner, 0) else (c, 1)
  | 5 => if c = owner then (0, 0) else (c, 1)
  | _ => (c, 2)

/-- Apply an operation to a counter: the state, the value before it and the status; the counts of SYC_COUNT advance. -/
def State.ctrOp (s : State) (op c a b owner : Nat) : State × Nat × Nat :=
  let old := (s.ctr c).toNat
  let r := ctrApply op old a b owner
  let w := s.ctrWh c
  let s := (s.setCtr c (BitVec.ofNat 32 r.1)).bumpWide w 32 1 0 1
  let s := if (op = 3 ∨ op = 4) ∧ r.2 = 1 then s.bumpWide w 32 3 0 1 else s
  (s, old, r.2)

/-- A posted advance of a counter by `n` (R387). -/
def State.advance (s : State) (c n : Nat) : State := (s.ctrOp 1 c n 0 0).1

/-- Advance the counter a field of [31] enable and [16:0] id names. -/
def State.advanceFld (s : State) (f n : Nat) : State := if bitAt f 31 then s.advance (f % 0x20000) n else s

/-- Park a WAIT, or answer it RETRY when its Wellhead parks 16,384 already (R389). -/
def State.park (s : State) (p : Park) : State :=
  let w := s.ctrWh p.ctr
  if 16384 ≤ (s.nor.parked.filter (fun q => s.ctrWh q.ctr = w)).length then
    ((({ s with nor := { s.nor with retry := s.nor.retry ++ [p] } }).bump w 32 0x124 1).event w 32 [sqBit 0x118 0] [])
  else ({ s with nor := { s.nor with parked := s.nor.parked ++ [p] } }).bumpWide w 32 2 0 1

/-- A unit's WAIT on the counter a field of [31] enable and [16:0] id names is applied (R385, R391). -/
def State.noteWait (s : State) (f : Nat) : State :=
  if bitAt f 31 then s.bumpWide (s.ctrWh (f % 0x20000)) 32 1 0 1 else s

/-- The counter meets a threshold, compared unsigned (R385). -/
def State.ctrMet (s : State) (c thr : Nat) : Bool := decide (thr ≤ (s.ctr c).toNat)

end Sys2Proof.Machine
end

