-- ==== Sys2Proof/Machine/Media.lean ====
section
/-! DEFINITION. Flash media as the Windlass keeps it: Wells, partitions, blocks and the map (R346 to R359). -/

namespace Sys2Proof.Machine

/-- The part is a KX-N640-S (R3, R514). -/
def State.isS (s : State) : Bool := decide (s.boot.fuses.variant = 1)

/-- Well chips fitted. -/
def State.wellCount (s : State) : Nat := if s.isS then 16 else 32

/-- A Well. -/
def State.well (s : State) (n : Nat) : Well := Tbl.val {} s.wdl.wells n

/-- Replace a Well. -/
def State.setWell (s : State) (n : Nat) (w : Well) : State :=
  { s with wdl := { s.wdl with wells := Tbl.set {} s.wdl.wells n w } }

/-- A Well is present (R368). -/
def State.wellUp (s : State) (n : Nat) : Bool := decide (n < s.wellCount) && decide ((s.well n).state = 2)

/-- The Wellhead that runs the Windlass of a Well (R18). -/
def State.wellWh (s : State) (n : Nat) : Nat := s.whOf (n % 4)

/-- The block number of a loc (R297): bits [30:5]. -/
def locBlk (loc : Nat) : Nat := loc / 32 % 67108864
/-- The loc of a block. -/
def blkLoc (k : Nat) : Nat := 2147483648 + k * 32
/-- A loc is valid. -/
def locValid (loc : Nat) : Bool := bitAt loc 31
/-- The Well of a block. -/
def blkWell (k : Nat) : Nat := k / 2097152
/-- The die of a block: Well × 32 + channel × 4 + die. -/
def blkDie (k : Nat) : Nat := k / 65536

/-- A block. -/
def State.block (s : State) (k : Nat) : Block := Tbl.val {} s.wdl.blocks k

/-- Replace a block. -/
def State.setBlock (s : State) (k : Nat) (b : Block) : State :=
  { s with wdl := { s.wdl with blocks := Tbl.set {} s.wdl.blocks k b } }

/-- The die of a block serves: its Well is present and it is not failed (R365, R497). -/
def State.dieUp (s : State) (d : Nat) : Bool := s.wellUp (d / 32) && !s.wdl.deadDies.contains d

/-- Blocks per die of a partition on a Well (R350, R353): 0 boot, 1 journal with its reserve, 2 model, 3 index, 4 passage,
5 spill, 6 parity reserve. -/
def State.partBlocks (s : State) (part well : Nat) : Nat :=
  let l := s.wdl.layout
  let boot := if well ≤ 1 then 64 else 0
  let jrnl := if 4 ≤ well ∧ well ≤ 15 then 72 else 0
  match part with
  | 0 => boot
  | 1 => jrnl
  | 2 => 9557 - boot - jrnl - l.index - l.passage - l.spill - 2
  | 3 => l.index
  | 4 => l.passage
  | 5 => l.spill
  | _ => 2

/-- The partition is written in TLC (R350). -/
def partTlc (part : Nat) : Bool := part == 2 || part == 4

/-- Data pages of a block (R346). -/
def blockPages (tlc : Bool) : Nat := if tlc then 1536 else 512

/-- Blocks of a partition in use on a die. -/
def State.dieUse (s : State) (part die : Nat) : Nat :=
  (s.wdl.blocks.filter (fun e => decide (blkDie e.1 = die) && decide (e.2.part = part) &&
    decide (e.2.state ≠ .erased) && decide (e.2.state ≠ .retired))).length

/-- The free block of a plane with the fewest erases, ties to the lower number (R354). -/
def State.freeBlock (s : State) (plane : Nat) : Option Nat :=
  minBy (fun k => (s.block k).erases) (((List.range (if plane % 4 = 0 then 2390 else 2389)).map (fun i => plane * 16384 + i)).filter
    (fun k => decide ((s.block k).state = .erased)))

/-- Open a free block of a Well for a partition: which plane is not stated, so a free value starts the search (R354, R360).
None when no plane has one. -/
def State.takeBlock (s : State) (part well serial : Nat) : Option (Nat × State) :=
  let r := s.drawWord
  let s := r.2
  let planes := (List.range 128).map (fun i => well * 128 + (r.1.toNat + i) % 128)
  match planes.findSome? (fun p =>
      if s.dieUp (p / 4) && decide (s.dieUse part (p / 4) < s.partBlocks part well) then s.freeBlock p else none) with
  | none => none
  | some k =>
    let b := s.block k
    some (k, s.setBlock k { b with state := .opened, part := part, tlc := partTlc part, used := 0, bad := []
                                   layoutGen := s.wdl.layout.gen, serial := serial })

/-- Give a block some programmed pages, closing it when it is full (R354). -/
def State.programmed (s : State) (k n : Nat) : State :=
  let b := s.block k
  let u := b.used + n
  (s.setBlock k { b with used := u, state := if blockPages b.tlc ≤ u then .verify else b.state }).bumpWide
    (80 + blkWell k) 0 2 0 n

/-- An open block of a mapped partition on a Well with a page left. -/
def State.openOn (s : State) (part well : Nat) : Option Nat :=
  (s.wdl.blocks.find? (fun e => decide (e.2.state = .opened) && decide (e.2.part = part) && decide (blkWell e.1 = well) &&
    decide (e.2.used < blockPages e.2.tlc) && s.dieUp (blkDie e.1))).map Prod.fst

/-- The key of a map entry: partition, copy, logical page. -/
def mapKey (part copy lp : Nat) : Nat := (part * 2 + copy) * 18446744073709551616 + lp

/-- The map entry of a page of a block (R352). -/
def mapEntry (k page : Nat) : Nat := 549755813888 + k * 8192 + page * 4

/-- The block a map entry names. -/
def entryBlk (e : Nat) : Nat := e / 8192 % 67108864

/-- A map entry names the block. -/
def State.mapped (s : State) (k : Nat) : Bool := s.wdl.map.any (fun e => decide (entryBlk e.2 = k))

/-- A sealed block of a mapped partition that no entry names any longer is RELEASED (R354). -/
def State.releaseIdle (s : State) (k : Nat) : State :=
  let b := s.block k
  if b.state = .sealed ∧ (b.part = 2 ∨ b.part = 5) ∧ s.mapped k = false then s.setBlock k { b with state := .released }
  else s

/-! ### Planes (R349) -/

/-- The plane of a block: Well × 128 + channel × 16 + die × 4 + plane. -/
def blkPlane (k : Nat) : Nat := k / 16384

/-- The queue of a plane. -/
def State.plane (s : State) (p : Nat) : PlaneQ := Tbl.val {} s.wdl.planes p

/-- Replace the queue of a plane. -/
def State.setPlane (s : State) (p : Nat) (q : PlaneQ) : State :=
  { s with wdl := { s.wdl with planes := Tbl.set {} s.wdl.planes p q } }

/-- The node reads that hold a Well's 1,024 walker contexts, in order of arrival (R307). -/
def State.walkers (s : State) (w : Nat) : List NRead :=
  (s.idx.nreads.filter (fun r => decide (r.well = w) && r.hubPage.isNone)).take 1024

/-- The walker reads that wait at a plane, in order of arrival (R349). -/
def State.planeReads (s : State) (p : Nat) : List NRead := (s.walkers (p / 128)).filter (fun r => decide (r.plane = p))

/-- An erase is in progress and not suspended. -/
def PlaneQ.held (q : PlaneQ) : Bool := q.running && !q.suspended

/-- A class 1 or 2 read that arrives at a plane now is served at once: no read of its class or a lower one waits, and the erase in
progress, if any, can be suspended (R349). -/
def State.planeServes (s : State) (p : Nat) : Bool :=
  (s.planeReads p).isEmpty && !((s.plane p).held && decide (16 ≤ (s.plane p).suspends))

/-- Suspend the erase in progress on a plane (R349, R368). -/
def State.suspendErase (s : State) (p : Nat) : State :=
  let q := s.plane p
  (s.setPlane p { q with suspended := true, suspends := q.suspends + 1 }).bumpWide (80 + p / 128) 0 4 0 1

/-- Bring a plane's erase into step with the reads that wait there (R349): it begins when none waits, is suspended, fewer than 16
times, while one waits, and resumes when none waits any longer. -/
def State.settlePlane (s : State) (p : Nat) : State :=
  let q := s.plane p
  let waits := !(s.planeReads p).isEmpty
  if q.erases.isEmpty then s
  else if q.running = false then (if waits then s else s.setPlane p { q with running := true })
  else if q.suspended then (if waits then s else s.setPlane p { q with suspended := false })
  else if waits ∧ q.suspends < 16 then s.suspendErase p
  else s

/-- Bring every plane's erases into step with the reads that wait (R349). -/
def State.settlePlanes (s : State) : State := s.wdl.planes.foldl (fun s e => s.settlePlane e.1) s

/-- A class 1 or 2 read that arrives at a plane and is served in the same command: an erase in progress is suspended for it
and resumes (R349). -/
def State.visitPlane (s : State) (p : Nat) : State :=
  if (s.plane p).held ∧ (s.plane p).suspends < 16 then
    let s := s.suspendErase p
    s.setPlane p { s.plane p with suspended := false }
  else s

/-- The erase of a block is the one in progress on its plane. -/
def State.eraseRuns (s : State) (k : Nat) : Bool :=
  decide ((s.plane (blkPlane k)).erases.head? = some k) && (s.plane (blkPlane k)).held

/-- The erase of a block arrives at its plane (R349, class 5). -/
def State.eraseQueue (s : State) (k : Nat) : State :=
  let q := s.plane (blkPlane k)
  (s.setPlane (blkPlane k) { q with erases := q.erases ++ [k] }).settlePlane (blkPlane k)

/-- The erase in progress on a block's plane ends; the next in order follows. -/
def State.eraseLeaves (s : State) (k : Nat) : State :=
  (s.setPlane (blkPlane k) { erases := (s.plane (blkPlane k)).erases.tail }).settlePlane (blkPlane k)

/-- One flash page is read (R348, R368): the read arrives at its plane; one that stays uncorrectable is counted. -/
def State.readPage (s : State) (k : Nat) (uncorr : Bool) : State :=
  let d := 80 + blkWell k
  let s := (s.visitPlane (blkPlane k)).bumpWide d 0 1 0 1
  if uncorr then (s.bump d 0 0x110 1).event d 0 [sqBit 0x118 2] [3] else s

/-- Reads in a Well's queue (R307, R351). -/
def State.readQueue (s : State) (w : Nat) : Nat := (s.idx.nreads.filter (fun r => decide (r.well = w) && r.hubPage.isNone)).length

/-- The copies of a logical page whose die serves, as (copy, map entry), in the order a read takes them (R351): the Well with the
shorter read queue first, ties to copy 0. -/
def State.copies (s : State) (part lp : Nat) : List (Nat × Nat) :=
  let at_ (c : Nat) : List (Nat × Nat) := match Tbl.look s.wdl.map (mapKey part c lp) with
    | some e => if s.dieUp (blkDie (entryBlk e)) then [(c, e)] else []
    | none => []
  match at_ 0, at_ 1 with
  | [a], [b] => if s.readQueue (blkWell (entryBlk b.2)) < s.readQueue (blkWell (entryBlk a.2)) then [b, a] else [a, b]
  | a, b => a ++ b

/-- Some copy of a logical page reads, given the copies that read back uncorrectable; a page the map does not hold was never
written. -/
def State.lpReads (s : State) (part lp : Nat) (bad : List Nat) : Bool :=
  ((Tbl.look s.wdl.map (mapKey part 0 lp)).isNone && (Tbl.look s.wdl.map (mapKey part 1 lp)).isNone) ||
    (s.copies part lp).any (fun c => !bad.contains c.1)

/-- Read one logical page (R351, R352, R368): a map lookup, whose cache miss is not stated, and page reads of its copies in turn until
one is not uncorrectable. -/
def State.readLogical (s : State) (w part lp : Nat) (bad : List Nat) : State :=
  let miss := Config.freeBool s.freeCount
  let s := ({ s with freeCount := s.freeCount + 1 }.bumpWide w 12 1 0 1).bump w 12 0x108 (b2n miss)
  match s.copies part lp with
  | [] => s
  | [a] => s.readPage (entryBlk a.2) (bad.contains a.1)
  | a :: b :: _ =>
    let s := s.readPage (entryBlk a.2) (bad.contains a.1)
    if bad.contains a.1 then s.readPage (entryBlk b.2) (bad.contains b.1) else s

/-- Forget a map entry; the block it named may be released (R366). -/
def State.dropMap (s : State) (key : Nat) : State :=
  match Tbl.look s.wdl.map key with
  | none => s
  | some e => { s with wdl := { s.wdl with map := Tbl.del s.wdl.map key } }.releaseIdle (entryBlk e)

/-- Replace a map entry; the block it named before may be released. -/
def State.setMap (s : State) (key e : Nat) : State :=
  let was := Tbl.look s.wdl.map key
  let m := Tbl.put s.wdl.map key e
  let s := { s with wdl := { s.wdl with map := m } }
  match was with
  | none => s
  | some o => s.releaseIdle (entryBlk o)

/-- Program one logical page of a partition on a Well (R352, R354); a Well with no room leaves it as it was. -/
def State.programOn (s : State) (part copy lp well : Nat) : State :=
  let r := match s.openOn part well with
    | some k => some (k, s)
    | none => s.takeBlock part well 0
  match r with
  | none => s
  | some (k, s) => (s.setMap (mapKey part copy lp) (mapEntry k (s.block k).used)).programmed k 1

/-- The mirror of a model Well (R351). -/
def State.mirrorWell (s : State) (a : Nat) : Nat := if s.isS then (a + 8) % 16 else (a + 16) % 32

/-- A present Well, which one is not stated (R351: any Well). -/
def State.anyWell (s : State) : Nat × State :=
  let r := s.drawWord
  let n := s.wellCount
  ((((List.range n).map (fun i => (r.1.toNat + i) % n)).find? s.wellUp).getD 0, r.2)

/-- Write one logical page of the model (2) or spill (5) partition (R340, R351): both copies of a model page; the absent
one is left undone, and what it held before is stale and never read (R365, R366). -/
def State.writeLogical (s : State) (part lp : Nat) : State :=
  let r := s.anyWell
  let s := r.2
  if part = 2 then
    let t := if s.wellUp r.1 then s.programOn 2 0 lp r.1 else s
    if s.wellUp (s.mirrorWell r.1) then t.programOn 2 1 lp (s.mirrorWell r.1) else t.dropMap (mapKey 2 1 lp)
  else s.programOn 5 0 lp r.1

/-- Discard the logical pages of a partition that a test picks (R359). -/
def State.discard (s : State) (part : Nat) (f : Nat → Bool) : State :=
  let hit (e : Nat × Nat) : Bool := decide (e.1 / 36893488147419103232 = part) && f (e.1 % 18446744073709551616)
  let gone := s.wdl.map.filter hit
  let s := { s with wdl := { s.wdl with map := s.wdl.map.filter (fun e => !hit e) } }
  let s := gone.foldl (fun s e => s.bumpWide (s.wellWh (blkWell (entryBlk e.2))) 12 2 0 1) s
  gone.foldl (fun s e => s.releaseIdle (entryBlk e.2)) s

/-- The logical page of a model image. -/
def lpImage (id i : Nat) : Nat := id * 4294967296 + i
/-- The logical page of a job's STORE backing, in the model partition. -/
def lpStore (job i : Nat) : Nat := 1152921504606846976 + job * 1099511627776 + i
/-- The logical page of a job's SCRATCH backing, in the spill partition. -/
def lpScratch (job i : Nat) : Nat := job * 1099511627776 + i
/-- The logical page of a parked request's spilled KV page. -/
def lpPark (slot page i : Nat) : Nat := 1152921504606846976 + slot * 1099511627776 + page * 65536 + i

/-- Bytes the model partition holds, mirrored (R350, R351). -/
def State.modelBytes (s : State) : Nat :=
  ((List.range s.wellCount).filter s.wellUp).foldl (fun n w => n + s.partBlocks 2 w * 32 * 25165824) 0 / 2

/-- The Well of a journal stream of a Wellhead; 255 where it has lapsed (R351, R365). Streams keep the Wells they were given
at mount or moved to. -/
def State.streamWell (s : State) (w copy : Nat) : Nat := Tbl.val 255 s.wdl.streams (2 * w + copy)

/-- A record of a Wellhead is durable only once it is programmed: write-through, or one stream lapsed (R363, R365). -/
def State.strictJournal (s : State) (w : Nat) : Bool :=
  s.wdl.writeThrough || (s.wdl.mounted && ((s.streamWell w 0 == 255) != (s.streamWell w 1 == 255)))

/-- Both streams of a Wellhead have lapsed (R365). -/
def State.noJournal (s : State) (w : Nat) : Bool := s.wdl.mounted && s.streamWell w 0 == 255 && s.streamWell w 1 == 255

/-- Retire a block: a spare replaces it, and with none left the module goes read-only at the next boundary (R354, R357,
R368). -/
def State.retireBlock (s : State) (k : Nat) : State :=
  let w := blkWell k
  let x := s.well w
  let s := s.setBlock k { s.block k with state := .retired, intent := none }
  let s := s.setWell w { x with spare := x.spare - 1, retired := x.retired + 1 }
  let s := if x.spare = 0 then { s with wdl := { s.wdl with roDue := true } } else s
  s.event (80 + w) 0 (sqBit 0x118 3 :: (if x.spare = 1024 then [sqBit 0x118 0] else [])) []

end Sys2Proof.Machine
end

