-- ==== Sys2Proof/Machine/Traffic.lean ====
section
/-! DEFINITION. The traffic manager: meters, refunds, shapers, the calendar, egress arbitration and telemetry
(R69 to R95). -/

namespace Sys2Proof.Machine

/-- The slice that serves a subscriber (R69), carried by its live Wellhead. -/
def State.sliceWh (s : State) (sub : Nat) : Nat := s.whOf (sub % 4)

/-- Word `i` of a meter or shaper entry in force. -/
def entryWord (w : List Word) (i : Nat) : Nat := ((w[i]?).getD 0).toNat

/-- A meter entry; an entry nothing has written is all zero (R95). -/
def State.meter (s : State) (k : Nat) : Meter := Tbl.val {} s.tmg.meters k

/-- Replace a meter entry. -/
def State.setMeter (s : State) (k : Nat) (m : Meter) : State :=
  { s with tmg := { s.tmg with meters := Tbl.set {} s.tmg.meters k m } }

/-- The key of the service meter (s, v) (R81). -/
def svcKey (sub v : Nat) : Nat := 4 * sub + v

/-- The key of the aggregate meter of a subscriber. -/
def aggKey (sub : Nat) : Nat := 0x10000 + sub

/-- The fields of R82. -/
def Meter.enable (m : Meter) : Bool := bitAt (entryWord m.w 0) 31
/-- Mode bit of R82. -/
def Meter.mode (m : Meter) : Bool := bitAt (entryWord m.w 0) 30
/-- Colour-aware bit of R82. -/
def Meter.aware (m : Meter) : Bool := bitAt (entryWord m.w 0) 29
/-- Unit bit of R82: 1 counts requests. -/
def Meter.unit (m : Meter) : Bool := bitAt (entryWord m.w 0) 28
/-- yellow_action of R82. -/
def Meter.refuseYellow (m : Meter) : Bool := bitAt (entryWord m.w 0) 27
/-- Committed bucket size in 1/256 units. -/
def Meter.zc (m : Meter) : Nat := entryWord m.w 3 * 256
/-- Peak or excess bucket size in 1/256 units. -/
def Meter.zp (m : Meter) : Nat := entryWord m.w 4 * 256
/-- w_prompt of R82. -/
def Meter.wPrompt (m : Meter) : Nat := entryWord m.w 5 / 65536
/-- w_gen of R82. -/
def Meter.wGen (m : Meter) : Nat := entryWord m.w 5 % 65536
/-- delay_ceiling of R82. -/
def Meter.ceiling (m : Meter) : Nat := entryWord m.w 6
/-- bulk_weight of R82; 0 is taken as 1. -/
def Meter.bulkWeight (m : Meter) : Nat := max (entryWord m.w 7 % 65536) 1

/-- The cost of a request at a meter (R72). -/
def Meter.cost (m : Meter) (maxPrompt maxNew : Nat) : Nat :=
  if m.unit then 256 else m.wPrompt * maxPrompt + m.wGen * maxNew

/-- The colour of cost `b` and the buckets afterwards (R73): `pre` is the pre-colour (0 green, 1 yellow, 2 red) a
colour-aware meter takes; answers colour, tc, tp. -/
def meterColour (mode aware : Bool) (pre tc tp b : Nat) : Nat × Nat × Nat :=
  if mode then
    if (!aware || pre == 0) && decide (b ≤ tc) then (0, tc - b, tp)
    else if (!aware || pre != 2) && decide (b ≤ tp) then (1, tc, tp - b)
    else (2, tc, tp)
  else
    if (aware && pre == 2) || decide (tp < b) then (2, tc, tp)
    else if (aware && pre == 1) || decide (tc < b) then (1, tc, tp - b)
    else (0, tc - b, tp - b)

/-- The sampled head delay of some queue of (s, v) stands at or above the ceiling (R80). -/
def State.guardRed (s : State) (sub v : Nat) : Bool :=
  let c := (s.meter (svcKey sub v)).ceiling
  c != 0 && (List.range 4).any (fun p => decide (c ≤ Tbl.val 0 s.tmg.headDelay (16 * sub + 4 * v + p)))

/-- The result of metering: colour, both entries afterwards. A pure function of the two entries (R74, R75). -/
def meterBoth (svc agg : Meter) (maxPrompt maxNew : Nat) : Nat × Meter × Meter :=
  if !svc.enable then (2, svc, agg)
  else
    let c1 := meterColour svc.mode false 0 svc.tc svc.tp (svc.cost maxPrompt maxNew)
    let svc' := { svc with tc := c1.2.1, tp := c1.2.2 }
    if !agg.enable then (c1.1, svc', agg)
    else
      let c2 := meterColour agg.mode agg.aware c1.1 agg.tc agg.tp (agg.cost maxPrompt maxNew)
      let agg' := { agg with tc := c2.2.1, tp := c2.2.2 }
      (if agg.aware then c2.1 else max c1.1 c2.1, svc', agg')

/-- A coloured request is refused (R74 step 3). -/
def meterRefuses (svc : Meter) (colour : Nat) : Bool := colour == 2 || (colour == 1 && svc.refuseYellow)

/-- A bucket after `n` refills of R76: rate r, size z, contents x, accumulator a. -/
def refillN (n r z x a : Nat) : Nat := min (x + (a + n * (r * 256)) / 20000) z

/-- An entry after `n` refills and nothing else. -/
def Meter.after (m : Meter) (n : Nat) : Meter :=
  { m with tc := refillN n (entryWord m.w 1) m.zc m.tc m.accC, tp := refillN n (entryWord m.w 2) m.zp m.tp m.accP }

/-- The request passes after `n` strokes of refill (R79). -/
def passesAfter (svc agg : Meter) (maxPrompt maxNew n : Nat) : Bool :=
  !meterRefuses svc (meterBoth (svc.after n) (agg.after n) maxPrompt maxNew).1

/-- Least `n` in (lo, lo + 2^k] that passes, by halving: `lo` does not pass and `lo + 2^k` does. -/
def leastPass (svc agg : Meter) (mp mn : Nat) : Nat → Nat → Nat
  | 0, lo => lo + 1
  | k + 1, lo =>
    if passesAfter svc agg mp mn (lo + 2 ^ k) then leastPass svc agg mp mn k lo
    else leastPass svc agg mp mn k (lo + 2 ^ k)

/-- aux0 of METER_RED (R79): fewest whole strokes, 0xFFFF_FFFF when none suffices. -/
def redWait (svc agg : Meter) (guard : Bool) (mp mn : Nat) : Nat :=
  if guard || !svc.enable || !passesAfter svc agg mp mn (2 ^ 48) then 0xFFFFFFFF
  else min (leastPass svc agg mp mn 48 0) 0xFFFFFFFF

/-- One bucket's exact refill of R76: contents and accumulator. -/
def refill1 (r z x a : Nat) : Nat × Nat :=
  let a' := a + r * 256
  let add := a' / 20000
  (min (x + add) z, a' - add * 20000)

/-- Refill of an enabled entry under the entry in force (R76). -/
def Meter.refill (m : Meter) : Meter :=
  if m.enable then
    let c := refill1 (entryWord m.w 1) m.zc m.tc m.accC
    let p := refill1 (entryWord m.w 2) m.zp m.tp m.accP
    { m with tc := c.1, accC := c.2, tp := p.1, accP := p.2 }
  else m

/-- The entry made of the staged words and the words in force (R82). -/
def mergeWords (w : List Word) (staged : Tbl Word) : List Word := w.mapIdx (fun i x => (Tbl.look staged i).getD x)

/-- A new entry breaks R82; `svc` says that it is a service meter. -/
def badMeter (svc : Bool) (w : List Word) : Bool :=
  decide (entryWord w 0 % 2 ^ 27 ≠ 0) || decide (entryWord w 7 / 65536 ≠ 0) ||
    (svc && bitAt (entryWord w 0) 29) ||
    (bitAt (entryWord w 0) 31 && (decide (entryWord w 3 = 0) || decide (entryWord w 4 = 0) ||
      (!bitAt (entryWord w 0) 30 && decide (entryWord w 2 < entryWord w 1))))

/-- Apply a staged change after the refill (R76, R82): answers the entry and whether it was refused. -/
def Meter.applyStaged (svc : Bool) (m : Meter) : Meter × Bool :=
  if m.staged.isEmpty then (m, false)
  else
    let w := mergeWords m.w m.staged
    if badMeter svc w then ({ m with staged := [] }, true)
    else
      let n : Meter := { m with w := w, staged := [] }
      if n.enable && !m.enable then ({ n with tc := n.zc, tp := n.zp, accC := 0, accP := 0 }, false)
      else ({ n with tc := min n.tc n.zc, tp := min n.tp n.zp }, false)

/-- Refill and apply one meter at a boundary. -/
def State.refillMeter (s : State) (k : Nat) : State :=
  let r := ((s.meter k).refill).applyStaged (decide (k < 0x10000))
  let s := s.setMeter k r.1
  let sub := if k < 0x10000 then k / 4 else k - 0x10000
  if r.2 then s.err (s.sliceWh sub) 11 2 else s

/-- The refill of every meter before any other step of R52 (R76). -/
def State.refillAll (s : State) : State := s.tmg.meters.keys.foldl State.refillMeter s

/-- Credit a bucket, capped at its size (R77). -/
def creditBucket (x n z : Nat) : Nat := min (x + n) z

/-- Credit an amount to the buckets a request debited at one meter. -/
def Meter.credit (m : Meter) (dc dp : Bool) (n : Nat) : Meter :=
  { m with tc := if dc then creditBucket m.tc n m.zc else m.tc
           tp := if dp then creditBucket m.tp n m.zp else m.tp }

/-- The fields of a request descriptor (R26) a meter uses. -/
def descSub (d : List Byte) : Nat := fld d 6 2
/-- Service of a descriptor. -/
def descService (d : List Byte) : Nat := fld d 8 1
/-- max_new_tokens of a descriptor. -/
def descMaxNew (d : List Byte) : Nat := fld d 0x28 4
/-- max_prompt_tokens of a descriptor. -/
def descMaxPrompt (d : List Byte) : Nat := fld d 0x2C 4
/-- output_ring of a descriptor. -/
def descOut (d : List Byte) : Nat := fld d 0x4C 4
/-- client_tag of a descriptor. -/
def descTag (d : List Byte) : Nat := fld d 0x10 8

/-- Refund to both meters of a slot: prompt tokens and generated tokens not used (R77); a weight of 0 stands for a meter
counting requests. -/
def State.refundBoth (s : State) (x : Slot) (prompt gen : Nat) : State :=
  let sub := descSub x.desc
  let v := descService x.desc
  let s := s.setMeter (svcKey sub v)
    ((s.meter (svcKey sub v)).credit x.dSvcC x.dSvcP (x.svcWP * prompt + x.svcWG * gen))
  s.setMeter (aggKey sub) ((s.meter (aggKey sub)).credit x.dAggC x.dAggP (x.aggWP * prompt + x.aggWG * gen))

/-! ### Shapers, calendar, egress -/

/-- A shaper entry. -/
def State.shaper (s : State) (q : Nat) : Shaper := Tbl.val {} s.tmg.shapers q

/-- Replace a shaper entry. -/
def State.setShaper (s : State) (q : Nat) (h : Shaper) : State :=
  { s with tmg := { s.tmg with shapers := Tbl.set {} s.tmg.shapers q h } }

/-- Shaping is on (R83). -/
def Shaper.enable (h : Shaper) : Bool := bitAt (entryWord h.w 0) 31
/-- Shaper rate. -/
def Shaper.rate (h : Shaper) : Nat := entryWord h.w 1
/-- Shaper burst. -/
def Shaper.burst (h : Shaper) : Nat := entryWord h.w 2
/-- egress_weight; 0 is taken as 1 (R83). -/
def Shaper.weight (h : Shaper) : Nat := max (entryWord h.w 3 % 65536) 1

/-- A shaper entry's rate or burst is outside R83 (R94): the burst of any entry, the rate of an enabled one. -/
def badShaper (w : List Word) : Bool :=
  decide (entryWord w 2 < 512) || decide (16777216 < entryWord w 2) ||
    (bitAt (entryWord w 0) 31 && decide (entryWord w 1 < 1000000))

/-- The words of a shaper entry with the reserved bits of R83 at 0: no rule refuses an entry for them (log entry 91). -/
def shaperWords (w : List Word) : List Word :=
  w.mapIdx (fun i x => if i = 0 then x &&& 0x80000000 else if i = 3 then x &&& 0xFFFF else x)

/-- Refill a shaper at time `now` and apply a staged change (R85): answers the entry and whether a change was refused. Each refill adds
whole bytes and drops the fraction of rate × elapsed time; a change that breaks R83 leaves the entry in force and discards every staged
word, as R82 has it for meters. The spec states neither (DESIGN CHOICE, log entry 91). -/
def Shaper.refill (h : Shaper) (now : Nat) : Shaper × Bool :=
  let b : Int := if h.enable then min (h.bucket + (h.rate * (now - h.lastUs) / 1000000 : Nat)) (h.burst : Int)
    else h.bucket
  let h1 : Shaper := { h with bucket := b, lastUs := now }
  if h.staged.isEmpty then (h1, false)
  else
    let w := shaperWords (mergeWords h.w h.staged)
    if badShaper w then ({ h1 with staged := [] }, true)
    else
      let n : Shaper := { h1 with w := w, staged := [] }
      if n.enable && !h.enable then ({ n with bucket := (n.burst : Int) }, false)
      else ({ n with bucket := min n.bucket (n.burst : Int) }, false)

/-- The slice's microsecond. -/
def State.calUs (s : State) (w : Nat) : Nat := Tbl.val 0 s.tmg.calUs w

/-- Refill one shaper of a slice, logging a refused change (R85, R94). -/
def State.refillShaper (s : State) (w q : Nat) : State :=
  let r := (s.shaper q).refill (s.calUs w)
  let s := s.setShaper q r.1
  if r.2 then s.err w 11 3 else s

/-- A staged egress_weight of one queue with records is taken into its entry at once (R87); its other words wait for a refill (R85). -/
def Shaper.takeWeight (h : Shaper) : Shaper :=
  match Tbl.look h.staged 3 with
  | none => h
  | some x => { h with w := h.w.set 3 (x &&& 0xFFFF), staged := Tbl.del h.staged 3 }

/-- The staged weights of a slice's queues that wait take effect: at each calendar pass and each arbitration (R87). -/
def State.takeWeights (s : State) (w : Nat) : State :=
  (s.tmg.queues.filter (fun e => decide (e.1 / 16 % 4 = w) && !e.2.isEmpty)).foldl
    (fun s e => s.setShaper e.1 (s.shaper e.1).takeWeight) s

/-- Enter a queue into the calendar at time `t` (R84). A time beyond the horizon of 16.78 s goes into the overflow slot 4,095 slots ahead,
the last one that lies ahead: R84 does not say which slot that is (DESIGN CHOICE, log entry 91). -/
def State.calEnter (s : State) (w q t : Nat) : State :=
  let now := s.calUs w
  let add (s : State) (slot : Nat) : State :=
    let k := w * 8192 + slot
    let c := Tbl.set [] s.tmg.cal k (Tbl.val [] s.tmg.cal k ++ [(q, t)])
    { s with tmg := { s.tmg with cal := c } }
  let s := s.setShaper q { s.shaper q with due := some t }
  if t < now + 4096 then add s (t % 4096)
  else if t / 4096 < now / 4096 + 4096 then add s (4096 + t / 4096 % 4096)
  else (add s (4096 + (now / 4096 + 4095) % 4096)).event w 11 [sqBit 0x118 1] []

/-- An entry falls due: re-entered when its time still lies ahead, else its shaper is refilled and the queue made
eligible (R84, R85). -/
def State.calDue (s : State) (w : Nat) (e : Nat × Nat) : State :=
  if s.calUs w < e.2 then s.calEnter w e.1 e.2
  else
    let s := s.refillShaper w e.1
    let h := s.shaper e.1
    if h.enable && decide (h.bucket < 0) then
      s.calEnter w e.1 (s.calUs w + ceilDiv ((-h.bucket).toNat * 1000000) h.rate)
    else s.setShaper e.1 { h with due := none }

/-- Empty a calendar slot, answering its entries. -/
def State.calTake (s : State) (w slot : Nat) : List (Nat × Nat) × State :=
  (Tbl.val [] s.tmg.cal (w * 8192 + slot),
    { s with tmg := { s.tmg with cal := Tbl.set [] s.tmg.cal (w * 8192 + slot) [] } })

/-- One calendar pass of a slice (R84): a due overflow slot is emptied into the calendar first. -/
def calendarPass (s : State) (w : Nat) : State :=
  let s := s.takeWeights w
  let now := s.calUs w + 1
  let passes := Tbl.val 0 s.tmg.passes w + 1
  let s := { s with
    tmg := { s.tmg with calUs := Tbl.set 0 s.tmg.calUs w now, passes := Tbl.set 0 s.tmg.passes w passes }
    time := { s.time with phaseUs := max s.time.phaseUs (min passes (s.time.strokeNs / 1000 - 1)) } }
  let s := if now % 4096 = 0 then
      let r := s.calTake w (4096 + now / 4096 % 4096)
      r.1.foldl (fun s e => s.calEnter w e.1 e.2) r.2
    else s
  let r := s.calTake w (now % 4096)
  r.1.foldl (fun s e => s.calDue w e) r.2

/-- The records waiting in an egress queue. -/
def State.queue (s : State) (q : Nat) : List ERec := Tbl.val [] s.tmg.queues q

/-- Replace an egress queue. -/
def State.setQueue (s : State) (q : Nat) (l : List ERec) : State :=
  { s with tmg := { s.tmg with queues := Tbl.set [] s.tmg.queues q l } }

/-- The queue number of R70. -/
def queueNum (sub v p : Nat) : Nat := 16 * sub + 4 * v + p

/-- Records composed and not yet written in a slice's egress buffer (R88). -/
def State.egressFill (s : State) (w : Nat) : Nat :=
  s.tmg.queues.foldl (fun n e => if e.1 / 16 % 4 = w then n + e.2.length else n) 0

/-- Records composed and not yet written for a ring (R88). -/
def State.ringQueued (s : State) (ring : Nat) : Nat :=
  s.tmg.queues.foldl (fun n e => n + (e.2.filter (fun r => r.ring = ring)).length) 0

/-- Mark a queue active since the latest sample (R91). -/
def State.noteActive (s : State) (q : Nat) : State := { s with tmg := { s.tmg with active := insNat q s.tmg.active } }

/-- The completion ring of a subscriber. -/
def State.compRing (s : State) (sub : Nat) : Option Nat := s.findRing 1 sub

/-- A request's records may go into a ring of its own: its ACCEPT is visible there, since the ring uses the port of the completion ring, or
the completion ring's index block has been read after the ACCEPT (R37, R380). -/
def State.acceptPast (s : State) (x : Slot) (rid : Nat) : Bool :=
  match s.compRing (descSub x.desc) with
  | none => true
  | some comp => match Tbl.look s.nor.rings comp, Tbl.look s.nor.rings rid with
    | some a, some b => decide (a.port = b.port) || x.fencedTo.contains rid
    | _, _ => true

/-- Records that the next burst of a queue may hold: leading records of one request whose ACCEPT is visible, at most 512 bytes, within the
ring's room (R37, R40, R86). -/
def State.burst (s : State) (q : Nat) : List ERec :=
  match s.queue q with
  | [] => []
  | r :: t =>
    let room := match Tbl.look s.nor.rings r.ring with
      | none => 0
      | some g => g.entries - (g.resv - g.cons)
    if s.acceptPast (s.slot r.slot) r.ring then (r :: (t.takeWhile (fun x => x.slot = r.slot))).take (min 32 room) else []

/-- The queues of a slice, port and service with a burst to give that are eligible, ascending. -/
def State.readyQueues (s : State) (w p v : Nat) : List Nat :=
  (s.tmg.queues.filter (fun e => decide (e.1 / 16 % 4 = w ∧ e.1 / 4 % 4 = v ∧ e.1 % 4 = p) &&
    (s.shaper e.1).due.isNone && !(s.burst e.1).isEmpty)).map Prod.fst

/-- A queue gains its quantum of 64 × egress_weight bytes as the round reaches it (R86). -/
def gainQuantum (weight : Nat → Nat) (def_ : Tbl Nat) (q : Nat) : Tbl Nat := Tbl.set 0 def_ q (Tbl.val 0 def_ q + 64 * weight q)

/-- Deficit round robin among queues visited in ascending order, the first of which has its quantum of this visit (R86): answers the
queue granted and the deficits. -/
def drrPick (weight need : Nat → Nat) : Nat → List Nat → Tbl Nat → Option (Nat × Tbl Nat)
  | 0, _, _ => none
  | _, [], _ => none
  | fuel + 1, q :: t, def_ =>
    if need q ≤ Tbl.val 0 def_ q then some (q, def_)
    else
      match t with
      | [] => drrPick weight need fuel [q] (gainQuantum weight def_ q)
      | n :: t' => drrPick weight need fuel (n :: t' ++ [q]) (gainQuantum weight def_ n)

/-- The round from where it stands: it goes on with the queue it is visiting, or comes to the next one, which gains its quantum. -/
def drrGo (weight need : Nat → Nat) (pos : Nat) (qs : List Nat) (def_ : Tbl Nat) : Option (Nat × Tbl Nat) :=
  match qs with
  | [] => none
  | q :: _ =>
    drrPick weight need (9 * qs.length + 1) qs (if pos = 2 * q + 1 then def_ else gainQuantum weight def_ q)

/-- Rotate an ascending list so that the first element at or above `x` leads. -/
def rotateFrom (x : Nat) (l : List Nat) : List Nat := l.filter (fun q => x ≤ q) ++ l.filter (fun q => q < x)

/-- Grant one burst to queue `q`: write its records and the producer index, debit deficit and shaper (R85, R86). -/
def State.grantQueue (s : State) (w q : Nat) : State :=
  let b := s.burst q
  let bytes := b.foldl (fun n r => n + r.bytes.length) 0
  let s := s.setQueue q ((s.queue q).drop b.length)
  let ring := (b.head?.map ERec.ring).getD 0
  let s := (b.foldl (fun s r => let p := s.reserve ring; match Tbl.look p.2.nor.rings ring with
      | none => s
      | some g => p.2.setRing ring { g with filled := Tbl.put g.filled p.1 r.bytes }) s).drainRing ring
  let def0 := Tbl.val 0 s.tmg.deficit q - bytes
  let def1 := if (s.queue q).isEmpty then 0 else def0
  let s := { s with tmg := { s.tmg with deficit := Tbl.set 0 s.tmg.deficit q def1 } }
  let s := s.refillShaper w q
  let h := s.shaper q
  if h.enable then
    let b' := h.bucket - (bytes : Int)
    let s := s.setShaper q { h with bucket := b' }
    if b' < 0 then s.calEnter w q (s.calUs w + ceilDiv ((-b').toNat * 1000000) h.rate) else s
  else s

/-- Bytes of the next burst of a queue. -/
def State.burstBytes (s : State) (q : Nat) : Nat := (s.burst q).foldl (fun n r => n + r.bytes.length) 0

/-- The service an arbiter serves next: sprint, front, search, bulk (R86). -/
def State.egressService (s : State) (w p : Nat) : Option Nat := [0, 2, 3, 1].find? (fun v => !(s.readyQueues w p v).isEmpty)

/-- The queue a service's round grants next, with the deficits after its visits (R86). -/
def State.egressPick (s : State) (w p v : Nat) : Option (Nat × Tbl Nat) :=
  let pos := Tbl.val 0 s.tmg.rrPos ((w * 4 + p) * 4 + v)
  drrGo (fun q => (s.shaper q).weight) s.burstBytes pos (rotateFrom (pos / 2) (s.readyQueues w p v)) s.tmg.deficit

/-- Where the round of an arbiter stands after a grant: still at the queue while it can go on, else past it. -/
def State.roundAt (s : State) (rk q : Nat) : State :=
  let on := !(s.queue q).isEmpty && (s.shaper q).due.isNone
  { s with tmg := { s.tmg with rrPos := Tbl.set 0 s.tmg.rrPos rk (if on then 2 * q + 1 else 2 * (q + 1)) } }

/-- One egress grant at a port of a slice: strict priority sprint, front, search, bulk (R86). -/
def egressGrant (s : State) (w p : Nat) : State :=
  let s := s.takeWeights w
  match s.egressService w p with
  | none => s
  | some v => match s.egressPick w p v with
    | none => s
    | some (q, d) => (({ s with tmg := { s.tmg with deficit := d } } : State).grantQueue w q).roundAt ((w * 4 + p) * 4 + v) q

/-! ### Telemetry -/

/-- A request of the slot table waits for its queue: admitted and not yet at its first step (R91). -/
def Slot.waits (x : Slot) : Bool :=
  match x.state with
  | .admitted | .front | .prefill | .parked => true
  | .decode => x.history.isEmpty
  | _ => false

/-- The host port a slot's output leaves by (R70). -/
def State.slotPort (s : State) (x : Slot) : Nat :=
  match Tbl.look s.nor.rings (descOut x.desc % 0x20000) with
  | some r => r.port
  | none => 0

/-- The queue of a slot's records (R70). -/
def State.slotQueue (s : State) (x : Slot) : Nat := queueNum (descSub x.desc) (descService x.desc) (s.slotPort x)

/-- The head delay of a queue at the present boundary (R91). -/
def State.headDelayNow (s : State) (q : Nat) : Nat :=
  let recs := (s.queue q).map (fun r => s.strokeN - r.stroke)
  let waits := (s.req.slots.filter (fun e => e.2.waits && decide (s.slotQueue e.2 = q))).map (fun e => s.strokeN + e.2.spent - e.2.admitStroke)
  (recs ++ waits).foldl max 0

/-- Every queue that holds records, waits, or was active, of a slice. -/
def State.sampleQueues (s : State) (w : Nat) : List Nat :=
  let a := s.tmg.active ++ s.tmg.queues.keys ++ s.tmg.headDelay.keys ++
    (s.req.slots.filter (fun e => e.2.waits)).map (fun e => s.slotQueue e.2)
  (a.filter (fun q => q / 16 % 4 = w)).foldl (fun l q => insNat q l) []

/-- The telemetry record of a queue (R91). -/
def State.telemRec (s : State) (q : Nat) : List Byte :=
  let sub := q / 16
  let v := q / 4 % 4
  let m := s.meter (svcKey sub v)
  let col := if m.enable && !s.guardRed sub v then (meterColour m.mode false 0 m.tc m.tp 256).1 else 2
  withCrc (leBytes 1 0x20 ++ leBytes 1 v ++ leBytes 2 sub ++ leBytes 8 s.strokeN ++ leBytes 4 (s.queue q).length ++
    leBytes 4 (Tbl.val 0 s.tmg.headDelay q) ++ leBytes 4 (Tbl.val 0 s.tmg.refusedSince (svcKey sub v)) ++
    leBytes 1 (q % 4) ++ leBytes 1 col ++ leBytes 2 0)

/-- Write or drop one telemetry record (R91). -/
def State.telemPost (s : State) (w q : Nat) : State :=
  let ring := (s.reg w 11 0x100).toNat
  if ring = 0 then s
  else
    let drop := (s.bump w 11 0x110 1).event w 11 [sqBit 0x118 2] []
    match Tbl.look s.nor.rings ring with
    | none => drop
    | some r =>
      if r.kind = 7 ∧ r.bind = w ∧ r.hasRoom then s.postRing ring (fun _ => s.telemRec q) else drop

/-- The sample of a slice (R91): taken at a boundary whose stroke is a multiple of 1,024. -/
def telemetrySample (s : State) (w : Nat) : State :=
  if s.strokeN % 1024 ≠ 0 then s
  else
    let qs := s.sampleQueues w
    let hd := qs.foldl (fun t q => Tbl.set 0 t q (s.headDelayNow q)) s.tmg.headDelay
    let s := { s with tmg := { s.tmg with headDelay := hd } }
    let act := s.tmg.active.filter (fun q => q / 16 % 4 = w)
    let s := act.foldl (fun s q => s.telemPost w q) s
    let keep := (s.tmg.active.filter (fun q => q / 16 % 4 ≠ w)) ++ (act.filter (fun q => !(s.queue q).isEmpty))
    let ref := s.tmg.refusedSince.filter (fun e => e.1 / 4 % 4 ≠ w)
    { s with tmg := { s.tmg with active := keep.foldl (fun l q => insNat q l) [], refusedSince := ref } }

/-! ### Meanings -/

/-- EGRESS_GRANT (R86). -/
def execEgressGrant (slice port : Nat) (s : State) : Host.Outcome State Fault Refusal :=
  .next (egressGrant s (slice % 4) (port % 4))

/-- CALENDAR_PASS (R84). -/
def execCalendarPass (slice : Nat) (s : State) : Host.Outcome State Fault Refusal := .next (calendarPass s (slice % 4))

/-- TELEMETRY_SAMPLE (R91). -/
def execTelemetrySample (slice : Nat) (s : State) : Host.Outcome State Fault Refusal :=
  .next (telemetrySample s (slice % 4))

end Sys2Proof.Machine
end

