-- ==== Sys2Proof/Machine/Operands.lean ====
section
/-! DEFINITION. The operand forms: fields of the request descriptor (R26), plan header (R328), KV descriptor (R180),
recipe header (R271), grammar header (R216) and generation header (R292), and the lookups over them. -/

namespace Sys2Proof.Machine

/-! ### Request descriptor (R26) -/

/-- version. -/
def descVersion (d : List Byte) : Nat := fld d 4 1
/-- input_kind. -/
def descKind (d : List Byte) : Nat := fld d 5 1
/-- flags. -/
def descFlags (d : List Byte) : Nat := fld d 9 1
/-- bytes_out. -/
def descBytesOut (d : List Byte) : Bool := bitAt (descFlags d) 0
/-- citation_map. -/
def descMap (d : List Byte) : Bool := bitAt (descFlags d) 1
/-- inline_input. -/
def descInline (d : List Byte) : Bool := bitAt (descFlags d) 2
/-- job. -/
def descJob (d : List Byte) : Nat := fld d 0xA 2
/-- op. -/
def descOp (d : List Byte) : Nat := fld d 0xC 1
/-- seed. -/
def descSeed (d : List Byte) : Nat := fld d 0x18 8
/-- recipe. -/
def descRecipe (d : List Byte) : Nat := fld d 0x20 4
/-- grammar. -/
def descGrammar (d : List Byte) : Nat := fld d 0x24 4
/-- deadline_strokes. -/
def descDeadline (d : List Byte) : Nat := fld d 0x30 4
/-- temperature bits. -/
def descTemp (d : List Byte) : Nat := fld d 0x34 4
/-- top_p bits. -/
def descTopP (d : List Byte) : Nat := fld d 0x38 4
/-- top_k. -/
def descTopK (d : List Byte) : Nat := fld d 0x3C 2
/-- spec_depth. -/
def descSpec (d : List Byte) : Nat := fld d 0x3E 1
/-- stop_count. -/
def descStops (d : List Byte) : Nat := fld d 0x3F 1
/-- input_addr. -/
def descInAddr (d : List Byte) : Nat := fld d 0x40 8
/-- input_len. -/
def descInLen (d : List Byte) : Nat := fld d 0x48 4
/-- citation_ring. -/
def descCit (d : List Byte) : Nat := fld d 0x50 4
/-- The stop tokens that count. -/
def descStopTokens (d : List Byte) : List Nat := (List.range (min (descStops d) 8)).map (fun i => fld d (0x58 + 4 * i) 4)

/-- An FP32 word is finite and at least zero (negative zero counts as zero). -/
def f32NonNeg (w : Nat) : Bool := decide (w % 0x80000000 < 0x7F800000) && (decide (w < 0x80000000) || decide (w = 0x80000000))

/-- An FP32 word is greater than zero and at most one. -/
def f32UnitPos (w : Nat) : Bool := decide (0 < w) && decide (w ≤ 0x3F800000)

/-- An FP32 word is finite. -/
def f32Finite (w : Nat) : Bool := decide (w % 0x80000000 < 0x7F800000)

/-! ### Plan header (R328) and KV descriptor (R180) -/

/-- kind: 0 model-service, 1 index-service. -/
def planKind (h : List Byte) : Nat := fld h 5 1
/-- services. -/
def planServices (h : List Byte) : Nat := fld h 6 1
/-- k. -/
def planK (h : List Byte) : Nat := fld h 7 1
/-- certified_ns. -/
def planCert (h : List Byte) : Nat := fld h 8 4
/-- ranks. -/
def planRanks (h : List Byte) : Nat := fld h 0x20 1
/-- tokenizer. -/
def planTok (h : List Byte) : Nat := fld h 0x21 1
/-- hbm_budget. -/
def planHbm (h : List Byte) : Nat := fld h 0x24 4
/-- lpddr_budget. -/
def planLpddr (h : List Byte) : Nat := fld h 0x28 4
/-- The four thresholds in the order of R343's word. -/
def planThr (h : List Byte) : Nat := fld h 0x2C 1 * 0x1000000 + fld h 0x2D 1 * 0x10000 + fld h 0x2E 1 * 256 + fld h 0x2F 1
/-- vocab. -/
def planVocab (h : List Byte) : Nat := fld h 0x30 4
/-- The plan serves service v. -/
def planServes (h : List Byte) (v : Nat) : Bool := bitAt (planServices h) v

/-- share of a KV descriptor. -/
def kvShare (k : List Byte) : Bool := bitAt (fld k 5 1) 3
/-- kv_pin. -/
def kvPin (k : List Byte) : Bool := bitAt (fld k 5 1) 4
/-- attn DENSE. -/
def kvDense (k : List Byte) : Bool := bitAt (fld k 5 1) 0
/-- kv_fmt is BF16 (code 8). -/
def kvBf16 (k : List Byte) : Bool := fld k 6 1 == 8
/-- The window in force, in pages. -/
def kvWindow (k : List Byte) : Nat := if fld k 7 1 = 0 then 8 else fld k 7 1
/-- layers. -/
def kvLayers (k : List Byte) : Nat := fld k 8 2
/-- groups. -/
def kvGroups (k : List Byte) : Nat := fld k 0xA 1
/-- heads_per_group of a KV descriptor. -/
def kvHeads (k : List Byte) : Nat := fld k 0xB 1
/-- theta. -/
def kvTheta (k : List Byte) : Nat := fld k 0x14 4
/-- sm_scale. -/
def kvScale (k : List Byte) : Nat := fld k 0x18 4
/-- head_dim. -/
def kvDim (k : List Byte) : Nat := fld k 0xC 2
/-- k_base. -/
def kvKBase (k : List Byte) : Nat := fld k 0xE 1
/-- k_cap. -/
def kvKCap (k : List Byte) : Nat := fld k 0x10 2
/-- ctx_pages. -/
def kvCtx (k : List Byte) : Nat := fld k 0x12 2
/-- pool_pages. -/
def kvPool (k : List Byte) : Nat := fld k 0x1C 4
/-- data_base. -/
def kvData (k : List Byte) : Nat := fld k 0x20 8
/-- summ_base. -/
def kvSumm (k : List Byte) : Nat := fld k 0x28 8
/-- rec_base. -/
def kvRec (k : List Byte) : Nat := fld k 0x30 8
/-- block_bytes of R182. -/
def kvBlock (k : List Byte) : Nat := (if kvBf16 k then 256 else 132) * kvDim k
/-- page_stride of R182. -/
def kvPageStride (k : List Byte) : Nat := ceilDiv (kvLayers k * kvGroups k * kvBlock k) 65536 * 65536
/-- summ_stride of R182. -/
def kvSummStride (k : List Byte) : Nat := ceilDiv (kvLayers k * kvGroups k * 2 * kvDim k) 128 * 128

/-- The staged plan of a job. -/
def State.plan (s : State) (j : Nat) : Option Plan := Tbl.look s.cis.plans j

/-- The plan of a loaded job. -/
def State.job (s : State) (j : Nat) : Option Plan := (s.plan j).bind (fun p => if p.loaded.isSome then some p else none)

/-- The context limit of a plan in tokens (R180); a plan with no KV descriptor has none. -/
def Plan.ctxLimit (p : Plan) : Option Nat := if p.kvd.isEmpty then none else some (64 * kvCtx p.kvd)

/-- A plan is a sprint job. -/
def Plan.sprint (p : Plan) : Bool := planServes p.hdr 0

/-! ### Generations (R290, R292) -/

/-- A generation slot. -/
def State.gen (s : State) (g : Nat) : GenSlot := Tbl.val {} s.idx.gens g

/-- gen of a generation header. -/
def genNum (h : List Byte) : Nat := fld h 8 2
/-- index_job of a generation header. -/
def genJob (h : List Byte) : Nat := fld h 0xA 2
/-- dim of a generation header. -/
def genDim (h : List Byte) : Nat := fld h 0xC 2

/-- The slot that is ACTIVE with extents loaded for an index job (R314). -/
def State.activeGen (s : State) (j : Nat) : Option Nat :=
  (List.range 4).find? (fun g => decide ((s.gen g).state = .active) && (s.gen g).extents && genJob (s.gen g).hdr == j)

/-! ### Catalogue images -/

/-- A registered, open grammar. -/
def State.grammar (s : State) (id : Nat) : Option CatImg :=
  (Tbl.look s.cat.grm id).bind (fun g => if g.closed then none else some g)

/-- A registered, open recipe. -/
def State.recipe (s : State) (id : Nat) : Option CatImg :=
  (Tbl.look s.cat.rcp id).bind (fun g => if g.closed then none else some g)

/-! ### Cores and slots -/

/-- The Pumphouse core is live: neither failed nor halted (R499, R526). -/
def State.coreLive (s : State) (c : Nat) : Bool :=
  !s.flt.failedCores.contains c && !s.dbg.halted.contains c && !s.flt.failedWh.contains (c / 4)

/-- The core that carries core `c`'s work (R499): the next core of its Wellhead that has not failed. -/
def State.coreOf (s : State) (c : Nat) : Nat :=
  (([0, 1, 2, 3].map (fun i => c / 4 * 4 + (c + i) % 4)).find? (fun d => !s.flt.failedCores.contains d)).getD c

/-- The Wellhead that owns a slot (R18). -/
def slotWh (n : Nat) : Nat := n / 8192 % 4

/-- FREE slots among `lo .. lo + n - 1`, the lowest (R29). -/
def State.freeSlotIn (s : State) (lo n : Nat) : Option Nat :=
  (List.range n).find? (fun i => decide ((s.slot (lo + i)).state = .free)) |>.map (fun i => lo + i)

/-- The slot a core takes (R29): its own share first, then the other cores of its Wellhead in ascending order. -/
def State.pickSlot (s : State) (core : Nat) : Option Nat :=
  (core :: ([0, 1, 2, 3].map (fun i => core / 4 * 4 + i)).filter (fun c => c ≠ core)).findSome?
    (fun c => s.freeSlotIn (2048 * c) 2048)

/-- Slots of a Wellhead that are not FREE. -/
def State.busySlots (s : State) (w : Nat) : Nat :=
  (s.req.slots.filter (fun e => decide (slotWh e.1 = w) && decide (e.2.state ≠ .free))).length

/-- FREE slots of a Wellhead. -/
def State.freeSlots (s : State) (w : Nat) : Nat := 8192 - s.busySlots w

/-- A slot carries a live request: its DONE has not been posted, and it was not refused. -/
def Slot.live (x : Slot) : Bool := decide (x.state ≠ .free) && decide (x.state ≠ .done)

/-- The slots of a request's job. -/
def State.slotsOf (s : State) (j : Nat) : List Nat :=
  (s.req.slots.filter (fun e => e.2.live && descJob e.2.desc == j)).map Prod.fst

/-- A paddock. -/
def State.paddock (s : State) (p : Nat) : Paddock := Tbl.val {} s.pad.pads p

/-- Replace a paddock. -/
def State.setPaddock (s : State) (p : Nat) (x : Paddock) : State :=
  { s with pad := { s.pad with pads := Tbl.set {} s.pad.pads p x } }

/-- A Tiller. -/
def State.tiller (s : State) (t : Nat) : Tiller := Tbl.val {} s.til.tillers t

/-- Replace a Tiller. -/
def State.setTiller (s : State) (t : Nat) (x : Tiller) : State :=
  { s with til := { s.til with tillers := Tbl.set {} s.til.tillers t x } }

/-- The SQ bits of MOD page 2 for paddock `p` (R68). -/
def padBit (p b : Nat) : Nat := sqBit (0x114 + 0x20 * p) b

end Sys2Proof.Machine
end

