-- ==== Sys2Proof/Machine/Tiers.lean ====
section
/-! DEFINITION. Job address space: page entries, where a page's bytes lie, reads and writes of it (R325 to R332, R339 to R341). -/

namespace Sys2Proof.Machine

/-- Bytes of a tier page. -/
def tierPage : Nat := 65536

/-- The word of a page entry (R331). -/
def Pte.word (e : Pte) : Nat :=
  let loc := match e.tier with
    | 3 => e.loc % 2 ^ 31
    | 2 => e.loc % 2 ^ 26
    | _ => e.tiller % 128 * 2 ^ 24 + e.loc % 2 ^ 24
  b2n e.valid * 2 ^ 63 + e.tier % 8 * 2 ^ 60 + b2n e.moving * 2 ^ 59 + b2n (e.pinned || e.hold) * 2 ^ 58 + b2n e.lost * 2 ^ 57 +
    e.backing % 4 * 2 ^ 55 + e.heat % 256 * 2 ^ 47 + e.dirty % 65536 * 2 ^ 31 + loc

/-- The key of a page entry. -/
def pteKey (job vpn : Nat) : Nat := job * 4294967296 + vpn

/-- The region of a plan that holds a page, with the page's index in the plan's backing. -/
def findRegion : List Region → Nat → Nat → Option (Region × Nat)
  | [], _, _ => none
  | r :: t, vpn, base =>
    if r.va / tierPage ≤ vpn ∧ vpn < r.va / tierPage + r.pages then some (r, base + (vpn - r.va / tierPage))
    else findRegion t vpn (base + r.pages)

/-- A region has a source (R329). -/
def Region.hasSource (r : Region) : Bool := bitAt r.flags 1 || decide (r.srcId ≠ 0)

/-- The entry a staged page starts with (R329, R331). -/
def Region.initPte (r : Region) (idx : Nat) : Pte :=
  { valid := r.backing == 0 || (r.backing == 1 && r.hasSource), tier := 3, backing := r.backing, loc := idx }

/-- The page entry of a job's page; none outside every region. -/
def State.pte (s : State) (job vpn : Nat) : Option Pte :=
  match s.plan job with
  | none => none
  | some p =>
    match findRegion p.regions vpn 0 with
    | none => none
    | some (r, idx) => some ((Tbl.look s.cis.ptes (pteKey job vpn)).getD (r.initPte idx))

/-- Replace a page entry. -/
def State.setPte (s : State) (job vpn : Nat) (e : Pte) : State :=
  { s with cis := { s.cis with ptes := Tbl.put s.cis.ptes (pteKey job vpn) e } }

/-- Change every explicit page entry. -/
def State.mapPtes (s : State) (f : Nat → Pte → Pte) : State :=
  { s with cis := { s.cis with ptes := s.cis.ptes.map (fun e => (e.1, f e.1 e.2)) } }

/-- The pages of a job: every page of every region. -/
def Plan.vpns (p : Plan) : List Nat :=
  p.regions.flatMap (fun r => (List.range r.pages).map (fun i => r.va / tierPage + i))

/-- The pages of a job that have an explicit entry. -/
def State.livePtes (s : State) (job : Nat) : List (Nat × Pte) :=
  (s.cis.ptes.filter (fun e => e.1 / 4294967296 = job)).map (fun e => (e.1 % 4294967296, e.2))

/-- Where a backing copy lies: memory space and address; an inline source lies in the plan image. -/
def State.backingAt (s : State) (job vpn : Nat) : Option (Space × Nat) :=
  match s.plan job with
  | none => none
  | some p =>
    match findRegion p.regions vpn 0 with
    | none => none
    | some (r, idx) =>
      match r.backing with
      | 0 => if bitAt r.flags 1 then none
             else some (.image r.srcId, r.srcOff + tierPage * (vpn - r.va / tierPage))
      | 1 => some (.store job, tierPage * idx)
      | _ => some (.spill job, tierPage * idx)

/-- A page's tier-page index in its backing (R331). -/
def State.backIdx (s : State) (job vpn : Nat) : Nat :=
  match s.plan job with
  | none => 0
  | some p => ((findRegion p.regions vpn 0).map Prod.snd).getD 0

/-- Bytes of an inline source at a page offset (R329). -/
def State.inlineBytes (s : State) (job vpn off n : Nat) : List Byte :=
  match s.plan job with
  | none => []
  | some p =>
    match findRegion p.regions vpn 0 with
    | none => []
    | some (r, _) => padTo n ((p.image.drop (r.srcOff + tierPage * (vpn - r.va / tierPage) + off)).take n)

/-- The location of a page that lies in a memory (SRAM, HBM, LPDDR). -/
def Pte.memAt (e : Pte) : Option (Space × Nat) :=
  match e.tier with
  | 0 => some (.sram e.tiller, tierPage * e.loc)
  | 1 => some (.hbm e.tiller, tierPage * e.loc)
  | 2 => some (.lpddr, tierPage * e.loc)
  | _ => none

/-- Where a page's bytes lie now; none for pages that read as zeros or inline. -/
def State.pageAt (s : State) (job vpn : Nat) (e : Pte) : Option (Space × Nat) :=
  if e.lost || !e.valid then none
  else match e.memAt with
    | some a => some a
    | none => s.backingAt job vpn

/-- Bytes of one page from an offset, within the page (R331, R341: zeros where the page is invalid or lost). -/
def State.pageBytes (s : State) (job vpn off n : Nat) : List Byte :=
  match s.pte job vpn with
  | none => List.replicate n 0
  | some e =>
    if e.lost || !e.valid then List.replicate n 0
    else match s.pageAt job vpn e with
      | some (sp, a) => s.load sp (a + off) n
      | none => s.inlineBytes job vpn off n

/-- The pieces of a range of a job's address space: page, offset, length. -/
def vaPieces : Nat → Nat → Nat → List (Nat × Nat × Nat)
  | 0, _, _ => []
  | fuel + 1, va, n =>
    if n = 0 then []
    else
      let off := va % tierPage
      let k := min n (tierPage - off)
      (va / tierPage, off, k) :: vaPieces fuel (va + k) (n - k)

/-- Bytes of a job's address space. -/
def State.vaRead (s : State) (job va n : Nat) : List Byte :=
  (vaPieces (n / tierPage + 2) va n).flatMap (fun p => s.pageBytes job p.1 p.2.1 p.2.2)

/-- One requester's access to a page in a stroke: mark for heat, log an access outside every region, count a lost read
and a translation miss, whose cache contents the spec leaves open (R331, R332, R341). `die` carries the walker. -/
def State.touch (s : State) (die job vpn : Nat) (write : Bool) : State :=
  let miss := Config.freeBool s.freeCount
  let s := ({ s with freeCount := s.freeCount + 1 }).bump die 29 0x114 (b2n miss)
  match s.pte job vpn with
  | none => s.event die 29 [sqBit 0x118 0] [3]
  | some e =>
    let s := if e.lost && !write then s.bump die 29 0x110 1 else s
    let s := if e.valid && decide (e.tier = 3) && !write then s.bumpWide (s.whOf (job % 4)) 29 2 0 1 else s
    s.setPte job vpn { e with acc := true }

/-- Mark every page of a range. -/
def State.touchRange (s : State) (die job va n : Nat) (write : Bool) : State :=
  (vaPieces (n / tierPage + 2) va n).foldl (fun s p => s.touch die job p.1 write) s

/-- Tier pages of a range. -/
def rangeVpns (va n : Nat) : List Nat := (vaPieces (n / tierPage + 2) va n).map Prod.fst

/-- A STORE or SCRATCH page whose read from flash fails is lost (R341, R356). -/
def State.losePages (s : State) (job : Nat) (vpns : List Nat) : State :=
  vpns.foldl (fun s v => match s.pte job v with
    | none => s
    | some e => if e.backing ≠ 0 ∧ e.tier = 3 ∧ e.valid = true then s.setPte job v { e with lost := true, dirty := 0 } else s) s

/-- LPDDR frames of the frame pool (R326). -/
def State.poolFrames (s : State) : Nat := (3840 - s.cis.hostGib) * 16384

/-- Take a free LPDDR frame, zeroed. -/
def State.allocLp (s : State) : Nat × State :=
  let r := s.pickFree s.cis.lpUsed s.poolFrames
  let f := r.1
  let s := r.2
  (f, { s with cis := { s.cis with lpUsed := insNat f s.cis.lpUsed }
               mem := Memory.clear s.mem (Space.key .lpddr (tierPage * f)) tierPage })

/-- Take a free HBM frame of a Tiller's stack that is not retired, zeroed. -/
def State.allocHbm (s : State) (t : Nat) : Nat × State :=
  let used := ((s.cis.hbmUsed ++ s.cis.hbmRetired).filter (fun k => k / 16777216 = t)).foldl (fun l k => insNat (k % 16777216) l) []
  let r := s.pickFree used 393216
  let f := r.1
  let s := r.2
  (f, { s with cis := { s.cis with hbmUsed := insNat (t * 16777216 + f) s.cis.hbmUsed }
               mem := Memory.clear s.mem (Space.key (.hbm t) (tierPage * f)) tierPage })

/-- Free the frame a page holds. -/
def State.freeFrame (s : State) (e : Pte) : State :=
  match e.tier with
  | 1 => { s with cis := { s.cis with hbmUsed := s.cis.hbmUsed.filter (fun k => k ≠ e.tiller * 16777216 + e.loc) } }
  | 2 => { s with cis := { s.cis with lpUsed := s.cis.lpUsed.filter (fun k => k ≠ e.loc) } }
  | _ => s

/-- The 4 KiB sectors of a page that a write touches. -/
def sectorMask (off n : Nat) : Nat :=
  (List.range 16).foldl (fun m i => if i * 4096 < off + n ∧ off < (i + 1) * 4096 then m ||| 2 ^ i else m) 0

/-- Give a page that is to be written a place in memory (R331, R340, R341; DESIGN CHOICE, log entry 99: nothing is written to flash until a
page leaves LPDDR): a page with no location, and a lost one, takes an LPDDR frame of zeros, whose sectors differ from the backing copy of
the lost page; a page on flash takes an LPDDR frame that holds its bytes. -/
def State.forWrite (s : State) (job vpn : Nat) (e : Pte) : Pte × State :=
  if e.valid && !e.lost && decide (e.tier ≠ 3) then (e, s)
  else
    let bs := s.pageAt job vpn e
    let a := s.allocLp
    let f : Pte := { e with valid := true, lost := false, tier := 2, loc := a.1, tiller := 0, moving := false }
    let dst := Space.key .lpddr (tierPage * a.1)
    if e.lost then ({ f with dirty := 0xFFFF }, a.2)
    else if !e.valid then
      ({ f with dirty := 0 }, match s.backingAt job vpn with
        | some (sp, b) => { a.2 with mem := Memory.clear a.2.mem (sp.key b) tierPage }
        | none => a.2)
    else ({ f with dirty := 0 }, match bs with
      | some (sp, b) => { a.2 with mem := Memory.copy a.2.mem (sp.key b) dst tierPage }
      | none => a.2.store .lpddr (tierPage * a.1) (s.inlineBytes job vpn 0 tierPage))

/-- Write bytes into one page of a job (R331, R339, R340, R341): dropped outside every region and on an IMAGE page. -/
def State.pageWrite (s : State) (die job vpn off : Nat) (bs : List Byte) : State :=
  let s := s.touch die job vpn true
  match s.pte job vpn with
  | none => s
  | some e =>
    if e.backing = 0 then s
    else
      let r := s.forWrite job vpn e
      let e := { r.1 with dirty := r.1.dirty ||| sectorMask off bs.length }
      let s := r.2.setPte job vpn e
      match s.pageAt job vpn e with
      | some (sp, a) => s.store sp (a + off) bs
      | none => s

/-- Write bytes into a job's address space. -/
def State.vaWrite (s : State) (die job va : Nat) (bs : List Byte) : State :=
  ((vaPieces (bs.length / tierPage + 2) va bs.length).foldl
    (fun (a : State × List Byte) p => (a.1.pageWrite die job p.1 p.2.1 (a.2.take p.2.2), a.2.drop p.2.2)) (s, bs)).1

end Sys2Proof.Machine
end

