-- ==== Sys2Proof/Machine/KvPages.lean ====
section
/-! DEFINITION. KV page pools and share tables: allocation, references, prefix hashes (R184, R185, R196, R198, R199). -/

namespace Sys2Proof.Machine

/-- The key of a KV page of a job's pool. -/
def kvKey (job id : Nat) : Nat := job * 16777216 + id

/-- The record of a KV page. -/
def State.kvPage (s : State) (job id : Nat) : KvPage := Tbl.val {} s.kv.pages (kvKey job id)

/-- Replace the record of a KV page. -/
def State.setKvPage (s : State) (job id : Nat) (p : KvPage) : State :=
  { s with kv := { s.kv with pages := Tbl.put s.kv.pages (kvKey job id) p } }

/-- Page ids of a job in use, ascending. -/
def State.kvUsed (s : State) (job : Nat) : List Nat :=
  (s.kv.pages.filter (fun e => e.1 / 16777216 = job)).map (fun e => e.1 % 16777216)

/-- The KV descriptor of a job's plan; empty where it has none. -/
def State.kvd (s : State) (job : Nat) : List Byte := match s.plan job with | none => [] | some p => p.kvd

/-- Page ids of a job's pool that cuts have set aside for requests of a batch (R199). -/
def State.kvGranted (s : State) (job : Nat) : Nat :=
  s.req.slots.foldl (fun n e => if descJob e.2.desc = job then n + e.2.kvGrant else n) 0

/-- Free page ids of a job's pool that are not set aside. -/
def State.kvFree (s : State) (job : Nat) : Nat := kvPool (s.kvd job) - (s.kvUsed job).length - s.kvGranted job

/-- The share table of a job: the page ids it lists (R197). -/
def State.shareTable (s : State) (job : Nat) : List Nat := Tbl.val [] s.kv.share job

/-- Replace a share table. -/
def State.setShare (s : State) (job : Nat) (l : List Nat) : State :=
  { s with kv := { s.kv with share := Tbl.set [] s.kv.share job l } }

/-- Take a page out of its share table (R198). -/
def State.kvUnlist (s : State) (job id : Nat) : State :=
  (s.setKvPage job id { s.kvPage job id with listed := false }).setShare job ((s.shareTable job).filter (fun i => i ≠ id))

/-- Write the record of a page into its region (R184): header and the token ids of the rows written. -/
def State.kvSync (s : State) (job id : Nat) : State :=
  let p := s.kvPage job id
  let a := kvRec (s.kvd job) + 512 * id
  let s := s.vaWrite (s.whOf (job % 4)) job a
    (leBytes 8 p.hash ++ leBytes 4 p.refs ++ leBytes 1 p.fill ++
      leBytes 1 (2 * b2n p.listed + b2n p.promptOnly) ++ List.replicate 242 0)
  s.vaWrite (s.whOf (job % 4)) job (a + 0x100) (p.tokens.flatMap (leBytes 4))

/-- A request lets go of a page: its refs decrease, and at 0 the page is freed at once (R198); its record follows (R184). -/
def State.kvDrop (s : State) (job id : Nat) : State :=
  let p := s.kvPage job id
  if p.refs ≤ 1 then
    let s := s.kvUnlist job id
    { s with kv := { s.kv with pages := Tbl.del s.kv.pages (kvKey job id) } }
  else (s.setKvPage job id { p with refs := p.refs - 1 }).kvSync job id

/-- A request lets go of every page it holds and of its spilled pages (R42, R198). -/
def State.kvRelease (s : State) (n : Nat) : State :=
  let x := s.slot n
  let s := x.kv.foldl (fun s e => s.kvDrop (descJob x.desc) e.page) s
  let s := if x.spilled.isEmpty then s else s.discard 5 (fun lp => decide (lp / 1099511627776 = 1048576 + n))
  s.setSlot n { x with kv := [], spilled := [], kvGrant := 0, pageWait := false }

/-- The prefix hash of a page (R196). -/
def kvHash (prev job : Nat) (tokens : List Nat) : Nat :=
  crc64xz (leBytes 8 prev ++ leBytes 2 job ++ leBytes 1 tokens.length ++ tokens.flatMap (leBytes 4))

/-- The token ids of every position of a request: prompt, then history. -/
def Slot.tokens (x : Slot) : List Nat := x.promptTokens ++ x.history.map Hist.token

/-- Rows that a request's pages hold. -/
def Slot.rows (x : Slot) : Nat := x.kv.foldl (fun n e => n + e.fill) 0

/-- The paddock group of MOD page 3 that counts a job's KV events. -/
def State.kvPad (s : State) (job : Nat) : Nat := match s.plan job with | none => 0 | some p => p.loaded.getD 0

/-- Count a KV event of a paddock: register at `off`, SQ bit where there is one (R203). -/
def State.kvNote (s : State) (job off n : Nat) (bit : Option Nat) : State :=
  let p := s.kvPad job
  let s := s.bump 120 3 (off + 0x20 * p) n
  match bit with
  | none => s
  | some b => s.event 120 3 [sqBit (0x118 + 0x20 * p) b] []

/-- Count a KV value read through the mailbox (R204). -/
def State.kvCount (s : State) (job kind n : Nat) : State := s.bumpWide 120 3 kind (s.kvPad job) n

/-- A page entry of a request's page table as its 64-bit word (R185). -/
def KvEnt.word (e : KvEnt) : Nat :=
  2 ^ 63 + b2n e.shared * 2 ^ 62 + b2n e.promptOnly * 2 ^ 61 + e.fill * 2 ^ 54 + e.page

/-- A history entry as its word (R185). -/
def Hist.word (h : Hist) : Nat := h.w * 2 ^ 28 + h.quiet * 2 ^ 20 + b2n h.stepStart * 2 ^ 19 + h.token

/-- New page ids that the next `k` positions of a request need, a copy of a shared page among them (R186, R198). -/
def State.kvNeeds (s : State) (n k : Nat) : Nat :=
  let x := s.slot n
  let r := x.rows
  let copy : Nat := if r % 64 = 0 ∨ k = 0 then 0 else
    match x.kv[r / 64]? with
    | some e => if 1 < (s.kvPage (descJob x.desc) e.page).refs then 1 else 0
    | none => 0
  ceilDiv (r + k) 64 - ceilDiv r 64 + copy

/-- The pool holds the page ids that the next `k` positions of a request need: those set aside for it, and free ones. -/
def State.kvFits (s : State) (n k : Nat) : Bool :=
  decide (s.kvNeeds n k ≤ (s.slot n).kvGrant + s.kvFree (descJob (s.slot n).desc))

/-- A request takes a new page id of its pool: one set aside for it, or a free one; which number it has is free. -/
def State.kvTake (s : State) (n : Nat) : Nat × State :=
  let x := s.slot n
  let s := if x.kvGrant = 0 then s else s.setSlot n { x with kvGrant := x.kvGrant - 1 }
  s.pickFree (s.kvUsed (descJob x.desc)) (kvPool (s.kvd (descJob x.desc)))

end Sys2Proof.Machine
end

