-- ==== Sys2Proof/Machine/Request.lean ====
section
/-! DEFINITION. Requests: the checks of SUBMIT and CANCEL, slots, the journal, the de-duplication set, and the records of
their ends (R26 to R49). -/

namespace Sys2Proof.Machine

/-! ### Journal (R30, R44, R45) -/

/-- Staging bytes in use on Wellhead `w`: its own records and its partner's (R30). -/
def State.staging (s : State) (w : Nat) : Nat :=
  s.req.journal.foldl (fun n r =>
    if !r.programmed && (decide (r.wh = w) || decide (r.wh = (w + 2) % 4)) then n + r.bytes.length else n) 0

/-- The staging buffer of one Wellhead, 64 MiB (R30). -/
def stagingLimit : Nat := 67108864

/-- Pad a journal body so that the record is a multiple of 16 bytes. -/
def pad16 (body : List Byte) : List Byte := body ++ List.replicate ((16 - body.length % 16) % 16) (0 : Byte)

/-- The bytes of a journal record (R44). -/
def journalBytes (typ wh slot stroke serial : Nat) (body : List Byte) : List Byte :=
  let b := pad16 body
  withCrc (leBytes 1 typ ++ leBytes 1 wh ++ leBytes 2 0 ++ leBytes 4 (32 + b.length) ++ leBytes 4 slot ++
    leBytes 8 stroke ++ leBytes 8 serial ++ b)

/-- Make a journal record of a slot, durable and programmed as given. -/
def State.journalPut (s : State) (slot typ : Nat) (body : List Byte) (durable programmed : Bool) : State :=
  let w := slotWh slot
  let n := Tbl.val 0 s.req.jserial w
  let r : JRec := { wh := w, typ := typ, slot := slot, jserial := n, durable := durable, programmed := programmed
                    bytes := journalBytes typ w slot s.strokeN n body }
  { s with req := { s.req with journal := s.req.journal ++ [r], jserial := Tbl.set 0 s.req.jserial w (n + 1) } }

/-- Make a journal record of a slot: it is not durable yet. -/
def State.journalAdd (s : State) (slot typ : Nat) (body : List Byte) : State := s.journalPut slot typ body false false

/-- Make a journal record that is durable before what it records takes effect: it stands in both staging buffers, and in
write-through it is programmed as well (R30, R33, R46, R363). -/
def State.journalNow (s : State) (slot typ : Nat) (body : List Byte) : State :=
  s.journalPut slot typ body true (s.strictJournal (slotWh slot))

/-- Mark a slot's records of a type durable. -/
def State.journalDurable (s : State) (slot typ : Nat) : State :=
  { s with req := { s.req with journal := s.req.journal.map (fun r =>
      if r.slot = slot ∧ r.typ = typ then { r with durable := true } else r) } }

/-- A slot's record of a type may become durable now: in write-through it must be programmed first (R363). -/
def State.mayBeDurable (s : State) (slot typ : Nat) : Bool :=
  !s.dbg.halted.contains (s.coreOf (s.slot slot).core) &&
    (!s.strictJournal (slotWh slot) ||
      s.req.journal.all (fun r => decide (r.slot ≠ slot) || decide (r.typ ≠ typ) || r.programmed))

/-- Take a slot's not yet durable records of a type out of the journal (a request refused before it is accepted). -/
def State.journalDrop (s : State) (slot typ : Nat) : State :=
  { s with req := { s.req with journal := s.req.journal.filter (fun r =>
      !(decide (r.slot = slot) && decide (r.typ = typ) && !r.durable)) } }

/-! ### De-duplication set (R32) -/

/-- The entry of a pair. -/
def State.dedupFind (s : State) (sub tag : Nat) : Option Dedup :=
  s.req.dedup.find? (fun e => decide (e.sub = sub) && decide (e.tag = tag))

/-- Entries kept by Wellhead `w`. -/
def State.dedupFill (s : State) (w : Nat) : Nat := (s.req.dedup.filter (fun e => e.sub % 4 = w)).length

/-- The lookup of R32: a refusal code and aux0, or none. -/
def State.dedupLookup (s : State) (sub tag : Nat) : Option (Nat × Nat) :=
  match s.dedupFind sub tag with
  | some e => some (7, e.slot)
  | none => if 2097152 ≤ s.dedupFill (sub % 4) then some (0xC, 0) else none

/-! ### Completion records -/

/-- The ACCEPT record of a slot (R34). -/
def State.acceptRec (s : State) (n : Nat) (x : Slot) (pos : Nat) : List Byte :=
  record64 1 0 (descSub x.desc) (descTag x.desc) n x.indexGen 0 x.admitStroke s.nowNs
    0 0 0 0 pos

/-- The DONE record of a slot (R34, R35). -/
def State.doneRec (_s : State) (n : Nat) (x : Slot) (pos : Nat) : List Byte :=
  record64 3 (x.doneCode.getD 0) (descSub x.desc) (descTag x.desc) n x.indexGen
    (b2n x.degraded + 2 * b2n (decide (0 < x.replays)))
    x.doneStroke x.doneNs x.tokensOut x.promptTokens.length x.skipped x.replays pos

/-- The REFUSE record of a descriptor (R34, R35). -/
def State.refuseRec (s : State) (d : List Byte) (code aux0 pos : Nat) : List Byte :=
  record64 2 code (descSub d) (descTag d) 0xFFFFFFFF 0 (if code = 1 then 8 else 0) s.strokeN s.nowNs 0 0 aux0 0 pos

/-- The token ids of an input of kind 2 (R274). -/
def inputTokens (inp : List Byte) : List Nat := (List.range (inp.length / 4)).map (fun i => fld inp (4 * i) 4)

/-- ACCEPT has been posted: the request is accepted and leaves ADMITTED (R31, R41). -/
def Slot.accepted (x : Slot) (stroke ns : Nat) : Slot :=
  { x with
    acceptNs := some ns
    acceptStroke := stroke
    state := if descRecipe x.desc = 0 then .prefill else .front
    promptTokens := if descRecipe x.desc = 0 && descKind x.desc == 2 then
        (inputTokens x.input).take (descMaxPrompt x.desc) else x.promptTokens
    tokDone := descKind x.desc != 1 }

/-- Set a pair's ACCEPT time in the de-duplication set. -/
def State.dedupAccepted (s : State) (sub tag ns : Nat) : State :=
  { s with req := { s.req with dedup := s.req.dedup.map (fun e =>
      if e.sub = sub ∧ e.tag = tag then { e with acceptNs := ns } else e) } }

/-- The producer index of a ring. -/
def State.prodOf (s : State) (rid : Nat) : Nat := ((Tbl.look s.nor.rings rid).map Ring.prod).getD 0

/-- The producer index of a ring that an issued index write covers (R31). -/
def State.issuedOf (s : State) (rid : Nat) : Nat := ((Tbl.look s.nor.rings rid).map Ring.issued).getD 0

/-- The question tokens kept, at most (R276). -/
def questionMax (r d : List Byte) : Nat := min (fld r 0x1A 2) (descMaxPrompt d + 2 - fld r 0x30 2)

/-- Device address of a slot's Quern buffers: input, then tokens at 2 MiB, then the result at 6 MiB. -/
def qrnBuffer (n : Nat) : Nat := 0x03C000000000 + Config.qrnPlace n % 32768 * 8388608

/-- The Quern descriptor a core makes for a slot (R245, R274, R276): specials off for a recipe, else as the firmware has
it, which the spec does not say. -/
def State.qrnDesc (s : State) (n : Nat) (x : Slot) (special : Bool) : List Byte :=
  let rcp := match Tbl.look s.cat.rcp (descRecipe x.desc) with | none => [] | some r => r.bytes
  let tab := if descRecipe x.desc = 0 then (s.plan (descJob x.desc)).elim 0 (fun p => planTok p.hdr) else fld rcp 6 1
  let most := if descRecipe x.desc = 0 then descMaxPrompt x.desc
    else questionMax rcp x.desc
  withCrc (leBytes 1 1 ++ leBytes 1 0 ++ leBytes 1 tab ++ leBytes 1 (b2n (special && descRecipe x.desc == 0)) ++ leBytes 4 n ++
    leBytes 4 x.input.length ++ leBytes 8 (qrnBuffer n) ++ leBytes 8 (qrnBuffer n + 2097152) ++
    leBytes 4 (min (max most 1) 1048576) ++ leBytes 4 0 ++ leBytes 8 (qrnBuffer n + 6291456) ++ leBytes 16 0)

/-- The work ring of a lane. -/
def State.lane (s : State) (l : Nat) : List (List Byte) := Tbl.val [] s.qrn.lanes l

/-- Input bytes queued on a lane. -/
def State.laneBytes (s : State) (l : Nat) : Nat := (s.lane l).foldl (fun n d => n + fld d 0xC 4) 0

/-- The recipe image a request uses (R273). -/
def State.rcpOf (s : State) (x : Slot) : List Byte :=
  match Tbl.look s.cat.rcp (descRecipe x.desc) with | none => [] | some r => r.bytes

/-- Count a question that was cut (R276, R288). -/
def State.noteTrunc (s : State) (cut : Bool) : State := if cut then s.bump 120 7 0x124 1 else s

/-- The question of a recipe request whose input needs no tokenising: token ids, or an image's stand-in ids (R274 to
R276). -/
def State.readyQuestion (s : State) (n : Nat) : State :=
  let x := s.slot n
  let r := s.rcpOf x
  if descRecipe x.desc = 0 then s
  else match descKind x.desc with
    | 2 =>
      let t := inputTokens x.input
      let cut := decide (questionMax r x.desc < t.length)
      (s.setSlot n { x with question := t.take (questionMax r x.desc), qTrunc := cut }).noteTrunc cut
    | 3 => s.setSlot n { x with question := (List.range (fld r 0x34 2)).map (fun i => fld r (0x40 + 4 * i) 4) }
    | _ => s

/-- Put a slot's TOKENISE on the lane of its Wellhead with the fewest queued input bytes; a full ring makes the core wait
(R245). -/
def State.qrnIssue (s : State) (n : Nat) : State :=
  let w := s.whOf (slotWh n)
  match minBy s.laneBytes [4 * w, 4 * w + 1, 4 * w + 2, 4 * w + 3] with
  | none => s
  | some l =>
    if 128 ≤ (s.lane l).length then { s with qrn := { s.qrn with wait := s.qrn.wait ++ [n] } }
    else
      let x := s.slot n
      let d := s.qrnDesc n x (Config.freeBool s.freeCount)
      let s := { s with freeCount := s.freeCount + 1 }.store .lpddr (qrnBuffer n) x.input
      let q := Tbl.set [] s.qrn.lanes l (s.lane l ++ [d])
      ({ s with qrn := { s.qrn with lanes := q } } : State).setSlot n { x with tokAsk := true }

/-- Move one slot on whose ACCEPT or DONE record an issued index write now covers (R31, R41). -/
def State.settleSlot (s : State) (n : Nat) : State :=
  let x := s.slot n
  match s.compRing (descSub x.desc) with
  | none => s
  | some rid =>
    let p := s.issuedOf rid
    if x.state = .admitted ∧ x.admitDurable = true ∧ x.acceptNs = none ∧ x.acceptPos < p then
      let s := (s.setSlot n (x.accepted s.strokeN s.nowNs)).dedupAccepted (descSub x.desc) (descTag x.desc) s.nowNs
      if descKind x.desc = 1 then s.qrnIssue n else s.readyQuestion n
    else if x.state = .draining ∧ x.doneDurable = true ∧ x.donePos < p then s.setSlot n { x with state := .done }
    else s

/-- Settle every slot after records have been written. -/
def State.settle (s : State) : State := s.req.slots.keys.foldl State.settleSlot s

/-- Post a REFUSE record to the completion ring of the ring's bound subscriber. -/
def State.postRefuse (s : State) (rid : Nat) (d : List Byte) (code aux0 : Nat) : State :=
  (s.postRing rid (s.refuseRec d code aux0)).settle

/-! ### SUBMIT (R28) -/

/-- The FP32, count and reserved-field ranges of check 2 that need no other structure (R26). The range of output_ring is checked for
services 2 and 3 too, where R28 says that the module ignores the field (DESIGN CHOICE, log entry 48). -/
def descFieldsOk (d : List Byte) : Bool :=
  descVersion d == 1 && decide (descKind d ≤ 3) && decide (descSub d ≤ 4095) && decide (descService d ≤ 3) &&
  decide (descFlags d < 8) && descOp d == 0 && zeros d 0xD 3 && zeros d 0x54 4 && zeros d 0x78 8 &&
  (if descService d ≤ 1 then decide (1 ≤ descMaxNew d) && decide (descMaxNew d ≤ 2147483648)
    else descMaxNew d == 0) &&
  decide (1 ≤ descMaxPrompt d) && f32NonNeg (descTemp d) && f32UnitPos (descTopP d) && decide (descTopK d ≤ 2048) &&
  decide (descSpec d ≤ 3) && (descSpec d == 0 || descService d == 0) && decide (descStops d ≤ 8) &&
  zeros d (0x58 + 4 * descStops d) (32 - 4 * descStops d) && decide (descOut d < 0x20000)

/-- The input form fits service and recipe (R26, R274). With recipe 0 a prompt is text or token ids of service 0 or 1. -/
def descInputOk (d : List Byte) (rcp : Option CatImg) (dimBytes : Nat) : Bool :=
  if descRecipe d = 0 then decide (descService d ≤ 1) && (descKind d == 1 || descKind d == 2)
  else if descService d = 3 then descKind d == 0 && descInLen d == dimBytes
  else descKind d == 1 || descKind d == 2 ||
    (descKind d == 3 && (match rcp with | none => false | some r => bitAt (fld r.bytes 5 1) 2))

/-- The tokenizer table of a job's plan. -/
def State.jobTok (s : State) (j : Nat) : Option Nat := (s.job j).map (fun p => planTok p.hdr)

/-- The grammar checks of R220. -/
def State.grammarOk (s : State) (d : List Byte) : Bool :=
  if descGrammar d = 0 then true
  else match s.grammar (descGrammar d) with
    | none => false
    | some g =>
      match s.job (descJob d) with
      | none => true
      | some p => fld g.bytes 8 4 == planVocab p.hdr && fld g.bytes 0x20 4 == planTok p.hdr

/-- The recipe checks of R273 at check 2. -/
def State.recipeOk (s : State) (d : List Byte) : Bool :=
  if descRecipe d = 0 then true
  else match s.recipe (descRecipe d) with
    | none => false
    | some r =>
      let tok := fld r.bytes 6 1
      let same (j : Nat) : Bool := j == 0 || (match s.jobTok j with | none => true | some t => t == tok)
      decide (fld r.bytes 0x30 2 - 1 ≤ descMaxPrompt d) &&
        (decide (1 < descService d) || same (descJob d)) && same (fld r.bytes 0xA 2) && same (fld r.bytes 0xE 2) &&
        same (fld r.bytes 8 2)

/-- The jobs a recipe names are loaded and its index job has an ACTIVE slot with extents loaded (R273, R314). -/
def State.recipeJobs (s : State) (d : List Byte) : Bool :=
  if descRecipe d = 0 then true
  else match Tbl.look s.cat.rcp (descRecipe d) with
    | none => false
    | some r =>
      let ok (j : Nat) : Bool := j == 0 || (s.job j).isSome
      ok (fld r.bytes 8 2) && ok (fld r.bytes 0xA 2) && ok (fld r.bytes 0xC 2) && ok (fld r.bytes 0xE 2) &&
        (s.activeGen (fld r.bytes 8 2)).isSome

/-- The generation slot a request pins at admission (R314). -/
def State.pinFor (s : State) (d : List Byte) : Option Nat :=
  if descRecipe d = 0 then none
  else (Tbl.look s.cat.rcp (descRecipe d)).bind (fun r => s.activeGen (fld r.bytes 8 2))

/-- Bytes of a query vector of the generation a request would pin (R274). -/
def State.vecBytes (s : State) (d : List Byte) : Nat :=
  match s.pinFor d with
  | none => 0
  | some g => genDim (s.gen g).hdr

/-- The vocabulary that token ids of an input lie below (R274): of the descriptor's job where it has one, else of the recipe's encoder
job, whose tokenizer is the recipe's (R273). -/
def State.idVocab (s : State) (d : List Byte) : Nat :=
  let own := match s.job (descJob d) with | none => 0 | some p => if planKind p.hdr = 0 then planVocab p.hdr else 0
  if own ≠ 0 then own
  else match Tbl.look s.cat.rcp (descRecipe d) with
    | none => 0
    | some r => match s.job (fld r.bytes 0xA 2) with
      | none => 0
      | some p => planVocab p.hdr

/-- Limits that come from the descriptor's jobs (R26, R180, R220, R274): prompt, top_k, token ids below the vocabulary. A job that is
not loaded sets none, since check 4 refuses the descriptor. No rule gives a least number of token ids; an input of none is refused
here (DESIGN CHOICE, log entry 48). -/
def State.jobLimits (s : State) (d inp : List Byte) : Bool :=
  (match s.job (descJob d) with
  | none => true
  | some p =>
    (match p.ctxLimit with | none => true | some c => decide (descMaxPrompt d ≤ c)) &&
      decide (descTopK d ≤ planVocab p.hdr)) &&
  (decide (descKind d ≠ 2) || (decide (descInLen d % 4 = 0) && decide (0 < descInLen d) &&
    (decide (s.idVocab d = 0) || (inputTokens inp).all (fun t => decide (t < s.idVocab d)))))

/-- A ring exists with a kind and binding. -/
def State.ringIs (s : State) (rid kind bind : Nat) : Bool :=
  match Tbl.look s.nor.rings rid with
  | none => false
  | some r => decide (r.kind = kind) && decide (r.bind = bind)

/-- The output ring carries a live request (R28 check 6). -/
def State.ringBusy (s : State) (rid : Nat) : Bool :=
  s.req.slots.any (fun e => e.2.live && decide (descService e.2.desc ≤ 1) && decide (descOut e.2.desc = rid))

/-- Checks 1 to 8 of R28 in order: the refusal code and aux0 of the first failure. -/
def State.submitCheck (s : State) (r : Ring) (d inp : List Byte) : Option (Nat × Nat) :=
  if !crcOk d then some (1, 0)
  else if !(descFieldsOk d && s.recipeOk d && descInputOk d (s.recipe (descRecipe d)) (s.vecBytes d) &&
      s.grammarOk d && s.jobLimits d inp) then some (2, 0)
  else if descSub d ≠ r.bind then some (3, 0)
  else if !((match s.job (descJob d) with | none => false | some p => planServes p.hdr (descService d)) &&
      s.recipeJobs d) then some (4, 0)
  else if (if descInline d then 128 else 1048576) < descInLen d then some (5, 0)
  else if (decide (descService d ≤ 1) && !s.ringIs (descOut d) 2 (descSub d)) ||
      (descMap d && !s.ringIs (descCit d) 6 (descSub d)) then some (0xE, 0)
  else if descService d ≤ 1 && s.ringBusy (descOut d) then some (6, 0)
  else match s.dedupLookup (descSub d) (descTag d) with
    | some x => some x
    | none => if s.wdl.readOnly || s.noJournal (s.whOf (r.core / 4)) then some (8, 0) else none

/-- The input bytes of a descriptor: inline, or read from host memory through the ring's port. -/
def State.fetchInput (s : State) (r : Ring) (d : List Byte) : List Byte :=
  if descInline d then (d.drop 0x80).take (min (descInLen d) 128)
  else s.load (.host r.port) (descInAddr d) (min (descInLen d) 1048576)

/-- The body of an ADMIT record (R44). -/
def admitBody (d inp : List Byte) (ns gen pos : Nat) : List Byte :=
  d ++ leBytes 8 ns ++ leBytes 2 gen ++ leBytes 6 0 ++ leBytes 8 pos ++ leBytes 8 0 ++
    (if descInline d then [] else pad16 inp)

/-- Admit a request that has passed every check: meters debited, slot allocated, ADMIT journaled (R28, R29, R31). -/
def State.enrol (s : State) (d inp : List Byte) (comp n colour : Nat) : State :=
  let sub := descSub d
  let v := descService d
  let svc := s.meter (svcKey sub v)
  let agg := s.meter (aggKey sub)
  let m := meterBoth svc agg (descMaxPrompt d) (descMaxNew d)
  let g := s.pinFor d
  let gen := match g with | none => 0 | some g => genNum (s.gen g).hdr
  let rs := s.reserve comp
  let x : Slot := {
    state := .admitted, desc := d, core := s.coreOf (n / 2048), input := inp
    admitStroke := s.strokeN, admitNs := s.nowNs, admitBound := s.time.boundNs.toNat, acceptPos := rs.1
    cost := svc.cost (descMaxPrompt d) (descMaxNew d), aggCost := agg.cost (descMaxPrompt d) (descMaxNew d)
    dSvcC := decide (m.2.1.tc < svc.tc), dSvcP := decide (m.2.1.tp < svc.tp)
    dAggC := decide (m.2.2.tc < agg.tc), dAggP := decide (m.2.2.tp < agg.tp)
    svcWP := if svc.unit then 0 else svc.wPrompt, svcWG := if svc.unit then 0 else svc.wGen
    aggWP := if agg.unit then 0 else agg.wPrompt, aggWG := if agg.unit then 0 else agg.wGen
    colour := colour, indexGen := gen, genSlot := g, outBase := s.prodOf (descOut d), citBase := s.prodOf (descCit d)
    grm := { state := match Tbl.look s.cat.grm (descGrammar d) with | none => 0 | some i => fld i.bytes 0x1C 4 } }
  let s := (rs.2.setMeter (svcKey sub v) m.2.1).setMeter (aggKey sub) m.2.2
  (s.setSlot n x).journalAdd n 1 (admitBody d inp x.admitNs gen rs.1)

/-- Count a METER_RED refusal (R91, R92). -/
def State.noteRed (s : State) (sub v : Nat) : State :=
  let w := s.sliceWh sub
  let k := svcKey sub v
  let s := (s.bump w 11 0x10C 1).event w 11 [sqBit 0x118 0] []
  { s with tmg := { s.tmg with refusedSince := Tbl.set 0 s.tmg.refusedSince k (Tbl.val 0 s.tmg.refusedSince k + 1) } }

/-- Take the next descriptor of a SUBMIT ring as consumed (R377). -/
def State.consume (s : State) (rid : Nat) (r : Ring) : State :=
  (s.setRing rid { r with cons := r.cons + 1 }).bumpWide (s.ringWh rid) 31 2 0 1

/-- The next descriptor of a SUBMIT ring that its core may fetch: the ring, the completion ring and the descriptor.
None while the module is not in service, the core is not live, the ring is empty, or the subscriber's completion ring is
absent or full (R381). -/
def State.nextDesc (s : State) (rid : Nat) : Option (Ring × Nat × List Byte) :=
  match Tbl.look s.nor.rings rid with
  | none => none
  | some r =>
    match s.compRing r.bind with
    | none => none
    | some comp =>
      if s.boot.ready && !s.boot.shutting && decide (r.kind = 0) && s.coreLive (s.coreOf r.core) && decide (r.cons < r.prod) &&
          !s.ringStuck comp then
        some (r, comp, s.load .lpddr (r.addr r.cons) 256)
      else none

/-- Checks 9 to 11 of R28 and admission, for a descriptor that has passed checks 1 to 8. -/
def State.submitMeter (s : State) (r : Ring) (comp : Nat) (d inp : List Byte) : State :=
  let sub := descSub d
  let v := descService d
  let svc := s.meter (svcKey sub v)
  let agg := s.meter (aggKey sub)
  let guard := s.guardRed sub v
  let colour := if guard then 2 else (meterBoth svc agg (descMaxPrompt d) (descMaxNew d)).1
  let s := s.noteActive (queueNum sub v (match Tbl.look s.nor.rings (descOut d) with | none => 0 | some o => o.port))
  if meterRefuses svc colour then
    (s.noteRed sub v).postRefuse comp d 9 (redWait svc agg guard (descMaxPrompt d) (descMaxNew d))
  else
    let s := s.bump (s.sliceWh sub) 11 0x108 1
    let w := r.core / 4
    let reserve := (s.reg (s.whOf w) 11 0x104).toNat
    match s.pickSlot (s.coreOf r.core) with
    | none => s.postRefuse comp d 0xA 0
    | some n =>
      if v ≠ 0 ∧ s.freeSlots w ≤ reserve then s.postRefuse comp d 0xA 0
      else if stagingLimit < s.staging w + 320 + (if descInline d then 0 else (pad16 inp).length) then
        (s.event (s.whOf w) 0 [sqBit 0x110 2] []).postRefuse comp d 0xB 0
      else s.enrol d inp comp n colour

/-- SUBMIT (R28): the core of a submission ring takes its next descriptor, other than a CANCEL. -/
def submit (s : State) (rid : Nat) : State :=
  match s.nextDesc rid with
  | none => s
  | some (r, comp, d) =>
    if descOp d = 1 ∧ crcOk d = true then s
    else if !descInline d && !(s.hp r.port).readOk (descInAddr d) && crcOk d then s
    else
      let inp := s.fetchInput r d
      let s := s.consume rid r
      match s.submitCheck r d inp with
      | some (code, aux) =>
        let s := if code = 0xC then s.event (s.whOf (descSub d % 4)) 0 [sqBit 0x110 1] [] else s
        s.postRefuse comp d code aux
      | none => s.submitMeter r comp d inp

/-- The request of a subscriber with a tag that a CANCEL may name (R33): a live one, or one in DONE, which it does not affect. -/
def State.liveTag (s : State) (sub tag : Nat) : Option Nat :=
  (s.req.slots.find? (fun e => decide (e.2.state ≠ .free) && !e.2.refused && decide (descSub e.2.desc = sub) &&
    decide (descTag e.2.desc = tag))).map Prod.fst

/-- CANCEL (R33): the next descriptor of a submission ring, when it is a CANCEL, is checked and forwarded. -/
def cancel (s : State) (rid : Nat) : State :=
  match s.nextDesc rid with
  | none => s
  | some (r, comp, d) =>
    if ¬(descOp d = 1 ∧ crcOk d = true) then s
    else
      let s := s.consume rid r
      if descVersion d ≠ 1 ∨ zeros d 0xD 3 = false then s.postRefuse comp d 2 0
      else if descSub d ≠ r.bind then s.postRefuse comp d 3 0
      else match s.liveTag (descSub d) (descTag d) with
        | none => s.postRefuse comp d 0xD 0
        | some n =>
          let x := s.slot n
          if x.state = .draining ∨ x.state = .done then s else s.setSlot n { x with cancel := true }

/-! ### Durable records -/

/-- Give a slot's debits back whole, in whichever unit its meters count: a request refused after metering (R74 step 4). -/
def State.restoreDebits (s : State) (x : Slot) : State :=
  let k := svcKey (descSub x.desc) (descService x.desc)
  let a := aggKey (descSub x.desc)
  let s := s.setMeter k ((s.meter k).credit x.dSvcC x.dSvcP x.cost)
  s.setMeter a ((s.meter a).credit x.dAggC x.dAggP x.aggCost)

/-- ADMIT_DURABLE (R31): the ADMIT record is in two staging buffers. A pair taken meanwhile is refused (R32); its slot is FREE from the
next boundary on, as R41 has every change into FREE. -/
def admitDurable (s : State) (n : Nat) : State :=
  let x := s.slot n
  if ¬(x.state = .admitted ∧ x.admitDurable = false ∧ s.mayBeDurable n 1 = true) then s
  else match s.compRing (descSub x.desc) with
    | none => s
    | some comp =>
      match s.dedupLookup (descSub x.desc) (descTag x.desc) with
      | some (code, aux) =>
        let s := ((s.restoreDebits x).journalDrop n 1).setSlot n { state := .done, desc := x.desc, refused := true }
        (s.fillRing comp x.acceptPos (s.refuseRec x.desc code aux x.acceptPos)).settle
      | none =>
        let e : Dedup := { sub := descSub x.desc, tag := descTag x.desc, slot := n, acceptNs := s.nowNs }
        let s := { s with req := { s.req with dedup := s.req.dedup ++ [e] } }
        let s := (s.journalDurable n 1).setSlot n { x with admitDurable := true }
        (s.fillRing comp x.acceptPos (s.acceptRec n x x.acceptPos)).settle

/-- An output record (R38). -/
def outRecord (seq part nbytes tok : Nat) (more last : Bool) (text : List Byte) : List Byte :=
  let b := leBytes 4 seq ++ leBytes 4 (b2n last * 2 ^ 31 + b2n more * 2 ^ 30 + nbytes * 2 ^ 27 + part * 2 ^ 18 + tok % 2 ^ 18) ++
    padTo 4 text
  b ++ leBytes 4 (crc32c b)

/-- Compose an output record of a slot: suppressed while replay regenerates records already written (R47), else queued for
egress (R88). -/
def State.pushRec (s : State) (n : Nat) (rec : List Byte) : State :=
  let x := s.slot n
  let s := s.setSlot n { x with recCount := x.recCount + 1, suppress := x.suppress - 1 }
  if 0 < x.suppress then s
  else
    let q := s.slotQueue x
    (s.setQueue q (s.queue q ++ [{ slot := n, ring := descOut x.desc, bytes := rec, stroke := s.strokeN }])).noteActive q

/-- Deliver one token: its record (R39), or its turn at the detokenizer for bytes_out 1 (R249). -/
def State.composeTok (s : State) (n seq tok : Nat) (last : Bool) : State :=
  let x := s.slot n
  if descBytesOut x.desc then s.setSlot n { x with detok := x.detok ++ [(seq, tok, last)] }
  else s.pushRec n (outRecord seq 0 0 tok false last [])

/-- Deliver the tokens that the present step has chosen: history, count, records (R38, R53, R185). -/
def State.commitOpen (s : State) (n : Nat) : State :=
  let x := s.slot n
  let k := x.opened.length
  let hs := x.opened.zipIdx.map (fun e =>
    ({ w := x.w, quiet := x.quiet, stepStart := decide (e.2 = 0), token := e.1 } : Hist))
  let s := s.setSlot n { x with history := x.history ++ hs, tokensOut := x.tokensOut + k, opened := [] }
  x.opened.zipIdx.foldl (fun s e => s.composeTok n (x.history.length + e.2) e.1
    (x.natural.isSome && decide (e.2 + 1 = k))) s

/-- The first token of which the output ring does not hold every record, read from the ring's last record (R38). -/
def State.ringSeq (s : State) (x : Slot) : Nat :=
  match Tbl.look s.nor.rings (descOut x.desc) with
  | none => 0
  | some r =>
    let e := s.load (.host r.port) (r.base + (r.prod - 1) % r.entries * r.recBytes) 8
    fld e 0 4 + b2n (!bitAt (fld e 4 4) 30)

/-- The seq of the first token not delivered (R44): while regeneration has no history, what the output ring holds says it. -/
def State.cutOf (s : State) (x : Slot) : Nat :=
  if x.history ≠ [] ∨ x.state ≠ SlotState.replay ∨ x.suppress = 0 then x.history.length + x.opened.length else s.ringSeq x

/-- Begin DRAINING with an end reason: the DONE record is journaled with its allotted position (R41, R44); tokens that an earlier start
delivered count (R34). -/
def State.beginDrain (s : State) (n code : Nat) : State :=
  let s := s.kvRelease n
  let x := s.slot n
  let x := { x with tokensOut := if x.state = SlotState.replay then max x.tokensOut (s.cutOf x) else x.tokensOut }
  let r := match s.compRing (descSub x.desc) with
    | none => (0, s)
    | some comp => s.reserve comp
  let s := r.2.setSlot n { x with
    state := .draining, doneCode := some code, doneStroke := s.strokeN, doneNs := s.nowNs, donePos := r.1 }
  let s := s.journalAdd n 4 (leBytes 1 code ++ leBytes 3 0 ++ leBytes 4 x.tokensOut ++ leBytes 8 r.1)
  if code = 8 then s.event (s.whOf (slotWh n)) 0 [sqBit 0x110 0] [] else s

/-- FRONT_DURABLE (R44): the FRONT record that FRONT_PACK journaled becomes durable. -/
def frontDurable (s : State) (n : Nat) : State :=
  let x := s.slot n
  if ¬(x.state = .front ∧ x.frontJournaled = true ∧ x.frontDurable = false ∧ s.mayBeDurable n 2 = true) then s
  else
    let s := s.journalDurable n 2
    let s := if x.promptRefunded then s else s.refundBoth x (descMaxPrompt x.desc - x.promptTokens.length) 0
    let x := { x with frontDurable := true, promptRefunded := true, mapPending := descMap x.desc }
    if descService x.desc ≤ 1 then s.setSlot n { x with state := .prefill }
    else (s.setSlot n x).beginDrain n 6

/-- Tokens that a request's next step may yield. -/
def stepTokens (x : Slot) : Nat := max 1 (min (1 + descSpec x.desc) (descMaxNew x.desc - x.tokensOut))

/-- Records that one token may yield: one, or with bytes_out 1 up to those of 3 held bytes and a string of 128, each an ill-formed part
released as 3 bytes (R39, R239, R249; DESIGN CHOICE, log entry 44: what a step will yield is not known at the cut). -/
def tokenRecords (x : Slot) : Nat := if descBytesOut x.desc then ceilDiv (3 * (3 + 128)) 4 else 1

/-- A request's output ring has room for its next step (R40); a ring with nothing in it has room for what the step yields, however small
it is. Services 2 and 3 write no output records. -/
def State.ringRoom (s : State) (x : Slot) : Bool :=
  decide (1 < descService x.desc) || (match Tbl.look s.nor.rings (descOut x.desc) with
    | none => false
    | some r =>
      let used := r.resv - r.cons + s.ringQueued (descOut x.desc)
      decide (used + x.detok.length + stepTokens x = stepTokens x) ||
        decide (used + (x.detok.length + stepTokens x) * tokenRecords x ≤ r.entries))

/-- A wait of a full ring begins: counted once (R381). -/
def State.ringWaits (s : State) (rid : Nat) : State :=
  match Tbl.look s.nor.rings rid with
  | none => s
  | some r =>
    if r.waiting then s
    else
      let w := s.ringWh rid
      ((s.setRing rid { r with waiting := true }).bump w 31 0x108 1).event w 31 [sqBit 0x118 1] []

/-- CITATION_MAP_POST (R285): the whole map is written once the citation ring has room for it, after the ACCEPT record (R37). -/
def citationMapPost (s : State) (n : Nat) : State :=
  let x := s.slot n
  let rid := descCit x.desc
  if !x.mapPending || x.mapRecs.isEmpty || !s.acceptPast x rid then s
  else match Tbl.look s.nor.rings rid with
    | none => s
    | some r =>
      if r.entries < r.resv - r.cons + x.mapRecs.length then s.ringWaits rid
      else
        let fills := x.mapRecs.foldl (fun (a : Tbl (List Byte) × Nat) b => (Tbl.put a.1 a.2 (withCrc (b ++ leBytes 8 a.2)), a.2 + 1)) (r.filled, r.resv)
        ((s.setRing rid { r with filled := fills.1, resv := fills.2 }).setSlot n { x with mapPending := false }).drainRing rid

/-- Output records of a slot that are composed and not yet written. -/
def State.outPending (s : State) (n : Nat) : Bool := !(s.slot n).detok.isEmpty || s.tmg.queues.any (fun e => e.2.any (fun r => decide (r.slot = n)))

/-- The index-block read of R380 is owed before DONE: output and completion ring lie on different ports. -/
def State.fenceOwed (s : State) (x : Slot) (comp : Nat) : Bool :=
  match Tbl.look s.nor.rings (descOut x.desc), Tbl.look s.nor.rings comp with
  | some o, some c => decide (descService x.desc ≤ 1) && decide (o.port ≠ c.port) && decide (0 < o.prod) &&
      !s.nor.fenced.contains (descOut x.desc, comp)
  | _, _ => false

/-- DONE_DURABLE (R41): refund, and DONE posted once every output record is written (R37) and, for services 2 and 3, the
map is (R285). -/
def doneDurable (s : State) (n : Nat) : State :=
  let x := s.slot n
  if ¬(x.state = .draining ∧ x.doneDurable = false ∧ s.mayBeDurable n 4 = true) then s
  else match s.compRing (descSub x.desc) with
    | none => s
    | some comp =>
      if s.outPending n || (decide (1 < descService x.desc) && x.mapPending) || s.fenceOwed x comp then s
      else
        let s := if x.doneRefunded then s else s.refundBoth x 0 (descMaxNew x.desc - x.tokensOut)
        let s := s.journalDurable n 4
        let f := s.nor.fenced.filter (fun e => e ≠ (descOut x.desc, comp))
        let s := { s with nor := { s.nor with fenced := f } }
        let s := s.setSlot n { x with doneDurable := true, doneRefunded := true }
        (s.fillRing comp x.donePos (s.doneRec n x x.donePos)).settle

/-- JOURNAL_PROGRAMMED (R30). -/
def journalProgrammed (s : State) (w serial : Nat) : State :=
  { s with req := { s.req with journal := s.req.journal.map (fun r =>
      if r.wh = w ∧ r.jserial = serial ∧ (r.durable = true ∨ s.strictJournal w = true) then { r with programmed := true } else r) } }

/-- The 600 s horizon of R32 and R45 in nanoseconds. -/
def horizonNs : Nat := 600000000000

/-- DEDUP_EXPIRY (R32): a pair whose request has ended leaves 600 s after its ACCEPT time. -/
def dedupExpiry (s : State) (sub tag : Nat) : State :=
  match s.dedupFind sub tag with
  | none => s
  | some e =>
    let x := s.slot e.slot
    let live := x.live && decide (descSub x.desc = sub) && decide (descTag x.desc = tag)
    if live ∨ s.nowNs < e.acceptNs + horizonNs then s
    else { s with req := { s.req with dedup := s.req.dedup.filter (fun d => !(decide (d.sub = sub) && decide (d.tag = tag))) } }

/-- The ACCEPT time of the request whose records a slot's journal holds: the time_ns of its latest ADMIT record. -/
def State.admitTime (s : State) (n : Nat) : Nat :=
  match (s.req.journal.filter (fun r => decide (r.slot = n) && decide (r.typ = 1))).getLast? with
  | none => 0
  | some r => fld r.bytes (32 + 256) 8

/-- JOURNAL_RETENTION_EXPIRY (R45): a slot's records are released once DONE is posted and 600 s have passed. -/
def journalRetentionExpiry (s : State) (n : Nat) : State :=
  let x := s.slot n
  let t := match x.acceptNs with | some t => t | none => s.admitTime n
  if x.live ∨ s.nowNs < t + horizonNs then s
  else { s with req := { s.req with journal := s.req.journal.filter (fun r => r.slot ≠ n) } }

/-- Set `end` on the last composed record of a slot that still waits for egress (R39). -/
def markEnd (n : Nat) : List ERec → List ERec
  | [] => []
  | r :: t =>
    if r.slot = n && !(t.any (fun x => decide (x.slot = n))) then
      let info := fld r.bytes 4 4 ||| 0x80000000
      let b := r.bytes.take 4 ++ leBytes 4 info ++ (r.bytes.drop 8).take 4
      { r with bytes := b ++ leBytes 4 (crc32c b) } :: t
    else r :: markEnd n t

/-- Make the last waiting record of a slot carry on: it is no longer the last of its token (R39). -/
def markMore (n : Nat) : List ERec → List ERec
  | [] => []
  | r :: t =>
    if r.slot = n && !(t.any (fun x => decide (x.slot = n))) then
      let b := r.bytes.take 4 ++ leBytes 4 (fld r.bytes 4 4 ||| 0x40000000) ++ (r.bytes.drop 8).take 4
      { r with bytes := b ++ leBytes 4 (crc32c b) } :: t
    else r :: markMore n t

/-- The last token of a request is detokenised and bytes of it are held: they are released as one U+FFFD in a further record of that
token, which carries `end` (R39, R249). -/
def State.releaseLast (s : State) (n seq tok parts : Nat) : State :=
  let q := s.slotQueue (s.slot n)
  let s := s.setQueue q (markMore n (s.queue q))
  let s := s.setSlot n { s.slot n with heldBytes := [], lastTok := some (seq, tok, parts + 1) }
  s.pushRec n (outRecord seq parts 3 tok false true [0xEF, 0xBF, 0xBD])

/-- `end` goes onto the request's last record (R39): tokens that wait for the detokenizer take it there; bytes held back are released
with it; else the last record takes it if it still waits for egress, and one already written keeps its bits (log entry 87). -/
def State.closeOutput (s : State) (n : Nat) : State :=
  let x := s.slot n
  if x.detok ≠ [] then s
  else match x.heldBytes, x.lastTok with
    | _ :: _, some (seq, tok, parts) => s.releaseLast n seq tok parts
    | _, _ =>
      let q := s.slotQueue x
      s.setQueue q (markEnd n (s.queue q))

/-- End a request by an event from outside: the tokens chosen so far are delivered (R33), a natural end keeps its code, and
otherwise `end` goes onto its last record. -/
def State.endRequest (s : State) (n code : Nat) : State :=
  let s := s.commitOpen n
  match (s.slot n).natural with
  | some c => s.beginDrain n c
  | none => (s.closeOutput n).beginDrain n code

/-- deadline_strokes have elapsed since acceptance (R42). The stroke counter starts again at 0 (R50), so the strokes spent before a
start are added. -/
def State.deadlineDue (s : State) (x : Slot) : Bool :=
  let d := descDeadline x.desc
  let can : Bool := match x.state with
    | .front | .prefill | .decode | .parked | .replay => true
    | .admitted => x.acceptNs.isSome
    | _ => false
  decide (d ≠ 0) && can && x.acceptNs.isSome && decide (x.acceptStroke + d ≤ s.strokeN + x.spent) && x.natural.isNone

/-- A stroke boundary has just passed: no microsecond of its stroke has (log entry 11). -/
def State.atBoundary (s : State) : Bool := decide (s.time.phaseUs = 0)

/-- DEADLINE_EXPIRY (R42): at a boundary at which its deadline_strokes have elapsed the request enters DRAINING. -/
def deadlineExpiry (s : State) (n : Nat) : State :=
  if s.atBoundary && s.deadlineDue (s.slot n) then s.endRequest n 4 else s

/-! ### Meanings -/

/-- SUBMIT (R28). -/
def execSubmit (ring : Nat) (s : State) : Host.Outcome State Fault Refusal := .next (submit s ring)
/-- CANCEL (R33). -/
def execCancel (ring : Nat) (s : State) : Host.Outcome State Fault Refusal := .next (cancel s ring)
/-- ADMIT_DURABLE (R31). -/
def execAdmitDurable (slot : Nat) (s : State) : Host.Outcome State Fault Refusal := .next (admitDurable s slot)
/-- FRONT_DURABLE (R44, R77). -/
def execFrontDurable (slot : Nat) (s : State) : Host.Outcome State Fault Refusal := .next (frontDurable s slot)
/-- CITATION_MAP_POST (R285). -/
def execCitationMapPost (slot : Nat) (s : State) : Host.Outcome State Fault Refusal := .next (citationMapPost s slot)
/-- DONE_DURABLE (R41, R77). -/
def execDoneDurable (slot : Nat) (s : State) : Host.Outcome State Fault Refusal := .next (doneDurable s slot)
/-- JOURNAL_PROGRAMMED (R30). -/
def execJournalProgrammed (w serial : Nat) (s : State) : Host.Outcome State Fault Refusal :=
  .next (journalProgrammed s w serial)
/-- DEDUP_EXPIRY (R32). -/
def execDedupExpiry (sub : Nat) (tag : Word64) (s : State) : Host.Outcome State Fault Refusal :=
  .next (dedupExpiry s sub tag.toNat)
/-- JOURNAL_RETENTION_EXPIRY (R45). -/
def execJournalRetentionExpiry (slot : Nat) (s : State) : Host.Outcome State Fault Refusal :=
  .next (journalRetentionExpiry s slot)
/-- DEADLINE_EXPIRY (R42). -/
def execDeadlineExpiry (slot : Nat) (s : State) : Host.Outcome State Fault Refusal := .next (deadlineExpiry s slot)

end Sys2Proof.Machine
end

