-- ==== Sys2Proof/Machine/Cistern.lean ====
section
/-! DEFINITION. The Cistern: heat, placement, moves and their ends (R325 to R345). -/

namespace Sys2Proof.Machine

/-- The Tiller that holds a rank of the paddock a job is loaded in (R334, R493). -/
def State.rankTiller (s : State) (pad rank : Nat) : Option Nat :=
  let p := s.paddock pad
  match (p.ranks[rank]?).join with
  | some t => some t
  | none => (p.hosted.find? (fun e => e.1 = rank)).map Prod.snd

/-- The rank of a page of a region (R329, R334). -/
def Region.rankOf (r : Region) (ranks vpn : Nat) : Option Nat :=
  if ranks = 0 then none
  else if r.place = 3 ∨ r.rank = 0xFF then some (vpn % ranks) else some r.rank

/-- The HBM home of a page (R334). -/
def State.homeOf (s : State) (job vpn : Nat) : Option Nat :=
  match s.plan job with
  | none => none
  | some p =>
    match p.loaded, findRegion p.regions vpn 0 with
    | some pad, some (r, _) => (r.rankOf (planRanks p.hdr) vpn).bind (s.rankTiller pad)
    | _, _ => none

/-- The thresholds of a job in force (R343). -/
def State.thr (s : State) (job : Nat) : Nat :=
  match Tbl.look s.cis.thr job with
  | some w => w.toNat
  | none => match s.plan job with | none => 0 | some p => planThr p.hdr

/-- up_hbm. -/
def thrUpHbm (w : Nat) : Nat := bitsOf w 31 24
/-- up_lpddr. -/
def thrUpLp (w : Nat) : Nat := bitsOf w 23 16
/-- down_hbm. -/
def thrDownHbm (w : Nat) : Nat := bitsOf w 15 8
/-- down_lpddr. -/
def thrDownLp (w : Nat) : Nat := bitsOf w 7 0

/-- The thresholds break the order of R328. -/
def badThr (w : Nat) : Bool :=
  decide (thrUpHbm w = 0) || decide (thrUpLp w = 0) || decide (thrUpHbm w < thrUpLp w) ||
    decide (thrUpHbm w ≤ thrDownHbm w) || decide (thrUpLp w ≤ thrDownLp w)

/-- A move of a page is pending. -/
def State.moveOf (s : State) (job vpn : Nat) : Option Move :=
  s.cis.moves.find? (fun m => decide (m.job = job) && decide (m.vpn = vpn))

/-- Pages of a job in a tier (and stack) counting pending moves as done. -/
def State.tierUse (s : State) (job tier tiller : Nat) : Nat :=
  ((s.livePtes job).filter (fun e => match s.moveOf job e.1 with
      | some m => decide (m.tier = tier) && (decide (tier ≠ 1) || decide (m.tiller = tiller))
      | none => e.2.valid && decide (e.2.tier = tier) && (decide (tier ≠ 1) || decide (e.2.tiller = tiller)))).length

/-- Shadow pages of a plan (R325, R329). -/
def Plan.shadowPages (p : Plan) : Nat :=
  (p.regions.filter (fun r => bitAt r.flags 0 && r.place == 0)).foldl (fun n r => n + r.pages) 0

/-- Records in a group of a generation (R296). -/
def genGroup (h : List Byte) : Nat := if fld h 7 1 = 0 then 4096 else 2048

/-- Ordinary, hub and passage groups of a generation (R297). -/
def genGroups (h : List Byte) : Nat × Nat × Nat :=
  (ceilDiv (fld h 0x10 8) (genGroup h), ceilDiv (fld h 0x18 4) (genGroup h), ceilDiv (fld h 0x20 8) 25165824)

/-- Bytes of an extent table (R297). -/
def extBytes (h : List Byte) : Nat :=
  let g := genGroups h
  64 + 8 * (g.1 + g.2.1 + g.2.2)

/-- Bytes of the extent and PQ tables of a generation slot, the PQ table taken as header, codebook and codes with nothing
between (R297, R299): part of a paddock's LPDDR use (R291, R327). -/
def genTableBytes (h : List Byte) : Nat :=
  if h.isEmpty then 0 else extBytes h + 64 + 1024 * genDim h + fld h 0x1C 1 * fld h 0x10 8

/-- LPDDR use of a paddock in bytes (R327). -/
def State.lpddrUse (s : State) (pad : Nat) : Nat :=
  let jobs := (s.paddock pad).jobs
  jobs.foldl (fun n j => n + tierPage * (s.tierUse j 2 0 + (match s.plan j with | none => 0 | some p => p.shadowPages))) 0 +
    s.idx.gens.foldl (fun n g =>
      if g.2.state ≠ .free ∧ jobs.contains (genJob g.2.hdr) then n + genTableBytes g.2.hdr else n) 0

/-- The paddock's quota in bytes. -/
def State.lpddrQuota (s : State) (pad : Nat) : Nat := (s.paddock pad).lpddrGib * 1073741824

/-- The rank of HBM has no room for one more page of the job (its budget or its stack's frames). -/
def State.hbmFull (s : State) (job tiller : Nat) : Bool :=
  match s.plan job with
  | none => true
  | some p => decide (planHbm p.hdr ≤ s.tierUse job 1 tiller) ||
      decide (393216 ≤ (s.cis.hbmUsed.filter (fun k => k / 16777216 = tiller)).length +
        (s.cis.hbmRetired.filter (fun k => k / 16777216 = tiller)).length)

/-- LPDDR has no room for one more page of the job (its budget or its paddock's quota). -/
def State.lpFull (s : State) (job : Nat) : Bool :=
  match s.plan job with
  | none => true
  | some p => decide (planLpddr p.hdr ≤ s.tierUse job 2 0 + p.shadowPages) ||
      (match p.loaded with
        | none => true
        | some pad => decide (s.lpddrQuota pad < s.lpddrUse pad + tierPage)) ||
      decide (s.poolFrames ≤ s.cis.lpUsed.length)

/-- The victim of R335: the coldest page of the job and tier, below a heat where one is given, ties to the higher address. Pages accessed in
the stroke just closed are taken only where `acc` says so (R337). -/
def State.victim (s : State) (job tier tiller : Nat) (heat : Option Nat) (acc : Bool) : Option Nat :=
  let c := (s.livePtes job).filter (fun e => e.2.valid && decide (e.2.tier = tier) &&
    (decide (tier ≠ 1) || decide (e.2.tiller = tiller)) && !e.2.pinned && !e.2.hold && !e.2.moving && (acc || !e.2.acc) &&
    (match heat with | none => true | some h => decide (e.2.heat < h)))
  (minBy (fun e => e.2.heat * 4294967296 + (4294967295 - e.1)) c).map Prod.fst

/-- Queue a move and mark its page. -/
def State.addMove (s : State) (m : Move) : State :=
  match s.pte m.job m.vpn with
  | none => s
  | some e =>
    let s := s.setPte m.job m.vpn { e with moving := true }
    { s with cis := { s.cis with moves := s.cis.moves ++ [m] } }

/-- Count a promotion that found no victim (R335). -/
def State.cisRefused (s : State) (job : Nat) : State :=
  (s.bump (s.whOf (job % 4)) 29 0x10C 1).event (s.whOf (job % 4)) 29 [sqBit 0x118 1] []

/-- Make room in LPDDR for one page: a victim goes to flash (R335). None when there is none to take. -/
def State.roomLp (s : State) (job heat : Nat) : Option State :=
  if !s.lpFull job then some s
  else if s.wdl.readOnly then none
  else match s.victim job 2 0 (some heat) false with
    | none => none
    | some v => some (s.addMove { job := job, vpn := v, tier := 3, tiller := 0, kind := 0 })

/-- Make room in LPDDR for a page that leaves HBM (R335, R357): in read-only no page goes to flash for it, and the use may exceed the
quota while frames are left. -/
def State.roomDown (s : State) (job heat : Nat) : Option State :=
  if s.wdl.readOnly then (if s.poolFrames ≤ s.cis.lpUsed.length then none else some s) else s.roomLp job heat

/-- Make room in a stack for one page: a victim goes to LPDDR, which may demote one of its own (R335, R337). -/
def State.roomHbm (s : State) (job tiller heat : Nat) (hold : Bool) : Option State :=
  if !s.hbmFull job tiller then some s
  else
    let v := match s.victim job 1 tiller (some heat) false with
      | some v => some v
      | none => if hold then s.victim job 1 tiller none true else none
    match v with
    | none => none
    | some v =>
      let h := match s.pte job v with | none => 0 | some e => e.heat
      (s.roomDown job h).map (fun s => s.addMove { job := job, vpn := v, tier := 2, tiller := 0, kind := 0 })

/-- A paddock is over quota (R327). -/
def State.overQuota (s : State) (pad : Nat) : Bool := decide (s.lpddrQuota pad < s.lpddrUse pad)

/-- Decide the promotion of one counted page (R334, R335, R337). -/
def State.promote (s : State) (job vpn : Nat) : State :=
  match s.pte job vpn with
  | none => s
  | some e =>
    if e.moving || !e.valid || e.lost || (e.pinned && !e.hold) then s
    else
      let w := s.thr job
      let home := s.homeOf job vpn
      if 1 < e.tier ∧ (e.hold = true ∨ thrUpHbm w ≤ e.heat) ∧ home.isSome = true then
        match home with
        | none => s
        | some t =>
          match s.roomHbm job t e.heat e.hold with
          | none => s.cisRefused job
          | some s =>
            s.addMove { job := job, vpn := vpn, tier := 1, tiller := t, kind := 1 }
      else if e.tier = 3 ∧ thrUpLp w ≤ e.heat then
        match s.plan job with
        | none => s
        | some p =>
          if (match p.loaded with | none => true | some pad => s.overQuota pad) then s.cisRefused job
          else match s.roomLp job e.heat with
            | none => s.cisRefused job
            | some s => s.addMove { job := job, vpn := vpn, tier := 2, tiller := 0, kind := 1 }
      else s

/-- The pages accessed in the closing stroke or held below HBM, hottest first, ties to the lower address. -/
def State.counted (s : State) : List (Nat × Nat) :=
  let c := s.cis.ptes.filter (fun e => e.2.acc || (e.2.hold && decide (1 < e.2.tier)))
  (sortBy (fun e => (255 - e.2.heat) * 18446744073709551616 + e.1) c).map (fun e => (e.1 / 4294967296, e.1 % 4294967296))

/-- Step 1 of R333: a page accessed in the closing stroke gains 1, saturating (R332). -/
def State.addHeat (s : State) : State :=
  s.mapPtes (fun _ e => if e.acc then { e with heat := min (e.heat + 1) 255 } else e)

/-- Clear the marks of the closing stroke. -/
def State.clearAcc (s : State) : State :=
  s.mapPtes (fun _ e => { e with acc := false })

/-- Staged thresholds take effect before step 2 of R333. -/
def State.applyThr (s : State) : State :=
  { s with cis := { s.cis with
      thr := s.cis.thrStaged.foldl (fun t e => Tbl.put t e.1 e.2) s.cis.thr
      thrStaged := [] } }

/-- Demote unpinned LPDDR pages of a paddock until its use fits its quota (R327). -/
def State.fitQuota : Nat → State → Nat → State
  | 0, s, _ => s
  | fuel + 1, s, pad =>
    if !s.overQuota pad || s.wdl.readOnly then s
    else
      let vs := (s.paddock pad).jobs.filterMap (fun j => (s.victim j 2 0 none false).map (fun v => (j, v)))
      let cand := minBy (fun (e : Nat × Nat) => match s.pte e.1 e.2 with | none => 256 | some p => p.heat) vs
      match cand with
      | none => s
      | some (j, v) => State.fitQuota fuel (s.addMove { job := j, vpn := v, tier := 3, tiller := 0, kind := 0 }) pad

/-- Bytes of a paddock's LPDDR use that no demotion can lower (R327): pinned and held pages, shadows, and the tables charged to it. -/
def State.lpddrFixed (s : State) (pad : Nat) : Nat :=
  let jobs := (s.paddock pad).jobs
  s.lpddrUse pad - jobs.foldl (fun n j => n + tierPage * ((s.livePtes j).filter (fun e =>
    e.2.valid && decide (e.2.tier = 2) && !e.2.pinned && !e.2.hold)).length) 0

/-- Hold a paddock to its quota; one that pinned pages and charges alone put over it is over quota, which is shown when it begins
(R327). -/
def State.quotaPad (s : State) (pad : Nat) : State :=
  let s := State.fitQuota (s.cis.lpUsed.length + 1) s pad
  let rest := s.cis.overQuotas.filter (fun p => p ≠ pad)
  if s.lpddrFixed pad ≤ s.lpddrQuota pad then { s with cis := { s.cis with overQuotas := rest } }
  else
    let t : State := { s with cis := { s.cis with overQuotas := pad :: rest } }
    if s.cis.overQuotas.contains pad then t else t.event (s.whOf 0) 29 [sqBit 0x118 3] []

/-- Hold every paddock to its quota (R327). -/
def State.quotas (s : State) : State := s.pad.pads.foldl (fun s e => s.quotaPad e.1) s

/-- The demotion of one page in the scan (R336). -/
def State.scanPage (s : State) (job vpn : Nat) : State :=
  match s.pte job vpn with
  | none => s
  | some e =>
    let w := s.thr job
    if e.pinned || e.hold || e.moving || !e.valid then s
    else if e.tier = 1 ∧ e.heat < thrDownHbm w then s.addMove { job := job, vpn := vpn, tier := 2, tiller := 0, kind := 2 }
    else if e.tier = 2 ∧ e.heat < thrDownLp w ∧ s.wdl.readOnly = false then
      s.addMove { job := job, vpn := vpn, tier := 3, tiller := 0, kind := 2 }
    else s

/-- Steps 3 and 4 of R333: every heat is halved, and the scan for demotions follows. -/
def State.halveHeat (s : State) : State :=
  let s := s.mapPtes (fun _ e => { e with heat := e.heat / 2 })
  let s := s.cis.ptes.foldl (fun s e => s.scanPage (e.1 / 4294967296) (e.1 % 4294967296)) s
  { s with cis := { s.cis with halvedAt := s.strokeN + 1 } }

/-- HEAT_HALVING (R333 steps 3 and 4): at a boundary where stroke mod 1,024 is 0, once. -/
def heatHalving (s : State) : State :=
  if s.strokeN % 1024 ≠ 0 ∨ s.atBoundary = false ∨ s.cis.halvedAt = s.strokeN + 1 then s else s.halveHeat

/-- The Cistern's steps at a boundary before the items of R52 (R333); the quotas are held to while the closing stroke's accesses are
still known (R327, R335). -/
def State.cisternBoundary (s : State) : State :=
  let s := s.addHeat.applyThr
  let s := s.counted.foldl (fun s e => s.promote e.1 e.2) s
  let s := heatHalving s.quotas.clearAcc
  { s with cis := { s.cis with ranMoves := [] } }

/-- Write a page's dirty sectors to its backing: each 16 KiB logical page holding one is written whole (R340). Answers the
logical pages written. -/
def State.writeBack (s : State) (job vpn : Nat) (e : Pte) : State × Nat :=
  match e.memAt, s.backingAt job vpn with
  | some (sp, a), some (bp, b) =>
    let ls := (List.range 4).filter (fun i => e.dirty / 2 ^ (4 * i) % 16 ≠ 0)
    let m := ls.foldl (fun m i => Memory.copy m (sp.key (a + 16384 * i)) (bp.key (b + 16384 * i)) 16384) s.mem
    let part := if e.backing = 1 then 2 else 5
    let lp (i : Nat) : Nat := if e.backing = 1 then lpStore job (b / 16384 + i) else lpScratch job (b / 16384 + i)
    (ls.foldl (fun s i => s.writeLogical part (lp i)) { s with mem := m }, ls.length)
  | _, _ => (s, 0)

/-- The logical pages that cover `n` bytes from an offset of a tier page on flash: partition and logical page (R339). -/
def State.flashLps (s : State) (job vpn off n : Nat) : List (Nat × Nat) :=
  match s.backingAt job vpn with
  | none => []
  | some (sp, b) =>
    let first := (b + off) / 16384
    let k := ceilDiv ((b + off) % 16384 + n) 16384
    (List.range k).map (fun i => match sp with
      | .image id => (2, lpImage id (first + i))
      | .store j => (2, lpStore j (first + i))
      | _ => (5, lpScratch job (first + i)))

/-- The frames or the medium a move goes to cannot take it: the stack or the frame pool is full, or flash is read-only (R357). -/
def State.moveStuck (s : State) (m : Move) : Bool :=
  match m.tier with
  | 1 => decide (393216 ≤ ((s.cis.hbmUsed ++ s.cis.hbmRetired).filter (fun k => k / 16777216 = m.tiller)).length)
  | 2 => decide (s.poolFrames ≤ s.cis.lpUsed.length)
  | _ => s.wdl.readOnly

/-- Run one move to its end: copy, switch the entry, free the old frame (R338 to R340); a move that its destination cannot take is
abandoned. -/
def State.runMove (s : State) (m : Move) : State :=
  match s.pte m.job m.vpn with
  | none => s
  | some e =>
    if s.moveStuck m then s.setPte m.job m.vpn { e with moving := false } else
    let w := s.whOf (m.job % 4)
    let s := if e.tier = 3 then (s.flashLps m.job m.vpn 0 tierPage).foldl (fun s l => s.readLogical w l.1 l.2 []) s else s
    let src := s.pageAt m.job m.vpn e
    let inl := s.inlineBytes m.job m.vpn 0 tierPage
    let put (s : State) (sp : Space) (a : Nat) : State :=
      match src with
      | some (p, b) => { s with mem := Memory.copy s.mem (p.key b) (sp.key a) tierPage }
      | none => s.store sp a inl
    let s := s.bumpWide w 29 1 0 tierPage
    match m.tier with
    | 1 =>
      let r := s.allocHbm m.tiller
      let s := (put r.2 (.hbm m.tiller) (tierPage * r.1)).freeFrame e
      let s := if e.hold then s.bumpWide w 29 4 0 1 else s
      (s.setPte m.job m.vpn { e with tier := 1, tiller := m.tiller, loc := r.1, moving := false }).bump w 29 0x104 1
    | 2 =>
      let r := s.allocLp
      let s := (put r.2 .lpddr (tierPage * r.1)).freeFrame e
      (s.setPte m.job m.vpn { e with tier := 2, tiller := 0, loc := r.1, moving := false }).bump w 29
        (if e.tier = 3 then 0x104 else 0x108) 1
    | _ =>
      let r := s.writeBack m.job m.vpn e
      let idx := s.backIdx m.job m.vpn
      let s := (r.1.freeFrame e).bumpWide w 29 3 0 r.2
      (s.setPte m.job m.vpn { e with tier := 3, tiller := 0, loc := idx, dirty := 0, moving := false }).bump w 29 0x108 1

/-- A move waits on the Windlass: its page lies on flash. -/
def State.fromFlash (s : State) (m : Move) : Bool := match s.pte m.job m.vpn with | none => false | some e => decide (e.tier = 3)

/-- The move of a page may be the next to end (R338): it waits on the Windlass, or it is the next of its Wellhead's others, victims before
promotions before scan demotions; and the Wellhead has moves left in this stroke. -/
def State.moveNext (s : State) (m : Move) : Bool :=
  decide (Tbl.val 0 s.cis.ranMoves (m.job % 4) < 512) &&
    (s.fromFlash m || decide (minBy (fun m => m.kind) (s.cis.moves.filter (fun x => decide (x.job % 4 = m.job % 4) && !s.fromFlash x)) = some m))

/-- MOVE_COMPLETE (R338): a move that may be the next to end ends. -/
def moveComplete (s : State) (job vpn : Nat) : State :=
  match s.moveOf job vpn with
  | none => s
  | some m =>
    if s.moveNext m = false then s
    else
      let keep := s.cis.moves.filter (fun x => !(decide (x.job = m.job) && decide (x.vpn = m.vpn)))
      let n := Tbl.val 0 s.cis.ranMoves (m.job % 4) + 1
      let s := { s with cis := { s.cis with moves := keep, ranMoves := Tbl.set 0 s.cis.ranMoves (m.job % 4) n } }
      match s.pte m.job m.vpn with
      | none => s
      | some e => if e.moving then s.runMove m else s

/-- A Tiller's SRAM and HBM contents are gone (R341): clean entries become flash pages, dirty ones are lost; moves from
or to it are abandoned (R339). -/
def State.tierLoss (s : State) (t : Nat) : State :=
  let here (e : Pte) : Bool := decide (e.tier ≤ 1) && decide (e.tiller = t) && e.valid
  let lost := (s.cis.ptes.filter (fun e => here e.2 && decide (e.2.dirty ≠ 0))).foldl (fun l e => insNat (s.whOf (e.1 / 4294967296 % 4)) l) []
  let moves := s.cis.moves.filter (fun m => !(decide (m.tier = 1) && decide (m.tiller = t)))
  let gone : Nat → Bool := fun k => !(moves.any (fun m => decide (pteKey m.job m.vpn = k)))
  let ptes := s.cis.ptes.map (fun e =>
    let p := if here e.2 then
        (if e.2.dirty = 0 then { e.2 with
            tier := 3, tiller := 0, loc := s.backIdx (e.1 / 4294967296) (e.1 % 4294967296), moving := false }
          else { e.2 with lost := true, dirty := 0, moving := false })
      else if e.2.moving && gone e.1 then { e.2 with moving := false } else e.2
    (e.1, p))
  let s := { s with
    cis := { s.cis with ptes := ptes, moves := moves, hbmUsed := s.cis.hbmUsed.filter (fun k => k / 16777216 ≠ t) }
    mem := Memory.clear (Memory.clear s.mem (Space.key (.sram t) 0) 0x14000000) (Space.key (.hbm t) 0) 25769803776 }
  lost.foldl (fun s w => s.event w 29 [sqBit 0x118 2] []) s

/-- A page of a job lies on flash where neither copy of it reads (R257, R341). -/
def State.flashLost (s : State) (job vpn : Nat) (e : Pte) : Bool :=
  decide (e.tier = 3) && e.valid && (s.flashLps job vpn 0 tierPage).any (fun l => !s.lpReads l.1 l.2 [])

/-- Copies of the `i`th of some logical pages that read back uncorrectable, of a list that names copy `c` of page `i` as 2 × i + c. -/
def badCopies (bad : List Nat) (i : Nat) : List Nat := [0, 1].filter (fun c => bad.contains (2 * i + c))

/-- The planes that a read of logical pages goes to serve it at once (R349). -/
def State.planesServe (s : State) (ls : List (Nat × Nat)) : Bool :=
  ls.all (fun l => (s.copies l.1 l.2).all (fun c => s.planeServes (blkPlane (entryBlk c.2))))

/-- FLASH_PAGE_READ (R339, R348, R349, R351, R356, R359): a read of a page on flash is served in place, once its planes serve it.
Where no copy of a logical page reads, a STORE or SCRATCH page is lost; of an IMAGE page the spec states no data. `bad` are the copies
that read back uncorrectable: 2 × i + c for copy c of the ith logical page read. The answer is the bytes as a number. -/
def flashPageRead (s : State) (job va len : Nat) (bad : List Nat) : State :=
  let vpn := va / tierPage
  let n := min len (tierPage - va % tierPage)
  let w := s.whOf (job % 4)
  match s.pte job vpn with
  | none => s
  | some e =>
    let ls := s.flashLps job vpn (va % tierPage) n
    if e.tier ≠ 3 ∨ e.valid = false ∨ s.planesServe ls = false then s
    else
      let s := s.touch (8 + ((s.homeOf job vpn).getD 0)) job vpn false
      let good := ls.zipIdx.all (fun l => s.lpReads l.1.1 l.1.2 (badCopies bad l.2))
      let s := ls.zipIdx.foldl (fun s l => s.readLogical w l.1.1 l.1.2 (badCopies bad l.2)) s
      if good then s.answer (leNat (s.vaRead job va n))
      else if e.backing = 0 then
        let r := s.drawBytes n
        r.2.answer (leNat r.1)
      else match s.pte job vpn with
        | none => s
        | some e => ((s.setPte job vpn { e with lost := true, dirty := 0 }).bump w 29 0x110 1).answer 0

/-! ### Meanings -/

/-- HEAT_HALVING (R333, R336). -/
def execHeatHalving (s : State) : Host.Outcome State Fault Refusal := .next (heatHalving s)
/-- MOVE_COMPLETE (R338). -/
def execMoveComplete (page : PageRef) (s : State) : Host.Outcome State Fault Refusal := .next (moveComplete s page.job page.vpn)
/-- FLASH_PAGE_READ (R339, R195). -/
def execFlashPageRead (job va len : Nat) (bad : List Nat) (s : State) : Host.Outcome State Fault Refusal :=
  .next (flashPageRead s job va len bad)

end Sys2Proof.Machine
end

