-- ==== Sys2Proof/Machine/Formats.lean ====
section
/-! DEFINITION. Number formats, conversions, vector arithmetic, exact accumulation and reductions (R96 to R118). FP32
values are numbers below 2^32. -/

namespace Sys2Proof.Machine

/-- The FP32 NaN every vector result reads as (R103, R113). -/
def f32NaN : Nat := 0x7FC00000

/-- ±infinity in FP32. -/
def f32Inf (neg : Bool) : Nat := if neg then 0xFF800000 else 0x7F800000

/-- Decode the fields of R96: exponent width, mantissa width, bias; every code finite. -/
def decFin (eb mb bias code : Nat) : Val :=
  let neg := bitAt code (eb + mb)
  let e := code / 2 ^ mb % 2 ^ eb
  let m := code % 2 ^ mb
  if e = 0 then .fin neg m (1 - (bias : Int) - mb) else .fin neg (m + 2 ^ mb) ((e : Int) - bias - mb)

/-- Decode a format whose top exponent holds infinities and NaNs as IEEE 754 does. -/
def decIeee (eb mb bias code : Nat) : Val :=
  if code / 2 ^ mb % 2 ^ eb = 2 ^ eb - 1 then
    (if code % 2 ^ mb = 0 then .inf (bitAt code (eb + mb)) else .nan)
  else decFin eb mb bias code

/-- FP32 as a value (R96). -/
def f32Val (w : Nat) : Val := decIeee 8 23 127 w

/-- An element of a format code of R129 as a value, scale not applied (R96 to R98). INT8 is two's complement. -/
def elemVal (fmt code : Nat) : Val :=
  match fmt with
  | 0 => decFin 2 1 1 code
  | 1 => decFin 2 3 1 code
  | 2 => decFin 3 2 3 code
  | 3 | 5 => if code % 128 = 127 then .nan else decFin 4 3 7 code
  | 4 | 6 => decIeee 5 2 15 code
  | 7 => if code < 128 then .fin false code 0 else .fin true (256 - code) 0
  | 8 => decIeee 8 7 127 code
  | _ => decIeee 5 10 15 code

/-- Bits of an element of a format. -/
def elemBits (fmt : Nat) : Nat :=
  match fmt with
  | 0 => 4
  | 1 | 2 => 6
  | 8 | 9 => 16
  | _ => 8

/-- A format carries block scales (R99). -/
def fmtMx (fmt : Nat) : Bool := decide (fmt ≤ 4)

/-- The anchor offset of a format (R102). -/
def fmtOffset (fmt : Nat) : Int := if fmt = 4 ∨ fmt = 6 then 7 else 0

/-- Multiply a value by a power of two. -/
def Val.scale (v : Val) (e : Int) : Val :=
  match v with
  | .fin n m x => .fin n m (x + e)
  | w => w

/-- The negation of a value. -/
def Val.negate : Val → Val
  | .nan => .nan
  | .inf n => .inf (!n)
  | .fin n m e => .fin (!n) m e

/-- Round a positive dyadic onto a format's grid as if its exponent range were unbounded above: the code without sign
(R103). -/
def roundCode (mb bias m : Nat) (e : Int) : Nat :=
  if m = 0 then 0
  else
    let q : Int := max ((Nat.log2 m : Int) + e - mb) (1 - bias - mb)
    let n : Nat :=
      if q ≤ e then m * 2 ^ (e - q).toNat
      else
        let s := (q - e).toNat
        let k := m / 2 ^ s
        let r := m % 2 ^ s
        let h := 2 ^ (s - 1)
        if h < r ∨ (r = h ∧ k % 2 = 1) then k + 1 else k
    n + (q + mb + bias - 1).toNat * 2 ^ mb

/-- The conversions of R103: exponent and mantissa width, bias, code of the largest finite value, overflow, infinity and
NaN codes (the last three without sign; NaN as it stands). -/
def toFmt (eb mb bias maxFin ovf inf nan : Nat) (v : Val) : Nat :=
  match v with
  | .nan => nan
  | .inf n => inf + b2n n * 2 ^ (eb + mb)
  | .fin n m e =>
    let c := roundCode mb bias m e
    (if maxFin < c then ovf else c) + b2n n * 2 ^ (eb + mb)

/-- rn: a value to FP32 (R103). -/
def rn (v : Val) : Nat := toFmt 8 23 127 0x7F7FFFFF 0x7F800000 0x7F800000 0x7FC00000 v

/-- A value to BF16 (R103). -/
def toBf16 (v : Val) : Nat := toFmt 8 7 127 0x7F7F 0x7F80 0x7F80 0x7FC0 v

/-- A value to FP16 (R103). -/
def toFp16 (v : Val) : Nat := toFmt 5 10 15 0x7BFF 0x7C00 0x7C00 0x7E00 v

/-- A value to INT8: nearest, ties to even, ±127 beyond, NaN 0 (R103). -/
def toInt8 (v : Val) : Nat :=
  match v with
  | .nan => 0
  | .inf n => if n then 129 else 127
  | .fin n m e =>
    let k : Nat :=
      if 0 ≤ e then m * 2 ^ e.toNat
      else
        let s := (-e).toNat
        let r := m % 2 ^ s
        let h := 2 ^ (s - 1)
        if h < r ∨ (r = h ∧ m / 2 ^ s % 2 = 1) then m / 2 ^ s + 1 else m / 2 ^ s
    let k := min k 127
    if n ∧ k ≠ 0 then 256 - k else k

/-- A value to an element format of R129 (R103); a NaN in the NaN-free formats gives +0 (R104 sets the scale). -/
def toElem (fmt : Nat) (v : Val) : Nat :=
  match fmt with
  | 0 => toFmt 2 1 1 7 7 7 0 v
  | 1 => toFmt 2 3 1 31 31 31 0 v
  | 2 => toFmt 3 2 3 31 31 31 0 v
  | 3 | 5 => toFmt 4 3 7 0x7E 0x7E 0x7E 0x7F v
  | 4 | 6 => toFmt 5 2 15 0x7B 0x7B 0x7C 0x7E v
  | 7 => toInt8 v
  | 8 => toBf16 v
  | _ => toFp16 v

/-- Exact product of two values. -/
def Val.mul (a b : Val) : Val :=
  match a, b with
  | .nan, _ => .nan
  | _, .nan => .nan
  | .inf n, .inf k => .inf (n != k)
  | .inf n, .fin k m _ => if m = 0 then .nan else .inf (n != k)
  | .fin k m _, .inf n => if m = 0 then .nan else .inf (n != k)
  | .fin n m e, .fin k l f => .fin (n != k) (m * l) (e + f)

/-- The integer a finite value is of the unit 2^e, for e at most its exponent. -/
def Val.units (neg : Bool) (m : Nat) (x e : Int) : Int :=
  let k : Int := (m * 2 ^ (x - e).toNat : Nat)
  if neg then -k else k

/-- Exact sum of two values; an exact zero is +0 unless both are −0. -/
def Val.add (a b : Val) : Val :=
  match a, b with
  | .nan, _ => .nan
  | _, .nan => .nan
  | .inf n, .inf k => if n = k then .inf n else .nan
  | .inf n, .fin .. => .inf n
  | .fin .., .inf n => .inf n
  | .fin n m e, .fin k l f =>
    let x := min e f
    let t := Val.units n m e x + Val.units k l f x
    if t = 0 then .fin (n && k && (m == 0) && (l == 0)) 0 0
    else .fin (decide (t < 0)) t.natAbs x

/-- FP32 sum (R113). -/
def fAdd (a b : Nat) : Nat := rn ((f32Val a).add (f32Val b))
/-- FP32 difference. -/
def fSub (a b : Nat) : Nat := rn ((f32Val a).add (f32Val b).negate)
/-- FP32 product (R113). -/
def fMul (a b : Nat) : Nat := rn ((f32Val a).mul (f32Val b))
/-- fma: a × b + c formed exactly and rounded once (R113). -/
def fFma (a b c : Nat) : Nat := rn (((f32Val a).mul (f32Val b)).add (f32Val c))
/-- FP32 negation; a NaN stays the NaN of R113. -/
def fNeg (a : Nat) : Nat := rn (f32Val a).negate

/-- The FP32 word is a NaN. -/
def fIsNaN (a : Nat) : Bool := decide (f32Val a = .nan)

/-- a < b on FP32 words; false when either is NaN. +0 and −0 are equal. -/
def fLt (a b : Nat) : Bool :=
  match f32Val a, f32Val b with
  | .nan, _ => false
  | _, .nan => false
  | .inf n, .inf k => n && !k
  | .inf n, .fin .. => n
  | .fin .., .inf k => !k
  | .fin n m e, .fin k l f => let x := min e f; decide (Val.units n m e x < Val.units k l f x)

/-- a ≤ b on FP32 words. -/
def fLe (a b : Nat) : Bool := !fIsNaN a && !fIsNaN b && !fLt b a

/-- max of R113: NaN if either is NaN, +0 above −0. -/
def fMax (a b : Nat) : Nat :=
  if fIsNaN a || fIsNaN b then f32NaN
  else if fLt a b then b else if fLt b a then a else min a b

/-- min of R113. -/
def fMin (a b : Nat) : Nat :=
  if fIsNaN a || fIsNaN b then f32NaN
  else if fLt a b then a else if fLt b a then b else max a b

/-- num / den × 2^e as a value with one sticky bit below 30 further bits: exact for the purpose of rn. -/
def quotVal (neg : Bool) (num den : Nat) (e : Int) : Val :=
  let sh := 40 + Nat.log2 den
  let q := num * 2 ^ sh / den
  let r := num * 2 ^ sh % den
  .fin neg (2 * q + b2n (decide (r ≠ 0))) (e - sh - 1)

/-- reciprocal (R114). -/
def fRecip (a : Nat) : Nat :=
  match f32Val a with
  | .nan => f32NaN
  | .inf n => b2n n * 0x80000000
  | .fin n m e => if m = 0 then f32Inf n else rn (quotVal n 1 m (-e))

/-- Integer square root by bits: the greatest r with r² ≤ x, below 2^k above r0. -/
def isqrtGo (x : Nat) : Nat → Nat → Nat
  | 0, r => r
  | k + 1, r => if (r + 2 ^ k) * (r + 2 ^ k) ≤ x then isqrtGo x k (r + 2 ^ k) else isqrtGo x k r

/-- rsqrt (R114). -/
def fRsqrt (a : Nat) : Nat :=
  match f32Val a with
  | .nan => f32NaN
  | .inf n => if n then f32NaN else 0
  | .fin n m e =>
    if m = 0 then f32Inf n
    else if n then f32NaN
    else
      let m := if e % 2 = 0 then m else 2 * m
      let e := if e % 2 = 0 then e else e - 1
      let k := 40 + Nat.log2 m
      let x := 2 ^ (2 * k) / m
      let r := isqrtGo x (k + 1) 0
      let exact : Bool := decide (r * r * m = 2 ^ (2 * k))
      rn (.fin false (2 * r + b2n (!exact)) (-(e / 2) - k - 1))

/-- The table T of R115: T[i] = rn(2^(i/64)). -/
def expTable : List Nat :=
  [0x3F800000, 0x3F8164D2, 0x3F82CD87, 0x3F843A29, 0x3F85AAC3, 0x3F871F62, 0x3F88980F, 0x3F8A14D5,
   0x3F8B95C2, 0x3F8D1ADF, 0x3F8EA43A, 0x3F9031DC, 0x3F91C3D3, 0x3F935A2B, 0x3F94F4F0, 0x3F96942D,
   0x3F9837F0, 0x3F99E046, 0x3F9B8D3A, 0x3F9D3EDA, 0x3F9EF532, 0x3FA0B051, 0x3FA27043, 0x3FA43516,
   0x3FA5FED7, 0x3FA7CD94, 0x3FA9A15B, 0x3FAB7A3A, 0x3FAD583F, 0x3FAF3B79, 0x3FB123F6, 0x3FB311C4,
   0x3FB504F3, 0x3FB6FD92, 0x3FB8FBAF, 0x3FBAFF5B, 0x3FBD08A4, 0x3FBF179A, 0x3FC12C4D, 0x3FC346CD,
   0x3FC5672A, 0x3FC78D75, 0x3FC9B9BE, 0x3FCBEC15, 0x3FCE248C, 0x3FD06334, 0x3FD2A81E, 0x3FD4F35B,
   0x3FD744FD, 0x3FD99D16, 0x3FDBFBB8, 0x3FDE60F5, 0x3FE0CCDF, 0x3FE33F89, 0x3FE5B907, 0x3FE8396A,
   0x3FEAC0C7, 0x3FED4F30, 0x3FEFE4BA, 0x3FF28177, 0x3FF5257D, 0x3FF7D0DF, 0x3FFA83B3, 0x3FFD3E0C]

/-- exp (R115). -/
def fExp (x : Nat) : Nat :=
  match f32Val x with
  | .nan => f32NaN
  | .inf n => if n then 0 else f32Inf false
  | .fin .. =>
    let y := fMul x 0x3FB8AA3B
    if fLe 0x43000000 y then f32Inf false
    else if fLt y 0xC3160000 then 0
    else
      let j : Int := match f32Val y with
        | .fin n m e =>
          let v : Int := if n then -(m : Int) else m
          if 0 ≤ e + 6 then v * (2 ^ (e + 6).toNat : Nat) else v / (2 ^ (-(e + 6)).toNat : Nat)
        | _ => 0
      let i := (j % 64).toNat
      let n := j / 64
      let r := rn ((f32Val y).add (.fin (decide (0 < j)) j.natAbs (-6)))
      let q := fFma (fFma 0x3D635847 r 0x3E75FDF0) r 0x3F317218
      let p := fMul q r
      let t := (expTable[i]?).getD 0
      rn ((f32Val (fFma t p t)).scale n)

/-- relu (R116). -/
def fRelu (x : Nat) : Nat := if fIsNaN x then f32NaN else if fLt 0 x then x else 0
/-- sq_relu (R116). -/
def fSqRelu (x : Nat) : Nat := let r := fRelu x; fMul r r
/-- silu (R116). -/
def fSilu (x : Nat) : Nat := fMul x (fRecip (fAdd 0x3F800000 (fExp (fNeg x))))
/-- gelu_tanh (R116). -/
def fGelu (x : Nat) : Nat :=
  let w := fFma 0x3D372713 (fMul x (fMul x x)) x
  let u := fMul 0x3F4C422A w
  fMul x (fRecip (fAdd 0x3F800000 (fExp (fMul 0xC0000000 u))))

/-- erf (R117). -/
def fErf (x : Nat) : Nat :=
  if fIsNaN x then f32NaN
  else
    let a := x % 0x80000000
    let sgn := x / 0x80000000 * 0x80000000
    if a = 0 then x
    else
      let r :=
        if fLe 0x40800000 a then 0x3F800000
        else if fLt a 0x3D800000 then fMul a (fFma 0xBEC093A3 (fMul a a) 0x3F906EBB)
        else
          let t := fRecip (fFma 0x3EA7BA05 a 0x3F800000)
          let q := fFma (fFma (fFma (fFma 0x3F87DC22 t 0xBFBA00E3) t 0x3FB5F0E3) t 0xBE91A98E) t 0x3E827906
          let q := fMul q t
          fFma (fNeg q) (fExp (fNeg (fMul a a))) 0x3F800000
      r % 0x80000000 + sgn

/-- One level of the pairwise tree. -/
def treeLevel (f : Nat → Nat → Nat) : List Nat → List Nat
  | a :: b :: t => f a b :: treeLevel f t
  | l => l

/-- `n` levels of the tree. -/
def treeLevels (f : Nat → Nat → Nat) : Nat → List Nat → List Nat
  | 0, l => l
  | n + 1, l => treeLevels f n (treeLevel f l)

/-- One block of 256 reduced by the tree, padded with `z`. -/
def treeBlock (f : Nat → Nat → Nat) (z : Nat) (l : List Nat) : Nat :=
  ((treeLevels f 8 (l ++ List.replicate (256 - l.length) z)).head?).getD z

/-- The chain of blocks of 256 (R118). -/
def reduceRow (f : Nat → Nat → Nat) (z : Nat) : Nat → Nat → List Nat → Nat
  | 0, total, _ => total
  | fuel + 1, total, l =>
    if l.isEmpty then total else reduceRow f z fuel (f total (treeBlock f z (l.take 256))) (l.drop 256)

/-- The row sum of R118 from a running total: the later part of a split row takes the total of the earlier one. -/
def rowSumFrom (total : Nat) (l : List Nat) : Nat := reduceRow fAdd 0 (l.length / 256 + 1) total l
/-- The row maximum of R118 from a running maximum. -/
def rowMaxFrom (total : Nat) (l : List Nat) : Nat := reduceRow fMax (f32Inf true) (l.length / 256 + 1) total l
/-- The row minimum of R118 from a running minimum. -/
def rowMinFrom (total : Nat) (l : List Nat) : Nat := reduceRow fMin (f32Inf false) (l.length / 256 + 1) total l
/-- The row sum of R118. -/
def rowSum (l : List Nat) : Nat := rowSumFrom 0 l
/-- The row maximum of R118. -/
def rowMax (l : List Nat) : Nat := rowMaxFrom (f32Inf true) l
/-- The row minimum of R118. -/
def rowMin (l : List Nat) : Nat := rowMinFrom (f32Inf false) l

/-- FP32 of an exact value decoded with an MX scale code (R105): 0xFF decodes to NaN. -/
def decodeScaled (fmt code scale : Nat) : Nat :=
  if scale = 255 then f32NaN else rn ((elemVal fmt code).scale ((scale : Int) - 127))

/-! ### Anchored exact accumulation (R106 to R111) -/

/-- Wrap an integer to 112-bit two's complement. -/
def wrap112 (x : Int) : Int := signed 112 (unsigned 112 x)

/-- Add one product of scale exponent sum `se` (R108); `bad` says that a scale of the block is 0xFF. -/
def Acc.addProduct (a : Acc) (x y : Val) (se : Int) (bad : Bool) : Acc :=
  match x.mul y with
  | .nan => { a with nan := true }
  | .inf n => if bad then { a with nan := true } else if n then { a with neg := true } else { a with pos := true }
  | .fin n m e =>
    if bad then { a with nan := true }
    else
      let sh : Int := e + se - (a.anchor - 87)
      let t : Nat := if 0 ≤ sh then m * 2 ^ sh.toNat else m / 2 ^ (-sh).toNat
      { a with acc := wrap112 (a.acc + (if n then -(t : Int) else t)) }

/-- The readout of R110. -/
def Acc.readout (a : Acc) : Nat :=
  if a.nan || (a.pos && a.neg) then f32NaN
  else if a.pos then f32Inf false
  else if a.neg then f32Inf true
  else if a.acc = 0 then 0
  else rn (.fin (decide (a.acc < 0)) a.acc.natAbs (a.anchor - 87))

/-- The exact partial word of R111. -/
def Acc.word (a : Acc) : Nat :=
  b2n a.nan * 2 ^ 124 + b2n a.pos * 2 ^ 123 + b2n a.neg * 2 ^ 122 + unsigned 10 a.anchor * 2 ^ 112 + unsigned 112 a.acc

/-- The accumulator an exact partial word stands for (R111). -/
def Acc.ofWord (w : Nat) : Acc :=
  { acc := signed 112 (w % 2 ^ 112), nan := bitAt w 124, pos := bitAt w 123, neg := bitAt w 122
    anchor := signed 10 (w / 2 ^ 112 % 1024) }

/-- Two partials of one output with equal anchors added (R111). -/
def Acc.merge (a b : Acc) : Acc :=
  { a with acc := wrap112 (a.acc + b.acc), nan := a.nan || b.nan, pos := a.pos || b.pos, neg := a.neg || b.neg }

/-- The fixed-order chunked sum of R112 over FP32 products, from a running total. -/
def chunkSum : Nat → Nat → List Nat → Nat
  | 0, total, _ => total
  | fuel + 1, total, l =>
    if l.isEmpty then total else chunkSum fuel (fAdd total ((l.take 64).foldl fAdd 0)) (l.drop 64)

/-- A dot product under R112 of two lists of FP32 words, from the running total of the earlier slices. -/
def dotFixedFrom (total : Nat) (a b : List Nat) : Nat :=
  let p := List.zipWith fMul a b
  chunkSum (p.length / 64 + 1) total p

/-- A dot product under R112 of two lists of FP32 words. -/
def dotFixed (a b : List Nat) : Nat := dotFixedFrom 0 a b

/-- Element k of a row whose bytes stand as the number `row` (R100). -/
def elemOf (fmt row k : Nat) : Nat := row / 2 ^ (elemBits fmt * k) % 2 ^ elemBits fmt

/-- The word of an anchor with nothing counted. -/
def anchorEmpty : Nat := 0x4000

/-- Fold one block into an anchor word (R107, R130). -/
def anchorFold (fa fb : Nat) (w : Nat) (sa sb : Nat) : Nat :=
  if sa = 255 ∨ sb = 255 then w ||| 0x8000
  else
    let v : Int := ((sa : Int) - 127) + fmtOffset fa + ((sb : Int) - 127) + fmtOffset fb
    let m := if bitAt w 14 then v else max v (signed 10 (w % 1024))
    (w / 0x8000) * 0x8000 + unsigned 10 m

/-- The scale codes a format uses: exponent 0 (code 127) where it carries no scale (R101). -/
def scalesFor (fmt n : Nat) (cs : List Nat) : List Nat := if fmtMx fmt then cs else List.replicate n 127

/-- The accumulator an anchor word starts (R130). -/
def accOf (w : Nat) : Acc :=
  { anchor := if bitAt w 14 then 0 else signed 10 (w % 1024) + 17, nan := bitAt w 15 }

/-- The starting accumulator of an anchored output: FIXED anchors are oa + ob + 17 (R125). -/
def fixedAcc (fa fb : Nat) : Acc := { anchor := fmtOffset fa + fmtOffset fb + 17 }

/-- The accumulation of one anchored output (R108). -/
def accumulate (fa fb ks ko : Nat) (a b : Nat) (sa sb : List Nat) (start : Acc) : Acc :=
  (List.range ks).foldl (fun acc k =>
    let blk := (ko + k) / 32
    let ca := (sa[blk]?).getD 127
    let cb := (sb[blk]?).getD 127
    acc.addProduct (elemVal fa (elemOf fa a k)) (elemVal fb (elemOf fb b k))
      (((ca : Int) - 127) + ((cb : Int) - 127)) (decide (ca = 255) || decide (cb = 255))) start

/-- floor(log2) of a finite non-zero magnitude m × 2^x. -/
def valLog (m : Nat) (x : Int) : Int := (Nat.log2 m : Int) + x

/-- The greatest floor(log2 |v|) over the finite non-zero values of a block: none where amax is 0. -/
def blockLog : List Nat → Option Int
  | [] => none
  | v :: t =>
    match f32Val v, blockLog t with
    | .fin _ m x, none => if m = 0 then none else some (valLog m x)
    | .fin _ m x, some y => if m = 0 then some y else some (max (valLog m x) y)
    | _, r => r

/-- emax of an MX element format (R146). -/
def fmtEmax (f : Nat) : Int := match f with | 0 => 2 | 1 => 2 | 2 => 4 | 3 => 8 | _ => 15

/-- Quantise one block of 32 values (R146): scale code and element codes. -/
def mxBlock (f : Nat) (vs : List Nat) : Nat × List Nat :=
  if decide (f ≤ 2) && vs.any fIsNaN then (255, vs.map (fun _ => 0))
  else
    let x : Int := match blockLog vs with | none => -127 | some l => max (l - fmtEmax f) (-127)
    ((x + 127).toNat, vs.map (fun v => toElem f ((f32Val v).scale (-x))))

/-- Pack element codes as a little-endian bit string (R100). -/
def packElems (bits : Nat) (cs : List Nat) : List Byte :=
  leBytes (cs.length * bits / 8) ((cs.zipIdx).foldl (fun n e => n + e.1 * 2 ^ (bits * e.2)) 0)

/-- Blocks of 32 of a line, the last padded with +0 (R145); `fuel` bounds their number. -/
def lineBlocks : Nat → List Nat → List (List Nat)
  | 0, _ => []
  | fuel + 1, l => if l.isEmpty then [] else (l.take 32 ++ List.replicate (32 - (l.take 32).length) 0) :: lineBlocks fuel (l.drop 32)

end Sys2Proof.Machine
end

