-- ==== Sys2Proof/Machine/Winnow.lean ====
section
/-! DEFINITION. What a Winnow call forms: rank order, sums, the left-out total (R206 to R208). -/

namespace Sys2Proof.Machine

/-- A value with NaN ranking as −∞. -/
def nanLow (v : Nat) : Nat := if fIsNaN v then f32Inf true else v

/-- Entry (value, index) `a` ranks before `b` (R206). -/
def ranksBefore (a b : Nat × Nat) : Bool :=
  fLt (nanLow b.1) (nanLow a.1) || (!fLt (nanLow a.1) (nanLow b.1) && decide (a.2 < b.2))

/-- Put an entry into rank order. -/
def rankIns (x : Nat × Nat) : List (Nat × Nat) → List (Nat × Nat)
  | [] => [x]
  | y :: t => if ranksBefore y x then y :: rankIns x t else x :: y :: t

/-- Rank order (R206). -/
def rankSort (l : List (Nat × Nat)) : List (Nat × Nat) := l.foldr rankIns []

/-- The row maximum m over included entries, NaN as −∞ (R207). -/
def rowMaxOf (l : List (Nat × Nat)) : Nat := rowMax (l.map (fun e => nanLow e.1))

/-- The term e of an included value (R207). -/
def winTerm (exp : Bool) (m v : Nat) : Nat :=
  if fIsNaN v then 0
  else if exp then
    if m = f32Inf true then 0
    else if m = f32Inf false then (if v = f32Inf false then 0x3F800000 else 0)
    else fExp (fSub v m)
  else if v % 0x80000000 = 0x7F800000 then 0 else v

/-- What a Winnow call forms. -/
def winSel (exp : Bool) (m : Nat) (sel : List (Nat × Nat)) : Nat := rowSum (sel.map (fun e => winTerm exp m e.1))

/-- The total over the whole row in position order from a start (R208). -/
def winTotal (exp : Bool) (m start : Nat) (row : List (Nat × Nat × Bool)) : Nat :=
  reduceRow fAdd 0 (row.length / 256 + 1) start (row.map (fun e => if e.2.2 then winTerm exp m e.1 else 0))

/-- left (R208). -/
def winLeft (exp : Bool) (total sel : Nat) : Nat :=
  let r := fSub total sel
  if exp && fLt r 0 then 0 else r

end Sys2Proof.Machine
end

