-- ==== Sys2Proof/Machine/Attention.lean ====
section
/-! DEFINITION. KV rows and summaries, page selection and the attention arithmetic (R183, R186 to R195). -/

namespace Sys2Proof.Machine

/-! ### Rows (R183) -/

/-- A key or value vector as a page holds it: element bytes, and E8M0 scale bytes (none for BF16). -/
abbrev KvVec := List Byte × List Byte

/-- A row of a block: its key and its value. -/
abbrev KvRow := KvVec × KvVec

/-- Job virtual address of the block of layer L and group g of a page (R182, R183). -/
def kvBlockAt (k : List Byte) (id layer group : Nat) : Nat :=
  kvData k + id * kvPageStride k + (layer * kvGroups k + group) * kvBlock k

/-- A vector of FP32 values in kv_fmt (R102, R145, R183). -/
def kvQuant (k : List Byte) (vs : List Nat) : KvVec :=
  if kvBf16 k then (vs.flatMap (fun v => leBytes 2 (toBf16 (f32Val v))), [])
  else
    let bs := (lineBlocks (vs.length / 32 + 1) vs).map (mxBlock 3)
    (packElems 8 (bs.flatMap Prod.snd), bs.map (fun b => BitVec.ofNat 8 b.1))

/-- The FP32 values of a vector in kv_fmt (R104). -/
def kvVals (k : List Byte) (v : KvVec) : List Nat :=
  (List.range (kvDim k)).map (fun x =>
    if kvBf16 k then rn (elemVal 8 (fld v.1 (2 * x) 2)) else decodeScaled 3 (fld v.1 x 1) (fld v.2 (x / 32) 1))

/-- Row t of a block (R183). -/
def kvRowOf (k : List Byte) (block : List Byte) (t : Nat) : KvRow :=
  let d := kvDim k
  let e := if kvBf16 k then 2 else 1
  let part (at_ n : Nat) : List Byte := (block.drop (at_ + t * n)).take n
  let scales (at_ : Nat) : List Byte := if kvBf16 k then [] else part at_ (d / 32)
  ((part 0 (e * d), scales (128 * d)), (part (64 * e * d) (e * d), scales (130 * d)))

/-- Write row t of a block. -/
def State.kvPut (s : State) (job : Nat) (id layer group t : Nat) (r : KvRow) : State :=
  let k := s.kvd job
  let d := kvDim k
  let e := if kvBf16 k then 2 else 1
  let w := s.whOf (job % 4)
  let a := kvBlockAt k id layer group
  let s := (s.vaWrite w job (a + t * e * d) r.1.1).vaWrite w job (a + 64 * e * d + t * e * d) r.2.1
  if kvBf16 k then s
  else (s.vaWrite w job (a + 128 * d + t * (d / 32)) r.1.2).vaWrite w job (a + 130 * d + t * (d / 32)) r.2.2

/-- Rows 0 to n − 1 of a page at one layer, each as a list over the groups. -/
def State.kvRowsAt (s : State) (job id layer n : Nat) : List (List KvRow) :=
  let k := s.kvd job
  let bs := (List.range (kvGroups k)).map (fun g => s.vaRead job (kvBlockAt k id layer g) (kvBlock k))
  (List.range n).map (fun t => bs.map (fun b => kvRowOf k b t))

/-! ### Summaries (R184, R186) -/

/-- The summary vector of one block. -/
def kvSummary (k block : List Byte) : List Byte :=
  let keys := (List.range 64).map (fun t => kvVals k (kvRowOf k block t).1)
  (List.range (kvDim k)).flatMap (fun x =>
    let s := keys.foldl (fun a v => fAdd a ((v[x]?).getD 0)) 0
    leBytes 2 (toBf16 (f32Val (rn ((f32Val s).scale (-6))))))

/-- Write the summaries of one layer of a page, whose row 63 has just been written; a DENSE job writes none (R193). -/
def State.kvSummaries (s : State) (job id layer : Nat) : State :=
  let k := s.kvd job
  if kvDense k then s
  else (List.range (kvGroups k)).foldl (fun s g =>
    s.vaWrite (s.whOf (job % 4)) job (kvSumm k + id * kvSummStride k + (layer * kvGroups k + g) * 2 * kvDim k)
      (kvSummary k (s.vaRead job (kvBlockAt k id layer g) (kvBlock k)))) s

/-! ### The attention arithmetic (R187) -/

/-- Values of head `h` among values laid out head by head. -/
def headVals (k : List Byte) (vs : List Word) (h : Nat) : List Nat :=
  (List.range (kvDim k)).map (fun x => ((vs[h * kvDim k + x]?).getD 0).toNat)

/-- The dot product of two vectors in kv_fmt: anchored exact for MXFP8 (R105 to R110), fixed order for BF16 (R112). -/
def kvDot (k : List Byte) (a b : KvVec) : Nat :=
  if kvBf16 k then dotFixed (kvVals k a) (kvVals k b)
  else
    let sa := a.2.map BitVec.toNat
    let sb := b.2.map BitVec.toNat
    let w := (sa.zip sb).foldl (fun w p => anchorFold 3 3 w p.1 p.2) anchorEmpty
    (accumulate 3 3 (kvDim k) 0 (leNat a.1) (leNat b.1) sa sb (accOf w)).readout

/-- The scores s[t] of a query head over the rows of T. -/
def attnScores (k : List Byte) (q : List Nat) (ts : List KvRow) : List Nat :=
  ts.map (fun r => fMul (kvDot k (kvQuant k q) r.1) (kvScale k))

/-- The terms e[t]. -/
def attnTerms (s : List Nat) : List Nat := s.map (fun v => fExp (fSub v (rowMax s)))

/-- out[x] of a query head over T, in ascending position order. -/
def attnHead (k : List Byte) (q : List Nat) (ts : List KvRow) : List Nat :=
  let e := attnTerms (attnScores k q ts)
  let vs := ts.map (fun r => kvVals k r.2)
  (List.range (kvDim k)).map (fun x =>
    fMul (rowSum ((e.zip vs).map (fun p => fMul p.1 ((p.2[x]?).getD 0)))) (fRecip (rowSum e)))

/-- The outputs of every query head of a layer over T. -/
def attnLayer (k : List Byte) (q : List Word) (ts : List (List KvRow)) : List Word :=
  (List.range (kvGroups k * kvHeads k)).flatMap (fun h =>
    (attnHead k (headVals k q h) (ts.map (fun r => (r[h / kvHeads k]?).getD (([], []), ([], []))))).map (BitVec.ofNat 32))

/-! ### Selection (R189, R190) -/

/-- The selection width of a step (R189). -/
def kEff (k : List Byte) (w : Nat) : Nat := min (kvKBase k * 2 ^ w) (kvKCap k)

/-- The score of a candidate page at one layer: the greatest over the query heads (R190). -/
def State.kvScore (s : State) (job id layer : Nat) (q : List Word) : Nat :=
  let k := s.kvd job
  let b := s.vaRead job (kvSumm k + id * kvSummStride k + layer * kvGroups k * 2 * kvDim k) (kvGroups k * 2 * kvDim k)
  rowMax ((List.range (kvGroups k * kvHeads k)).map (fun h =>
    fMul (dotFixed ((headVals k q h).map (fun v => toBf16 (f32Val v) * 65536))
      ((List.range (kvDim k)).map (fun x => rn (elemVal 8 (fld b (2 * (h / kvHeads k * kvDim k + x)) 2))))) (kvScale k)))

/-- The selected pages in ascending order, and whether the left-out share exceeds theta (R190). -/
def kvSelect (k : List Byte) (scores : List Nat) (width : Nat) : List Nat × Bool :=
  if scores.length ≤ width then (List.range scores.length, false)
  else
    let row := scores.zipIdx
    let m := rowMaxOf row
    let sel := (rankSort row).take width
    let ss := winSel true m sel
    let left := winLeft true (winTotal true m 0 (row.map (fun e => (e.1, e.2, true)))) ss
    ((List.range scores.length).filter (fun i => sel.any (fun e => e.2 == i)),
      fLt (fMul (kvTheta k) (fAdd ss left)) left)

/-! ### Reads (R194, R195) -/

/-- Ranges of a block that `rows` rows occupy: K, V and, for MXFP8, their scales (R183). -/
def kvRanges (bf16 : Bool) (d base rows : Nat) : List (Nat × Nat) :=
  let e := if bf16 then 2 else 1
  [(base, rows * e * d), (base + 64 * e * d, rows * e * d)] ++
    (if bf16 then [] else [(base + 128 * d, rows * (d / 32)), (base + 130 * d, rows * (d / 32))])

/-- The tier page of a job's address lies below HBM. -/
def State.belowHbm (s : State) (job vpn : Nat) : Bool :=
  match s.pte job vpn with
  | none => false
  | some e => e.valid && decide (1 < e.tier)

/-- Read a range for KV: each tier page is accessed, and bytes from LPDDR or flash are counted (R195). -/
def State.kvRead (s : State) (job va n : Nat) : State :=
  (vaPieces (n / tierPage + 2) va n).foldl (fun s p =>
    let die := match s.homeOf job p.1 with | some t => 8 + t | none => s.whOf (job % 4)
    let s := if s.belowHbm job p.1 then s.kvCount job 5 p.2.2 else s
    s.touch die job p.1 false) s

/-- Read `rows` rows of a page at one layer. -/
def State.kvReadPage (s : State) (job id layer rows : Nat) : State :=
  let k := s.kvd job
  (List.range (kvGroups k)).foldl (fun s g =>
    (kvRanges (kvBf16 k) (kvDim k) (kvBlockAt k id layer g) rows).foldl (fun s r => s.kvRead job r.1 r.2) s) s

/-- Read the summaries of a page at one layer. -/
def State.kvReadSumm (s : State) (job id layer : Nat) : State :=
  let k := s.kvd job
  s.kvRead job (kvSumm k + id * kvSummStride k + layer * kvGroups k * 2 * kvDim k) (kvGroups k * 2 * kvDim k)

/-! ### A position -/

/-- The page id that holds page `i` of a request. -/
def Slot.kvPageId (x : Slot) (i : Nat) : Nat := ((x.kv[i]?).map KvEnt.page).getD 0

/-- Rows of page `i` up to position `pos`. -/
def rowsUpTo (pos i : Nat) : Nat := if i < pos / 64 then 64 else pos % 64 + 1

/-- One (position, layer) unit (R188 to R192): the reads of T, what attention over it gives, and whether the unit exceeded.
The window pages are read first, then the selected ones in ascending order. -/
def State.kvUnit (s : State) (n pos layer width : Nat) (all : Bool) (q : List Word) : State × List Word × Bool :=
  let x := s.slot n
  let job := descJob x.desc
  let k := s.kvd job
  let c := pos / 64
  let rows (s : State) (l : List Nat) : List (List KvRow) :=
    l.flatMap (fun i => s.kvRowsAt job (x.kvPageId i) layer (rowsUpTo pos i))
  let read (s : State) (l : List Nat) : State :=
    l.foldl (fun s i => s.kvReadPage job (x.kvPageId i) layer (rowsUpTo pos i)) s
  if all then (read s (List.range (c + 1)), attnLayer k q (rows s (List.range (c + 1))), false)
  else
    let cand := c + 1 - kvWindow k
    let wnd := (List.range (c + 1 - cand)).map (fun i => cand + i)
    let pick := kvSelect k ((List.range cand).map (fun i => s.kvScore job (x.kvPageId i) layer q)) width
    let out := attnLayer k q (rows s (pick.1 ++ wnd))
    let s := (read s wnd).kvCount job 2 wnd.length
    let s := ((List.range cand).foldl (fun s i => s.kvReadSumm job (x.kvPageId i) layer) s).kvCount job 3 (cand * kvGroups k)
    let s := (read s pick.1).kvCount job 1 pick.1.length
    (s.kvCount job 4 (b2n pick.2), out, pick.2)

/-- The widening exponent of the step that processes a position: that of the history entry of the token it leads to (R185,
R202). -/
def Slot.widthAt (x : Slot) (pos : Nat) : Nat :=
  ((x.history[pos + 1 - x.promptTokens.length]?).map Hist.w).getD x.w

/-- Process one position of a request at every layer (R186 to R191): its keys and values go into its row where `write` is set, at row
63 the layer's summaries follow, and attention runs over T. Answers whether some unit exceeded. What the plan computes before and
after attention is free (log entry 96). -/
def State.kvPosition (s : State) (n pos : Nat) (write : Bool) : State × Bool :=
  let x := s.slot n
  let job := descJob x.desc
  let k := s.kvd job
  let img := match s.plan job with | none => [] | some p => p.image
  let id := x.kvPageId (pos / 64)
  let all := decide (pos < x.promptTokens.length) || kvDense k
  let put (s : State) (layer : Nat) (h : List Word) : State :=
    let s := (List.range (kvGroups k)).foldl (fun s g => s.kvPut job id layer g (pos % 64)
      (kvQuant k (headVals k (Config.planKey img layer pos h) g), kvQuant k (headVals k (Config.planValue img layer pos h) g))) s
    if pos % 64 = 63 then s.kvSummaries job id layer else s
  let r := (List.range (kvLayers k)).foldl (fun (a : State × List Word × Bool) layer =>
    let s := if write then put a.1 layer a.2.1 else a.1
    let u := s.kvUnit n pos layer (kEff k (x.widthAt pos)) all (Config.planQuery img layer pos a.2.1)
    (u.1, Config.planNext img layer a.2.1 u.2.1, a.2.2 || u.2.2)) (s, Config.planEmbed img ((x.tokens[pos]?).getD 0) pos, false)
  (r.1, r.2.2)

end Sys2Proof.Machine
end

