-- ==== Sys2Proof/Machine/Gate.lean ====
section
/-! DEFINITION. Which page an access reaches, which class a write belongs to, and whether it is applied (R414, R415,
R441 to R447, R459); the result registers of the catalogue commands (R219). -/

namespace Sys2Proof.Machine

/-- The block type of a page of a die (R442, R446): 0 where the page is unimplemented. -/
def pageType (die page : Nat) : Nat :=
  if die ≤ 3 then
    match page with
    | 0 => 0x0C | 9 => 0x09 | 10 => 0x0A | 11 => 0x0B | 12 => 0x19
    | 13 => if die ≤ 1 then 0x11 else 0
    | 14 => 0x10
    | 15 => if die = 0 then 0x16 else 0
    | 16 => if die = 0 then 0x17 else 0
    | 25 => 0x1A | 28 => 0x07 | 29 => 0x08 | 30 => 0x0F | 31 => 0x0D | 32 => 0x0E | 33 => 0x12
    | 34 => 0x13 | 35 => 0x14
    | _ => 0
  else if 8 ≤ die ∧ die ≤ 75 then
    if page = 0 then 0x02
    else if page ≤ 12 then 0x03
    else if page ≤ 24 then 0x04
    else match page with
      | 25 => 0x1A | 26 => 0x05 | 27 => 0x06 | 28 => 0x07 | 29 => 0x08 | 30 => 0x0F | 34 => 0x13 | 35 => 0x14
      | 36 => 0x15 | _ => 0
  else if 80 ≤ die ∧ die ≤ 111 then
    match page with
    | 0 => 0x18 | 34 => 0x13 | 35 => 0x14 | _ => 0
  else if die = 120 then (if page ≤ 13 then 0x01 else 0)
  else 0

/-- PG_ID.instance (R447). -/
def pageInstance (die page : Nat) : Nat :=
  match pageType die page with
  | 0x03 => page - 1
  | 0x04 => page - 13
  | 0x11 => die
  | 0x01 => page
  | _ => 0

/-- The page exists on a fitted die (R442, R443). -/
def State.pageThere (s : State) (die page : Nat) : Bool :=
  decide (pageType die page ≠ 0) && !(decide (80 ≤ die ∧ die ≤ 111) && decide (s.wellCount ≤ die - 80))

/-- A die's register bus is being reset, about 700 µs long (R472). -/
def State.busDown (s : State) (die : Nat) : Bool :=
  match (Tbl.val ({} : ClkDie) s.clk die).busDown with
  | none => false
  | some n => decide (s.strokeN < n + 14)

/-- The die is powered down: a retired Tiller, a failed Well, a failed Wellhead (R443). -/
def State.dieDown (s : State) (die : Nat) : Bool :=
  if die ≤ 3 then s.flt.failedWh.contains die
  else if 8 ≤ die ∧ die ≤ 75 then decide ((s.tiller (die - 8)).role = .retired)
  else if 80 ≤ die ∧ die ≤ 111 then decide ((s.well (die - 80)).state = 4)
  else false

/-- A page reads as a powered-down die's to a requester: while the register bus is reset, the debug port still reaches the CLK and PWR
pages over its own chain (R443, R472). -/
def State.pageOff (s : State) (req : Requester) (die page : Nat) : Bool :=
  s.dieDown die || (s.busDown die && !(req == .debug && (page == 34 || page == 35)))

/-- The page is live: a requester's writes reach it. -/
def State.pageLive (s : State) (req : Requester) (die page : Nat) : Bool := s.pageThere die page && !s.pageOff req die page

/-- The classes of R414: 0 STATUS, 1 CATALOGUE, 2 TRAFFIC, 3 PLATFORM. `off` is the register's offset; `sq` says that
it holds SQ fields. -/
def writeClass (die page off : Nat) (sq : Bool) (req : Requester) : Nat :=
  if off = 0x00C ∨ off = 0x010 ∨ off = 0x014 ∨ off = 0x01C ∨ off = 0x020 ∨ off = 0x028 ∨ off = 0x02C then 0
  else if sq then 0
  else if pageType die page = 0x11 ∧ off = 0x104 ∧ requesterPort req = some die then 0
  else if die = 120 ∧ 4 ≤ page ∧ page ≤ 11 then 1
  else if pageType die page = 0x0B then 2
  else 3

/-- The fuses permit a port a class (R415, R417: bits [3:0] of the port's permissions). -/
def State.permits (s : State) (p cls : Nat) : Bool :=
  cls == 0 || bitAt (if p = 0 then s.boot.perm0 else s.boot.perm1) cls

/-- The fuses permit a port to command a paddock (R62, R417). -/
def State.permitsPad (s : State) (p pad : Nat) : Bool :=
  bitAt (if p = 0 then s.boot.perm0 else s.boot.perm1) (16 + pad)

/-- A write denied or not ready: logged on the target page and counted in the port's HPT_DENIED (R415, R459). -/
def State.denyWrite (s : State) (p die page code : Nat) : State :=
  ((s.err die page code).bump p 13 0x110 1).event p 13 [sqBit 0x118 1] []

/-- Whether a register write reaches its page: none when it does not, with the state after the drop (R443, R415,
R459). -/
def State.gate (s : State) (req : Requester) (die page cls : Nat) : State × Bool :=
  if !s.pageLive req die page then (s, false)
  else match requesterPort req with
    | none => (s, true)
    | some p =>
      if s.flt.safe || !((s.hp p).bars && (s.hp p).pagesReady) then (s, false)
      else if !s.boot.ready && cls != 0 && !(decide (die = 0 ∧ page = 15) && s.boot.fwHold) then
        (s.denyWrite p die page 0xFE, false)
      else if !s.permits p cls then (s.denyWrite p die page 0xFF, false)
      else (s, true)

/-- Run a register command through the gate. -/
def State.gated (s : State) (req : Requester) (die page cls : Nat) (f : State → State) : State :=
  let g := s.gate req die page cls
  if g.2 then f g.1 else g.1

/-! ### Command registers of the four steps of R219 -/

/-- The state field of a result register (bits [31:28]). -/
def State.cmdState (s : State) (die page off : Nat) : Nat := bitsOf (s.reg die page off).toNat 31 28

/-- A command is under way: BUSY or PENDING. -/
def State.cmdBusy (s : State) (die page off : Nat) : Bool :=
  s.cmdState die page off == 1 || s.cmdState die page off == 2

/-- Write a result register: state, code, id. -/
def State.setResult (s : State) (die page off st code id : Nat) : State :=
  s.setRegN die page off (st * 0x10000000 + code * 0x100000 + id)

/-- A command of a MOD page ends: DONE with its code; SQ bits done and refused (R219 and each page's STAT). -/
def State.cmdDone (s : State) (page code id : Nat) : State :=
  (s.setResult 120 page 0x10C 3 code id).event 120 page
    (sqBit 0x118 0 :: (if code = 0 then [] else [sqBit 0x118 1])) []

/-- The device address in the ADDR_LO and ADDR_HI registers of a MOD page. -/
def State.cmdAddr (s : State) (page : Nat) : Nat :=
  (s.reg 120 page 0x100).toNat + (s.reg 120 page 0x104).toNat % 65536 * 4294967296

/-- Run a command of a MOD page unless one is under way, which drops the write with PG_ERR 0x01 (R219). -/
def State.modCommand (s : State) (req : Requester) (page : Nat) (f : State → State) : State :=
  s.gated req 120 page 1 (fun s => if s.cmdBusy 120 page 0x10C then s.err 120 page 1 else f s)

/-- The host area (R326): its base address. -/
def State.hostBase (s : State) : Nat := (3840 - s.cis.hostGib) * 1073741824

/-- A range of device addresses lies wholly in the host area (R326). -/
def State.inHost (s : State) (a n : Nat) : Bool :=
  decide (s.hostBase ≤ a) && decide (a + n ≤ 3840 * 1073741824)

/-- No job is loaded. -/
def State.noJobs (s : State) : Bool := s.cis.plans.all (fun e => e.2.loaded.isNone)

end Sys2Proof.Machine
end

