-- ==== Sys2Proof/Machine/Plans.lean ====
section
/-! DEFINITION. Staging, unstaging and flushing plans, and the host area (R180, R326, R328 to R330, R344). -/

namespace Sys2Proof.Machine

/-- The regions of a plan image (R329). -/
def readRegions (img : List Byte) (off n : Nat) : List Region :=
  (List.range n).map (fun i =>
    let e := (img.drop (off + 32 * i)).take 32
    { va := fld e 0 8, pages := fld e 8 4, place := fld e 0xC 1, backing := fld e 0xD 1, rank := fld e 0xE 1
      flags := fld e 0xF 1, sramAddr := fld e 0x10 4, srcId := fld e 0x14 4, srcOff := fld e 0x18 8 })

/-- Two regions share a page. -/
def regionsMeet (a b : Region) : Bool :=
  decide (a.va < b.va + tierPage * b.pages) && decide (b.va < a.va + tierPage * a.pages)

/-- No two regions of a list overlap. -/
def regionsApart : List Region → Bool
  | [] => true
  | r :: t => t.all (fun x => !regionsMeet r x) && regionsApart t

/-- One region entry is within R329 for a plan of `ranks` ranks and an image of `bytes` bytes. -/
def regionOk (ranks bytes : Nat) (r : Region) : Bool :=
  decide (r.va % tierPage = 0) && decide (1 ≤ r.pages) && decide (r.va + tierPage * r.pages ≤ 2 ^ 48) &&
  decide (r.place ≤ 3) && decide (r.backing ≤ 2) &&
  (if r.place ≤ 1 then decide (ranks ≠ 0) && (decide (r.rank < ranks) || decide (r.rank = 0xFF)) else true) &&
  decide (r.flags < 4) && (!bitAt r.flags 0 || (decide (r.place = 0) && decide (r.backing = 0))) &&
  (if r.place = 0 then decide (r.sramAddr % tierPage = 0) && decide (r.sramAddr + tierPage * r.pages ≤ 0x14000000)
    else decide (r.sramAddr = 0)) &&
  decide (r.srcOff % 4096 = 0) && (!bitAt r.flags 1 || decide (r.srcId = 0)) &&
  (decide (r.backing ≠ 0) || r.hasSource) && (decide (r.backing ≠ 2) || !r.hasSource) &&
  (!bitAt r.flags 1 || decide (r.srcOff + tierPage * r.pages ≤ bytes))

/-- The KV descriptor is within R180. -/
def kvOk (k : List Byte) : Bool :=
  k.length == 64 && crcOk k && fld k 4 1 == 1 && decide (fld k 5 1 < 32) && !bitAt (fld k 5 1) 2 &&
  decide (fld k 5 1 % 4 ≤ 1) && (fld k 6 1 == 3 || fld k 6 1 == 8) && decide (fld k 7 1 ≤ 64) &&
  decide (1 ≤ kvLayers k) && decide (kvLayers k ≤ 256) && decide (1 ≤ kvGroups k) && decide (kvGroups k ≤ 64) &&
  decide (1 ≤ fld k 0xB 1) && decide (fld k 0xB 1 ≤ 32) && [64, 128, 192, 256].contains (kvDim k) &&
  (kvDense k || (decide (1 ≤ kvKBase k) && decide (kvKBase k ≤ 64) && decide (kvKBase k ≤ kvKCap k) &&
    decide (kvKCap k ≤ 256) && f32UnitPos (fld k 0x14 4) && decide (kvSumm k % tierPage = 0))) &&
  zeros k 0xF 1 && decide (1 ≤ kvCtx k) && decide (kvCtx k ≤ 16384) &&
  f32Finite (fld k 0x18 4) && decide (0 < fld k 0x18 4) && decide (fld k 0x18 4 < 0x80000000) &&
  decide (1 ≤ kvPool k) && decide (kvPool k ≤ 2 ^ 24) && decide (kvData k % tierPage = 0) &&
  decide (kvRec k % 4096 = 0) && zeros k 0x38 8

/-- The header is within R328. -/
def planHdrOk (h : List Byte) (bytes : Nat) : Bool :=
  fld h 4 1 == 1 && decide (planKind h ≤ 1) && decide (planServices h < 16) && decide (1 ≤ planServices h) &&
  decide (1 ≤ planK h) && decide (planK h ≤ 64) && (planServes h 0 || planCert h == 0) &&
  decide (1 ≤ fld h 0xC 4) && decide (fld h 0xC 4 ≤ 4096) && decide (fld h 0x10 8 + 32 * fld h 0xC 4 ≤ bytes) &&
  (fld h 0x18 8 == 0 || decide (fld h 0x18 8 + 64 ≤ bytes)) &&
  decide (planRanks h ≤ 64) && (planKind h == 1 || decide (1 ≤ planRanks h)) && zeros h 0x22 2 &&
  decide (planHbm h ≤ 393216) && !badThr (planThr h) &&
  (if planKind h = 0 then decide (1 ≤ planVocab h) && decide (planVocab h ≤ 2 ^ 18) && decide (fld h 0x18 8 ≠ 0)
    else planVocab h == 0) &&
  zeros h 0x34 4 && zeros h 0x40 64

/-- A source lies wholly within a READY model image (R329). Image records: see State.image. -/
def State.sourceOk (s : State) (r : Region) : Bool :=
  r.srcId == 0 || (match Tbl.look s.wdl.images r.srcId with
    | none => false
    | some i => i.ready && decide (r.srcOff + tierPage * r.pages ≤ i.bytes))

/-- A plan needs STORE backing. -/
def needsStore (rs : List Region) : Bool := rs.any (fun r => r.backing == 1)

/-- Bytes of STORE backing of a list of regions. -/
def storeBytes (rs : List Region) : Nat := rs.foldl (fun n r => if r.backing = 1 then n + tierPage * r.pages else n) 0

/-- Bytes of the model partition that neither an image nor a staged plan's STORE backing takes (R330, R370). -/
def State.storeRoom (s : State) : Nat :=
  s.modelBytes - s.wdl.images.foldl (fun n e => n + e.2.bytes) 0 -
    s.cis.plans.foldl (fun n e => n + storeBytes e.2.regions) 0

/-- The checks of STAGE in order (R330); answers a code, or the plan. -/
def State.stageCheck (s : State) (job addr : Nat) : Nat × Plan :=
  let h := s.load .lpddr addr 128
  let bytes := fld h 0x38 8
  if job = 0 then (2, {})
  else if addr % 128 ≠ 0 ∨ s.inHost addr 128 = false then (2, {})
  else if (s.plan job).isSome then (4, {})
  else if bytes < 128 ∨ s.inHost addr bytes = false then (2, {})
  else
    let img := s.load .lpddr addr bytes
    let rs := readRegions img (fld h 0x10 8) (fld h 0xC 4)
    let kv := if fld h 0x18 8 = 0 then [] else (img.drop (fld h 0x18 8)).take 64
    if !crcOk img then (1, {})
    else if !(planHdrOk h bytes && rs.all (regionOk (planRanks h) bytes) && regionsApart rs &&
        (kv.isEmpty || kvOk kv)) then (2, {})
    else if !(rs.all s.sourceOk) then (3, {})
    else if needsStore rs && s.wdl.readOnly then (8, {})
    else if s.storeRoom < storeBytes rs ∨ Config.tableSpace job = false then (7, {})
    else (0, { hdr := h, regions := rs, kvd := kv, image := img })

/-- Fill the STORE backing of a plan from its sources (R329). -/
def State.fillStore (s : State) (job : Nat) (p : Plan) : State :=
  p.vpns.foldl (fun s vpn =>
    match findRegion p.regions vpn 0 with
    | none => s
    | some (r, idx) =>
      if r.backing ≠ 1 then s
      else
        let dst := Space.key (.store job) (tierPage * idx)
        let o := r.srcOff + tierPage * (vpn - r.va / tierPage)
        let s := if r.hasSource then (List.range 4).foldl (fun s i => s.writeLogical 2 (lpStore job (4 * idx + i))) s else s
        if bitAt r.flags 1 then { s with mem := Memory.writeBytes (Memory.clear s.mem dst tierPage) dst (padTo tierPage ((p.image.drop o).take tierPage)) }
        else if r.srcId ≠ 0 then { s with mem := Memory.copy s.mem (Space.key (.image r.srcId) o) dst tierPage }
        else { s with mem := Memory.clear s.mem dst tierPage }) s

/-- Stage a plan under a job id. -/
def State.putPlan (s : State) (job : Nat) (p : Plan) : State :=
  { s with cis := { s.cis with plans := Tbl.put s.cis.plans job p } }

/-- PLAN_STAGE (R330). -/
def planStage (s : State) (req : Requester) (job : Nat) : State :=
  s.modCommand req 9 (fun s =>
    let r := s.stageCheck job (s.cmdAddr 9)
    if r.1 = 0 then
      let s := (s.putPlan job r.2).fillStore job r.2
      s.cmdDone 9 0 job
    else s.cmdDone 9 r.1 job)

/-- Remove a plan and everything the Cistern keeps of it (R330). -/
def State.dropPlan (s : State) (job : Nat) : State :=
  let s := (s.livePtes job).foldl (fun s e => s.freeFrame e.2) s
  let s := (s.discard 2 (fun lp => decide (lp / 1099511627776 = 1048576 + job))).discard 5
    (fun lp => decide (lp / 1099511627776 = job))
  { s with
    cis := { s.cis with
      plans := Tbl.del s.cis.plans job
      ptes := s.cis.ptes.filter (fun e => e.1 / 4294967296 ≠ job)
      thr := Tbl.del s.cis.thr job
      thrStaged := Tbl.del s.cis.thrStaged job
      moves := s.cis.moves.filter (fun m => m.job ≠ job) } }

/-- PLAN_UNSTAGE (R330). -/
def planUnstage (s : State) (req : Requester) (job : Nat) : State :=
  s.modCommand req 9 (fun s =>
    match s.plan job with
    | none => s.cmdDone 9 6 job
    | some p => if p.loaded.isSome then s.cmdDone 9 5 job else (s.dropPlan job).cmdDone 9 0 job)

/-- Write back every dirty STORE page of a job (R330, R340). -/
def State.flushJob (s : State) (job : Nat) : State :=
  (s.livePtes job).foldl (fun s e =>
    if e.2.backing = 1 ∧ e.2.dirty ≠ 0 then
      let r := s.writeBack job e.1 e.2
      (r.1.setPte job e.1 { e.2 with dirty := 0 }).bumpWide (s.whOf (job % 4)) 29 3 0 r.2
    else s) s

/-- PLAN_FLUSH (R330): DONE when all are durable. -/
def planFlush (s : State) (req : Requester) (job : Nat) : State :=
  s.modCommand req 9 (fun s =>
    match s.plan job with
    | none => s.cmdDone 9 6 job
    | some _ => if s.wdl.readOnly then s.cmdDone 9 8 job else (s.flushJob job).cmdDone 9 0 job)

/-- A write of MOD_CIS_HOST (R326): dropped with PG_ERR 0x02 while a job is loaded or outside 16 to 3,840. -/
def State.cisHost (s : State) (v : Nat) : State :=
  let g := v % 4096
  if s.noJobs = true ∧ 16 ≤ g ∧ g ≤ 3840 then { s with cis := { s.cis with hostGib := g } }
  else s.err 120 9 2

/-- CIS_HOST_WRITE (R326, R344). -/
def cisHostWrite (s : State) (req : Requester) (v : Nat) : State := s.gated req 120 9 1 (fun s => s.cisHost v)

/-- A KV descriptor meets LOAD_JOB's field checks of R181. -/
def kvLoadOk (p : Plan) : Bool :=
  p.kvd.isEmpty || (kvOk p.kvd && decide (kvWindow p.kvd < kvCtx p.kvd) && (!p.sprint || kvPin p.kvd))

/-- Every tier page of `n` bytes from `va` on lies in some region; regions do not overlap (R329), so their shares add up. -/
def regionsCover (rs : List Region) (va n : Nat) : Bool :=
  let lo := va / tierPage
  let hi := ceilDiv (va + n) tierPage
  decide (rs.foldl (fun a r => a + (min hi (r.va / tierPage + r.pages) - max lo (r.va / tierPage))) 0 = hi - lo)

/-- A plan's pool, summaries and records lie in its regions, and a sprint job's pool holds its slots (R181). -/
def kvRoomOk (p : Plan) (sprintSlots : Nat) : Bool :=
  p.kvd.isEmpty ||
    ((!p.sprint || decide (sprintSlots * kvCtx p.kvd ≤ kvPool p.kvd)) &&
      regionsCover p.regions (kvData p.kvd) (kvPool p.kvd * kvPageStride p.kvd) &&
      regionsCover p.regions (kvRec p.kvd) (512 * kvPool p.kvd) &&
      (kvDense p.kvd || regionsCover p.regions (kvSumm p.kvd) (kvPool p.kvd * kvSummStride p.kvd)))

/-! ### Meanings -/

/-- PLAN_STAGE. -/
def execPlanStage (req : Requester) (job : Nat) (s : State) : Host.Outcome State Fault Refusal :=
  .next (planStage s req (job % 1024))
/-- PLAN_UNSTAGE. -/
def execPlanUnstage (req : Requester) (job : Nat) (s : State) : Host.Outcome State Fault Refusal :=
  .next (planUnstage s req (job % 1024))
/-- PLAN_FLUSH. -/
def execPlanFlush (req : Requester) (job : Nat) (s : State) : Host.Outcome State Fault Refusal :=
  .next (planFlush s req (job % 1024))
/-- CIS_HOST_WRITE. -/
def execCisHostWrite (req : Requester) (v : Word) (s : State) : Host.Outcome State Fault Refusal :=
  .next (cisHostWrite s req v.toNat)

end Sys2Proof.Machine
end

