-- ==== Sys2Proof/Machine/Kv.lean ====
section
/-! DEFINITION. KV pages: rows, summaries, sharing, copy on write, the width of selection, parking and restoring
(R180 to R205). -/

namespace Sys2Proof.Machine

/-! ### Records -/

/-- List a page in the share table unless an equal entry is present (R197). -/
def State.kvList (s : State) (job id : Nat) : State :=
  let p := s.kvPage job id
  let same (i : Nat) : Bool :=
    let q := s.kvPage job i
    decide (q.hash = p.hash) && decide (q.fill = p.fill) && decide (q.tokens = p.tokens)
  if !kvShare (s.kvd job) || !p.promptOnly || (s.shareTable job).any same then s
  else ((s.setKvPage job id { p with listed := true }).setShare job (s.shareTable job ++ [id])).kvSync job id

/-! ### Rows -/

/-- The hash of the page before page `i` of a request (R196). -/
def State.kvPrevHash (s : State) (x : Slot) (i : Nat) : Nat :=
  if i = 0 then 0
  else match x.kv[i - 1]? with
    | none => 0
    | some e => (s.kvPage (descJob x.desc) e.page).hash

/-- Give a request a page of its own in place of a shared one (R198): rows, summaries and record are copied. -/
def State.kvCopy (s : State) (n i : Nat) (e : KvEnt) : State :=
  let x := s.slot n
  let job := descJob x.desc
  let k := s.kvd job
  let r := s.kvTake n
  let x := r.2.slot n
  let p := r.2.kvPage job e.page
  let s := r.2.setKvPage job r.1 { p with refs := 1, listed := false }
  let w := s.whOf (job % 4)
  let s := s.vaWrite w job (kvData k + r.1 * kvPageStride k)
    (s.vaRead job (kvData k + e.page * kvPageStride k) (kvLayers k * kvGroups k * kvBlock k))
  let s := if kvDense k then s else
    s.vaWrite w job (kvSumm k + r.1 * kvSummStride k)
      (s.vaRead job (kvSumm k + e.page * kvSummStride k) (kvLayers k * kvGroups k * 2 * kvDim k))
  let s := ((s.kvDrop job e.page).kvSync job e.page).kvSync job r.1
  (s.setSlot n { x with kv := x.kv.set i { e with shared := false, page := r.1 } }).kvNote job 0x10C 1 none

/-- Process the request's next position and write its row (R186, R198): a new page at row 0, a copy where the page is shared; a
row that is no prompt position takes the page out of the share table. `list` lists a page that seals (R197). A pool without a page id
leaves the position for later (R199). Answers whether a unit of the position exceeded. -/
def State.kvRow (s : State) (n : Nat) (list : Bool) : State × Bool :=
  let x := s.slot n
  let job := descJob x.desc
  let p := x.rows
  let i := p / 64
  let prompt := decide (p < x.promptTokens.length)
  let tok := (x.tokens[p]?).getD 0
  if !s.kvFits n 1 then (s, false)
  else
  let s := if p % 64 = 0 then
      let r := s.kvTake n
      (r.2.setKvPage job r.1 {}).setSlot n { r.2.slot n with
        kv := x.kv ++ [{ shared := false, promptOnly := true, fill := 0, page := r.1 }] }
    else match x.kv[i]? with
      | some e => if 1 < (s.kvPage job e.page).refs then s.kvCopy n i e else s
      | none => s
  let x := s.slot n
  match x.kv[i]? with
  | none => (s, false)
  | some e =>
    let s := if prompt then s else s.kvUnlist job e.page
    let r := s.kvPosition n p true
    let s := r.1
    let q := s.kvPage job e.page
    let toks := q.tokens ++ [tok]
    let q := { q with
      fill := q.fill + 1, tokens := toks, promptOnly := q.promptOnly && prompt
      hash := kvHash (s.kvPrevHash x i) job toks }
    let s := (s.setKvPage job e.page q).setSlot n
      { x with kv := x.kv.set i { e with fill := q.fill, promptOnly := q.promptOnly } }
    let s := s.kvSync job e.page
    (if q.fill = 64 ∧ list = true then s.kvList job e.page else s, r.2)

/-- Process positions and write rows up to position count `upto`; answers the positions at which a unit exceeded. -/
def State.kvRows (s : State) (n upto : Nat) (list : Bool) : State × List Nat :=
  (List.range (upto - (s.slot n).rows)).foldl (fun (a : State × List Nat) _ =>
    let p := (a.1.slot n).rows
    let r := a.1.kvRow n list
    (r.1, if r.2 then a.2 ++ [p] else a.2)) (s, [])

/-- Compute positions whose rows stand already, without writing them (R197); answers those at which a unit exceeded. -/
def State.kvCovered (s : State) (n lo hi : Nat) : State × List Nat :=
  ((List.range (hi - lo)).map (fun i => lo + i)).foldl (fun (a : State × List Nat) p =>
    let r := a.1.kvPosition n p false
    (r.1, if r.2 then a.2 ++ [p] else a.2)) (s, [])

/-- Prefill of the prompt (R188, R197): from the first position that no page covers, position prompt_len − 1 always among them. -/
def State.kvPrefill (s : State) (n : Nat) : State :=
  let len := (s.slot n).promptTokens.length
  if len ≤ (s.slot n).rows then (s.kvCovered n (len - 1) len).1 else (s.kvRows n len true).1

/-! ### Share lookup -/

/-- Map the request's prompt pages that the share table holds, from page `i` up; every entry whose hash matches and whose tokens differ
is counted (R197). -/
def State.kvLookup : Nat → State → Nat → Nat → State
  | 0, s, _, _ => s
  | fuel + 1, s, n, i =>
    let x := s.slot n
    let job := descJob x.desc
    let toks := (x.promptTokens.drop (64 * i)).take 64
    if toks.isEmpty then s
    else
      let h := kvHash (s.kvPrevHash x i) job toks
      let near := (s.shareTable job).filter (fun id => decide ((s.kvPage job id).hash = h))
      let same (id : Nat) : Bool :=
        decide ((s.kvPage job id).fill = toks.length) && decide ((s.kvPage job id).tokens = toks)
      let miss := (near.filter (fun id => !same id)).length
      let s := if miss = 0 then s else s.kvNote job 0x110 miss (some 2)
      match near.find? same with
      | none => s
      | some id =>
        let p := s.kvPage job id
        let s := (s.setKvPage job id { p with refs := p.refs + 1 }).kvSync job id
        let ent : KvEnt := { shared := true, promptOnly := true, fill := toks.length, page := id }
        let s := (s.setSlot n { x with kv := x.kv ++ [ent] }).kvNote job 0x108 1 none
        State.kvLookup fuel s n (i + 1)

/-- SHARE_LOOKUP (R197): at the start of PREFILL, or of a REPLAY, the request's prompt pages are looked up from page 0. -/
def shareLookup (s : State) (n : Nat) : State :=
  let x := s.slot n
  if (x.state = .prefill ∨ x.state = .replay) ∧ x.kv = [] ∧ kvShare (s.kvd (descJob x.desc)) = true then
    State.kvLookup (x.promptTokens.length / 64 + 1) s n 0
  else s

/-- PREFILL_COMPLETE (R41, R186, R197): the prompt's rows are complete, sealed pages and then the page of the last prompt
position enter the share table. It waits while the pool has no page ids for it (R199). -/
def prefillComplete (s : State) (n : Nat) : State :=
  let x := s.slot n
  let job := descJob x.desc
  let len := x.promptTokens.length
  if x.state ≠ .prefill ∨ (descRecipe x.desc = 0 ∧ x.tokDone = false) then s
  else if (s.kvd job).isEmpty then s.setSlot n { x with state := .decode }
  else if !s.kvFits n (len - x.rows) then s
  else
    let s := s.kvPrefill n
    let x := s.slot n
    let s := match x.kv.getLast? with
      | some e => if (s.kvPage job e.page).listed then s else s.kvList job e.page
      | none => s
    s.setSlot n { s.slot n with state := .decode, waitStrokes := 0 }

/-! ### A decode step -/

/-- The update of width and quiet count at the end of a step (R191). -/
def widen (k : List Byte) (w quiet : Nat) (exceeded : Bool) : Nat × Nat :=
  if kvDense k then (0, 0)
  else if exceeded then (if kEff k w < kvKCap k then (w + 1, 0) else (w, 0))
  else if quiet + 1 = 256 then (w - 1, 0)
  else (w, quiet + 1)

/-- End a step of one request: its positions are processed, and w and quiet follow (R186 to R195); what the cut set aside and the step
did not take is free again (R199). -/
def State.kvStep (s : State) (n : Nat) : State :=
  let x := s.slot n
  let k := s.kvd (descJob x.desc)
  let upto := x.promptTokens.length + x.history.length - 1
  let s := s.setSlot n { x with lastStep := s.strokeN, waitStrokes := 0 }
  if k.isEmpty ∨ x.history = [] ∨ upto ≤ x.rows then s
  else
    let r := s.kvRows n upto false
    let exc := !r.2.isEmpty
    let s := if exc then
        (if kEff k x.w < kvKCap k then r.1.kvNote (descJob x.desc) 0x100 1 (some 0)
          else r.1.kvNote (descJob x.desc) 0x104 1 (some 1))
      else r.1
    let u := widen k x.w x.quiet exc
    s.setSlot n { s.slot n with w := u.1, quiet := u.2, kvGrant := 0 }

/-- Count a late step of a sprint paddock (R59): after 40 µs and before the next boundary. `ns` is the time into the stroke. -/
def State.noteLate (s : State) (pad ns opened : Nat) : State :=
  if opened = s.strokeN ∧ 40000 < ns then s.bump 120 2 (0x110 + 0x20 * pad) 1 else s

/-- Tier pages that hold the KV of a request, summaries with them. -/
def State.kvVpns (s : State) (x : Slot) : List Nat :=
  let k := s.kvd (descJob x.desc)
  x.kv.flatMap (fun e => rangeVpns (kvData k + e.page * kvPageStride k) (kvLayers k * kvGroups k * kvBlock k) ++
    (if kvDense k then [] else rangeVpns (kvSumm k + e.page * kvSummStride k) (kvLayers k * kvGroups k * 2 * kvDim k)))

/-- DECODE_STEP_END (R191): a step of a job has chosen its tokens; they are delivered, and a request that reached an end
condition drains (R41). `ns` is the time into the stroke; `bad` are the tier pages whose read from flash failed in the step: one
that holds KV of the step's requests is lost and reads as zeros (R195, R341, R348; log entry 101). -/
def decodeStepEnd (s : State) (job ns : Nat) (bad : List Nat) : State :=
  match s.job job with
  | none => s
  | some p =>
    let pad := p.loaded.getD 0
    if (s.paddock pad).state = .halted then s
    else
    let slots := (s.slotsOf job).filter (fun n => decide ((s.slot n).state = .decode) &&
      (p.batch.contains n || !(s.slot n).opened.isEmpty))
    let s := s.losePages job (bad.filter (fun v => slots.any (fun n => (s.kvVpns (s.slot n)).contains v)))
    let s := slots.foldl (fun s n => (s.commitOpen n).kvStep n) s
    let s := slots.foldl (fun s n => match (s.slot n).natural with
      | some c => s.beginDrain n c
      | none => s) s
    let s := s.putPlan job { p with batch := [], ran := 0 }
    let q := s.paddock pad
    match q.stepOpen with
    | none => s
    | some o => if p.sprint then (s.noteLate pad ns o).setPaddock pad { q with stepOpen := none } else s

/-! ### Holds (R194) -/

/-- Tier pages a request holds in HBM: those of its window pages. -/
def State.windowVpns (s : State) (x : Slot) : List Nat :=
  let k := s.kvd (descJob x.desc)
  let c := x.kv.length
  (x.kv.drop (c - min (kvWindow k) c)).flatMap (fun e =>
    rangeVpns (kvData k + e.page * kvPageStride k) (kvLayers k * kvGroups k * kvBlock k))

/-- Tier pages held for a job: windows of its requests in DECODE or REPLAY, and every summary of the job. -/
def State.holdVpns (s : State) (job : Nat) : List Nat :=
  let k := s.kvd job
  let xs := (s.req.slots.filter (fun e => (decide (e.2.state = .decode) || decide (e.2.state = .replay)) &&
    decide (descJob e.2.desc = job))).map Prod.snd
  if k.isEmpty || xs.isEmpty then []
  else xs.flatMap s.windowVpns ++
    (if kvDense k then [] else (s.kvUsed job).flatMap (fun i =>
      rangeVpns (kvSumm k + i * kvSummStride k) (kvLayers k * kvGroups k * 2 * kvDim k)))

/-- Set the holds of a job's pages at a boundary (R194). -/
def State.updateHolds (s : State) (job : Nat) : State :=
  let hold := s.holdVpns job
  let s := s.mapPtes (fun k e => if k / 4294967296 = job then { e with hold := hold.contains (k % 4294967296) } else e)
  hold.foldl (fun s v => match s.pte job v with
    | some e => s.setPte job v { e with hold := true }
    | none => s) s

/-! ### Parking (R199, R200) and discarding (R201) -/

/-- Spill one page of a request: its data and summaries to the spill partition, by page of the request. -/
def State.spillPage (s : State) (n i : Nat) (e : KvEnt) : State :=
  let job := descJob (s.slot n).desc
  let k := s.kvd job
  let s := s.store (.park n) (i * 4294967296)
    (s.vaRead job (kvData k + e.page * kvPageStride k) (kvLayers k * kvGroups k * kvBlock k))
  if kvDense k then s
  else s.store (.park n) (i * 4294967296 + 2147483648)
    (s.vaRead job (kvSumm k + e.page * kvSummStride k) (kvLayers k * kvGroups k * 2 * kvDim k))

/-- Park a request (R200): sealed pages with refs 1 are spilled, every page id it held is let go. -/
def State.parkSlot (s : State) (n : Nat) : State :=
  let x := s.slot n
  let job := descJob x.desc
  let keep := (x.kv.zipIdx).filter (fun e => decide (e.1.fill = 64) && decide ((s.kvPage job e.1.page).refs = 1))
  let len := kvLayers (s.kvd job) * kvGroups (s.kvd job) * (kvBlock (s.kvd job) +
    (if kvDense (s.kvd job) then 0 else 2 * kvDim (s.kvd job)))
  let s := keep.foldl (fun s e => (List.range (ceilDiv len 16384)).foldl (fun s i => s.writeLogical 5 (lpPark n e.2 i))
    (s.spillPage n e.2 e.1)) s
  let s := s.kvRelease n
  s.setSlot n { s.slot n with state := .parked, spilled := keep.map Prod.snd, waitStrokes := 0, parkDue := false }

/-- PARK (R41, R200): the plan parks a request in DECODE at the next boundary; none is parked in read-only (R357). -/
def park (s : State) (n : Nat) : State :=
  if (s.slot n).state = .decode ∧ s.wdl.readOnly = false then s.setSlot n { s.slot n with parkDue := true } else s

/-- Pages of a request with refs 1. -/
def State.ownPages (s : State) (x : Slot) : Nat :=
  (x.kv.filter (fun e => (s.kvPage (descJob x.desc) e.page).refs = 1)).length

/-- PAGE_WAIT_PARK (R199): some request of the job has waited for a page for 8 strokes; the one that is parked leaves DECODE at the
next boundary (R41). -/
def pageWaitPark (s : State) (job : Nat) : State :=
  let sprint := match s.plan job with | none => true | some p => p.sprint
  if !sprint && !s.wdl.readOnly && (s.slotsOf job).any (fun n => decide (8 ≤ (s.slot n).waitStrokes)) &&
      !(s.slotsOf job).any (fun n => (s.slot n).parkDue) then
    let c := (s.slotsOf job).filter (fun n => decide ((s.slot n).state = .decode))
    match minBy (fun n => (16384 - s.ownPages (s.slot n)) * 32768 + (32767 - n)) c with
    | none => s
    | some n => s.setSlot n { s.slot n with parkDue := true }
  else s

/-- Discard the KV of a request (R201). -/
def State.kvDiscard (s : State) (n : Nat) : State :=
  if (s.slot n).state = .parked then s else s.kvRelease n

/-- Restore the spilled pages of a request that follow the pages it has, in ascending order, up to the first that does
not read back (R200). -/
def State.kvRestore (s : State) (n : Nat) (unreadable : List Nat) : State :=
  let x := s.slot n
  let job := descJob x.desc
  let k := s.kvd job
  let go (s : State) (i : Nat) : State :=
    let x := s.slot n
    if x.kv.length ≠ i ∨ x.rows ≠ 64 * i ∨ unreadable.contains i = true ∨ s.kvFits n 1 = false then s
    else
      let r := s.kvTake n
      let x := r.2.slot n
      let toks := (x.tokens.drop (64 * i)).take 64
      let prompt := decide (64 * i + 64 ≤ x.promptTokens.length)
      let s := r.2.setKvPage job r.1
        { hash := kvHash (s.kvPrevHash x i) job toks, fill := 64, promptOnly := prompt, tokens := toks }
      let w := s.whOf (job % 4)
      let s := s.vaWrite w job (kvData k + r.1 * kvPageStride k)
        (s.load (.park n) (i * 4294967296) (kvLayers k * kvGroups k * kvBlock k))
      let s := if kvDense k then s else s.vaWrite w job (kvSumm k + r.1 * kvSummStride k)
        (s.load (.park n) (i * 4294967296 + 2147483648) (kvLayers k * kvGroups k * 2 * kvDim k))
      (s.setSlot n { x with kv := x.kv ++ [{ shared := false, promptOnly := prompt, fill := 64, page := r.1 }] }).kvSync job r.1
  let s := (x.spilled.foldl go s).discard 5 (fun lp => decide (lp / 1099511627776 = 1048576 + n))
  s.setSlot n { s.slot n with spilled := [] }

/-! ### Meanings -/

/-- PREFILL_COMPLETE (R41). -/
def execPrefillComplete (slot : Nat) (s : State) : Host.Outcome State Fault Refusal := .next (prefillComplete s slot)
/-- DECODE_STEP_END (R191). -/
def execDecodeStepEnd (job us ns : Nat) (bad : List Nat) (s : State) : Host.Outcome State Fault Refusal :=
  .next (decodeStepEnd s job (1000 * us + ns) bad)
/-- SHARE_LOOKUP (R197). -/
def execShareLookup (slot : Nat) (s : State) : Host.Outcome State Fault Refusal := .next (shareLookup s slot)
/-- PAGE_WAIT_PARK (R199). -/
def execPageWaitPark (job : Nat) (s : State) : Host.Outcome State Fault Refusal := .next (pageWaitPark s job)
/-- PARK (R200). -/
def execPark (slot : Nat) (s : State) : Host.Outcome State Fault Refusal := .next (park s slot)

end Sys2Proof.Machine
end

