-- ==== Sys2Proof/Machine/Links.lean ====
section
/-! DEFINITION. The Rhizome and Ziori as shared operations: sites, routes, injecting and committing packets, and handing
messages to Ziori streams (R162 to R176, R421 to R427). -/

namespace Sys2Proof.Machine

/-! ### Sites and routes -/

/-- The site of Tiller t (R15, R162). -/
def tillerSite (t : Nat) : Nat := if t ≤ 30 then t else if t ≤ 37 then t + 2 else t + 4

/-- The site of Wellhead w (R15). -/
def whSite (w : Nat) : Nat := if w = 0 then 31 else if w = 1 then 32 else if w = 2 then 40 else 41

/-- The die at a site (R15). -/
def siteDie (x : Nat) : Nat :=
  if x = 31 then 0 else if x = 32 then 1 else if x = 40 then 2 else if x = 41 then 3
  else if x ≤ 30 then 8 + x else if x ≤ 39 then 8 + (x - 2) else 8 + (x - 4)

/-- The site of a Tiller or Wellhead die. -/
def dieSite (d : Nat) : Nat := if d ≤ 3 then whSite d else tillerSite (d - 8)

/-- Numbers from `a` to `b`, both included, in order of travel. -/
def walkFrom (a b : Nat) : List Nat :=
  if a ≤ b then (List.range (b - a + 1)).map (fun i => a + i) else (List.range (a - b + 1)).map (fun i => a - i)

/-- Sites of the XY path: along the row, then along the column (R166). -/
def xyPath (s d : Nat) : List Nat :=
  (walkFrom (s % 9) (d % 9)).map (fun c => 9 * (s / 9) + c) ++ ((walkFrom (s / 9) (d / 9)).drop 1).map (fun r => 9 * r + d % 9)

/-- Sites of the YX path: along the column, then along the row (R166). -/
def yxPath (s d : Nat) : List Nat :=
  (walkFrom (s / 9) (d / 9)).map (fun r => 9 * r + s % 9) ++ ((walkFrom (s % 9) (d % 9)).drop 1).map (fun c => 9 * (d / 9) + c)

/-- Sites of the path through m: XY to m, then YX (R167). -/
def viaPath (s m d : Nat) : List Nat := xyPath s m ++ (yxPath m d).drop 1

/-- A path avoids every dead site. -/
def pathLive (dead p : List Nat) : Bool := p.all (fun x => !dead.contains x)

/-- The route table entry for a pair of sites (R168): mode (0 XY, 1 YX, 2 VIA, 3 UNREACHABLE) and via site. -/
def routeOf (dead : List Nat) (s d : Nat) : Nat × Nat :=
  if !pathLive dead [s, d] then (3, 0x7F)
  else if pathLive dead (xyPath s d) then (0, 0x7F)
  else if pathLive dead (yxPath s d) then (1, 0x7F)
  else
    let ms := (List.range 72).filter (fun m => pathLive dead (viaPath s m d))
    match minBy (fun m => (viaPath s m d).length) ms with
    | some m => (2, m)
    | none => (3, 0x7F)

/-- A route table entry as read (R176). -/
def routeWord (dead : List Nat) (s d : Nat) : Nat :=
  let e := routeOf dead s d
  0x80000000 + e.1 * 0x20000000 + e.2

/-- The port of a router towards a neighbour: 0 north, 1 east, 2 south, 3 west, 4 local (R177). -/
def portTo (a b : Nat) : Nat := if b + 9 = a then 0 else if b = a + 1 then 1 else if b = a + 9 then 2 else if b + 1 = a then 3 else 4

/-- The neighbour of a site through a port; none where the port is absent (R163). -/
def neighbour (x port : Nat) : Option Nat :=
  match port with
  | 0 => if 9 ≤ x then some (x - 9) else none
  | 1 => if x % 9 < 8 then some (x + 1) else none
  | 2 => if x < 63 then some (x + 9) else none
  | 3 => if 0 < x % 9 then some (x - 1) else none
  | _ => none

/-! ### Packets -/

/-- Flits of a packet (R164). -/
def packetFlits (p : Packet) : Nat := ceilDiv (16 + p.payload.length) 128

/-- The 128-bit header of a packet (R164). -/
def packetHeader (p : Packet) : Nat :=
  p.kind % 8 * 2 ^ 125 + p.vc % 4 * 2 ^ 123 + p.cls % 2 * 2 ^ 122 + p.leg % 2 * 2 ^ 121 + p.via % 128 * 2 ^ 114 +
    p.dst % 128 * 2 ^ 107 + p.src % 128 * 2 ^ 100 + p.units % 128 * 2 ^ 92 + p.space % 4 * 2 ^ 90 + b2n p.tail * 2 ^ 89 +
    b2n p.advEn * 2 ^ 88 + p.advCtr % 0x20000 * 2 ^ 71 + p.tag % 2048 * 2 ^ 60 + p.headSkip % 16 * 2 ^ 56 +
    p.tailLen % 16 * 2 ^ 52 + p.addr % 2 ^ 48

/-- The packet a header and a payload stand for (R164). -/
def packetOfHeader (h : Nat) (payload : List Byte) : Packet :=
  { kind := bitsOf h 127 125, vc := bitsOf h 124 123, cls := bitsOf h 122 122, leg := bitsOf h 121 121, via := bitsOf h 120 114
    dst := bitsOf h 113 107, src := bitsOf h 106 100, units := bitsOf h 99 92, space := bitsOf h 91 90, tail := bitAt h 89
    advEn := bitAt h 88, advCtr := bitsOf h 87 71, tag := bitsOf h 70 60, headSkip := bitsOf h 59 56, tailLen := bitsOf h 55 52
    addr := h % 2 ^ 48, payload := payload }

/-- The sites a packet passes, as its header alone says (R166, R167): class 0 along the row first, class 1 along the column, and
through a via site as class 0 to it and as class 1 from it. -/
def packetPath (p : Packet) : List Nat :=
  if p.via ≠ 0x7F then viaPath p.src p.via p.dst else if p.cls = 1 then yxPath p.src p.dst else xyPath p.src p.dst

/-- The header as the destination receives it: the via site has set leg and class to 1 (R167). -/
def packetAtDst (p : Packet) : Packet := if p.via ≠ 0x7F then { p with leg := 1, cls := 1 } else p

/-- Kind and virtual channel pair as R165 lists, address 16-aligned (R178). -/
def packetHeaderOk (p : Packet) : Bool :=
  decide (p.addr % 16 = 0) &&
  match p.kind with
  | 0 => p.vc == 0 || p.vc == 2
  | 1 | 4 | 6 => p.vc == 0
  | 2 | 5 | 7 => p.vc == 1
  | 3 => p.vc == 3
  | _ => false

/-- Count flits at the router ports a packet has left by (R177); a link whose flit was being sent again has sent it (R175). -/
def State.countHops (s : State) (hops : List (Nat × Nat)) (flits : Nat) : State :=
  let s := hops.foldl (fun s h => s.bumpWide (siteDie h.1) 25 1 (portTo h.1 h.2) flits) s
  { s with rhz := { s.rhz with
      retrying := s.rhz.retrying.filter (fun k => !hops.any (fun h => decide (k = h.1 * 4 + portTo h.1 h.2))) } }

/-- Count the flits of a packet along the whole of its path, the local port of the destination included. -/
def State.countFlits (s : State) (p : Packet) : State :=
  s.countHops ((packetPath p).zip ((packetPath p).drop 1 ++ [p.dst])) (packetFlits p)

/-- The first site of a path whose link onward is down. -/
def brokenAt (down : List Nat) (p : List Nat) : Option Nat :=
  ((p.zip (p.drop 1)).find? (fun h => down.contains (h.1 * 4 + portTo h.1 h.2))).map Prod.fst

/-- A packet waits for a link that is down (R174). -/
def State.stuckAt (s : State) (p : Packet) : Option Nat := brokenAt s.rhz.down (packetPath p)

/-- Discard a packet at a die, counted and logged (R169, R174). -/
def State.rhzDrop (s : State) (die code : Nat) : State :=
  (s.bump die 25 0x10C 1).event die 25 [sqBit 0x118 0] [code]

/-- No packet leaves the source for the destination: it is dead or UNREACHABLE (R169). -/
def State.unreach (s : State) (src dst : Nat) : Bool := decide (72 ≤ dst) || decide ((routeOf s.rhz.dead src dst).1 = 3)

/-- The header a packet is injected with: class and via from the source's route table (R167). -/
def State.routed (s : State) (p : Packet) : Packet :=
  let e := routeOf s.rhz.dead p.src p.dst
  { p with cls := if e.1 = 1 then 1 else 0, leg := 0, via := if e.1 = 2 then e.2 else 0x7F }

/-- Inject a packet: discarded at its source when its destination is dead or UNREACHABLE (R169), else in flight; during a route
switch it waits at its source (R173). -/
def State.inject (s : State) (p : Packet) : State :=
  if s.rhz.pausing then { s with rhz := { s.rhz with held := s.rhz.held ++ [p] } }
  else if s.unreach p.src p.dst then s.rhzDrop (siteDie p.src) 2
  else { s with rhz := { s.rhz with flight := s.rhz.flight ++ [s.routed p] } }

/-- Packets of a run of contiguous bytes from one address, at most 127 units each (R165); `fuel` bounds their number. -/
def cutRun : Nat → Packet → Nat → List Byte → List Packet
  | 0, _, _, _ => []
  | fuel + 1, h, a, bs =>
    if bs.isEmpty then []
    else
      let skip := a % 16
      let k := min bs.length (2032 - skip)
      let units := ceilDiv (skip + k) 16
      { h with
        addr := a - skip, units := units, headSkip := skip, tailLen := (skip + k) % 16
        payload := padTo (16 * units) (List.replicate skip 0 ++ bs.take k) } ::
        cutRun fuel h (a + k) (bs.drop k)

/-- Mark the last packet of a transfer as its tail, with the counter advance a field asks for (R164, R171). -/
def markTail (ctr : Nat) : List Packet → List Packet
  | [] => []
  | [p] => [{ p with tail := true, advEn := bitAt ctr 31, advCtr := ctr % 0x20000 }]
  | p :: t => p :: markTail ctr t

/-- An empty packet from one die to another. -/
def packetHead (src dst kind vc space : Nat) : Packet :=
  { kind := kind, vc := vc, cls := 0, leg := 0, via := 0x7F, dst := dieSite dst, src := dieSite src, units := 0, space := space
    tail := false, advEn := false, advCtr := 0, tag := 0, headSkip := 0, tailLen := 0, addr := 0, payload := [] }

/-- Join pieces that follow each other in the destination's addresses into runs (R165). -/
def joinRuns : List (Nat × List Byte) → List (Nat × List Byte)
  | [] => []
  | r :: t => match joinRuns t with
    | [] => [r]
    | q :: u => if r.1 + r.2.length = q.1 then (r.1, r.2 ++ q.2) :: u else r :: q :: u

/-- The packets of one transfer: runs of contiguous addresses, each cut in ascending order, the last the tail (R165). -/
def cutRuns (h : Packet) (ctr : Nat) (runs : List (Nat × List Byte)) : List Packet :=
  markTail ctr ((joinRuns runs).flatMap (fun r => cutRun (r.2.length / 2016 + 2) h r.1 r.2))

/-- Send runs of bytes as one transfer (R165). -/
def State.sendRuns (s : State) (h : Packet) (ctr : Nat) (runs : List (Nat × List Byte)) : State :=
  (cutRuns h ctr runs).foldl State.inject s

/-- Bytes of SRAM of a Tiller (R121). -/
def sramBytes : Nat := 0x14000000

/-- Write into a Tiller's SRAM; bytes outside it are not written. -/
def State.sramWrite (s : State) (t a : Nat) (bs : List Byte) : State :=
  if a < sramBytes then s.store (.sram t) a (bs.take (sramBytes - a)) else s

/-- Read from a Tiller's SRAM. -/
def State.sram (s : State) (t a n : Nat) : List Byte := s.load (.sram t) a n

/-- A word of SRAM. -/
def State.sram32 (s : State) (t a : Nat) : Nat := leNat (s.sram t a 4)

/-- The memory a packet names at its destination; none for registers and counters (R164). -/
def packetTarget (p : Packet) : Option (Space × Nat) :=
  let d := siteDie p.dst
  match p.space with
  | 0 => if 8 ≤ d then some (.sram (d - 8), sramBytes) else none
  | 1 => if 8 ≤ d then some (.hbm (d - 8), 25769803776) else none
  | 2 => some (.lpddr, 4398046511104)
  | _ => none

/-- Commit a packet's bytes at its destination: those between head_skip and tail_len (R164, R170). -/
def State.commit (s : State) (p : Packet) : State :=
  match packetTarget p with
  | none => s
  | some (sp, size) =>
    let last := if p.tailLen = 0 then 16 else p.tailLen
    let bs := (p.payload.take (16 * (p.units - 1) + last)).drop p.headSkip
    if p.addr + p.headSkip < size then s.store sp (p.addr + p.headSkip) (bs.take (size - p.addr - p.headSkip)) else s

/-- Two packets are of one flow (R170). -/
def sameFlow (p q : Packet) : Bool := decide (q.src = p.src) && decide (q.dst = p.dst) && decide (q.vc = p.vc)

/-- Take a packet as it arrives out of flight. None while an earlier packet of its flow is in flight (R170) or a link of its path
is down (R174). A packet that is not in flight comes from a unit the model gives no command; it was injected behind the packets of
its flow. -/
def State.takePacket (s : State) (p : Packet) : Option State :=
  match s.rhz.flight.find? (sameFlow p) with
  | none => if (s.stuckAt p).isSome then none else some s
  | some q =>
    if packetAtDst q = p ∧ s.stuckAt q = none then some { s with rhz := { s.rhz with flight := s.rhz.flight.erase q } }
    else none

/-- A counter operation as the payload of a CTR_OP packet: op, a, b, tag, four bytes each. -/
def ctrPayload (op a b tag : Nat) : List Byte := leBytes 4 op ++ leBytes 4 a ++ leBytes 4 b ++ leBytes 4 tag

/-- The answer to a counter operation that came as a packet: old value and status, with the request's tag (R165, R385). -/
def ctrAnswer (die site tag old status : Nat) : Packet :=
  { packetHead die (siteDie site) 5 1 3 with
    units := 1, tail := true, tag := tag, payload := leBytes 4 old ++ leBytes 4 status ++ leBytes 8 0 }

/-- Send a posted ADD 1 of a counter from a die to the counter's owner (R171). -/
def State.sendAdvance (s : State) (die ctr : Nat) : State :=
  s.inject { packetHead die (s.ctrWh ctr) 4 0 3 with units := 1, tail := true, advCtr := ctr, payload := ctrPayload 1 1 0 0 }

/-- Commit the WRITEs of a flow that are in flight, in order: a read on the same flow comes after them (R170). -/
def State.commitFlow (s : State) (src dst vc : Nat) : State :=
  (s.rhz.flight.filter (fun q => decide (q.src = src) && decide (q.dst = dst) && decide (q.vc = vc) && decide (q.kind = 0))).foldl
    (fun s q => match s.takePacket (packetAtDst q) with
      | none => s
      | some s =>
        let s := (s.countFlits q).commit q
        if q.tail && q.advEn then s.sendAdvance (siteDie q.dst) q.advCtr else s) s

/-- A leg over the Rhizome of what one command hands on at once: its packets are discarded at the source when the destination is
UNREACHABLE (R169), wait before a link that is down (R174), and otherwise pass, counted, before `f` goes on (R18, R177). -/
def State.leg (s : State) (ps : List Packet) (f : State → State) : State :=
  if ps.any (fun p => s.unreach p.src p.dst) then ps.foldl (fun s p => s.rhzDrop (siteDie p.src) 2) s
  else if ps.any (fun p => (s.stuckAt (s.routed p)).isSome) then ps.foldl State.inject s
  else f (ps.foldl (fun s p => s.countFlits (s.routed p)) s)

/-! ### Ziori -/

/-- A Ziori port. -/
def State.zport (s : State) (p : Nat) : ZioPort := Tbl.val {} s.zio.ports p

/-- Replace a Ziori port. -/
def State.setZport (s : State) (p : Nat) (x : ZioPort) : State :=
  { s with zio := { s.zio with ports := Tbl.set {} s.zio.ports p x } }

/-- A ring pair. -/
def State.zpair (s : State) (i : Nat) : ZioPair := Tbl.val {} s.zio.pairs i

/-- Replace a ring pair. -/
def State.setZpair (s : State) (i : Nat) (x : ZioPair) : State :=
  { s with zio := { s.zio with pairs := Tbl.set {} s.zio.pairs i x } }

/-- The Wellhead that owns a Ziori port (R419). -/
def portWh (p : Nat) : Nat := if p < 16 then p / 4 else (p - 16) / 8

/-- The local number of a port on its Wellhead (R439). -/
def portLocal (p : Nat) : Nat := if p < 16 then p % 4 else 4 + (p - 16) % 8

/-- The node id of the module (R440). -/
def State.node (s : State) : Nat := (s.reg 120 13 0x100).toNat % 256

/-- A port carries the module's DATA: up, and for a ring port its pair JOINED (R432). -/
def State.zioUp (s : State) (p : Nat) : Bool :=
  decide ((s.zport p).state = 3) && (decide (16 ≤ p) || decide ((s.zpair (p / 2)).state = 2))

/-- Flits of a message: a 16-byte header and the payload in 240-byte flits (R421, R422). -/
def zioFlits (len : Nat) : Nat := ceilDiv (16 + len) 240

/-- The 16-byte header of a flit (R421). -/
def zioHeader (kind vc : Nat) (first last : Bool) (units lseq src dst lack eseq : Nat) : List Byte :=
  withCrc (leBytes 1 (kind % 8 * 32 + vc % 4 * 8 + b2n first * 4 + b2n last * 2) ++ leBytes 1 units ++ leBytes 2 (lseq % 4096) ++
    leBytes 1 src ++ leBytes 1 dst ++ leBytes 2 (lack % 4096) ++ leBytes 4 eseq)

/-- A flit: its header and up to 240 bytes of payload, filled to 256 with zeros (R421). -/
def zioFlit (hdr payload : List Byte) : List Byte := hdr ++ padTo 240 payload

/-- The 16 bytes of a message header (R422). -/
def zioMsgHead (m : ZioMsg) : List Byte :=
  leBytes 1 m.op ++ leBytes 1 m.space ++ leBytes 1 m.tiller ++ leBytes 1 (b2n m.advEn) ++ leBytes 4 (m.advCtr % 0x20000) ++
    leBytes 6 m.addr ++ leBytes 2 m.length

/-- The flits of a message that leaves with link sequence `lseq` and acknowledges `lack`, the first with the message header (R421, R422,
R426). -/
def zioMsgFlits (m : ZioMsg) (lseq lack : Nat) : List (List Byte) :=
  let bs := zioMsgHead m ++ m.payload
  let n := zioFlits m.payload.length
  (List.range n).map (fun i =>
    let part := (bs.drop (240 * i)).take 240
    zioFlit (zioHeader 1 m.vc (decide (i = 0)) (decide (i + 1 = n)) (ceilDiv part.length 16) (lseq + i) m.src m.dst lack (m.eseq + i)) part)

/-- Bytes of the replay store of each Wellhead (R426). -/
def zioStore : Nat := 67108864

/-- Bytes of the messages sent and unacknowledged that a Wellhead keeps. -/
def State.zioKept (s : State) (w : Nat) : Nat :=
  s.zio.out.foldl (fun n o => if o.sent && portWh o.msg.port == w then n + 16 + o.msg.payload.length else n) 0

/-- A port's credits for a virtual channel. -/
def ZioPort.credits (x : ZioPort) (vc : Nat) : Nat := if vc = 0 then x.cred0 else if vc = 2 then x.cred2 else x.cred3

/-- Set a port's credits for a virtual channel. -/
def ZioPort.setCredits (x : ZioPort) (vc n : Nat) : ZioPort :=
  if vc = 0 then { x with cred0 := n } else if vc = 2 then { x with cred2 := n } else { x with cred3 := n }

/-- The buffer of a virtual channel in flits (R424). -/
def zioBuffer (vc : Nat) : Nat := if vc = 0 then 128 else if vc = 2 then 1024 else 512

/-- A message may leave: its port carries DATA, the replay store has room and the channel has credit (R424, R426). -/
def State.zioMayLeave (s : State) (m : ZioMsg) : Bool :=
  s.zioUp m.port && decide (s.zioKept (portWh m.port) + 16 + m.payload.length ≤ zioStore) &&
    decide (min m.flits (zioBuffer m.vc) ≤ (s.zport m.port).credits m.vc)

/-- Keep the flits a port sends: the last 4,096, until the partner's lack passes them (R425). -/
def ZioPort.keep (x : ZioPort) (fs : List (List Byte)) : ZioPort :=
  let store := x.store ++ fs
  { x with store := store.drop (store.length - 4096), txSeq := (x.txSeq + fs.length) % 4096 }

/-- A message leaves: its flits take link sequences and credits, are kept, and counted. -/
def State.zioLeave (s : State) (m : ZioMsg) : State :=
  let x := s.zport m.port
  let x := x.setCredits m.vc (x.credits m.vc - m.flits)
  let s := s.setZport m.port (x.keep (zioMsgFlits m x.txSeq x.rxSeq))
  s.bumpWide (portWh m.port) 33 1 (portLocal m.port) m.flits

/-- Send the waiting messages that may leave, each virtual channel of a port in order; `done` are those already gone through,
`held` the channels (port × 4 + vc) whose turn waits. -/
def State.zioPumpGo : List ZioOut → List ZioOut → List Nat → State → State
  | [], done, _, s => { s with zio := { s.zio with out := done } }
  | o :: t, done, held, s =>
    let k := o.msg.port * 4 + o.msg.vc
    if o.sent then State.zioPumpGo t (done ++ [o]) held s
    else
      let now : State := { s with zio := { s.zio with out := done ++ (o :: t) } }
      if !held.contains k && now.zioMayLeave o.msg then
        State.zioPumpGo t (done ++ [{ o with sent := true }]) held (now.zioLeave o.msg)
      else State.zioPumpGo t (done ++ [o]) (k :: held) now

/-- Send every waiting message that may leave. -/
def State.zioPump (s : State) : State := State.zioPumpGo s.zio.out [] [] s

/-- Hand a message to the stream that leaves by a port: its flits take the next eseq numbers (R426). -/
def State.zioPost (s : State) (m : ZioMsg) : State :=
  let k := m.dst * 4 + m.vc
  let n := zioFlits m.payload.length
  let e := Tbl.val 0 s.zio.txNext k
  let m := { m with src := s.node, eseq := e, flits := n }
  let z : ZioSt := { s.zio with
    txNext := Tbl.set 0 s.zio.txNext k ((e + n) % 4294967296)
    ackNs := if (Tbl.look s.zio.ackNs k).isSome then s.zio.ackNs else Tbl.put s.zio.ackNs k s.nowNs
    out := s.zio.out ++ [{ msg := m }] }
  State.zioPump { s with zio := z }

/-- The 16-byte units a run of a Ziori message lies in: their address and their bytes. A message has no length in bytes (R422), so
the bytes of the first and the last unit beside the run are free values (DESIGN CHOICE, log 94). -/
def State.zioUnits (s : State) (a : Nat) (bs : List Byte) : (Nat × List Byte) × State :=
  let skip := a % 16
  let h := s.drawBytes skip
  let t := h.2.drawBytes ((16 - (skip + bs.length) % 16) % 16)
  ((a - skip, h.1 ++ bs ++ t.1), t.2)

/-- Send runs of bytes towards a Tiller of the module at the far end of a port (R155, R422, R423). The destination entry
names no Tiller of that module, so a free value names it. -/
def State.zioRuns (s : State) (port op vc ctr : Nat) (runs : List (Nat × List Byte)) : State :=
  let r := s.drawWord
  let t := r.1.toNat % 68
  let runs := joinRuns runs
  let last := runs.length - 1
  (runs.zipIdx).foldl (fun s e =>
    let u := s.zioUnits e.1.1 e.1.2
    u.2.zioPost
      { port := port, src := 0, dst := (u.2.zport port).peer, vc := vc, eseq := 0, flits := 0, op := op, space := 0, tiller := t
        advEn := bitAt ctr 31 && decide (e.2 = last), advCtr := ctr % 0x20000, addr := u.1.1
        length := u.1.2.length / 16, payload := u.1.2 }) r.2

/-- Send runs from a die to a port: over the Rhizome to the Wellhead that owns the port, and on as messages (R18, R155). -/
def State.zioSend (s : State) (die port op kind vc ctr : Nat) (runs : List (Nat × List Byte)) : State :=
  s.leg (cutRuns (packetHead die (portWh port) kind vc 0) 0 runs) (fun s => s.zioRuns port op vc ctr runs)

end Sys2Proof.Machine
end

