-- ==== Sys2Proof/Machine/Arrays.lean ====
section
/-! DEFINITION. Tillers and their matrix arrays: descriptors, checks, anchors, products, split passes, prepasses
(R120 to R142). -/

namespace Sys2Proof.Machine

/-! ### Arrays and their lists -/

/-- An array of a Tiller. -/
def Tiller.array (t : Tiller) (a : Nat) : MatArray := Tbl.val {} t.arrays a

/-- Change an array of a Tiller. -/
def State.setArray (s : State) (t a : Nat) (x : MatArray) : State :=
  let r := s.tiller t
  s.setTiller t { r with arrays := Tbl.set {} r.arrays a x }

/-- Width of an array: 0 when retired, else 64 less its bypassed columns (R135). -/
def MatArray.width (x : MatArray) : Nat := if x.retired then 0 else 64 - x.bypass.length

/-- Columns and retirement as the latest re-plan boundary settled them; the array follows at its tile boundary (R135). -/
def MatArray.settled (x : MatArray) : List Nat × Bool := x.change.getD (x.bypass, x.retired)

/-- The width the capability record shows: as the latest re-plan boundary settled it (R137, R138). -/
def MatArray.pubWidth (x : MatArray) : Nat := if x.settled.2 then 0 else 64 - x.settled.1.length

/-- Put an array's sequencer into a state; RETIRED is never left (R136). -/
def MatArray.to (x : MatArray) (st : Nat) : MatArray := { x with state := if x.retired then 5 else st }

/-- Arrays of a Tiller of published width above 0 (R137). -/
def Tiller.live (t : Tiller) : Nat := 96 - (t.arrays.filter (fun e => e.2.settled.2)).length

/-- A chain of a Tiller. -/
def Tiller.chain (t : Tiller) (g : Nat) : Chain := Tbl.val {} t.chains g

/-- Replace a chain. -/
def State.setChain (s : State) (t g : Nat) (c : Chain) : State :=
  let r := s.tiller t
  s.setTiller t { r with chains := Tbl.set {} r.chains g c }

/-- Change a chain. -/
def State.modChain (s : State) (t g : Nat) (f : Chain → Chain) : State := s.setChain t g (f ((s.tiller t).chain g))

/-- The array that runs the list of array `a`: itself, or the next of its group that is not retired (R134). -/
def Tiller.runner (t : Tiller) (a : Nat) : Option Nat :=
  ((List.range 8).map (fun i => a / 8 * 8 + (a + i) % 8)).find? (fun b => !(t.array b).retired)

/-- The key of a descriptor list. -/
def listKey (job rank a : Nat) : Nat := job * 65536 + rank * 96 + a

/-- The job that holds the Tillers of a Tiller's paddock (R58). -/
def State.jobOn (s : State) (t : Nat) : Nat :=
  match (s.tiller t).pad with
  | none => 0
  | some p => (s.paddock p).occupant

/-- The ranks a Tiller runs: its own first, then those it hosts (R493). -/
def State.ranksOf (s : State) (t : Nat) : List Nat :=
  match (s.tiller t).pad with
  | none => []
  | some p =>
    let q := s.paddock p
    ((q.ranks.zipIdx).filter (fun e => e.1 = some t)).map Prod.snd ++
      (q.hosted.filter (fun e => e.2 = t)).map Prod.fst

/-- The lists array `a` of Tiller `t` takes descriptors from, its own first, then adopted ones, by rank (R134, R493): as
(rank, array of the list). -/
def State.sources (s : State) (t a : Nat) : List (Nat × Nat) :=
  let r := s.tiller t
  let own := ((List.range 8).map (fun i => a / 8 * 8 + (a + 8 - i) % 8)).filter (fun b => b = a || r.runner b == some a)
  (s.ranksOf t).flatMap (fun k => own.map (fun b => (k, b)))

/-- The source whose turn it is: the first at or after `turn` that has a list. -/
def State.nextSource (s : State) (t a : Nat) : Option (Nat × Nat × Nat) :=
  let src := s.sources t a
  let x := (s.tiller t).array a
  let order := (src.zipIdx.drop (x.turn % max src.length 1)) ++ (src.zipIdx.take (x.turn % max src.length 1))
  (order.find? (fun e => (Tbl.look (s.tiller t).lists (listKey (s.jobOn t) e.1.1 e.1.2)).isSome)).map
    (fun e => (e.1.1, e.1.2, e.2))

/-- Log an error on a Tiller's TIL page. -/
def State.tilErr (s : State) (t code : Nat) (sq : List Nat) : State :=
  s.event (8 + t) 0 (sq.map (sqBit 0x118)) [code]

/-- The list of a retired array is run by another array of its group: TIL_STAT.adopted (R134, R139). -/
def State.noteAdopted (s : State) (t a : Nat) : State :=
  let r := s.tiller t
  if (r.array a).retired && (r.runner a).isSome then s.event (8 + t) 0 [sqBit 0x118 2] [] else s

/-- Give an array of a rank its descriptor list (R58, R128, R399); an array that runs none begins with its own (R134). -/
def State.giveList (s : State) (t job rank a addr : Nat) : State :=
  let r := s.tiller t
  let s := s.setTiller t { r with
    lists := Tbl.put r.lists (listKey job rank a) addr
    arrays := if (r.array a).state = 0 then Tbl.set {} r.arrays a { r.array a with turn := 0 } else r.arrays }
  s.noteAdopted t a

/-- Some job's list of an array stands on a Tiller. -/
def Tiller.hasList (t : Tiller) (a : Nat) : Bool :=
  t.lists.any (fun e => decide (e.1 % 65536 < 65280) && decide (e.1 % 65536 % 96 = a))

/-- Apply a width change that waits for the array's tile boundary (R135); the lists of an array that retires are adopted
(R134). -/
def State.applyWidth (s : State) (t a : Nat) : State :=
  let x := (s.tiller t).array a
  match x.change with
  | none => s
  | some (b, ret) =>
    let s := s.setArray t a { x with
      bypass := b, retired := ret, change := none, state := if ret then 5 else x.state
      tile := if ret then none else x.tile }
    let s := s.event (8 + t) 0 [sqBit 0x118 3] []
    if ret && (s.tiller t).hasList a then s.noteAdopted t a else s

/-! ### Descriptor checks (R132) -/

/-- op. -/
def tdOp (d : List Byte) : Nat := fld d 4 1
/-- fmt_a. -/
def tdFa (d : List Byte) : Nat := fld d 5 1
/-- fmt_b. -/
def tdFb (d : List Byte) : Nat := fld d 6 1
/-- anchor_src. -/
def tdSrc (d : List Byte) : Nat := fld d 7 1 % 4
/-- drain_exact. -/
def tdExact (d : List Byte) : Bool := bitAt (fld d 7 1) 2
/-- m. -/
def tdM (d : List Byte) : Nat := fld d 8 1
/-- n. -/
def tdN (d : List Byte) : Nat := fld d 9 1
/-- epi. -/
def tdEpi (d : List Byte) : Nat := fld d 0xB 1
/-- k_total. -/
def tdKt (d : List Byte) : Nat := fld d 0xC 4
/-- k_offset. -/
def tdKo (d : List Byte) : Nat := fld d 0x10 4
/-- k_slice. -/
def tdKs (d : List Byte) : Nat := fld d 0x14 4
/-- anchor_addr. -/
def tdAnchor (d : List Byte) : Nat := fld d 0x30 4
/-- wait_ctr. -/
def tdWait (d : List Byte) : Nat := fld d 0x34 4
/-- wait_value. -/
def tdWaitV (d : List Byte) : Nat := fld d 0x38 4
/-- post_ctr. -/
def tdPost (d : List Byte) : Nat := fld d 0x3C 4

/-- Bits [30:17] of a counter field are 0. -/
def ctrFieldOk (f : Nat) : Bool := bitsOf f 30 17 == 0

/-- The pair is one of R102. -/
def pairOk (fa fb : Nat) : Bool :=
  (decide (fa ≤ 6) && decide (fb ≤ 6)) || (fa == 7 && fb == 7) || (fa == 8 && fb == 8) || (fa == 9 && fb == 9)

/-- The pair has an MX operand. -/
def pairMx (fa fb : Nat) : Bool := fmtMx fa || fmtMx fb

/-- The pair is summed in fixed order (BF16, FP16). -/
def pairFixed (fa : Nat) : Bool := decide (8 ≤ fa)

/-- k_slice × c, the stream's cycles (R125). -/
def streamCycles (fa fb ks : Nat) : Nat := if fa = 0 ∧ fb = 0 then ks / 2 else if pairFixed fa then 4 * ks else ks

/-- The anchor phase's cycles of a PRODUCT (R125); `held` says that KEEP finds its anchors held. -/
def anchorCycles (src kt : Nat) (held : Bool) : Nat :=
  match src with
  | 0 => 0
  | 1 => kt / 32 + 126
  | 2 => 64
  | _ => if held then 0 else 64

/-- Cycles of a descriptor for the check of R126 and R131. -/
def tdCycles (d : List Byte) : Nat :=
  if tdOp d = 1 then (if tdSrc d = 2 then 64 else 0) + tdKs d / 32 + 126 + 64
  else anchorCycles (tdSrc d) (tdKt d) false + streamCycles (tdFa d) (tdFb d) (tdKs d) + 143

/-- Bytes of `k` elements of a format in a row (R100). -/
def rowBytes (fmt k : Nat) : Nat := k * elemBits fmt / 8

/-- A PREPASS reads and writes anchors; a PRODUCT of an MX pair reads or writes them. -/
def tdAnchors (d : List Byte) : Bool := tdOp d == 1 || tdSrc d != 0

/-- Every byte the tile reads or writes lies in SRAM, and addresses are aligned (R132). -/
def tdAddrOk (d : List Byte) : Bool :=
  let blocks := if tdOp d = 0 ∧ tdSrc d = 1 then tdKt d / 32 else (tdKo d + tdKs d) / 32
  let elems := tdOp d == 0
  decide (fld d 0x18 4 % 16 = 0) && decide (fld d 0x1C 4 % 16 = 0) && decide (fld d 0x20 4 % 16 = 0) &&
  decide (fld d 0x24 4 % 16 = 0) &&
  (!elems || decide (fld d 0x18 4 + (tdM d - 1) * fld d 0x1C 4 + rowBytes (tdFa d) (tdKs d) ≤ sramBytes)) &&
  (!elems || decide (fld d 0x20 4 + (tdN d - 1) * fld d 0x24 4 + rowBytes (tdFb d) (tdKs d) ≤ sramBytes)) &&
  (!fmtMx (tdFa d) || decide (fld d 0x28 4 + (tdM d - 1) * (tdKt d / 32) + blocks ≤ sramBytes)) &&
  (!fmtMx (tdFb d) || decide (fld d 0x2C 4 + (tdN d - 1) * (tdKt d / 32) + blocks ≤ sramBytes)) &&
  (!tdAnchors d || (decide (tdAnchor d % 128 = 0) && decide (tdAnchor d + 8192 ≤ sramBytes)))

/-- The checks of R132 in order; `list` is the array whose list holds the descriptor, `none` says that every array of the
group is retired. -/
def tdCheck (d : List Byte) (list : Nat) (dead : Bool) : Nat :=
  let step := if pairFixed (tdFa d) then 64 else 32
  if !crcOk d then 1
  else if 2 < tdOp d ∨ 8 ≤ fld d 7 1 ∨ ctrFieldOk (tdWait d) = false ∨ ctrFieldOk (tdPost d) = false then 2
  else if tdOp d = 2 then 0
  else if 9 < tdFa d ∨ 9 < tdFb d ∨ pairOk (tdFa d) (tdFb d) = false then 3
  else if tdM d = 0 ∨ 64 < tdM d ∨ tdN d = 0 ∨ 64 < tdN d ∨ fld d 0xA 1 ≠ list then 4
  else if tdKt d = 0 ∨ 1048576 < tdKt d ∨ tdKt d % step ≠ 0 ∨ tdKo d % step ≠ 0 ∨ tdKs d % step ≠ 0 ∨ tdKs d = 0 ∨
      tdKt d < tdKo d + tdKs d then 5
  else if tdAddrOk d = false then 6
  else if (if tdOp d = 1 then tdSrc d == 0 || (tdSrc d == 2 && pairMx (tdFa d) (tdFb d))
      else (pairMx (tdFa d) (tdFb d) == (tdSrc d != 0))) = false then 7
  else if 3200 < tdCycles d then 8
  else if dead then 9
  else 0

/-! ### Operands -/

/-- The rows (or columns) of an operand as numbers. -/
def State.operand (s : State) (t addr stride fmt ks from_ n : Nat) : List Nat :=
  (List.range n).map (fun i => leNat (s.sram t (addr + (from_ + i) * stride) (rowBytes fmt ks)))

/-- The scale codes of a row over all blocks (R128). -/
def State.scales (s : State) (t addr kt row n : Nat) : List Nat := (s.sram t (addr + row * (kt / 32)) n).map BitVec.toNat

/-- An anchor word over blocks `lo .. lo + n - 1` of a row and a column, from a starting word. -/
def State.anchorWord (s : State) (t : Nat) (d : List Byte) (i j lo n start : Nat) : Nat :=
  let sa := scalesFor (tdFa d) n ((s.scales t (fld d 0x28 4) (tdKt d) i (lo + n)).drop lo)
  let sb := scalesFor (tdFb d) n ((s.scales t (fld d 0x2C 4) (tdKt d) j (lo + n)).drop lo)
  (sa.zip sb).foldl (fun w p => anchorFold (tdFa d) (tdFb d) w p.1 p.2) start

/-- The FP32 sum of one BF16 or FP16 output, from the running total of the earlier slices (R112). -/
def fixedSum (total f ks a b : Nat) : Nat :=
  dotFixedFrom total ((List.range ks).map (fun k => rn (elemVal f (elemOf f a k))))
    ((List.range ks).map (fun k => rn (elemVal f (elemOf f b k))))

/-- What a fixed-order contraction is, whatever its slice: formats, outputs, k_total, and where its operands begin at
k = 0 (R112, R128). -/
def fixedIdent (d : List Byte) : List Int :=
  [tdFa d, tdM d, tdN d, tdKt d, (fld d 0x18 4 : Int) - 2 * tdKo d, fld d 0x1C 4, (fld d 0x20 4 : Int) - 2 * tdKo d, fld d 0x24 4]

/-- The total an output of a fixed-order slice starts from: +0.0 at the first slice, then what the array's earlier slice of the
same contraction left. Where the array has run no such slice the spec names no source: `free` (R112; DESIGN CHOICE, log
93). -/
def MatArray.fixedTotal (x : MatArray) (d : List Byte) (k free : Nat) : Nat :=
  if tdKo d = 0 then 0
  else match (if x.fixed.ident = fixedIdent d then Tbl.look x.fixed.totals k else none) with
    | some (e, v) => if e = tdKo d then v else free
    | none => free

/-- The exact partial whose every flag says NaN (R132). -/
def nanPartial : Nat := 2 ^ 124

/-! ### Running a tile -/

/-- The anchor words of columns `lo .. lo + n - 1` and the state after an INLINE pre-pass wrote them (R125, R130). -/
def State.tileAnchors (s : State) (t a : Nat) (d : List Byte) (lo n : Nat) : State × Tbl Nat :=
  let x := (s.tiller t).array a
  let keys := (List.range (tdM d)).flatMap (fun i => (List.range n).map (fun j => 64 * i + (lo + j)))
  let mem (k : Nat) : Nat := leNat (s.sram t (tdAnchor d + 2 * k) 2)
  match tdSrc d with
  | 0 => (s, [])
  | 1 =>
    let ws := keys.map (fun k => (k, s.anchorWord t d (k / 64) (k % 64) 0 (tdKt d / 32) anchorEmpty))
    (ws.foldl (fun s e => s.sramWrite t (tdAnchor d + 2 * e.1) (leBytes 2 e.2)) s, ws)
  | 2 => (s, keys.map (fun k => (k, mem k)))
  | _ =>
    let held := decide (x.heldAt = some (tdAnchor d))
    (s, keys.map (fun k => (k, if held then (Tbl.look x.held k).getD (mem k) else mem k)))

/-- One output: an FP32 readout, or an exact partial word when drain_exact is 1 (R110, R111, R112). Of a BF16 or FP16
tile with drain_exact the spec states no partial: a free value stands for it. -/
def tileOut (d : List Byte) (anchor : Option Nat) (a b : Nat) (sa sb : List Nat) (total free : Nat) : Nat :=
  if pairFixed (tdFa d) then
    if tdExact d then (List.range 4).foldl (fun n i => n * 4294967296 + (Config.freeWord (free + i)).toNat) 0 % 2 ^ 125
    else fixedSum total (tdFa d) (tdKs d) a b
  else
    let start := match anchor with | none => fixedAcc (tdFa d) (tdFb d) | some w => accOf w
    let acc := accumulate (tdFa d) (tdFb d) (tdKs d) (tdKo d) a b sa sb start
    if tdExact d then acc.word else acc.readout

/-- One pass of a PRODUCT over logical columns `lo .. lo + n - 1`: its output columns (R125, R133). -/
def State.tilePass (s : State) (t a : Nat) (d : List Byte) (lo n : Nat) : State × List (List Nat) :=
  let r := s.tileAnchors t a d lo n
  let s := r.1
  let ra := s.operand t (fld d 0x18 4) (fld d 0x1C 4) (tdFa d) (tdKs d) 0 (tdM d)
  let cb := s.operand t (fld d 0x20 4) (fld d 0x24 4) (tdFb d) (tdKs d) lo n
  let blocks := (tdKo d + tdKs d) / 32
  let y := (s.tiller t).array a
  let cols := cb.zipIdx.map (fun b =>
    let sb := if fmtMx (tdFb d) then s.scales t (fld d 0x2C 4) (tdKt d) (lo + b.2) blocks else []
    ra.zipIdx.map (fun x =>
      let sa := if fmtMx (tdFa d) then s.scales t (fld d 0x28 4) (tdKt d) x.2 blocks else []
      let k := 64 * x.2 + lo + b.2
      let free := s.freeCount + 4 * k
      tileOut d (if tdSrc d = 0 then none else Tbl.look r.2 k) x.1 b.1 sa sb
        (y.fixedTotal d k (Config.freeWord free).toNat) free))
  let y := if tdSrc d = 0 then { y with heldAt := none, held := [] }
    else { y with
      heldAt := some (tdAnchor d)
      held := r.2.foldl (fun h e => Tbl.put h e.1 e.2) (if y.heldAt = some (tdAnchor d) ∧ 0 < lo then y.held else []) }
  let y := if !pairFixed (tdFa d) || tdExact d then y else { y with fixed := {
    ident := fixedIdent d
    totals := cols.zipIdx.foldl (fun m c => c.1.zipIdx.foldl (fun m v =>
        Tbl.put m (64 * v.2 + lo + c.2) (tdKo d + tdKs d, v.1)) m)
      (if y.fixed.ident = fixedIdent d then y.fixed.totals else []) } }
  ({ s with freeCount := s.freeCount + 16384 }.setArray t a y, cols)

/-- Cycles in ANCHOR or STREAM of one pass (R141). -/
def passCycles (d : List Byte) (held : Bool) : Nat :=
  anchorCycles (tdSrc d) (tdKt d) held + streamCycles (tdFa d) (tdFb d) (tdKs d)

/-- The NaN outputs of a refused tile (R132). -/
def nanCols (d : List Byte) : List (List Nat) :=
  List.replicate (min (tdN d) 64) (List.replicate (min (tdM d) 64) (if tdExact d then nanPartial else f32NaN))

/-- Move a tile whose outputs are complete into the shadow registers: its drain is ready, and the array is at a tile boundary
(R122, R127, R135). -/
def State.intoShadow (s : State) (t a : Nat) (x : Tile) : State :=
  let r := (s.tiller t).array a
  let s := (s.setArray t a { r.to 1 with tile := none, shadow := some x }).modChain t (a / 8) (fun c => { c with order := c.order ++ [a] })
  s.applyWidth t a

/-- A tile's last product is in: it moves to the shadow registers, or stalls in the array until they have drained (R124,
R127). -/
def State.toShadow (s : State) (t a : Nat) (x : Tile) : State :=
  let s := s.bumpWide (8 + t) (1 + a / 8) 3 (a % 8) 1
  let r := (s.tiller t).array a
  if r.shadow.isSome then s.setArray t a { r.to 4 with tile := some { x with full := true } } else s.intoShadow t a x

/-- The shadow registers of an array have drained: a tile that stalled for them moves in (R124). -/
def State.freeShadow (s : State) (t a : Nat) : State :=
  let s := s.setArray t a { (s.tiller t).array a with shadow := none }
  match ((s.tiller t).array a).tile with
  | some x => if x.full then s.intoShadow t a x else s
  | none => s

/-- Run the first pass of a checked PRODUCT, or the whole of a NaN tile (R132, R133, R158). -/
def State.runTile (s : State) (t a : Nat) (x : Tile) : State :=
  if x.nan then s.toShadow t a { x with cols := nanCols x.desc }
  else
    let r := (s.tiller t).array a
    let held := decide (r.heldAt = some (tdAnchor x.desc))
    let w := min (tdN x.desc) r.width
    let p := s.tilePass t a x.desc 0 w
    let s := p.1.bumpWide (8 + t) (1 + a / 8) 1 (a % 8) (passCycles x.desc held)
    let x := { x with cols := p.2 }
    if w < tdN x.desc then
      let s := ((s.bump (8 + t) 0 0x10C 1).event (8 + t) 0 [sqBit 0x118 1] []).bumpWide (8 + t) (1 + a / 8) 3 (a % 8) 1
      let r := (s.tiller t).array a
      s.setArray t a { r with tile := some x, state := 4 }
    else s.toShadow t a x

/-- Fetch an epilogue entry with a tile (R148): its bytes. -/
def State.epiEntry (s : State) (t g i : Nat) : List Byte :=
  s.sram t ((s.reg (8 + t) (13 + g) 0x100).toNat % 0x20000000 + 128 * i) 128

/-- Partial mode of an epilogue entry. -/
def edPartial (e : List Byte) : Nat := fld e 5 1 / 64
/-- Gate mode of an epilogue entry. -/
def edGate (e : List Byte) : Nat := fld e 5 1 / 16 % 4

/-- Every counter field and code of an epilogue entry is in range (R149, R158). -/
def edFieldsOk (e : List Byte) (exact : Bool) : Bool :=
  let st := fld e 0xA 2
  fld e 4 1 == 1 && fld e 5 1 % 16 == 0 && decide (edPartial e ≤ 2) && decide (edGate e ≤ 2) &&
  decide (fld e 6 1 ≤ 10) && decide (fld e 7 1 < 4) && decide (fld e 8 1 < 32) && decide (fld e 9 1 ≤ 4) &&
  decide (st < 1024) && ([0, 1, 2, 3, 4].all (fun i => decide (st / 4 ^ i % 4 ≤ 2))) && decide (fld e 0x1C 1 < 4) &&
  (decide (8 ≤ fld e 0x1D 1) && decide (fld e 0x1D 1 ≤ 10) || !bitAt (fld e 8 1) 0) && fld e 0x1E 2 == 0 &&
  ctrFieldOk (fld e 0x2C 4) && ctrFieldOk (fld e 0x4C 4) && zeros e 0x59 39 &&
  (exact == (edPartial e != 0)) && decide (fld e 0x58 1 ≤ 16) && decide (1 ≤ fld e 0x50 4) && decide (fld e 0x50 4 ≤ 256)

/-- Bits of an output format, FP32 included (R145). -/
def outBits (f : Nat) : Nat := if f = 10 then 32 else elemBits f

/-- The offsets of an epilogue entry's addresses. -/
def edAddrs : List Nat := [0x10, 0x14, 0x18, 0x20, 0x28, 0x34, 0x3C, 0x48, 0x54]

/-- The addresses of an epilogue entry lie in SRAM, part_addr and send_list are aligned, and so does every byte it uses
(R158). -/
def edAddrOk (e : List Byte) (m n : Nat) : Bool :=
  let en := fld e 8 1
  let fits (a k : Nat) : Bool := decide (a + k ≤ sramBytes)
  edAddrs.all (fun o => decide (fld e o 4 < sramBytes)) && decide (fld e 0x48 4 % 2048 = 0) && decide (fld e 0x54 4 % 16 = 0) &&
  let mx := fmtMx (fld e 6 1)
  let col := bitAt (fld e 7 1) 0
  let rows := if mx && col then n else m
  let len := if mx && col then m else n
  let rowB := if mx then ceilDiv len 32 * 4 * elemBits (fld e 6 1) else len * outBits (fld e 6 1) / 8
  (!bitAt en 3 || fits (fld e 0x10 4) (4 * m)) && (!bitAt en 2 || fits (fld e 0x14 4) (4 * n)) &&
  (!bitAt en 1 || fits (fld e 0x18 4) ((if bitAt (fld e 0x1C 1) 0 then m else n) * (if bitAt (fld e 0x1C 1) 1 then 2 else 4))) &&
  (!bitAt en 0 || fits (fld e 0x20 4) ((m - 1) * fld e 0x24 4 + n * outBits (fld e 0x1D 1) / 8)) &&
  (edGate e == 0 || fits (fld e 0x28 4) (4096 * (if fld e 0xA 2 / 16 % 4 = 0 then 4 else 2))) &&
  (!(bitAt (fld e 7 1) 1 && edGate e != 1 && edPartial e != 1) ||
    (fits (fld e 0x34 4) ((rows - 1) * fld e 0x38 4 + rowB) &&
      (!mx || fits (fld e 0x3C 4) ((rows - 1) * fld e 0x40 4 + ceilDiv len 32)))) &&
  (edPartial e != 2 || fits (fld e 0x48 4) 65536) && fits (fld e 0x54 4) (16 * fld e 0x58 1)

/-- The check of an epilogue entry: 0, or its code (R158). -/
def edCheck (e : List Byte) (d : List Byte) : Nat :=
  if !crcOk e then 1
  else if !edFieldsOk e (tdExact d) then 2
  else if !edAddrOk e (min (tdM d) 64) (min (tdN d) 64) then 3
  else 0

/-- Log a failing epilogue entry (R158, R159). -/
def State.epiRefuse (s : State) (t g entry code : Nat) : State :=
  (s.setRegN (8 + t) (13 + g) 0x114 entry).event (8 + t) (13 + g) [sqBit 0x118 0] [code]

/-- A wait is needed: the field is enabled and the counter is below the value. -/
def State.mustWait (s : State) (f v : Nat) : Bool := bitAt f 31 && !s.ctrMet (f % 0x20000) v

/-- The next descriptor of array `a`: source, address and bytes. -/
def State.nextDescOf (s : State) (t a : Nat) : Option (Nat × Nat × Nat × Nat × List Byte) :=
  match s.nextSource t a with
  | none => none
  | some (rank, list, idx) =>
    match Tbl.look (s.tiller t).lists (listKey (s.jobOn t) rank list) with
    | none => none
    | some addr => some (rank, list, idx, addr, s.sram t addr 64)

/-- The second pass that a pre-emption left over for the job that holds the Tillers, with the array that ran its first pass; the
array that runs the lists of a retired one runs it (R133, R134). -/
def State.restOf (s : State) (t a : Nat) : Option (Nat × Tile) :=
  let r := s.tiller t
  ((List.range 8).map (fun i => a / 8 * 8 + i)).findSome? (fun b =>
    if r.runner b = some a then (Tbl.look r.rests (listKey (s.jobOn t) 0 b)).map (fun x => (b, x)) else none)

/-- The array may fetch: of a Tiller in service, idle or between tiles; its latest tile may still drain (R127). An array of a
group whose every array is retired takes its own list, to refuse it (R132). -/
def State.mayFetch (s : State) (t a : Nat) : Bool :=
  let x := (s.tiller t).array a
  decide ((s.tiller t).role = .inService) && decide (a < 96) && x.tile.isNone && (s.restOf t a).isNone &&
    (decide (x.state ≤ 1) || (x.retired && ((s.tiller t).runner a).isNone))

/-- Move a list on to its next descriptor and the turn to the next source. -/
def State.tookDesc (s : State) (t a rank list idx addr : Nat) : State :=
  let r := s.tiller t
  let x := r.array a
  s.setTiller t { r with
    lists := Tbl.put r.lists (listKey (s.jobOn t) rank list) (addr + 64)
    arrays := Tbl.set {} r.arrays a { x.to 1 with turn := idx + 1 } }

/-- Log a refused tile descriptor (R132). -/
def State.tileRefuse (s : State) (t addr code : Nat) : State :=
  ((s.bump (8 + t) 0 0x110 1).setRegN (8 + t) 0 0x114 addr).tilErr t code [0]

/-- A descriptor with no code to refuse it and no wait left passes its WAIT. -/
def State.passWait (s : State) (code f : Nat) : State := if code = 0 then s.noteWait f else s

/-- Park an array's WAIT (R136, R389). -/
def State.arrayWaits (s : State) (t a : Nat) (x : Tile) : State :=
  let r := (s.tiller t).array a
  (s.setArray t a { r with tile := some x, state := 2 }).park
    { unit := .array t a, ctr := tdWait x.desc % 0x20000, thr := tdWaitV x.desc }

/-- TILE_PRODUCT (R128, R132): the array fetches a descriptor that is neither PREPASS nor END, checks it and the epilogue
entry, and runs it, drains a NaN tile, or waits on its counter. -/
def tileProduct (s : State) (t a : Nat) : State :=
  if !s.mayFetch t a then s
  else match s.nextDescOf t a with
    | none => s
    | some (rank, list, idx, addr, d) =>
      if tdOp d = 1 ∨ tdOp d = 2 then s
      else
        let code := tdCheck d list (((s.tiller t).runner a).isNone)
        let e := s.epiEntry t (a / 8) (tdEpi d)
        let ecode := if code = 1 then 0 else edCheck e d
        let s := s.tookDesc t a rank list idx addr
        let s := if code = 0 then s else s.tileRefuse t addr code
        let s := if ecode = 0 then s else s.epiRefuse t (a / 8) (tdEpi d) ecode
        let x : Tile := { addr := addr, desc := d, epi := e, nan := decide (code ≠ 0 ∨ ecode ≠ 0), silent := decide (code = 1), job := s.jobOn t }
        if code = 0 ∧ s.mustWait (tdWait d) (tdWaitV d) = true then s.arrayWaits t a x
        else (s.passWait code (tdWait d)).runTile t a x

/-- Run a checked PREPASS: anchor words computed or folded and written (R131). -/
def State.runPrepass (s : State) (t a : Nat) (x : Tile) : State :=
  let d := x.desc
  let lo := tdKo d / 32
  let n := tdKs d / 32
  let keys := (List.range (tdM d)).flatMap (fun i => (List.range (tdN d)).map (fun j => 64 * i + j))
  let ws := keys.map (fun k => (k, s.anchorWord t d (k / 64) (k % 64) lo n
    (if tdSrc d = 2 then leNat (s.sram t (tdAnchor d + 2 * k) 2) else anchorEmpty)))
  let s := ws.foldl (fun s e => s.sramWrite t (tdAnchor d + 2 * e.1) (leBytes 2 e.2)) s
  let s := (s.bumpWide (8 + t) (1 + a / 8) 1 (a % 8) (tdKs d / 32 + 126)).bumpWide (8 + t) (1 + a / 8) 3 (a % 8) 1
  let r := (s.tiller t).array a
  ((s.setArray t a { r.to 1 with tile := none, heldAt := none, held := [] }).advanceFld (tdPost d) 1).applyWidth t a

/-- TILE_PREPASS (R131): its epilogue entry is copied and checked as any tile's (R148, R158), and used when the descriptor is
refused. -/
def tilePrepass (s : State) (t a : Nat) : State :=
  if !s.mayFetch t a then s
  else match s.nextDescOf t a with
    | none => s
    | some (rank, list, idx, addr, d) =>
      if tdOp d ≠ 1 then s
      else
        let code := tdCheck d list (((s.tiller t).runner a).isNone)
        let e := s.epiEntry t (a / 8) (tdEpi d)
        let ecode := if code = 1 then 0 else edCheck e d
        let s := s.tookDesc t a rank list idx addr
        let s := if code = 0 then s else s.tileRefuse t addr code
        let s := if ecode = 0 then s else s.epiRefuse t (a / 8) (tdEpi d) ecode
        let x : Tile := { addr := addr, desc := d, epi := e, nan := decide (code ≠ 0), silent := decide (code = 1), job := s.jobOn t }
        if code ≠ 0 then s.runTile t a x
        else if s.mustWait (tdWait d) (tdWaitV d) then s.arrayWaits t a x
        else (s.noteWait (tdWait d)).runPrepass t a x

/-- TILE_END (R128): the list ends; a refused END is logged and still stops the array. -/
def tileEnd (s : State) (t a : Nat) : State :=
  if !s.mayFetch t a then s
  else match s.nextDescOf t a with
    | none => s
    | some (rank, list, idx, addr, d) =>
      if tdOp d ≠ 2 then s
      else
        let code := tdCheck d list false
        let s := if code = 0 then s else s.tileRefuse t addr code
        let r := s.tiller t
        let x := r.array a
        s.setTiller t { r with
          lists := Tbl.del r.lists (listKey (s.jobOn t) rank list)
          arrays := Tbl.set {} r.arrays a { x.to 0 with turn := idx + 1 } }

/-- The tile whose second pass an array is to run: the one it holds between its passes, or the one a pre-emption left over
(R133). -/
def State.secondTile (s : State) (t a : Nat) : Option (Nat × Tile) :=
  let r := (s.tiller t).array a
  match r.tile with
  | some x => if r.state = 4 ∧ x.full = false ∧ x.job = s.jobOn t then some (a, x) else none
  | none => if r.state ≤ 1 then s.restOf t a else none

/-- SPLIT_SECOND_PASS (R133): columns width to n − 1, with the width the first pass had; the job holds the Tillers, and the first
pass's accumulators have left the cells. -/
def splitSecondPass (s : State) (t a : Nat) : State :=
  match s.secondTile t a with
  | none => s
  | some (b, x) =>
    let r := s.tiller t
    if (r.array a).shadow.isSome then s
    else
      let lo := x.cols.length
      let held := decide ((r.array a).heldAt = some (tdAnchor x.desc))
      let s := s.setTiller t { r with rests := Tbl.del r.rests (listKey (s.jobOn t) 0 b) }
      let p := s.tilePass t a x.desc lo (tdN x.desc - lo)
      let s := p.1.bumpWide (8 + t) (1 + a / 8) 1 (a % 8) (passCycles x.desc held)
      s.toShadow t a { x with cols := x.cols ++ p.2 }

/-- The arrays of a Tiller yield at a tile boundary (R58, R136): one between tiles is IDLE, and a second pass that has not run
waits until the job next holds the Tillers (R133). -/
def Tiller.yield (r : Tiller) : Tiller :=
  r.arrays.foldl (fun (r : Tiller) e =>
    let x := e.2
    match x.tile with
    | some y => if x.state = 4 ∧ y.full = false then
        { r with rests := Tbl.put r.rests (listKey y.job 0 e.1) y, arrays := Tbl.set {} r.arrays e.1 { x.to 0 with tile := none } }
        else r
    | none => if x.state = 1 then { r with arrays := Tbl.set {} r.arrays e.1 (x.to 0) } else r) r

/-- An array whose WAIT is answered goes on (R136). -/
def State.arrayGo (s : State) (t a : Nat) : State :=
  let r := (s.tiller t).array a
  match r.tile with
  | none => s
  | some x =>
    if r.state ≠ 2 then s
    else if tdOp x.desc = 1 then s.runPrepass t a x else s.runTile t a x

/-! ### Meanings -/

/-- TILE_PRODUCT. -/
def execTileProduct (t a : Nat) (s : State) : Host.Outcome State Fault Refusal := .next (tileProduct s t a)
/-- TILE_PREPASS. -/
def execTilePrepass (t a : Nat) (s : State) : Host.Outcome State Fault Refusal := .next (tilePrepass s t a)
/-- TILE_END. -/
def execTileEnd (t a : Nat) (s : State) : Host.Outcome State Fault Refusal := .next (tileEnd s t a)
/-- SPLIT_SECOND_PASS. -/
def execSplitSecondPass (t a : Nat) (s : State) : Host.Outcome State Fault Refusal := .next (splitSecondPass s t a)

end Sys2Proof.Machine
end

