-- ==== Sys2Proof/Machine/Epilogue.lean ====
section
/-! DEFINITION. The epilogue chain, gate pairs, exact partials and tile send (R143 to R161). -/

namespace Sys2Proof.Machine

/-! ### Stages (R144) -/

/-- Round an FP32 value to a stage format and hold it as FP32: 0 FP32, 1 BF16, 2 FP16. -/
def stageFmt (f v : Nat) : Nat :=
  match f with
  | 0 => v
  | 1 => toBf16 (f32Val v) * 65536
  | _ => rn (elemVal 9 (toFp16 (f32Val v)))

/-- The format of stage N (2 to 6) of an entry. -/
def edStage (e : List Byte) (n : Nat) : Nat := fld e 0xA 2 / 4 ^ (n - 2) % 4

/-- A value of a stage or operand format read from SRAM as FP32: 8 BF16, 9 FP16, 10 FP32. -/
def State.sramVal (s : State) (t a fmt : Nat) : Nat :=
  match fmt with
  | 8 => rn (elemVal 8 (leNat (s.sram t a 2)))
  | 9 => rn (elemVal 9 (leNat (s.sram t a 2)))
  | _ => rn (f32Val (s.sram32 t a))

/-- The operand format code of a stage format. -/
def stageCode (f : Nat) : Nat := match f with | 0 => 10 | 1 => 8 | _ => 9

/-- Bytes of a stage format. -/
def stageBytes (f : Nat) : Nat := if f = 0 then 4 else 2

/-- Stage 2 of output (i, j). -/
def State.stage2 (s : State) (t : Nat) (e : List Byte) (i j v : Nat) : Nat :=
  let en := fld e 8 1
  let v := if bitAt en 4 then fMul v (fld e 0xC 4) else v
  let v := if bitAt en 3 then fMul v (s.sramVal t (fld e 0x10 4 + 4 * i) 10) else v
  let v := if bitAt en 2 then fMul v (s.sramVal t (fld e 0x14 4 + 4 * j) 10) else v
  if bitAt en 4 || bitAt en 3 || bitAt en 2 then stageFmt (edStage e 2) v else v

/-- Stage 3 of output (i, j). -/
def State.stage3 (s : State) (t : Nat) (e : List Byte) (i j v : Nat) : Nat :=
  if bitAt (fld e 8 1) 1 then
    let k := if bitAt (fld e 0x1C 1) 0 then i else j
    let b := if bitAt (fld e 0x1C 1) 1 then s.sramVal t (fld e 0x18 4 + 2 * k) 8 else s.sramVal t (fld e 0x18 4 + 4 * k) 10
    stageFmt (edStage e 3) (fAdd v b)
  else v

/-- Stage 4 (R116). -/
def stage4 (e : List Byte) (v : Nat) : Nat :=
  match fld e 9 1 with
  | 0 => v
  | 1 => stageFmt (edStage e 4) (fSilu v)
  | 2 => stageFmt (edStage e 4) (fGelu v)
  | 3 => stageFmt (edStage e 4) (fRelu v)
  | _ => stageFmt (edStage e 4) (fSqRelu v)

/-- Stages 5 and 6 of output (i, j). -/
def State.stage56 (s : State) (t : Nat) (e : List Byte) (i j v : Nat) : Nat :=
  let v := if edGate e = 2 then
      let f := edStage e 4
      stageFmt (edStage e 5) (fMul v (s.sramVal t (fld e 0x28 4 + (64 * i + j) * stageBytes f) (stageCode f)))
    else v
  if bitAt (fld e 8 1) 0 then
    let f := fld e 0x1D 1
    stageFmt (edStage e 6) (fAdd v (s.sramVal t (fld e 0x20 4 + i * fld e 0x24 4 + j * (outBits f / 8)) f))
  else v

/-- Stages 2 to 4 of an output. -/
def State.stages24 (s : State) (t : Nat) (e : List Byte) (i j v : Nat) : Nat := stage4 e (s.stage3 t e i j (s.stage2 t e i j v))

/-! ### Quantising (R145 to R147, R150) -/

/-- One element of a non-MX output as bytes (R147). -/
def plainOut (f scale v : Nat) : List Byte :=
  if f = 10 then leBytes 4 v
  else if f = 8 ∨ f = 9 then leBytes 2 (toElem f (f32Val v))
  else leBytes 1 (toElem f (f32Val (fMul v scale)))

/-- Transpose rows of equal length. -/
def transposeN : Nat → List (List Nat) → List (List Nat)
  | 0, _ => []
  | n + 1, rows => rows.map (fun r => (r.head?).getD 0) :: transposeN n (rows.map (fun r => r.drop 1))

/-- The runs of bytes an output tile is written as, at the addresses of R150, the elements before the scales; `rows` are its
output rows. -/
def outRuns (e : List Byte) (rows : List (List Nat)) : List (Nat × List Byte) :=
  let f := fld e 6 1
  if fmtMx f then
    let lines := if bitAt (fld e 7 1) 0 then transposeN ((rows.head?.map List.length).getD 0) rows else rows
    let blocks := lines.map (fun l => (lineBlocks 3 l).map (mxBlock f))
    blocks.zipIdx.map (fun l => (fld e 0x34 4 + l.2 * fld e 0x38 4, l.1.flatMap (fun b => packElems (elemBits f) b.2))) ++
      blocks.zipIdx.map (fun l => (fld e 0x3C 4 + l.2 * fld e 0x40 4, l.1.map (fun b => BitVec.ofNat 8 b.1)))
  else rows.zipIdx.map (fun l => (fld e 0x34 4 + l.2 * fld e 0x38 4, l.1.flatMap (plainOut f (fld e 0x44 4))))

/-! ### Tile send (R155) -/

/-- Send runs to one destination entry, displaced from `base`; an entry whose destination is out of service is dropped. -/
def State.sendEntry (s : State) (t g kind vc zop base : Nat) (runs : List (Nat × List Byte)) (ent : List Byte) : State :=
  let target := fld ent 1 1
  let addr := fld ent 4 4
  let moved := runs.map (fun r => ((r.1 + addr + 0x100000000 - base) % 0x100000000, r.2))
  if fld ent 0 1 = 0 ∧ (s.tiller target).role = .inService ∧ target < 68 then
    s.sendRuns (packetHead (8 + t) (8 + target) kind vc 0) (fld ent 8 4) moved
  else if fld ent 0 1 = 1 ∧ target < 48 ∧ s.zioUp target = true then s.zioSend (8 + t) target zop kind vc (fld ent 8 4) moved
  else (s.bump (8 + t) (13 + g) 0x110 1).event (8 + t) (13 + g) [sqBit 0x118 2] [5]

/-- Issue the destination list of an entry in order (R155). -/
def State.sendAll (s : State) (t g : Nat) (e : List Byte) (kind vc zop base : Nat) (runs : List (Nat × List Byte)) : State :=
  (List.range (fld e 0x58 1)).foldl (fun s i => s.sendEntry t g kind vc zop base runs (s.sram t (fld e 0x54 4 + 16 * i) 16)) s

/-- Write and send a finished output tile, then advance post_ctr (R144, R150, R155, R156). `rows` are the readouts. -/
def State.finishTile (s : State) (t g : Nat) (x : Tile) (rows : List (List Nat)) : State :=
  let e := x.epi
  let vals := rows.zipIdx.map (fun r => r.1.zipIdx.map (fun c =>
    s.stage56 t e r.2 c.2 (s.stages24 t e r.2 c.2 c.1)))
  let runs := outRuns e vals
  let s := if bitAt (fld e 7 1) 1 then runs.foldl (fun s r => s.sramWrite t r.1 r.2) s else s
  let s := s.sendAll t g e 0 2 0 (fld e 0x34 4) runs
  (s.bump (8 + t) (13 + g) 0x108 1).advanceFld (tdPost x.desc) 1

/-- Rows of a tile from its columns. -/
def Tile.rows (x : Tile) : List (List Nat) := transposeN ((x.cols.head?.map List.length).getD 0) x.cols

/-- Write a HOLD tile's gate and set its tag (R151); `rows` are the readouts. -/
def State.holdTile (s : State) (t g : Nat) (x : Tile) (rows : List (List Nat)) : State :=
  let e := x.epi
  let f := edStage e 4
  let s := rows.zipIdx.foldl (fun s r => s.sramWrite t (fld e 0x28 4 + 64 * r.2 * stageBytes f)
    (r.1.zipIdx.flatMap (fun c => plainOut (stageCode f) 0 (s.stages24 t e r.2 c.2 c.1)))) s
  let s := s.modChain t g (fun c => { c with tags := c.tags ++ [(fld e 0x28 4, x.job)] })
  (s.bump (8 + t) (13 + g) 0x108 1).advanceFld (tdPost x.desc) 1

/-- The stages after the readout: a HOLD keeps its gate, every other tile is written and sent (R144, R151). -/
def State.stagesTile (s : State) (t g : Nat) (x : Tile) (rows : List (List Nat)) : State :=
  if edGate x.epi = 1 then s.holdTile t g x rows else s.finishTile t g x rows

/-- The NaN rows of a tile, FP32 or exact partials as its mode hands them on (R132, R158). -/
def Tile.nanRows (x : Tile) (v : Nat) : List (List Nat) := x.rows.map (fun r => r.map (fun _ => v))

/-- The readouts a NONE drain runs on (R154, R158). -/
def Tile.readouts (x : Tile) : List (List Nat) := if x.nan then x.nanRows f32NaN else x.rows

/-- The partials a SEND or an ADD hands on (R154, R158). -/
def Tile.partialRows (x : Tile) : List (List Nat) := if x.nan then x.nanRows nanPartial else x.rows

/-- The words of a tile of exact partials by output index (R153). -/
def Tile.partials (x : Tile) : Tbl Nat :=
  x.partialRows.zipIdx.foldl (fun m r => r.1.zipIdx.foldl (fun m v => Tbl.put m (64 * r.2 + v.2) v.1) m) []

/-! ### Drains, deferral (R127, R152) -/

/-- The gate of a CONSUME is ready: its counter, or a tag of the chain (R151). -/
def State.gateReady (s : State) (c : Chain) (e : List Byte) : Bool :=
  let f := fld e 0x2C 4
  if bitAt f 31 then s.ctrMet (f % 0x20000) (fld e 0x30 4) else c.tags.any (fun g => g.1 == fld e 0x28 4)

/-- A tile's stages run a HOLD: with a SEND no stage runs (R151, R154). -/
def Tile.holds (x : Tile) : Bool := !x.silent && edGate x.epi == 1 && edPartial x.epi != 1

/-- The gate lets a tile's stages begin: a CONSUME finds its gate ready, and a HOLD finds a tag free, those of the drains taken
before it counted (R151). -/
def State.gateFree (s : State) (c : Chain) (e : List Byte) : Bool :=
  match edGate e with
  | 1 => decide (c.tags.length + (c.ready.filter (fun y => y.holds && edPartial y.epi != 2)).length < 4)
  | 2 => s.gateReady c e
  | _ => true

/-- The counter of a finish has reached part_expected (R154), `more` contributions to come counted. -/
def State.partReached (s : State) (e : List Byte) (more : Nat) : Bool :=
  let f := fld e 0x4C 4
  !bitAt f 31 || decide (fld e 0x50 4 ≤ (s.ctr (f % 0x20000)).toNat + more)

/-- Contributions on their way to a counter that the chain and the adder hold. -/
def State.coming (s : State) (t g : Nat) (f : Nat) : Nat :=
  let r := s.tiller t
  (r.adder.filter (fun c => c.ctr == f)).length +
    ((r.chain g).ready.filter (fun y => edPartial y.epi == 2 && fld y.epi 0x4C 4 == f)).length

/-- An ADD's finish would wait with `more` contributions beside those on their way, or its gate would not let it begin (R151,
R152). -/
def State.finishWaits (s : State) (t g : Nat) (e : List Byte) (more : Nat) : Bool :=
  !s.partReached e (s.coming t g (fld e 0x4C 4) + more) || !s.gateFree ((s.tiller t).chain g) e

/-- A drain needs deferral (R151, R152): a NONE whose gate does not let it begin, an ADD whose finish would wait once its own
contribution and those on their way are applied. -/
def State.mustDefer (s : State) (t g : Nat) (x : Tile) : Bool :=
  !x.silent && match edPartial x.epi with
  | 1 => false
  | 2 => s.finishWaits t g x.epi 1
  | _ => !s.gateFree ((s.tiller t).chain g) x.epi

/-- Deferred items a chain holds, with the ADD drains taken whose finish will be one (R152). -/
def State.heldItems (s : State) (t g : Nat) : Nat :=
  let c := (s.tiller t).chain g
  c.deferred.length + c.finishes.length +
    (c.ready.filter (fun y => edPartial y.epi == 2 && !y.silent && s.finishWaits t g y.epi 0)).length

/-- A CONSUME that begins its stages clears the tag it uses, or its WAIT on a counter is applied (R151). -/
def State.useTag (s : State) (t g : Nat) (x : Tile) : State :=
  if !x.silent && edGate x.epi == 2 && !bitAt (fld x.epi 0x2C 4) 31 then
    s.modChain t g (fun c => { c with
      tags := match c.tags.find? (fun y => y.1 == fld x.epi 0x28 4) with | none => c.tags | some y => c.tags.erase y })
  else if !x.silent && edGate x.epi == 2 then s.noteWait (fld x.epi 0x2C 4)
  else s

/-- Run the chain on one drain (R143, R151, R154). An ADD's finish is a deferred item while its condition does not hold. -/
def State.runDrain (s : State) (t g : Nat) (x : Tile) : State :=
  if x.silent then s.advanceFld (tdPost x.desc) 1
  else
    let s := if x.nan then s.bump (8 + t) (13 + g) 0x10C 1 else s
    match edPartial x.epi with
    | 1 =>
      let rows := x.partialRows.zipIdx.map (fun r => (fld x.epi 0x48 4 + 1024 * r.2, r.1.flatMap (leBytes 16)))
      let s := s.sendAll t g x.epi 3 3 1 (fld x.epi 0x48 4) rows
      (s.bump (8 + t) (13 + g) 0x108 1).advanceFld (tdPost x.desc) 1
    | 2 =>
      let wait := s.mustDefer t g x
      let r := s.tiller t
      let c : Contrib := { addr := fld x.epi 0x48 4, words := x.partials, ctr := fld x.epi 0x4C 4 }
      let s := s.setTiller t { r with adder := r.adder ++ [c] }
      let y := { x with cols := [] }
      s.modChain t g (fun c => if wait then { c with finishes := c.finishes ++ [y] } else { c with prompt := c.prompt ++ [y] })
    | _ => s.stagesTile t g x x.readouts

/-- An array whose drain the chain takes or defers now: with four items deferred, one that would need deferral stays
unaccepted (R152). -/
def State.drainable (s : State) (t g a : Nat) : Bool :=
  match ((s.tiller t).array a).shadow with
  | none => false
  | some x => !s.mustDefer t g x || decide (s.heldItems t g < 4)

/-- The array whose drain the chain takes next: the first in order of readiness (R127, R152). -/
def State.drainNext (s : State) (t g : Nat) : Option Nat := ((s.tiller t).chain g).order.find? (fun a => s.drainable t g a)

/-- TILE_DRAIN (R127, R152): the drain whose turn it is leaves the shadow registers into its chain, or is deferred and stays
there. An ADD's drain is taken and its finish deferred. -/
def tileDrain (s : State) (t a : Nat) : State :=
  let g := a / 8
  if s.drainNext t g ≠ some a then s
  else match ((s.tiller t).array a).shadow with
    | none => s
    | some x =>
      let wait := s.mustDefer t g x && edPartial x.epi != 2
      let s := s.modChain t g (fun c => { c with order := c.order.erase a })
      if wait then s.modChain t g (fun c => { c with deferred := c.deferred ++ [a] })
      else
        let s := if edPartial x.epi = 0 ∨ edPartial x.epi = 3 then s.useTag t g x else s
        (s.freeShadow t a).modChain t g (fun c => { c with ready := c.ready ++ [x] })

/-- EPILOGUE_DRAIN (R143): the chain runs the drain it took first. -/
def epilogueDrain (s : State) (t g : Nat) : State :=
  let c := (s.tiller t).chain g
  match c.ready with
  | [] => s
  | x :: rest => (s.setChain t g { c with ready := rest }).runDrain t g x

/-- DEFERRED_DRAIN (R152): the first deferred drain whose condition holds proceeds, between the drains in hand. -/
def deferredDrain (s : State) (t g : Nat) : State :=
  let c := (s.tiller t).chain g
  let r := s.tiller t
  match c.deferred.find? (fun a => match (r.array a).shadow with | none => false | some x => !s.mustDefer t g x) with
  | none => s
  | some a =>
    match (r.array a).shadow with
    | none => s
    | some x =>
      let s := s.setChain t g { c with deferred := c.deferred.erase a }
      ((s.useTag t g x).freeShadow t a).runDrain t g x

/-! ### Exact partials (R153, R154) -/

/-- Combine a contribution word with a buffer word: the new word and whether anchors differ (R153). -/
def partialMerge (old new : Nat) : Nat × Bool :=
  if bitAt old 127 then (new, false)
  else
    let a := Acc.ofWord old
    let b := Acc.ofWord new
    if a.anchor = b.anchor then ((a.merge b).word, false) else ({ a with nan := true : Acc }.word, true)

/-- The page that logs a mismatch: of the chain with a finish waiting for the buffer, else group 0. -/
def Tiller.partialGroup (t : Tiller) (addr : Nat) : Nat :=
  ((List.range 12).find? (fun g => ((t.chain g).finishes ++ (t.chain g).prompt).any (fun x =>
    decide (fld x.epi 0x48 4 ≤ addr) && decide (addr < fld x.epi 0x48 4 + 65536)))).getD 0

/-- The advance of a contribution: of the Tiller's own by its chain, of one that came over the Rhizome by a CTR_OP of the die's
fabric interface (R154, R171). -/
def State.contribAdvance (s : State) (t : Nat) (c : Contrib) : State :=
  if !c.remote then s.advanceFld c.ctr 1
  else if bitAt c.ctr 31 then s.sendAdvance (8 + t) (c.ctr % 0x20000) else s

/-- PARTIAL_APPLY (R153): the adder applies its oldest contribution, then advances the counter. -/
def partialApply (s : State) (t : Nat) : State :=
  let r := s.tiller t
  match r.adder with
  | [] => s
  | c :: rest =>
    let g := r.partialGroup c.addr
    let s := s.setTiller t { r with adder := rest }
    let s := c.words.foldl (fun s w =>
      let a := c.addr + 16 * w.1
      let m := partialMerge (leNat (s.sram t a 16)) w.2
      let s := s.sramWrite t a (leBytes 16 m.1)
      if m.2 then s.event (8 + t) (13 + g) [sqBit 0x118 1] [4] else s) s
    (s.bumpWide (8 + t) 13 3 0 c.words.length).contribAdvance t c

/-- A finish may run: its counter has reached part_expected, its own contribution is applied, and its gate lets its stages begin
(R151, R154). -/
def State.finishReady (s : State) (t g : Nat) (x : Tile) : Bool :=
  s.partReached x.epi 0 && s.gateFree ((s.tiller t).chain g) x.epi &&
    !(s.tiller t).adder.any (fun c => !c.remote && c.addr == fld x.epi 0x48 4)

/-- Set every word of a buffer empty (R153, R154). -/
def State.emptyBuffer (s : State) (t a : Nat) : State :=
  let s := { s with mem := Memory.clear s.mem (Space.key (.sram t) a) 65536 }
  (List.range 4096).foldl (fun s i => s.sramWrite t (a + 16 * i + 15) [(0x80 : Byte)]) s

/-- The readouts of a finish (R110, R154). -/
def State.bufferRows (s : State) (t : Nat) (x : Tile) : List (List Nat) :=
  (List.range (min (tdM x.desc) 64)).map (fun i => (List.range (min (tdN x.desc) 64)).map (fun j =>
    if x.nan then f32NaN else (Acc.ofWord (leNat (s.sram t (fld x.epi 0x48 4 + 16 * (64 * i + j)) 16))).readout))

/-- ADD_FINISH (R154): the first finish that may run reads its buffer out through stages 2 to 7 of its entry, writes and sends, and
clears the buffer. -/
def addFinish (s : State) (t g : Nat) : State :=
  let c := (s.tiller t).chain g
  match (c.prompt ++ c.finishes).find? (s.finishReady t g) with
  | none => s
  | some x =>
    let s := if c.prompt.contains x then s.setChain t g { c with prompt := c.prompt.erase x }
      else s.setChain t g { c with finishes := c.finishes.erase x }
    let rows := s.bufferRows t x
    (((s.noteWait (fld x.epi 0x4C 4)).useTag t g x).emptyBuffer t (fld x.epi 0x48 4)).stagesTile t g x rows

/-! ### Meanings -/

/-- TILE_DRAIN. -/
def execTileDrain (t a : Nat) (s : State) : Host.Outcome State Fault Refusal := .next (tileDrain s t a)
/-- EPILOGUE_DRAIN. -/
def execEpilogueDrain (t g : Nat) (s : State) : Host.Outcome State Fault Refusal := .next (epilogueDrain s t g)
/-- DEFERRED_DRAIN. -/
def execDeferredDrain (t g : Nat) (s : State) : Host.Outcome State Fault Refusal := .next (deferredDrain s t g)
/-- PARTIAL_APPLY. -/
def execPartialApply (t : Nat) (s : State) : Host.Outcome State Fault Refusal := .next (partialApply s t)
/-- ADD_FINISH. -/
def execAddFinish (t g : Nat) (s : State) : Host.Outcome State Fault Refusal := .next (addFinish s t g)

end Sys2Proof.Machine
end

