-- ==== Sys2Proof/Machine/Fabric.lean ====
section
/-! DEFINITION. Rhizome packets at their destinations (R164 to R171, R178). Register accesses over the fabric are in
Machine/Pages.lean. -/

namespace Sys2Proof.Machine

/-- A packet that no unit with a command injected, towards an UNREACHABLE or dead destination: it never leaves its source
(R169). -/
def State.neverLeaves (s : State) (p : Packet) : Bool := !s.rhz.flight.any (sameFlow p) && s.unreach p.src p.dst

/-- Handle an arriving packet of a kind: one that cannot leave its source is discarded there (R169); a bad header is logged and
the packet discarded at the receiving router (R178); otherwise the packet is taken in the order of its flow, its flits counted,
and handed on. -/
def State.arrive (s : State) (p : Packet) (kind : Nat) (f : State → State) : State :=
  if s.neverLeaves p then s.rhzDrop (siteDie (p.src % 72)) 2
  else if !packetHeaderOk p || p.kind != kind then s.event (siteDie (p.dst % 72)) 25 [sqBit 0x118 0] [4]
  else match s.takePacket p with
    | none => s
    | some s => f (s.countFlits p)

/-- FABRIC_WRITE (R165, R170, R171): the bytes are committed; the tail's advance leaves as a CTR_OP of the destination. -/
def fabricWrite (s : State) (p : Packet) : State :=
  s.arrive p 0 (fun s =>
    let s := s.commit p
    if p.tail && p.advEn then s.sendAdvance (siteDie p.dst) p.advCtr else s)

/-- A response to a request packet, with the request's tag. -/
def responseOf (p : Packet) (kind : Nat) (payload : List Byte) : Packet :=
  { packetHead (siteDie p.dst) (siteDie p.src) kind 1 p.space with
    units := payload.length / 16, tail := true, tag := p.tag, addr := p.addr, payload := payload }

/-- FABRIC_READ_REQ (R165, R170): the responder reads the data and answers on vc 1, in packets of ascending addresses. -/
def fabricReadReq (s : State) (p : Packet) : State :=
  s.arrive p 1 (fun s =>
    match packetTarget p with
    | none => s
    | some (sp, _) => s.inject (responseOf p 2 (s.load sp p.addr (16 * p.units))))

/-- FABRIC_READ_RESP (R165): the data reach the requester. -/
def fabricReadResp (s : State) (p : Packet) : State := s.arrive p 2 (fun s => s.answer (leNat p.payload))

/-- FABRIC_PARTIAL (R153, R171): the words are handed to the destination's adder with the tail's advance. -/
def fabricPartial (s : State) (p : Packet) : State :=
  s.arrive p 3 (fun s =>
    let t := siteDie p.dst - 8
    let r := s.tiller t
    let words := (List.range p.units).foldl (fun m i => Tbl.put m i (fld p.payload (16 * i) 16)) []
    let c : Contrib := {
      addr := p.addr, words := words, ctr := if p.tail && p.advEn then 0x80000000 + p.advCtr else 0, remote := true }
    s.setTiller t { r with adder := r.adder ++ [c] })

/-- CTR_OP (R171, R385, R389): the operation is applied at the owning Wellhead; every operation but a posted ADD is answered. A
WAIT that is not satisfied is parked, and answered once it is. -/
def ctrOpPacket (s : State) (p : Packet) : State :=
  s.arrive p 4 (fun s =>
    let op := fld p.payload 0 4
    let a := fld p.payload 4 4
    if op = 2 ∧ s.ctrMet p.advCtr a = false then s.park { unit := .packet p.src p.tag, ctr := p.advCtr, thr := a }
    else
      let r := s.ctrOp op p.advCtr a (fld p.payload 8 4) (fld p.payload 12 4)
      if op = 1 then r.1 else r.1.inject (ctrAnswer (siteDie p.dst) p.src p.tag r.2.1 r.2.2))

/-- CTR_RESP (R165): the result reaches the requester. -/
def ctrResp (s : State) (p : Packet) : State := s.arrive p 5 (fun s => s.answer (fld p.payload 0 8))

/-! ### Meanings -/

/-- FABRIC_WRITE. -/
def execFabricWrite (p : Packet) (s : State) : Host.Outcome State Fault Refusal := .next (fabricWrite s p)
/-- FABRIC_READ_REQ. -/
def execFabricReadReq (p : Packet) (s : State) : Host.Outcome State Fault Refusal := .next (fabricReadReq s p)
/-- FABRIC_READ_RESP. -/
def execFabricReadResp (p : Packet) (s : State) : Host.Outcome State Fault Refusal := .next (fabricReadResp s p)
/-- FABRIC_PARTIAL. -/
def execFabricPartial (p : Packet) (s : State) : Host.Outcome State Fault Refusal := .next (fabricPartial s p)
/-- CTR_OP. -/
def execCtrOp (p : Packet) (s : State) : Host.Outcome State Fault Refusal := .next (ctrOpPacket s p)
/-- CTR_RESP. -/
def execCtrResp (p : Packet) (s : State) : Host.Outcome State Fault Refusal := .next (ctrResp s p)

end Sys2Proof.Machine
end

