-- ==== Sys2Proof/Machine/Noria.lean ====
section
/-! DEFINITION. Noria rings, the counter window, the SYC page and parked WAITs (R371 to R392, R411, R61, R62). -/

namespace Sys2Proof.Machine

/-! ### Commands of a command ring (R61, R62) -/

/-- A command message decoded from its 64 bytes. -/
def decodeCmd (source : Nat) (bs : List Byte) : CmdMsg :=
  { source := source, crcOk := bs.length == 64 && crcOk bs
    reservedOk := fld bs 4 1 == 1 && zeros bs 7 1 && zeros bs 0x2E 2 && decide (fld bs 0x18 16 < 2 ^ 68)
    cmd := fld bs 5 1, paddock := fld bs 6 1, serial := fld bs 8 8, atStroke := fld bs 0x10 8, tillers := fld bs 0x18 16
    job := fld bs 0x28 2, k := fld bs 0x2A 1, wheelLen := fld bs 0x2B 1, sprintSlots := fld bs 0x2C 2
    lpddrGib := fld bs 0x30 4, sounderSlots := fld bs 0x34 4, wheelRef := fld bs 0x38 8 }

/-- Commands to a halted paddock are held until it is restored, but for one that no boundary restores (R64). -/
def State.holds (s : State) (pad : Nat) : Bool :=
  decide ((s.paddock pad).state = .halted) && !(s.paddock pad).noHost

/-- The stroke a command handed over now is received in: from 48 µs on it is the next one (R62). -/
def State.receiptStroke (s : State) : Nat := if s.time.phaseUs < 48 then s.strokeN else s.strokeN + 1

/-- Receive a command (R62). -/
def State.receive (s : State) (m : CmdMsg) : State :=
  { s with pad := { s.pad with
      recvd := s.pad.recvd ++ [{ stroke := s.receiptStroke, msg := m, halted := s.holds (m.paddock % 16) }] } }

/-! ### Doorbells (R376, R411) -/

/-- A doorbell before service: discarded and counted for its port (R411, R418). -/
def State.earlyDoorbell (s : State) (port : Nat) : State :=
  let w := (s.reg 120 12 0x100).toNat
  let p0 := if port = 0 then min (w % 65536 + 1) 65535 else w % 65536
  let p1 := if port = 0 then w / 65536 else min (w / 65536 + 1) 65535
  s.setRegN 120 12 0x100 (p1 * 65536 + p0)

/-- A ring of a kind you produce into, in device memory (R372). -/
def deviceKind (k : Nat) : Bool := k == 0 || k == 4 || k == 8

/-- Count and flag a rejected index value (R376, R378). -/
def State.badIndex (s : State) (w : Nat) (errs : List Nat) : State :=
  (s.bump w 31 0x104 1).event w 31 [sqBit 0x118 0] errs

/-- Hand the commands of positions `from` to the new producer index over (R62). -/
def State.handCommands (s : State) (r : Ring) (n : Nat) : State :=
  (List.range n).foldl (fun s i => s.receive (decodeCmd r.port (s.load .lpddr (r.addr (r.prod + i)) 64))) s

/-- DOORBELL_WRITE (R376, R410, R411): it reaches the module only while the port serves its BARs. -/
def doorbellWrite (s : State) (port rid v : Nat) (aligned : Bool) : State :=
  if !(s.hp port).bars || s.flt.safe then s
  else if !s.boot.ready then s.earlyDoorbell port
  else
    let w := s.ringWh rid
    match Tbl.look s.nor.rings rid with
    | none => s.err w 31 2
    | some r =>
      if !deviceKind r.kind then s.err w 31 2
      else if r.port ≠ port then s.err w 31 3
      else if aligned = false ∨ v < r.prod ∨ r.cons + r.entries < v then s.badIndex w [1]
      else
        let s := if r.kind = 4 then s.handCommands r (v - r.prod) else s
        s.setRing rid { r with prod := v }

/-- A read of a doorbell word (R376). -/
def State.doorbellRead (s : State) (rid : Nat) : Nat :=
  match Tbl.look s.nor.rings rid with
  | none => 0
  | some r => if deviceKind r.kind then r.prod else 0

/-! ### Creating and destroying rings (R373, R382, R384) -/

/-- Record bytes of a kind (R372). -/
def kindBytes (k : Nat) : Nat :=
  match k with
  | 0 => 256 | 1 => 64 | 2 => 16 | 3 => 64 | 4 => 64 | 5 => 32 | 6 => 64 | 7 => 32 | _ => 64

/-- The record code of a record size (R373). -/
def recCode (n : Nat) : Nat := if n = 16 then 0 else if n = 32 then 1 else if n = 64 then 2 else 3

/-- Greatest binding value of a kind plus one (R372). -/
def bindLimit (k : Nat) : Nat :=
  match k with
  | 3 => 2 | 4 => 2 | 5 => 2 | 7 => 4 | 8 => 64 | _ => 4096

/-- The kind is limited to one ring per binding (R372). -/
def kindSingle (k : Nat) : Bool := [1, 3, 4, 5, 7, 8].contains k

/-- The ring a descriptor describes, both indices at 0. -/
def ringOf (d : List Byte) : Ring :=
  { kind := fld d 5 1, recBytes := kindBytes (fld d 5 1), log2 := fld d 7 1, base := fld d 8 8, idx := fld d 0x10 8
    port := fld d 0x18 1, core := fld d 0x19 1, bind := fld d 0x1A 2 }

/-- The descriptor is within R373 and its ring lies where its kind lies. -/
def State.ringFieldsOk (s : State) (d : List Byte) : Bool :=
  let r := ringOf d
  fld d 4 1 == 1 && decide (r.kind ≤ 8) && fld d 6 1 == recCode r.recBytes && decide (6 ≤ r.log2) && decide (r.log2 ≤ 20) &&
  decide (r.base % 4096 = 0) && decide (r.idx % 16 = 0) && decide (r.port ≤ 1) &&
  (if r.kind = 0 then decide (r.core ≤ 15) else r.core == 0) && decide (r.bind < bindLimit r.kind) && zeros d 0x1C 36 &&
  (!deviceKind r.kind || s.inHost r.base (r.recBytes * r.entries))

/-- The ring id is reserved to firmware (R371). -/
def ringReserved (rid : Nat) : Bool := decide (rid % 32768 < 4096)

/-- A live request of a subscriber. -/
def State.subLive (s : State) (sub : Nat) : Bool := s.req.slots.any (fun e => e.2.live && decide (descSub e.2.desc = sub))

/-- The ring is in use (R382). -/
def State.ringInUse (s : State) (rid : Nat) (r : Ring) : Bool :=
  match r.kind with
  | 0 => decide (r.cons < r.prod)
  | 1 => s.subLive r.bind
  | 2 => s.ringBusy rid
  | 6 => s.req.slots.any (fun e => e.2.live && descMap e.2.desc && decide (descCit e.2.desc = rid))
  | _ => false

/-- The checks of CREATE in order (R382): a code and the ring. -/
def State.createCheck (s : State) (rid addr : Nat) : Nat × Ring :=
  if addr % 64 ≠ 0 ∨ s.inHost addr 64 = false then (2, {})
  else
    let d := s.load .lpddr addr 64
    let r := ringOf d
    if !crcOk d then (1, {})
    else if !s.ringFieldsOk d then (2, {})
    else if ringReserved rid then (7, {})
    else if (Tbl.look s.nor.rings rid).isSome then (3, {})
    else if kindSingle r.kind && (s.findRing r.kind r.bind).isSome then (6, {})
    else (0, r)

/-- RING_CREATE (R382): the descriptor is durable in the boot partition when the result reads DONE. -/
def ringCreate (s : State) (req : Requester) (rid : Nat) : State :=
  s.modCommand req 11 (fun s =>
    let c := s.createCheck rid (s.cmdAddr 11)
    let s := if c.1 = 0 then
        let b := Tbl.put s.boot.rings rid c.2
        { s.setRing rid c.2 with boot := { s.boot with rings := b } }
      else s
    s.cmdDone 11 c.1 rid)

/-- The checks of DESTROY in order (R382). -/
def State.destroyCheck (s : State) (rid : Nat) : Nat :=
  if ringReserved rid then 7
  else match Tbl.look s.nor.rings rid with
    | none => 4
    | some r => if s.ringInUse rid r then 5 else 0

/-- RING_DESTROY (R382). -/
def ringDestroy (s : State) (req : Requester) (rid : Nat) : State :=
  s.modCommand req 11 (fun s =>
    let c := s.destroyCheck rid
    let s := if c = 0 then
        { s with nor := { s.nor with rings := Tbl.del s.nor.rings rid }
                 boot := { s.boot with rings := Tbl.del s.boot.rings rid } }
      else s
    s.cmdDone 11 c rid)

/-! ### Indices towards host memory (R377, R378, R380) -/

/-- CONSUMER_INDEX_POST (R377): the consumer index of a device ring goes to its index block. -/
def consumerIndexPost (s : State) (rid : Nat) : State :=
  match Tbl.look s.nor.rings rid with
  | none => s
  | some r =>
    if !deviceKind r.kind || r.postedCi == r.cons then s
    else
      let w := s.ringWh rid
      let s := s.setRing rid { r with postedCi := r.cons }
      (s.hostWrite r.port (r.idx + 8) (leBytes 8 r.cons)).bumpWide w 31 3 0 1

/-- A request waits for room in a ring: for its citation map, or its next step for its output ring (R40, R285). -/
def State.slotWants (s : State) (rid : Nat) (r : Ring) (x : Slot) : Bool :=
  x.live && ((x.mapPending && decide (descCit x.desc = rid) && decide (r.entries < r.resv - r.cons + x.mapRecs.length)) ||
    (decide (descService x.desc ≤ 1) && decide (descOut x.desc = rid) && !s.ringRoom x))

/-- The cached value shows too little room for the records a ring's producers hold: a record that waits for its turn, composed output
records beyond its room, or a request that waits (R378, R381). -/
def State.ringWants (s : State) (rid : Nat) (r : Ring) : Bool :=
  !r.filled.isEmpty || decide (r.entries < r.resv - r.cons + s.ringQueued rid) || s.req.slots.any (fun e => s.slotWants rid r e.2)

/-- CONSUMER_INDEX_READ (R378): bytes 8 to 15 of the index block, which the host has set to `v`, are read while room is
lacking; a value above the producer index or below the cached one is ignored. -/
def consumerIndexRead (s : State) (rid v : Nat) : State :=
  match Tbl.look s.nor.rings rid with
  | none => s
  | some r =>
    if deviceKind r.kind || !(s.hp r.port).readOk (r.idx + 8) || !s.ringWants rid r then s
    else
      let w := s.ringWh rid
      let s := ((s.store (.host r.port) (r.idx + 8) (leBytes 8 v)).bump w 31 0x110 1).bumpWide r.port 13 3 0 8
      if r.prod < v ∨ v < r.cons then s.badIndex w []
      else ((s.setRing rid { r with cons := v }).drainRing rid).settle

/-- The read of a completion ring's index block orders the ACCEPTs issued into it before what follows in another ring (R37, R380). -/
def State.fenceAccepts (s : State) (a b : Nat) : State :=
  { s with req := { s.req with slots := s.req.slots.map (fun e =>
      if e.2.acceptNs.isSome ∧ s.compRing (descSub e.2.desc) = some a then (e.1, { e.2 with fencedTo := insNat b e.2.fencedTo })
      else e) } }

/-- CROSS_PORT_FENCE (R380): the first ring's index block has been read through its port, so that a record may go into the
second ring through the other port. -/
def crossPortFence (s : State) (a b : Nat) : State :=
  match Tbl.look s.nor.rings a, Tbl.look s.nor.rings b with
  | some x, some y =>
    if x.port = y.port ∨ (s.hp x.port).readOk x.idx = false then s
    else
      let s := (s.bumpWide x.port 13 3 0 16).fenceAccepts a b
      { s with nor := { s.nor with fenced := if s.nor.fenced.contains (a, b) then s.nor.fenced else s.nor.fenced ++ [(a, b)] } }
  | _, _ => s

/-! ### The counter window (R390, R410) -/

/-- An access of the counter window is an aligned 4-byte access. -/
def windowOk (off width : Nat) : Bool := decide (off % 4 = 0) && width == 4

/-- A BAR2 write dropped, or a read failed (R408, R410): counted in HPT_DROPPED. -/
def State.hptDrop (s : State) (port : Nat) : State := s.bump port 13 0x10C 1

/-- COUNTER_WINDOW_READ (R390, R410). -/
def counterWindowRead (s : State) (port off width : Nat) : State :=
  if !(s.hp port).bars then s
  else if s.flt.safe then s.answer 0xFFFFFFFF
  else if !s.boot.ready then s.answer 0
  else if !windowOk off width then s.err (s.ctrWh (off / 4 % 131072)) 32 2
  else
    let r := s.ctrOp 0 (off / 4 % 131072) 0 0 0
    r.1.answer r.2.1

/-- COUNTER_WINDOW_ADD (R390, R410). -/
def counterWindowAdd (s : State) (port off width v : Nat) : State :=
  if !(s.hp port).bars || s.flt.safe then s
  else if !s.boot.ready then s.hptDrop port
  else if !windowOk off width then s.err (s.ctrWh (off / 4 % 131072)) 32 2
  else s.advance (off / 4 % 131072) v

/-! ### The SYC page (R385, R386, R391) -/

/-- A requester's operation registers of the SYC page of Wellhead `wh`. -/
def State.syc (s : State) (wh : Nat) (req : Requester) : SycOp := Tbl.val {} s.nor.syc (wh % 4 * 4 + requesterNum req)

/-- Replace a requester's operation registers. -/
def State.setSyc (s : State) (wh : Nat) (req : Requester) (x : SycOp) : State :=
  { s with nor := { s.nor with syc := Tbl.set {} s.nor.syc (wh % 4 * 4 + requesterNum req) x } }

/-- A write to SYC_OP_GO: the operation runs at the counter's owner; WAIT and ops 6 and 7 are answered BAD_OP (R391). -/
def sycGo (s : State) (req : Requester) (wh op core : Nat) : State :=
  s.gated req (wh % 4) 32 3 (fun s =>
    let x := s.syc wh req
    if x.state = 1 then s.err (wh % 4) 32 1
    else if op = 2 ∨ 5 < op then
      s.setSyc wh req { x with state := 2, status := 2, old := s.ctr x.id }
    else
      let r := s.ctrOp op x.id x.a.toNat x.b.toNat (requesterOwner req core (x.b.toNat % 0x1000000))
      r.1.setSyc wh req { x with state := 2, status := r.2.2, old := BitVec.ofNat 32 r.2.1 })

/-! ### Parked WAITs (R389) -/

/-- A unit's WAIT is met: its counter reaches the threshold, or the WAIT has been answered. -/
def State.waitMet (s : State) (p : Park) : Bool := s.ctrMet p.ctr p.thr || s.nor.answered.contains p

/-- A unit goes on past the WAIT of a field of [31] enable and [16:0] id: it is applied here unless it has been answered, and an answered
one is forgotten. -/
def State.waitUsed (s : State) (f : Nat) (p : Park) : State :=
  let t : State := { s with nor := { s.nor with
    answered := s.nor.answered.erase p, parked := s.nor.parked.filter (fun q => q ≠ p), retry := s.nor.retry.filter (fun q => q ≠ p) } }
  if s.nor.answered.contains p then t else t.noteWait f

/-- WAIT_PARK (R389): a unit's WAIT on a counter below its threshold is parked, or answered RETRY when the table is full;
a unit has one WAIT at a time. -/
def waitPark (s : State) (u : WaitUnit) (c thr : Nat) : State :=
  if s.ctrMet c thr || (s.nor.parked ++ s.nor.retry).any (fun p => decide (p.unit = u)) then s
  else s.park { unit := u, ctr := c, thr := thr }

/-- The unit of an answered WAIT goes on: an array starts its tile, a chain drains what waited, and any other unit finds the
WAIT answered. -/
def State.waitGo (s : State) (p : Park) : State :=
  match p.unit with
  | .array t a => (s.noteWait (0x80000000 + p.ctr)).arrayGo t a
  | .chain t g => addFinish (deferredDrain s t g) t g
  | .packet site tag =>
    let r := s.ctrOp 2 p.ctr p.thr 0 0
    r.1.inject (ctrAnswer (s.ctrWh p.ctr) site tag r.2.1 r.2.2)
  | _ => { s.noteWait (0x80000000 + p.ctr) with nor := { s.nor with answered := s.nor.answered ++ [p] } }

/-- WAIT_SATISFIED (R389): the first parked WAIT of a Wellhead whose counter reaches its threshold is answered. -/
def waitSatisfied (s : State) (w : Nat) : State :=
  match s.nor.parked.find? (fun p => decide (s.ctrWh p.ctr = w) && s.ctrMet p.ctr p.thr) with
  | none => s
  | some p => ({ s with nor := { s.nor with parked := s.nor.parked.erase p } }).waitGo p

/-- WAIT_REISSUE (R389): the first WAIT answered RETRY by a Wellhead is issued again. -/
def waitReissue (s : State) (w : Nat) : State :=
  match s.nor.retry.find? (fun p => decide (s.ctrWh p.ctr = w)) with
  | none => s
  | some p =>
    let s := { s with nor := { s.nor with retry := s.nor.retry.erase p } }
    if s.ctrMet p.ctr p.thr then s.waitGo p else s.park p

/-! ### Meanings -/

/-- DOORBELL_WRITE. -/
def execDoorbellWrite (port ring : Nat) (v : Word64) (al : Bool) (s : State) : Host.Outcome State Fault Refusal :=
  .next (doorbellWrite s (port % 2) (ring % 131072) v.toNat al)
/-- RING_CREATE. -/
def execRingCreate (req : Requester) (ring : Nat) (s : State) : Host.Outcome State Fault Refusal :=
  .next (ringCreate s req (ring % 131072))
/-- RING_DESTROY. -/
def execRingDestroy (req : Requester) (ring : Nat) (s : State) : Host.Outcome State Fault Refusal :=
  .next (ringDestroy s req (ring % 131072))
/-- CONSUMER_INDEX_POST. -/
def execConsumerIndexPost (ring : Nat) (s : State) : Host.Outcome State Fault Refusal := .next (consumerIndexPost s ring)
/-- CONSUMER_INDEX_READ. -/
def execConsumerIndexRead (ring : Nat) (v : Word64) (s : State) : Host.Outcome State Fault Refusal :=
  .next (consumerIndexRead s ring v.toNat)
/-- CROSS_PORT_FENCE. -/
def execCrossPortFence (a b : Nat) (s : State) : Host.Outcome State Fault Refusal := .next (crossPortFence s a b)
/-- COUNTER_WINDOW_READ. -/
def execCounterWindowRead (port off width : Nat) (s : State) : Host.Outcome State Fault Refusal :=
  .next (counterWindowRead s (port % 2) off width)
/-- COUNTER_WINDOW_ADD. -/
def execCounterWindowAdd (port off width : Nat) (v : Word) (s : State) : Host.Outcome State Fault Refusal :=
  .next (counterWindowAdd s (port % 2) off width v.toNat)
/-- SYC_READ. -/
def execSycRead (req : Requester) (wh : Nat) (s : State) : Host.Outcome State Fault Refusal := .next (sycGo s req wh 0 0)
/-- SYC_ADD. -/
def execSycAdd (req : Requester) (wh : Nat) (s : State) : Host.Outcome State Fault Refusal := .next (sycGo s req wh 1 0)
/-- SYC_WAIT. -/
def execSycWait (req : Requester) (wh : Nat) (s : State) : Host.Outcome State Fault Refusal := .next (sycGo s req wh 2 0)
/-- SYC_CAS. -/
def execSycCas (req : Requester) (wh : Nat) (s : State) : Host.Outcome State Fault Refusal := .next (sycGo s req wh 3 0)
/-- SYC_CLAIM. -/
def execSycClaim (req : Requester) (wh core : Nat) (s : State) : Host.Outcome State Fault Refusal :=
  .next (sycGo s req wh 4 (core % 16))
/-- SYC_RELEASE. -/
def execSycRelease (req : Requester) (wh core : Nat) (s : State) : Host.Outcome State Fault Refusal :=
  .next (sycGo s req wh 5 (core % 16))
/-- WAIT_PARK. -/
def execWaitPark (u : WaitUnit) (c thr : Nat) (s : State) : Host.Outcome State Fault Refusal := .next (waitPark s u c thr)
/-- WAIT_SATISFIED. -/
def execWaitSatisfied (w : Nat) (s : State) : Host.Outcome State Fault Refusal := .next (waitSatisfied s w)
/-- WAIT_REISSUE. -/
def execWaitReissue (w : Nat) (s : State) : Host.Outcome State Fault Refusal := .next (waitReissue s w)

end Sys2Proof.Machine
end

