-- ==== Sys2Proof/Machine/HostPorts.lean ====
section
/-! DEFINITION. The host ports: start of a port, configuration requests, BAR2, link loss and failed reads (R404 to
R418). -/

namespace Sys2Proof.Machine

/-- PERST_RELEASE (R410, R413): the port's timeline starts. In service its configuration space answers again and BAR0 and
BAR2 are served once that is ready; at a start of the module the register pages become readable after 60 ms. -/
def perstRelease (s : State) (p : Nat) : State :=
  if (s.hp p).released then s else s.setHp p { s.hp p with released := true, strokes := 0 }

/-- A boundary on a port's timeline (R410), at a start: configuration space is ready within 40 ms of the release of PERST#
(a free value says when), and the register pages read from 60 ms. -/
def State.portTick (s : State) (p : Nat) : State :=
  let h := s.hp p
  if !h.released then s
  else
    let n := h.strokes + 1
    let soon := Config.freeBool s.freeCount
    let s := { s with freeCount := s.freeCount + 1 }
    let cfg := h.cfgReady || (!s.boot.ready && (soon || decide (800 ≤ n)))
    s.setHp p { h with
      strokes := n, cfgReady := cfg, pagesReady := h.pagesReady || (cfg && decide (1200 ≤ n))
      linkUp := h.linkUp || (cfg && !h.cfgReady), width := if cfg && !h.cfgReady then 16 else h.width
      speed := if cfg && !h.cfgReady then 6 else h.speed, flit := h.flit || (cfg && !h.cfgReady) }

/-- The registers of configuration space that R405 gives, by word offset: identifiers, class code, subsystem ids, the
interrupt bytes; any other word is not the model's. -/
def State.configWord (s : State) (reg : Nat) : Option Nat :=
  match reg with
  | 0x00 => some 0x06401F6E
  | 0x2C => some ((if s.isS then 2 else 1) * 65536 + 0x1F6E)
  | _ => none

/-- Issue the writes held for host memory in their order (R413); the index writes among them cover their records now (R31). -/
def State.issueHeld (s : State) (p : Nat) : State :=
  let ws := (s.hp p).held
  let s := ws.foldl (fun s w => (s.store (.host p) w.1 w.2).bumpWide p 13 2 0 w.2.length) (s.setHp p { s.hp p with held := [] })
  ((s.nor.rings.filter (fun e => decide (e.2.port = p))).foldl (fun s e => s.noteIssued e.1) s).settle

/-- Power state of the port (R404): in D3hot it behaves as down; on its return to D0 the held writes are issued (R413). -/
def State.setPower (s : State) (p : Nat) (d3 : Bool) : State :=
  let s := s.setHp p { s.hp p with d3hot := d3 }
  if (s.hp p).up then s.issueHeld p else s

/-- A configuration write that is served: only the power state of the power management capability is the model's. -/
def State.configWrite (s : State) (p reg v : Nat) : State :=
  if reg ≠ Config.pmcsrOffset then s
  else if v % 4 = 3 then s.setPower p true
  else if v % 4 = 0 then s.setPower p false
  else s

/-- A word begins a capability of the list of configuration space: the one that holds the power management status and control
register, and those that no rule places (R404, R405; log entry 80). -/
def capHeadAt (reg : Nat) : Bool :=
  decide (0x40 ≤ reg) && decide (reg ≤ 0xFC) && decide (reg % 4 = 0) &&
    (decide (reg + 4 = Config.pmcsrOffset) || Config.capHead reg)

/-- The next capability of the list after an offset; 0 at its end. -/
def capAfter (reg : Nat) : Nat :=
  (((List.range 48).map (fun i => 0x40 + 4 * i)).find? (fun r => decide (reg < r) && capHeadAt r)).getD 0

/-- The id of a capability: any but 0x05 and 0x11, since there is neither an MSI nor an MSI-X capability (R2, R405). -/
def capIdAt (reg : Nat) : Nat :=
  if reg + 4 = Config.pmcsrOffset then 1
  else
    let n := Config.capId reg % 254
    if n < 0x05 then n else if n < 0x10 then n + 1 else n + 2

/-- A word of configuration space as read: what R405 does not give is a free value, but the capability list holds neither MSI nor
MSI-X (R2). -/
def State.configRead (s : State) (reg : Nat) : State :=
  match s.configWord reg with
  | some v => s.answer v
  | none =>
    let r := s.drawWord
    let w := r.1.toNat
    r.2.answer (match reg with
      | 0x04 => w - w / 1024 % 2 * 1024 - w / 524288 % 2 * 524288
      | 0x08 => 0x12000000 + w % 256
      | 0x3C => w / 65536 * 65536 + 0x00FF
      | 0x20 => 0
      | 0x24 => 0
      | 0x30 => 0
      | 0x34 => w / 256 * 256 + capAfter 0x3C
      | _ => if reg = Config.dsnLow then s.boot.fuses.serial % 4294967296
        else if reg = Config.dsnHigh then s.boot.fuses.serial / 4294967296 % 4294967296
        else if capHeadAt reg then w / 65536 * 65536 + 256 * capAfter reg + capIdAt reg else w)

/-- CONFIG_REQUEST (R405, R410): before configuration space is ready a request is completed with Request Retry Status, and
with Software Visibility a Vendor ID read returns 0x0001. -/
def configRequest (s : State) (p reg : Nat) (write rrsSv : Bool) (v : Nat) : State :=
  let h := s.hp p
  if !h.released then s
  else if !h.cfgReady then (if !write && rrsSv && reg == 0 then s.answer 0x0001 else s)
  else if write then s.configWrite p reg v
  else s.configRead reg

/-! ### BAR2 (R407 to R410) -/

/-- Start of the doorbell window. -/
def doorbellBase : Nat := 0x0FC0000000
/-- Start of the counter window. -/
def counterBase : Nat := 0x0FC0100000
/-- Start of the reserved range. -/
def bar2Reserved : Nat := 0x0FC0180000

/-- A BAR2 access that misses: dropped, logged and counted (R408). -/
def State.windowMiss (s : State) (p code : Nat) : State := (s.hptDrop p).event p 13 [sqBit 0x118 0] [code]

/-- The device address of an LPDDR window offset (R408). -/
def State.windowAddr (s : State) (p off : Nat) : Nat := s.hostBase + 1073741824 * (s.hp p).win + off

/-- BAR2_ACCESS (R408 to R410). -/
def bar2Access (s : State) (p off len : Nat) (write poisoned : Bool) (data : List Byte) : State :=
  let h := s.hp p
  if !h.bars then s
  else if s.flt.safe then (if write then s else s.answer (256 ^ len - 1))
  else
    let s := s.bumpWide p 13 1 0 1
    if write && poisoned then s
    else if off < counterBase ∧ doorbellBase ≤ off then
      let o := off - doorbellBase
      if write then doorbellWrite s p (o / 8) (leNat data) (decide (o % 8 = 0) && decide (data.length = 8))
      else s.answer (if h.pagesReady && s.boot.ready then s.doorbellRead (o / 8) else 0)
    else if off < bar2Reserved ∧ counterBase ≤ off then
      if write then counterWindowAdd s p (off - counterBase) data.length (leNat data)
      else counterWindowRead s p (off - counterBase) len
    else if !h.pagesReady then (if write then s.hptDrop p else s.answer 0)
    else if bar2Reserved ≤ off then s.windowMiss p 2
    else
      let n := if write then data.length else len
      if 3840 * 1073741824 < s.windowAddr p off + n then s.windowMiss p 1
      else if write then s.store .lpddr (s.windowAddr p off) data
      else s.answer (leNat (s.load .lpddr (s.windowAddr p off) n))

/-- HPT_WIN_WRITE (R408). -/
def hptWinWrite (s : State) (req : Requester) (p v : Nat) : State :=
  s.gated req p 13 (writeClass p 13 0x104 false req) (fun s => s.setHp p { s.hp p with win := v % 4096 })

/-- PORT_RESET (R413): the port's PCIe layers reset; writes towards host memory are held from now on. -/
def portReset (s : State) (p : Nat) : State :=
  let h := s.hp p
  let s := s.setHp p { h with released := false, cfgReady := false, linkUp := false, width := 0, speed := 0, flit := false
                              d3hot := false }
  if h.linkUp then s.event p 13 [sqBit 0x118 3] [] else s

/-- HOST_READ_FAIL (R412): counted, reported, and reissued later. -/
def hostReadFail (s : State) (p addr len : Nat) : State :=
  let s := (s.bumpWide p 13 4 0 1).event p 13 [sqBit 0x118 2] []
  s.setHp p { s.hp p with failed := (s.hp p).failed ++ [(addr, len)] }

/-- HOST_READ_REISSUE (R412): the oldest failed read is issued again; a port that is down waits. -/
def hostReadReissue (s : State) (p : Nat) (ok : Bool) : State :=
  let h := s.hp p
  match h.failed with
  | [] => s
  | (a, n) :: t =>
    if !h.up then s
    else if ok then (s.setHp p { h with failed := t }).bumpWide p 13 3 0 n
    else
      let s := (s.bumpWide p 13 4 0 1).event p 13 [sqBit 0x118 2] []
      s.setHp p { s.hp p with failed := t ++ [(a, n)] }

/-- HOST_PORT_RETURN (R410, R413): the link is up again, in service with the BARs served at once, and the writes held
for host memory are issued. -/
def hostPortReturn (s : State) (p lanes speed : Nat) : State :=
  let h := s.hp p
  let s := s.bumpWide p 13 5 0 1
  let s := s.setHp p { h with
    released := true, cfgReady := h.cfgReady || s.boot.ready, pagesReady := h.pagesReady || s.boot.ready, linkUp := true
    width := lanes, speed := speed, flit := decide (speed = 6), d3hot := false }
  s.issueHeld p

/-! ### Meanings -/

/-- PERST_RELEASE. -/
def execPerstRelease (p : Nat) (s : State) : Host.Outcome State Fault Refusal := .next (perstRelease s (p % 2))
/-- CONFIG_REQUEST. -/
def execConfigRequest (p reg : Nat) (write rrs : Bool) (v : Word) (s : State) : Host.Outcome State Fault Refusal :=
  .next (configRequest s (p % 2) reg write rrs v.toNat)
/-- BAR2_ACCESS. -/
def execBar2Access (p off len : Nat) (write poisoned : Bool) (data : List Byte) (s : State) :
    Host.Outcome State Fault Refusal := .next (bar2Access s (p % 2) off len write poisoned data)
/-- HPT_WIN_WRITE. -/
def execHptWinWrite (req : Requester) (p : Nat) (v : Word) (s : State) : Host.Outcome State Fault Refusal :=
  .next (hptWinWrite s req (p % 2) v.toNat)
/-- PORT_RESET. -/
def execPortReset (p : Nat) (s : State) : Host.Outcome State Fault Refusal := .next (portReset s (p % 2))
/-- HOST_READ_FAIL. -/
def execHostReadFail (p addr len : Nat) (s : State) : Host.Outcome State Fault Refusal :=
  .next (hostReadFail s (p % 2) addr len)
/-- HOST_READ_REISSUE. -/
def execHostReadReissue (p : Nat) (ok : Bool) (s : State) : Host.Outcome State Fault Refusal :=
  .next (hostReadReissue s (p % 2) ok)
/-- HOST_PORT_RETURN. -/
def execHostPortReturn (p lanes speed : Nat) (s : State) : Host.Outcome State Fault Refusal :=
  .next (hostPortReturn s (p % 2) lanes speed)

end Sys2Proof.Machine
end

