-- ==== Sys2Proof/Machine/Sampling.lean ====
section
/-! DEFINITION. The Winnow and the Sieve: SELECT, SAMPLE, grammar masks and transitions, and the grammar registry (R206 to
R235). -/

namespace Sys2Proof.Machine

/-! ### Grammar images (R215 to R218) -/

/-- vocab. -/
def grmVocab (g : List Byte) : Nat := fld g 8 4
/-- classes. -/
def grmClasses (g : List Byte) : Nat := fld g 0xC 4
/-- states. -/
def grmStates (g : List Byte) : Nat := fld g 0x10 4
/-- masks. -/
def grmMasks (g : List Byte) : Nat := fld g 0x14 4
/-- trans. -/
def grmTrans (g : List Byte) : Nat := fld g 0x18 4
/-- mask_bytes. -/
def grmMaskBytes (g : List Byte) : Nat := fld g 0x24 4
/-- image_bytes. -/
def grmBytes (g : List Byte) : Nat := fld g 0x48 8
/-- The class of a token. -/
def grmClass (g : List Byte) (t : Nat) : Nat := fld g (fld g 0x28 8 + 2 * t) 2
/-- A state record. -/
def grmState (g : List Byte) (n : Nat) : List Byte := (g.drop (fld g 0x30 8 + 32 * n)).take 32
/-- A transition entry. -/
def grmEntry (g : List Byte) (e : Nat) : List Byte := (g.drop (fld g 0x38 8 + 16 * e)).take 16
/-- The transition entries of a state. -/
def grmEntries (g : List Byte) (n : Nat) : List (List Byte) :=
  (List.range (fld (grmState g n) 4 4)).map (fun i => grmEntry g (fld (grmState g n) 0 4 + i))
/-- A mask. -/
def grmMask (g : List Byte) (i : Nat) : List Byte := (g.drop (fld g 0x40 8 + i * grmMaskBytes g)).take (grmMaskBytes g)
/-- A state accepts. -/
def grmAccept (g : List Byte) (n : Nat) : Bool := bitAt (fld (grmState g n) 0x14 4) 0
/-- The mask id of a state at a depth (R217). -/
def grmMaskId (g : List Byte) (n depth : Nat) : Nat :=
  fld (grmState g n) (if depth = 0 then 0xC else if depth = 64 then 0x10 else 8) 4
/-- A mask allows a token. -/
def maskAllows (m : List Byte) (t : Nat) : Bool := bitAt (fld m (t / 8) 1) (t % 8)
/-- A mask allows no token. -/
def maskNone (m : List Byte) : Bool := m.all (fun b => decide (b = 0))

/-- The header is within R216. -/
def grmHdrOk (g : List Byte) : Bool :=
  let b := grmBytes g
  fld g 4 4 == 1 && decide (1 ≤ grmVocab g) && decide (grmVocab g ≤ 2 ^ 18) && decide (1 ≤ grmClasses g) &&
  decide (grmClasses g ≤ 65536) && decide (1 ≤ grmStates g) && decide (grmStates g ≤ 2 ^ 24) && decide (1 ≤ grmMasks g) &&
  grmMaskBytes g == ceilDiv (ceilDiv (grmVocab g) 8) 128 * 128 && b == g.length && zeros g 0x50 48 &&
  decide (fld g 0x28 8 + 2 * grmVocab g ≤ b) && decide (fld g 0x30 8 + 32 * grmStates g ≤ b) &&
  decide (fld g 0x38 8 + 16 * grmTrans g ≤ b) && decide (fld g 0x40 8 + grmMasks g * grmMaskBytes g ≤ b)

/-- A transition entry is within R217. -/
def grmEntryOk (g e : List Byte) : Bool :=
  let op := fld e 2 1
  decide (fld e 0 2 < grmClasses g) && decide (op ≤ 2) && zeros e 3 1 && zeros e 0xC 4 &&
  (if op = 2 then fld e 4 4 == 0 else decide (fld e 4 4 < grmStates g)) &&
  (if op = 1 then decide (fld e 8 4 < grmStates g) else fld e 8 4 == 0)

/-- A list of naturals rises strictly. -/
def rising : List Nat → Bool
  | a :: b :: t => decide (a < b) && rising (b :: t)
  | _ => true

/-- A state record is within R217. -/
def grmStateOk (g : List Byte) (n : Nat) : Bool :=
  let r := grmState g n
  decide (fld r 4 4 ≤ grmClasses g) && decide (fld r 0 4 + fld r 4 4 ≤ grmTrans g) && decide (fld r 8 4 < grmMasks g) &&
  decide (fld r 0xC 4 < grmMasks g) && decide (fld r 0x10 4 < grmMasks g) && decide (fld r 0x14 4 < 2) && zeros r 0x18 8 &&
  rising ((grmEntries g n).map (fun e => fld e 0 2))

/-- The dictionary holds each distinct mask once (R217). -/
def allDistinct : List (List Byte) → Bool
  | [] => true
  | m :: t => !t.contains m && allDistinct t

/-- Tables are within R217. -/
def grmTablesOk (g : List Byte) : Bool :=
  (List.range (grmVocab g)).all (fun t => decide (grmClass g t < grmClasses g)) &&
  decide (fld g 0x1C 4 < grmStates g) && (List.range (grmTrans g)).all (fun e => grmEntryOk g (grmEntry g e)) &&
  (List.range (grmStates g)).all (grmStateOk g) && allDistinct ((List.range (grmMasks g)).map (grmMask g))

/-- The operation of the transition of a token from a state: none where it has none (R215). -/
def grmOp (g : List Byte) (n t : Nat) : Option (List Byte) := (grmEntries g n).find? (fun e => fld e 0 2 == grmClass g t)

/-- A token is allowed in a state by its transitions (R218): `form` 0 mid, 1 empty, 2 full. -/
def grmAllowed (g : List Byte) (n form t : Nat) : Bool :=
  match grmOp g n t with
  | none => false
  | some e => (form != 1 || fld e 2 1 != 2) && (form != 2 || fld e 2 1 != 1)

/-- A mask is exactly what the transitions allow, bits from vocab upward 0. -/
def grmMaskExact (g : List Byte) (n form id : Nat) : Bool :=
  (List.range (8 * grmMaskBytes g)).all (fun t =>
    maskAllows (grmMask g id) t == (decide (t < grmVocab g) && grmAllowed g n form t))

/-- The masks of a state are exact. -/
def grmStateExact (g : List Byte) (n : Nat) : Bool :=
  grmMaskExact g n 0 (fld (grmState g n) 8 4) && grmMaskExact g n 1 (fld (grmState g n) 0xC 4) &&
  grmMaskExact g n 2 (fld (grmState g n) 0x10 4)

/-- Bits of every mask of the dictionary from vocab upward are 0. -/
def grmMaskTails (g : List Byte) : Bool :=
  (List.range (grmMasks g)).all (fun i => (List.range (8 * grmMaskBytes g)).all (fun t =>
    decide (t < grmVocab g) || !maskAllows (grmMask g i) t))

/-- A state has an empty mask that R218 forbids. -/
def grmDead (g : List Byte) (n : Nat) : Bool :=
  maskNone (grmMask g (fld (grmState g n) 8 4)) || maskNone (grmMask g (fld (grmState g n) 0x10 4)) ||
  (maskNone (grmMask g (fld (grmState g n) 0xC 4)) && !grmAccept g n)

/-- The checks of an image (R219): a code of R234. -/
def grmCheck (g : List Byte) : Nat :=
  if !crcOk g then 1
  else if !grmHdrOk g then 2
  else if !grmTablesOk g then 3
  else if !(grmMaskTails g && (List.range (grmStates g)).all (grmStateExact g)) then 4
  else if (List.range (grmStates g)).any (grmDead g) then 5
  else 0

/-! ### The grammar context (R215, R221 to R223) -/

/-- Apply the transition of a token to a context: none where it is forbidden. -/
def grmStep (g : List Byte) (c : GrmCtx) (t : Nat) : Option GrmCtx :=
  match grmOp g c.state t with
  | none => none
  | some e =>
    let r : Option GrmCtx := match fld e 2 1 with
      | 0 => some { c with state := fld e 4 4 }
      | 1 => if c.stack.length < 64 then some { c with state := fld e 4 4, stack := fld e 8 4 :: c.stack } else none
      | _ => match c.stack with
        | [] => none
        | p :: t => some { c with state := p, stack := t }
    r.map (fun c => { c with ended := c.ended || (grmAccept g c.state && c.stack.isEmpty &&
      maskNone (grmMask g (grmMaskId g c.state 0))) })

/-- Move a context along a token; grammar 0 and a forbidden token leave it. -/
def grmMove (g : List Byte) (c : GrmCtx) (t : Nat) : GrmCtx := if g.isEmpty then c else (grmStep g c t).getD c

/-- The grammar image of a request: empty for grammar 0. -/
def State.grmImage (s : State) (x : Slot) : List Byte :=
  if descGrammar x.desc = 0 then [] else match Tbl.look s.cat.grm (descGrammar x.desc) with
    | none => []
    | some i => i.bytes

/-- The context of a request whose generated tokens are `toks` (R221). -/
def grmReplay (g : List Byte) (toks : List Nat) : GrmCtx := toks.foldl (grmMove g) { state := fld g 0x1C 4 }

/-- The mask of a context: none constrains nothing, a broken scratch context allows nothing (R222, R230). -/
def grmMaskOf (g : List Byte) (c : Option GrmCtx) : Option (List Byte) :=
  if g.isEmpty then none
  else match c with
    | none => some []
    | some c => some (grmMask g (grmMaskId g c.state c.stack.length))

/-- A mask lets a token be chosen. -/
def tokenAllowed (m : Option (List Byte)) (t : Nat) : Bool := match m with | none => true | some m => maskAllows m t

/-- The degenerate token: the lowest the mask allows, else 0 (R222). -/
def degenerateTok (m : Option (List Byte)) (vocab : Nat) : Nat :=
  match m with
  | none => 0
  | some m => ((List.range vocab).find? (maskAllows m)).getD 0

/-! ### The Winnow (R206 to R211) -/

/-! ### Descriptors (R210, R213) -/

/-- op. -/
def wdOp (d : List Byte) : Nat := fld d 4 1
/-- flags. -/
def wdFlags (d : List Byte) : Nat := fld d 5 1
/-- in_kind. -/
def wdKind (d : List Byte) : Nat := fld d 6 1
/-- n. -/
def wdN (d : List Byte) : Nat := fld d 8 4
/-- k. -/
def wdK (d : List Byte) : Nat := fld d 0xC 2
/-- slot. -/
def wdSlot (d : List Byte) : Nat := fld d 0x24 4
/-- spec_pos. -/
def wdPos (d : List Byte) : Nat := fld d 0x28 1
/-- out_addr. -/
def wdOut (d : List Byte) : Nat := fld d 0x20 4
/-- Bytes of one entry. -/
def wdBytes (d : List Byte) : Nat := match wdKind d with | 0 => 4 | 1 => 2 | _ => 8

/-- A Winnow's state. -/
def State.win (s : State) (t : Nat) : WinSt := Tbl.val {} s.smp t

/-- Replace a Winnow's state. -/
def State.setWin (s : State) (t : Nat) (x : WinSt) : State := { s with smp := Tbl.set {} s.smp t x }

/-- The slot of a SAMPLE is held by a live request of the running job. -/
def State.wdSlotOk (s : State) (t : Nat) (d : List Byte) : Bool :=
  let x := s.slot (wdSlot d)
  x.live && decide (descJob x.desc = s.jobOn t)

/-- The vocabulary of the running job. -/
def State.vocabOn (s : State) (t : Nat) : Nat := match s.plan (s.jobOn t) with | none => 0 | some p => planVocab p.hdr

/-- The checks of R213 in order; 0 passes. -/
def State.wdCheck (s : State) (t : Nat) (d : List Byte) : Nat :=
  let out := if wdOp d = 0 then 32 + 8 * wdK d else 32
  if !crcOk d then 1
  else if 2 < wdOp d ∨ 2 < wdKind d ∨ bitAt (wdFlags d) 7 = true ∨ bitAt (wdFlags d) 2 = true ∨
      zeros d 7 1 = false ∨ zeros d 0xE 2 = false ∨ zeros d 0x29 3 = false ∨ zeros d 0x38 8 = false ∨
      ctrFieldOk (fld d 0x2C 4) = false ∨ ctrFieldOk (fld d 0x34 4) = false ∨ 32767 < wdSlot d then 2
  else if wdOp d = 2 then 0
  else if wdN d = 0 ∨ 2 ^ 20 < wdN d ∨ (wdOp d = 1 ∧ wdN d ≠ s.vocabOn t) then 3
  else if wdOp d = 0 ∧ (wdK d = 0 ∨ 2048 < wdK d) then 4
  else if fld d 0x10 4 % 16 ≠ 0 ∨ sramBytes < fld d 0x10 4 + wdN d * wdBytes d ∨ wdOut d % 32 ≠ 0 ∨
      sramBytes < wdOut d + out then 5
  else if wdOp d = 1 ∧ s.wdSlotOk t d = false then 6
  else 0

/-- The row: value, index, included before any mask (R206). -/
def State.winRow (s : State) (t : Nat) (d : List Byte) : List (Nat × Nat × Bool) :=
  (List.range (wdN d)).map (fun p =>
    let a := fld d 0x10 4 + p * wdBytes d
    match wdKind d with
    | 0 => (s.sram32 t a, (fld d 0x14 4 + p) % 4294967296, true)
    | 1 => (rn (elemVal 8 (leNat (s.sram t a 2))), (fld d 0x14 4 + p) % 4294967296, true)
    | _ => (s.sram32 t a, s.sram32 t (a + 4), s.sram32 t (a + 4) != 0xFFFFFFFF))

/-- The included entries of a row. -/
def winIncluded (row : List (Nat × Nat × Bool)) : List (Nat × Nat) := (row.filter (fun e => e.2.2)).map (fun e => (e.1, e.2.1))

/-- NaN entries of a list. -/
def nanCount (l : List (Nat × Nat)) : Nat := (l.filter (fun e => fIsNaN e.1)).length

/-- The next descriptor of a Winnow's list that may start: its wait is met (R210). -/
def State.winNext (s : State) (t : Nat) : Option (Nat × List Byte) :=
  match (s.win t).at_ with
  | none => none
  | some a =>
    let d := s.sram t a 64
    let f := fld d 0x2C 4
    if bitAt f 31 && crcOk d && !s.waitMet { unit := .winnow t, ctr := f % 0x20000, thr := fld d 0x30 4 } then none
    else some (a, d)

/-- Move the list on and forget an answered WAIT. -/
def State.winTook (s : State) (t a : Nat) (d : List Byte) : State :=
  let f := fld d 0x2C 4
  (s.setWin t { s.win t with at_ := some ((s.win t).next.getD (a + 64)), next := none, waiting := none }).waitUsed
    (if crcOk d then f else 0) { unit := .winnow t, ctr := f % 0x20000, thr := fld d 0x30 4 }

/-- A write of WIN_LIST: a list that runs goes on at the new base at the next descriptor fetch; a SAMPLE that waits for its mask has been
fetched (R232). -/
def State.winListWrite (s : State) (t v : Nat) : State :=
  let s := s.setRegN (8 + t) 26 0x100 v
  let w := s.win t
  if w.at_.isNone then s else s.setWin t (if w.waiting.isSome then { w with next := some v } else { w with at_ := some v })

/-- Log a refused descriptor (R213, R232). -/
def State.winRefuse (s : State) (t a code : Nat) : State :=
  ((s.bump (8 + t) 26 0x108 1).setRegN (8 + t) 26 0x110 a).event (8 + t) 26 [sqBit 0x118 0] [code]

/-- A call ends: counted, and post_ctr advanced (R210, R232). -/
def State.winDone (s : State) (t : Nat) (d : List Byte) : State :=
  (s.bump (8 + t) 26 0x104 1).advanceFld (fld d 0x34 4) 1

/-- Count what a call scanned, and its NaN entries. -/
def State.winScan (s : State) (t n nans : Nat) : State :=
  let s := (s.bumpWide (8 + t) 26 1 0 n).bumpWide (8 + t) 26 2 0 nans
  if 0 < nans then s.event (8 + t) 26 [sqBit 0x118 1] [] else s

/-- The entries of a result from rank 0 to k − 1 (R209, R211). -/
def resultEntries (k : Nat) (sel : List (Nat × Nat)) : List Byte :=
  (List.range k).flatMap (fun r => match sel[r]? with
    | some e => leBytes 4 e.1 ++ leBytes 4 e.2
    | none => leBytes 4 (f32Inf true) ++ leBytes 4 0xFFFFFFFF)

/-- max, sel, left, total and nonfinite of a SELECT (R207, R208). Modes 2 and 3 have no terms: those five values are free (DESIGN
CHOICE, log 97). -/
def State.selectSums (s : State) (d : List Byte) (row : List (Nat × Nat × Bool)) : List Nat × State :=
  let exp := wdFlags d % 4 == 1
  let inc := winIncluded row
  if 1 < wdFlags d % 4 then
    let a := s.drawWord
    let b := a.2.drawWord
    let c := b.2.drawWord
    let e := c.2.drawWord
    let f := e.2.drawWord
    ([a.1, b.1, c.1, e.1, f.1].map BitVec.toNat, f.2)
  else
    let m := if exp && bitAt (wdFlags d) 3 then fld d 0x18 4 else rowMaxOf inc
    let ss := winSel exp m ((rankSort inc).take (wdK d))
    let total := if bitAt (wdFlags d) 5 then fld d 0x1C 4
      else winTotal exp m (if bitAt (wdFlags d) 4 then fld d 0x1C 4 else 0) row
    ([m, ss, winLeft exp total ss, total,
      if exp then 0 else (inc.filter (fun e => e.1 % 0x80000000 == 0x7F800000)).length], s)

/-- Cycles of a SELECT (R212). -/
def selectCycles (d : List Byte) : Nat :=
  let p := if wdFlags d % 4 = 1 ∧ bitAt (wdFlags d) 5 = false ∧ bitAt (wdFlags d) 3 = false then 2 else 1
  32 + p * ceilDiv (wdN d) 64 + 4 * ceilDiv (wdK d) 64

/-- Cycles of a SAMPLE (R212). -/
def sampleCycles (d : List Byte) (x : Slot) : Nat :=
  let b := ceilDiv (wdN d) 64
  let k := if descTopK x.desc = 0 then 2048 else descTopK x.desc
  if descTemp x.desc % 0x80000000 = 0 then 64 + b
  else 128 + b + 4 * ceilDiv k 64 + k + (if bitAt (wdFlags d) 6 then b else 0)

/-- A checked SELECT (R206 to R211). -/
def State.runSelect (s : State) (t : Nat) (d : List Byte) : State :=
  let row := s.winRow t d
  let inc := winIncluded row
  let sel := (rankSort inc).take (wdK d)
  let r := s.selectSums d row
  let out := (r.1.take 4).flatMap (leBytes 4) ++ leBytes 4 (nanCount inc) ++ leBytes 4 sel.length ++
    leBytes 4 (wdN d - inc.length) ++ (r.1.drop 4).flatMap (leBytes 4) ++ resultEntries (wdK d) sel
  (((r.2.winScan t (wdN d) (nanCount inc)).bumpWide (8 + t) 26 3 0 (selectCycles d)).sramWrite t (wdOut d) out).winDone t d

/-- A refused SELECT: sums NaN, count 0, every entry of a k in range unfilled; the other counts are not stated and are free (R209,
R213). -/
def State.refusedSelect (s : State) (t : Nat) (d : List Byte) : State :=
  let a := s.drawWord
  let b := a.2.drawWord
  let c := b.2.drawWord
  let nan := leBytes 4 f32NaN
  let out := nan ++ nan ++ nan ++ nan ++ leBytes 4 a.1.toNat ++ leBytes 4 0 ++ leBytes 4 b.1.toNat ++ leBytes 4 c.1.toNat ++
    resultEntries (if wdK d ≤ 2048 then wdK d else 0) []
  (c.2.sramWrite t (wdOut d) out).winDone t d

/-- SELECT (R211, R213). -/
def winSelect (s : State) (t : Nat) : State :=
  match s.winNext t with
  | none => s
  | some (a, d) =>
    if wdOp d = 1 ∨ wdOp d = 2 then s
    else
      let code := s.wdCheck t d
      let s := s.winTook t a d
      if code = 0 then s.runSelect t d else (s.winRefuse t a code).refusedSelect t d

/-- WINNOW_END (R210): the unit stops until the next job handover; a refused END is logged and stops it as well. -/
def winnowEnd (s : State) (t : Nat) : State :=
  match s.winNext t with
  | none => s
  | some (a, d) =>
    if wdOp d ≠ 2 then s
    else
      let code := s.wdCheck t d
      let s := if code = 0 then s else s.winRefuse t a code
      s.setWin t { s.win t with at_ := none }

/-! ### From logits to a token (R226 to R230) -/

/-- Words modulo 2^32. -/
def w32 (x : Nat) : Nat := x % 4294967296

/-- Rounds of Philox-4x32 (R227); the keys rise before every round but the first. -/
def philoxGo : Nat → Nat → Nat → Nat → Nat → Nat → Nat → Nat × Nat × Nat × Nat
  | 0, c0, c1, c2, c3, _, _ => (c0, c1, c2, c3)
  | n + 1, c0, c1, c2, c3, k0, k1 =>
    let p0 := 0xD2511F53 * c0
    let p1 := 0xCD9E8D57 * c2
    philoxGo n (p1 / 4294967296 ^^^ c1 ^^^ k0) (w32 p1) (p0 / 4294967296 ^^^ c3 ^^^ k1) (w32 p0)
      (w32 (k0 + 0x9E3779B9)) (w32 (k1 + 0xBB67AE85))

/-- The draw u of a seed and sequence number, FP32 (R226, R227). -/
def drawU (seed seq : Nat) : Nat :=
  let x0 := (philoxGo 10 (w32 seq) 0 0 0 (w32 seed) (w32 (seed / 4294967296))).1
  rn (.fin false (x0 / 256) (-24))

/-- Running sums of the terms of ranked entries (R226). -/
def cumulate : Nat → List Nat → List Nat
  | _, [] => []
  | c, e :: t => fAdd c e :: cumulate (fAdd c e) t

/-- What a SAMPLE chose: token, kept, u, mass; none when R226 calls for the degenerate token. -/
def drawToken (topP seed seq : Nat) (sel : List (Nat × Nat)) (terms : List Nat) : Option (Nat × Nat × Nat × Nat) :=
  let cum := cumulate 0 terms
  let c := (cum.getLast?).getD 0
  if sel.isEmpty || !fLt 0 c || c == f32Inf false then none
  else
    let thr := fMul topP c
    let keep := ((List.range cum.length).find? (fun r => fLe thr ((cum[r]?).getD 0))).map (fun r => r + 1)
    let keep := keep.getD cum.length
    let u := drawU seed seq
    let mass := (cum[keep - 1]?).getD 0
    let target := fMul u mass
    let r := ((List.range keep).find? (fun r => fLt target ((cum[r]?).getD 0))).getD (keep - 1)
    some (((sel[r]?).getD (0, 0)).2, keep, u, mass)

/-- The end condition of a chosen token, in the order of R223, with the context limit of R36 after them. -/
def State.endOf (s : State) (x : Slot) (tok out : Nat) (gEnd : Bool) : Option Nat :=
  if (descStopTokens x.desc).contains tok then some 1
  else if gEnd then some 1
  else if descMaxNew x.desc ≤ out then some 2
  else match (s.plan (descJob x.desc)).bind Plan.ctxLimit with
    | some c => if c ≤ x.promptTokens.length + out then some 5 else none
    | none => none

/-- The number of the token a slot's step chooses next: in REPLAY, of the token it regenerates next (R227, R47). -/
def Slot.nextSeq (x : Slot) : Nat := if x.state = .replay then x.replayPos else x.history.length + x.opened.length

/-- Give a slot its chosen token at a position of its step (R222, R223, R229, R230); answers the record flags
spec_reject, grammar_end, stop. In REPLAY the token moves the replayed context, and is delivered by the replay itself (R47). The scratch
context of a position past the delivered ones follows the drafts of the positions before it (DEDUCED, log 97). -/
def State.takeToken (s : State) (n pos tok : Nat) (ds : List Nat) : State × Bool × Bool × Bool :=
  let x := s.slot n
  let g := s.grmImage x
  let before := if pos = 0 then x.grm else x.scratch.getD x.grm
  let after := grmMove g before tok
  let depth := descSpec x.desc
  let x := if pos = 0 then { x with specBase := x.nextSeq, specOpen := x.natural.isNone, drafts := ds } else x
  if x.specOpen ∧ x.specBase + pos = x.nextSeq then
    let e := s.endOf x tok (x.nextSeq + 1) (after.ended && !g.isEmpty)
    let goOn := e.isNone && decide (pos < depth) && decide (x.drafts[pos]? = some tok)
    let y : Slot := { x with grm := after, specOpen := goOn, scratch := some after }
    (s.setSlot n (if x.state = .replay then { y with replayPos := x.replayPos + 1 }
        else { y with opened := x.opened ++ [tok], natural := e }),
      false, after.ended && !g.isEmpty, decide (e = some 1))
  else
    let nxt := (x.drafts[pos]?).getD tok
    let sc := match x.scratch with
      | none => none
      | some c => if g.isEmpty then some c else grmStep g c nxt
    (s.setSlot n { x with scratch := sc }, true, false, false)

/-- The context that masks a position of a step (R222, R230). -/
def Slot.ctxAt (x : Slot) (pos : Nat) : Option GrmCtx := if pos = 0 then some x.grm else x.scratch

/-- The cache key of the mask a SAMPLE needs: none for grammar 0 and for a context that allows nothing. -/
def State.maskKey (s : State) (x : Slot) (pos : Nat) : Option (Nat × Nat) :=
  let g := s.grmImage x
  if g.isEmpty then none
  else (x.ctxAt pos).map (fun c => (descGrammar x.desc, grmMaskId g c.state c.stack.length))

/-- Mask bytes of a cached mask. -/
def State.keyBytes (s : State) (k : Nat × Nat) : Nat :=
  match Tbl.look s.cat.grm k.1 with
  | none => 0
  | some i => grmMaskBytes i.bytes

/-- Put a mask into the cache, the least recently used ones leaving first, the one a SAMPLE waits for never (R224). -/
def State.cacheIn (s : State) (t : Nat) (k : Nat × Nat) : State :=
  let w := s.win t
  let fits (l : List (Nat × Nat)) : Bool := decide (l.foldl (fun n e => n + s.keyBytes e) (s.keyBytes k) ≤ 8388608)
  let kept := w.cache.filter (fun e => e ≠ k ∧ w.waiting = some e)
  let old := w.cache.filter (fun e => e ≠ k ∧ w.waiting ≠ some e)
  let drop := ((List.range (old.length + 1)).find? (fun i => fits (kept ++ old.drop i))).getD old.length
  s.setWin t { w with cache := (w.cache.filter (fun e => (kept ++ old.drop drop).contains e)) ++ [k] }

/-- Ask for a mask that is neither cached nor on its way (R224). -/
def State.maskAsk (s : State) (t : Nat) (k : Option (Nat × Nat)) : State :=
  match k with
  | none => s
  | some k =>
    let w := s.win t
    if w.cache.contains k then s.cacheIn t k
    else if w.fetching.contains k then s
    else (s.setWin t { w with fetching := w.fetching ++ [k] }).bump (8 + t) 27 0x104 1

/-- The sample record of R228. -/
def sampleRecord (tok seq kept flags count u mass sel left nans : Nat) : List Byte :=
  leBytes 4 (tok % 2 ^ 18) ++ leBytes 4 seq ++ leBytes 2 kept ++ leBytes 1 flags ++ leBytes 1 (min count 255) ++ leBytes 4 u ++
    leBytes 4 mass ++ leBytes 4 sel ++ leBytes 4 left ++ leBytes 4 nans

/-- Choose a token from a row (R226): token, kept, u, mass, sel, left, count, NaN logits, greedy, degenerate. A value the spec
does not state is free. -/
def State.chooseToken (s : State) (t : Nat) (d : List Byte) (x : Slot) (mask : Option (List Byte)) (seq : Nat) :
    State × Nat × Nat × Nat × Nat × Nat × Nat × Nat × Nat × Bool × Bool :=
  let row := (s.winRow t d).map (fun e => (e.1, e.2.1, e.2.2 && tokenAllowed mask e.2.1))
  let inc := winIncluded row
  let nans := nanCount inc
  let deg := degenerateTok mask (s.vocabOn t)
  let dead := inc.all (fun e => nanLow e.1 == f32Inf true)
  let r1 := s.drawWord
  let r2 := r1.2.drawWord
  let r3 := r2.2.drawWord
  let r4 := r3.2.drawWord
  let left0 := if bitAt (wdFlags d) 6 then r4.1.toNat else 0
  let s := r4.2
  if descTemp x.desc % 0x80000000 = 0 then
    let tok := if dead then deg else (((rankSort inc).head?).map Prod.snd).getD deg
    (s, tok, 0, r1.1.toNat, r2.1.toNat, r3.1.toNat, left0, r1.1.toNat % 256, nans, true, dead)
  else
    let rcp := fRecip (descTemp x.desc)
    let scaled := row.map (fun e => (if e.2.2 then fMul e.1 rcp else 0, e.2.1, e.2.2))
    let inc2 := winIncluded scaled
    let m := rowMaxOf inc2
    let sel := (rankSort inc2).take (if descTopK x.desc = 0 then 2048 else descTopK x.desc)
    let terms := sel.map (fun e => winTerm true m e.1)
    let ss := rowSum terms
    let left := if bitAt (wdFlags d) 6 then winLeft true (winTotal true m 0 scaled) ss else 0
    match drawToken (descTopP x.desc) (descSeed x.desc) seq sel terms with
    | none => (s, deg, 0, r1.1.toNat, r2.1.toNat, ss, left, sel.length, nans, false, true)
    | some (tok, kept, u, mass) => (s, tok, kept, u, mass, ss, left, sel.length, nans, false, false)

/-- The number of the token a SAMPLE chooses (R227). -/
def Slot.seqAt (x : Slot) (pos : Nat) : Nat := if pos = 0 then x.nextSeq else x.specBase + pos

/-- A chosen token is recorded and given to its slot; a slot that no live request of the running job holds, or that has left DECODE and
REPLAY, takes nothing (R213, R228, R229). -/
def State.recordToken (s : State) (t : Nat) (d : List Byte) (ds : List Nat)
    (c : Nat × Nat × Nat × Nat × Nat × Nat × Nat × Nat × Bool × Bool) : State :=
  let n := wdSlot d
  let x := s.slot n
  let pos := wdPos d
  let seq := x.seqAt pos
  let (tok, kept, u, mass, sel, left, count, nans, greedy, deg) := c
  let dropped := !s.wdSlotOk t d || !(decide (x.state = .decode) || decide (x.state = .replay))
  let s := if deg then (s.bump (8 + t) 26 0x10C 1).event (8 + t) 26 [sqBit 0x118 2] [] else s
  let r := if dropped then (s, false, false, false) else s.takeToken n pos tok ds
  let flags := b2n dropped * 32 + b2n r.2.2.2 * 16 + b2n r.2.2.1 * 8 + b2n r.2.1 * 4 + b2n deg * 2 + b2n greedy
  let s := r.1.sramWrite t (wdOut d) (sampleRecord tok seq kept flags count u mass sel left nans)
  let s := if dropped ∨ s.grmImage x = [] then s
    else (s.bumpWide (8 + t) 27 3 0 (if r.2.1 then 0 else 1)).maskAsk t (s.maskKey (s.slot n) 0)
  s

/-- SAMPLE (R213, R225 to R230); `ds` are the drafts the plan supplies for the step. -/
def winSample (s : State) (t : Nat) (ds : List Nat) : State :=
  match s.winNext t with
  | none => s
  | some (a, d) =>
    if wdOp d ≠ 1 then s
    else
      let code := s.wdCheck t d
      let n := wdSlot d
      let x := s.slot n
      if code = 0 then
        let key := s.maskKey x (wdPos d)
        let here := match key with | none => true | some k => (s.win t).cache.contains k
        if !here then
          if (s.win t).waiting.isSome then s
          else
            let s := s.maskAsk t key
            ((s.setWin t { s.win t with waiting := key }).bump (8 + t) 27 0x108 1).event (8 + t) 27 [sqBit 0x118 0] []
        else
          let mask := grmMaskOf (s.grmImage x) (x.ctxAt (wdPos d))
          let s := (s.winTook t a d).maskAsk t key
          let c := s.chooseToken t d x mask (x.seqAt (wdPos d))
          let s := (c.1.winScan t (wdN d) (c.2.2.2.2.2.2.2.2.1)).bumpWide (8 + t) 26 4 0 1
          let s := s.bumpWide (8 + t) 26 3 0 (sampleCycles d x)
          (s.recordToken t d ds c.2).winDone t d
      else
        let s := (s.winTook t a d).winRefuse t a code
        if code = 6 then s.winDone t d
        else
          let tok := if s.wdSlotOk t d then degenerateTok (grmMaskOf (s.grmImage x) (x.ctxAt (wdPos d))) (s.vocabOn t) else 0
          let r1 := s.drawWord
          let r2 := r1.2.drawWord
          let r3 := r2.2.drawWord
          let r4 := r3.2.drawWord
          let left := if bitAt (wdFlags d) 6 then r4.1.toNat else 0
          (r4.2.recordToken t d ds (tok, 0, r1.1.toNat, r2.1.toNat, r3.1.toNat, left, r1.1.toNat % 256, r2.1.toNat,
            false, true)).winDone t d

/-- MASK_FETCH (R224, R225): the oldest mask on its way arrives; a SAMPLE that waits for this one may proceed, after cycles that are not
stated. -/
def maskFetch (s : State) (t : Nat) : State :=
  let w := s.win t
  match w.fetching with
  | [] => s
  | k :: rest =>
    let s := (s.setWin t { w with fetching := rest }).cacheIn t k
    let s := s.bumpWide (8 + t) 27 2 0 (s.keyBytes k)
    if w.waiting = some k then
      let r := s.drawWord
      r.2.bumpWide (8 + t) 27 1 0 r.1.toNat
    else s

/-! ### The grammar registry (R219, R220, R234, R235) -/

/-- Live requests name a grammar. -/
def State.grmUsed (s : State) (id : Nat) : Bool := s.req.slots.any (fun e => e.2.live && decide (descGrammar e.2.desc = id))

/-- Live requests name a recipe. -/
def State.rcpUsed (s : State) (id : Nat) : Bool := s.req.slots.any (fun e => e.2.live && decide (descRecipe e.2.desc = id))

/-- The checks of REGISTER: a code and the image. -/
def State.grmRegister (s : State) (id addr : Nat) : Nat × List Byte :=
  if id = 0 then (2, [])
  else if (Tbl.look s.cat.grm id).isSome then (6, [])
  else if addr % 128 ≠ 0 ∨ s.inHost addr 128 = false then (2, [])
  else
    let n := grmBytes (s.load .lpddr addr 128)
    if n < 128 ∨ s.inHost addr n = false then (2, [])
    else
      let g := s.load .lpddr addr n
      let c := grmCheck g
      if c ≠ 0 then (c, [])
      else if 68719476736 < s.cat.grm.foldl (fun k e => k + e.2.bytes.length) n then (7, [])
      else (0, g)

/-- GRAMMAR_REGISTER (R219). -/
def grammarRegister (s : State) (req : Requester) (id : Nat) : State :=
  s.modCommand req 4 (fun s =>
    let r := s.grmRegister id (s.cmdAddr 4)
    let s := if r.1 = 0 then { s with cat := { s.cat with grm := Tbl.put s.cat.grm id { bytes := r.2 } } } else s
    s.cmdDone 4 r.1 id)

/-- Free a closed grammar; its masks leave the caches. -/
def State.grmFree (s : State) (id : Nat) : State :=
  { s with cat := { s.cat with grm := Tbl.del s.cat.grm id }
           smp := s.smp.map (fun e => (e.1, { e.2 with cache := e.2.cache.filter (fun k => k.1 ≠ id)
                                                       fetching := e.2.fetching.filter (fun k => k.1 ≠ id) })) }

/-- GRAMMAR_UNREGISTER (R220). -/
def grammarUnregister (s : State) (req : Requester) (id : Nat) : State :=
  s.modCommand req 4 (fun s =>
    match s.grammar id with
    | none => s.cmdDone 4 (if id = 0 then 2 else 8) id
    | some g =>
      if s.grmUsed id then
        let s := { s with cat := { s.cat with grm := Tbl.put s.cat.grm id { g with closed := true } } }
        s.setResult 120 4 0x10C 2 0 id
      else (s.grmFree id).cmdDone 4 0 id)

/-- CATALOGUE_FREED (R220): a closed grammar or recipe that no live request names is freed, and its result reads DONE. -/
def catalogueFreed (s : State) (recipe : Bool) (id : Nat) : State :=
  if recipe then
    match Tbl.look s.cat.rcp id with
    | some r =>
      if r.closed && !s.rcpUsed id then
        ({ s with cat := { s.cat with rcp := Tbl.del s.cat.rcp id } }).cmdDone 7 0 id
      else s
    | none => s
  else
    match Tbl.look s.cat.grm id with
    | some g => if g.closed && !s.grmUsed id then (s.grmFree id).cmdDone 4 0 id else s
    | none => s

/-- What a replayed request needs is restored (R235, R240, R270, R316, R509): its job, grammar, tokenizer table, recipe and
the extents of the generation it pins. -/
def State.restored (s : State) (x : Slot) : Bool :=
  (s.job (descJob x.desc)).isSome && (descGrammar x.desc == 0 || (Tbl.look s.cat.grm (descGrammar x.desc)).isSome) &&
  (descKind x.desc != 1 ||
    (match s.jobTok (descJob x.desc) with | none => true | some t => t == 0 || (Tbl.look s.cat.tok t).isSome)) &&
  (descRecipe x.desc == 0 || x.frontDurable || ((Tbl.look s.cat.rcp (descRecipe x.desc)).isSome &&
    s.recipeJobs x.desc && (match x.genSlot with | none => false | some g => (s.gen g).extents)))

/-- CATALOGUE_GRACE_EXPIRY (R235): 20,000 strokes into service a replayed request that is still not restored ends. -/
def catalogueGraceExpiry (s : State) (n : Nat) : State :=
  let x := s.slot n
  if s.boot.ready && decide (s.boot.firstStroke + 20000 ≤ s.strokeN) &&
      (decide (x.state = .replay) || (decide (x.state = .front) && decide (0 < x.replays))) && !s.restored x then
    s.endRequest n 7
  else s

/-! ### Meanings -/

/-- SELECT. -/
def execSelect (t : Nat) (s : State) : Host.Outcome State Fault Refusal := .next (winSelect s t)
/-- SAMPLE. -/
def execSample (t : Nat) (ds : List Nat) (s : State) : Host.Outcome State Fault Refusal := .next (winSample s t ds)
/-- WINNOW_END. -/
def execWinnowEnd (t : Nat) (s : State) : Host.Outcome State Fault Refusal := .next (winnowEnd s t)
/-- MASK_FETCH. -/
def execMaskFetch (t : Nat) (s : State) : Host.Outcome State Fault Refusal := .next (maskFetch s t)
/-- GRAMMAR_REGISTER. -/
def execGrammarRegister (req : Requester) (id : Nat) (s : State) : Host.Outcome State Fault Refusal :=
  .next (grammarRegister s req (id % 4096))
/-- GRAMMAR_UNREGISTER. -/
def execGrammarUnregister (req : Requester) (id : Nat) (s : State) : Host.Outcome State Fault Refusal :=
  .next (grammarUnregister s req (id % 4096))
/-- CATALOGUE_FREED. -/
def execCatalogueFreed (recipe : Bool) (id : Nat) (s : State) : Host.Outcome State Fault Refusal :=
  .next (catalogueFreed s recipe id)
/-- CATALOGUE_GRACE_EXPIRY. -/
def execCatalogueGraceExpiry (n : Nat) (s : State) : Host.Outcome State Fault Refusal := .next (catalogueGraceExpiry s n)

end Sys2Proof.Machine
end

