-- ==== Sys2Proof/Machine/Quern.lean ====
section
/-! DEFINITION. The Quern: tokenizer tables, tokenising, detokenising (R236 to R251). -/

namespace Sys2Proof.Machine

/-! ### Tables (R236 to R239) -/

/-- vocab. -/
def tokVocab (g : List Byte) : Nat := fld g 8 4
/-- merges. -/
def tokMerges (g : List Byte) : Nat := fld g 0xC 4
/-- specials. -/
def tokSpecials (g : List Byte) : Nat := fld g 0x10 4
/-- blocks. -/
def tokBlocks (g : List Byte) : Nat := fld g 0x14 4
/-- image_bytes. -/
def tokBytes (g : List Byte) : Nat := fld g 0x60 8
/-- The block index entry of a code point's high part. -/
def tokBlock (g : List Byte) (hi : Nat) : Nat := fld g (fld g 0x20 8 + 2 * hi) 2
/-- The class byte of a code point (R237). -/
def tokClassByte (g : List Byte) (u : Nat) : Nat := fld g (fld g 0x28 8 + 256 * tokBlock g (u / 256) + u % 256) 1
/-- A rule of the matrix (R238): 0 SPLIT, 1 JOIN, 2 SHIFT. -/
def tokRule (g : List Byte) (a b : Nat) : Nat := fld g (fld g 0x30 8 + (16 * a + b) / 4) 1 / 4 ^ ((16 * a + b) % 4) % 4
/-- The token of a byte. -/
def tokOfByte (g : List Byte) (b : Nat) : Nat := fld g (fld g 0x38 8 + 4 * b) 4
/-- A merge entry: left, right, result. -/
def tokMerge (g : List Byte) (r : Nat) : Nat × Nat × Nat :=
  let o := fld g 0x48 8 + 12 * r
  (fld g o 4, fld g (o + 4) 4, fld g (o + 8) 4)
/-- The merge entries in rank order. -/
def tokMergeList (g : List Byte) : List (Nat × Nat × Nat) := (List.range (tokMerges g)).map (tokMerge g)
/-- Start of a token's string in the pool. -/
def tokStrAt (g : List Byte) (t : Nat) : Nat := fld g (fld g 0x50 8 + 4 * t) 4
/-- A token's string. -/
def tokString (g : List Byte) (t : Nat) : List Byte := (g.drop (fld g 0x58 8 + tokStrAt g t)).take (tokStrAt g (t + 1) - tokStrAt g t)
/-- A special entry. -/
def tokSpecial (g : List Byte) (i : Nat) : List Byte := (g.drop (fld g 0x40 8 + 72 * i)).take 72
/-- The text of a special entry. -/
def specialText (e : List Byte) : List Byte := (e.drop 8).take (fld e 4 1)
/-- The special entries. -/
def tokSpecialList (g : List Byte) : List (List Byte) := (List.range (tokSpecials g)).map (tokSpecial g)

/-! ### UTF-8 -/

/-- Bytes of the sequence a first byte opens, 0 for one that opens none. -/
def utf8Need (b : Nat) : Nat :=
  if b < 0x80 then 1 else if b < 0xC2 then 0 else if b < 0xE0 then 2 else if b < 0xF0 then 3 else if b < 0xF5 then 4 else 0

/-- A second byte is well-formed after a first byte. -/
def utf8Second (a b : Nat) : Bool :=
  if a = 0xE0 then decide (0xA0 ≤ b) && decide (b < 0xC0)
  else if a = 0xED then decide (0x80 ≤ b) && decide (b < 0xA0)
  else if a = 0xF0 then decide (0x90 ≤ b) && decide (b < 0xC0)
  else if a = 0xF4 then decide (0x80 ≤ b) && decide (b < 0x90)
  else decide (0x80 ≤ b) && decide (b < 0xC0)

/-- Continuation bytes at the head of a list. -/
def contBytes : Nat → List Nat → Nat
  | 0, _ => 0
  | _, [] => 0
  | n + 1, b :: t => if 0x80 ≤ b ∧ b < 0xC0 then contBytes n t + 1 else 0

/-- At the head of a list: bytes the sequence needs (0 none), and how many of them are there and well-formed. -/
def utf8Head : List Nat → Nat × Nat
  | [] => (0, 0)
  | a :: t =>
    let n := utf8Need a
    match t with
    | [] => (n, min n 1)
    | b :: t' => if n < 2 then (n, n) else if utf8Second a b then (n, 2 + contBytes (n - 2) t') else (n, 1)

/-- The code point of a well-formed sequence. -/
def utf8Value : List Nat → Nat
  | [a] => a
  | [a, b] => a % 32 * 64 + b % 64
  | [a, b, c] => a % 16 * 4096 + b % 64 * 64 + c % 64
  | [a, b, c, d] => a % 8 * 262144 + b % 64 * 4096 + c % 64 * 64 + d % 64
  | _ => 0

/-- Code points of a byte string: bytes of each, none as value for a byte of class 15 (R241); `fuel` bounds their number. -/
def utf8Split : Nat → List Nat → List (List Nat × Option Nat)
  | 0, _ => []
  | fuel + 1, l =>
    match l with
    | [] => []
    | a :: t =>
      let h := utf8Head (a :: t)
      if 0 < h.1 ∧ h.2 = h.1 then (((a :: t).take h.1), some (utf8Value ((a :: t).take h.1))) :: utf8Split fuel ((a :: t).drop h.1)
      else ([a], none) :: utf8Split fuel t

/-- A byte string is well-formed UTF-8. -/
def utf8Ok (l : List Nat) : Bool := (utf8Split l.length l).all (fun c => c.2.isSome)

/-! ### Checking a table (R239, R240) -/

/-- The header is within R236. -/
def tokHdrOk (g : List Byte) : Bool :=
  let b := tokBytes g
  fld g 4 4 == 1 && decide (256 ≤ tokVocab g) && decide (tokVocab g ≤ 2 ^ 18) && decide (tokMerges g ≤ 2 ^ 20) &&
  decide (tokSpecials g ≤ 1024) && decide (1 ≤ tokBlocks g) && decide (tokBlocks g ≤ 4352) && zeros g 0x18 1 &&
  zeros g 0x1C 4 && zeros g 0x68 24 && b == g.length && decide (fld g 0x20 8 + 8704 ≤ b) &&
  decide (fld g 0x28 8 + 256 * tokBlocks g ≤ b) && decide (fld g 0x30 8 + 64 ≤ b) && decide (fld g 0x38 8 + 1024 ≤ b) &&
  decide (fld g 0x40 8 + 72 * tokSpecials g ≤ b) && decide (fld g 0x48 8 + 12 * tokMerges g ≤ b) &&
  decide (fld g 0x50 8 + 4 * (tokVocab g + 1) ≤ b) && decide (fld g 0x58 8 + tokStrAt g (tokVocab g) ≤ b)

/-- No pair occurs twice. -/
def pairsDistinct : List (Nat × Nat × Nat) → Bool
  | [] => true
  | m :: t => !t.any (fun x => x.1 == m.1 && x.2.1 == m.2.1) && pairsDistinct t

/-- Tables are within R237 to R239. -/
def tokTablesOk (g : List Byte) : Bool :=
  let v := tokVocab g
  (List.range 4352).all (fun i => decide (tokBlock g i < tokBlocks g)) &&
  (List.range (256 * tokBlocks g)).all (fun i =>
    let c := fld g (fld g 0x28 8 + i) 1
    decide (c / 16 < 15) && decide (c / 4 % 4 ≤ 2) && decide (c % 4 = 0)) &&
  (List.range 16).all (fun a => (List.range 16).all (fun b =>
    decide (tokRule g a b ≠ 3) && (decide (a < 15 ∧ b < 15) || decide (tokRule g a b = 0)))) &&
  (List.range 256).all (fun b => decide (tokOfByte g b < v)) &&
  (tokMergeList g).all (fun m => decide (m.1 < v) && decide (m.2.1 < v) && decide (m.2.2 < v)) && pairsDistinct (tokMergeList g) &&
  (tokSpecialList g).all (fun e => decide (fld e 0 4 < v) && decide (1 ≤ fld e 4 1) && decide (fld e 4 1 ≤ 64) &&
    decide (fld e 5 1 < 4) && zeros e 6 2) &&
  (List.range v).all (fun t => decide (tokStrAt g t ≤ tokStrAt g (t + 1)) && decide (tokStrAt g (t + 1) - tokStrAt g t ≤ 128))

/-- Strings are within R239. -/
def tokStringsOk (g : List Byte) : Bool :=
  (List.range 256).all (fun b => tokString g (tokOfByte g b) == [BitVec.ofNat 8 b]) &&
  (tokMergeList g).all (fun m => tokString g m.2.2 == tokString g m.1 ++ tokString g m.2.1) &&
  (tokSpecialList g).all (fun e => tokString g (fld e 0 4) == specialText e &&
    utf8Ok ((specialText e).map BitVec.toNat)) &&
  allDistinct ((tokSpecialList g).map specialText)

/-- The checks of a table (R240): a code. -/
def tokCheck (g : List Byte) : Nat :=
  if !crcOk g then 1 else if !tokHdrOk g then 2 else if !tokTablesOk g then 3 else if !tokStringsOk g then 4 else 0

/-! ### The registry (R240) -/

/-- The checks of REGISTER: a code and the table. -/
def State.tokRegister (s : State) (id addr : Nat) : Nat × List Byte :=
  if id = 0 then (2, [])
  else if (Tbl.look s.cat.tok id).isSome then (5, [])
  else if addr % 128 ≠ 0 ∨ s.inHost addr 128 = false then (2, [])
  else
    let n := tokBytes (s.load .lpddr addr 128)
    if n < 128 ∨ s.inHost addr n = false then (2, [])
    else
      let g := s.load .lpddr addr n
      let c := tokCheck g
      if c ≠ 0 then (c, [])
      else if Config.tokSpace (s.cat.tok.foldl (fun k e => k + e.2.bytes.length) n) then (0, g) else (6, [])

/-- TOKENIZER_REGISTER (R240). -/
def tokenizerRegister (s : State) (req : Requester) (id : Nat) : State :=
  s.modCommand req 5 (fun s =>
    let r := s.tokRegister id (s.cmdAddr 5)
    let s := if r.1 = 0 then { s with cat := { s.cat with tok := Tbl.put s.cat.tok id { bytes := r.2 } } } else s
    s.cmdDone 5 r.1 id)

/-- A loaded job names a tokenizer table. -/
def State.tokUsed (s : State) (id : Nat) : Bool := s.cis.plans.any (fun e => e.2.loaded.isSome && planTok e.2.hdr == id)

/-- TOKENIZER_UNREGISTER (R240). -/
def tokenizerUnregister (s : State) (req : Requester) (id : Nat) : State :=
  s.modCommand req 5 (fun s =>
    if (Tbl.look s.cat.tok id).isNone then s.cmdDone 5 (if id = 0 then 2 else 7) id
    else if s.tokUsed id then s.cmdDone 5 8 id
    else ({ s with cat := { s.cat with tok := Tbl.del s.cat.tok id } }).cmdDone 5 0 id)

/-! ### Tokenising (R241 to R244) -/

/-- The longest special that matches at the head of the input (R241). -/
def specialAt (specials : List (List Byte)) (l : List Byte) : Option (List Byte) :=
  (specials.filter (fun e => bitAt (fld e 5 1) 0 && (specialText e).isPrefixOf l)).foldl (fun best e =>
    match best with
    | none => some e
    | some b => if fld b 4 1 < fld e 4 1 then some e else best) none

/-- The input as spans and specials: a span's bytes, or a special's entry; `cur` is the span under way, reversed. -/
def scanSpecials (specials : List (List Byte)) : Nat → List Byte → List Byte → List (List Byte ⊕ List Byte)
  | 0, _, cur => if cur.isEmpty then [] else [.inl cur.reverse]
  | fuel + 1, l, cur =>
    match l with
    | [] => if cur.isEmpty then [] else [.inl cur.reverse]
    | b :: t =>
      match specialAt specials (b :: t) with
      | some e =>
        (if cur.isEmpty then [] else [.inl cur.reverse]) ++ .inr e :: scanSpecials specials fuel ((b :: t).drop (fld e 4 1)) []
      | none =>
        let h := utf8Head ((b :: t).map BitVec.toNat)
        let k := if 0 < h.1 ∧ h.2 = h.1 then h.1 else 1
        scanSpecials specials fuel ((b :: t).drop k) (((b :: t).take k).reverse ++ cur)

/-- The class of a decoded code point; class 15 for an ill-formed byte. -/
def cpClass (g : List Byte) (c : List Nat × Option Nat) : Nat := match c.2 with | none => 15 | some u => tokClassByte g u / 16

/-- Cut a span into pieces (R242): `prev` is the class of the code point before, `piece` the piece under way, reversed. -/
def cutPieces (g : List Byte) : List (List Nat × Option Nat) → Nat → List (List Nat × Option Nat) →
    List (List (List Nat × Option Nat))
  | [], _, piece => if piece.isEmpty then [] else [piece.reverse]
  | c :: t, prev, piece =>
    let k := cpClass g c
    match piece with
    | [] => cutPieces g t k [c]
    | p :: rest =>
      match tokRule g prev k with
      | 1 => cutPieces g t k (c :: piece)
      | 2 => if rest.isEmpty then cutPieces g t k (c :: piece) else rest.reverse :: cutPieces g t k [c, p]
      | _ => piece.reverse :: cutPieces g t k [c]

/-- Cut a piece into chunks of at most 256 bytes at code-point boundaries (R241): `n` are the bytes of the chunk under
way. -/
def cutChunks : List (List Nat × Option Nat) → Nat → List Nat → List (List Nat)
  | [], _, cur => if cur.isEmpty then [] else [cur]
  | c :: t, n, cur =>
    if 256 < n + c.1.length then cur :: cutChunks t c.1.length c.1 else cutChunks t (n + c.1.length) (cur ++ c.1)

/-- The rank of a pair. -/
def mergeRank (ms : List (Nat × Nat × Nat)) (a b : Nat) : Option Nat :=
  (ms.zipIdx.find? (fun m => m.1.1 == a && m.1.2.1 == b)).map Prod.snd

/-- The adjacent pair of lowest rank, leftmost on a tie: rank and position. -/
def bestPair (ms : List (Nat × Nat × Nat)) : List (Nat × Nat) → Nat → Option (Nat × Nat)
  | a :: b :: t, i =>
    match mergeRank ms a.1 b.1, bestPair ms (b :: t) (i + 1) with
    | some r, some (q, j) => if r ≤ q then some (r, i) else some (q, j)
    | some r, none => some (r, i)
    | none, x => x
  | _, _ => none

/-- Merge the pair at a position into a token. -/
def mergeAt (tok : Nat) : Nat → List (Nat × Nat) → List (Nat × Nat)
  | 0, a :: b :: t => (tok, a.2 + b.2) :: t
  | n + 1, a :: t => a :: mergeAt tok n t
  | _, l => l

/-- Merge a chunk (R243): symbols as (token, bytes covered); counts the merges. -/
def mergeChunk (ms : List (Nat × Nat × Nat)) : Nat → List (Nat × Nat) → Nat → List (Nat × Nat) × Nat
  | 0, syms, n => (syms, n)
  | fuel + 1, syms, n =>
    match bestPair ms syms 0 with
    | none => (syms, n)
    | some (r, i) => mergeChunk ms fuel (mergeAt (((ms[r]?).map (fun m => m.2.2)).getD 0) i syms) (n + 1)

/-- What tokenising yields so far: tokens with the bytes they cover, pieces, merges, specials, flags. -/
structure TokRun where
  toks : List (Nat × Nat) := []
  pieces : Nat := 0
  merges : Nat := 0
  specials : Nat := 0
  notNfc : Bool := false
  invalid : Bool := false
  deriving DecidableEq, Repr

/-- Tokenise one chunk; nothing after the `most`-th token. -/
def runChunk (g : List Byte) (ms : List (Nat × Nat × Nat)) (most : Nat) (r : TokRun) (chunk : List Nat) : TokRun :=
  if most ≤ r.toks.length then r
  else
    let m := mergeChunk ms chunk.length (chunk.map (fun b => (tokOfByte g b, 1))) 0
    { r with toks := r.toks ++ m.1, pieces := r.pieces + 1, merges := r.merges + m.2 }

/-- Tokenise one span or special. -/
def runPart (g : List Byte) (ms : List (Nat × Nat × Nat)) (most : Nat) (r : TokRun) (p : List Byte ⊕ List Byte) : TokRun :=
  match p with
  | .inr e => { r with toks := r.toks ++ [(fld e 0 4, fld e 4 1)], specials := r.specials + 1 }
  | .inl span =>
    let cps := utf8Split span.length (span.map BitVec.toNat)
    let r := { r with
      invalid := r.invalid || cps.any (fun c => c.2.isNone)
      notNfc := r.notNfc || cps.any (fun c => match c.2 with | none => false | some u => tokClassByte g u / 4 % 4 != 0) }
    ((cutPieces g cps 0 []).flatMap (fun p => cutChunks p 0 [])).foldl (runChunk g ms most) r

/-- Tokenise an input (R241). -/
def tokeniseRun (g : List Byte) (specials : Bool) (most : Nat) (input : List Byte) : TokRun :=
  let sp := if specials then tokSpecialList g else []
  (scanSpecials sp (input.length + 1) input []).foldl (runPart g (tokMergeList g) most) {}

/-! ### Lanes (R245 to R247) -/

/-- The descriptor's fields are within R245. -/
def qrnFieldsOk (d : List Byte) : Bool :=
  fld d 4 1 == 1 && fld d 5 1 == 0 && decide (1 ≤ fld d 6 1) && decide (fld d 7 1 < 2) && decide (fld d 8 4 ≤ 32767) &&
  decide (fld d 0xC 4 ≤ 1048576) && decide (1 ≤ fld d 0x20 4) && decide (fld d 0x20 4 ≤ 1048576) &&
  ctrFieldOk (fld d 0x24 4) && zeros d 0x30 16

/-- Bytes of LPDDR (R326). -/
def lpddrBytes : Nat := 4398046511104

/-- A result address is valid. -/
def qrnResultOk (d : List Byte) : Bool := decide (fld d 0x28 8 % 32 = 0) && decide (fld d 0x28 8 + 32 ≤ lpddrBytes)

/-- The checks of R247 in order. -/
def State.qrnCheck (s : State) (d : List Byte) : Nat :=
  if !crcOk d then 1
  else if !qrnFieldsOk d then 2
  else if (Tbl.look s.cat.tok (fld d 6 1)).isNone then 3
  else if lpddrBytes < fld d 0x10 8 + fld d 0xC 4 ∨ fld d 0x18 8 % 4 ≠ 0 ∨ lpddrBytes < fld d 0x18 8 + 4 * fld d 0x20 4 ∨
      qrnResultOk d = false then 4
  else 0

/-- A result record (R246). -/
def qrnResult (d : List Byte) (status flags toks used pieces merges cycles : Nat) : List Byte :=
  withCrc (leBytes 1 0x30 ++ leBytes 1 status ++ leBytes 2 flags ++ leBytes 4 toks ++ leBytes 4 used ++ leBytes 4 pieces ++
    leBytes 4 merges ++ leBytes 4 cycles ++ leBytes 4 (fld d 8 4))

/-- Give a slot its tokens: the prompt, or a recipe's question (R274, R276). -/
def State.takeTokens (s : State) (n : Nat) (toks : List Nat) (trunc : Bool) : State :=
  let x := s.slot n
  if x.live && !x.tokDone && decide (x.state ≠ .admitted) then
    if descRecipe x.desc = 0 then s.setSlot n { x with promptTokens := toks, tokDone := true }
    else (s.setSlot n { x with question := toks, qTrunc := trunc, tokDone := true }).noteTrunc trunc
  else s

/-- Cores that waited for room issue again, in order. -/
def State.qrnWaiters (s : State) : State :=
  let l := s.qrn.wait
  l.foldl (fun s n => if (s.slot n).live then s.qrnIssue n else s) { s with qrn := { s.qrn with wait := [] } }

/-- Run a checked descriptor: tokens, result and counts. -/
def State.runTokenise (s : State) (l : Nat) (d g : List Byte) : State :=
  let most := fld d 0x20 4
  let input := s.load .lpddr (fld d 0x10 8) (fld d 0xC 4)
  let r := tokeniseRun g (bitAt (fld d 7 1) 0) most input
  let out := r.toks.take most
  let trunc := decide (most < r.toks.length) || decide (out.foldl (fun n t => n + t.2) 0 < input.length)
  let w := l / 4
  let miss := s.drawWord
  let cycles := (48 + ceilDiv input.length 2 + 2 * r.merges + 6 * (r.pieces + r.specials) + miss.1.toNat) % 4294967296
  let flags := b2n (decide (0 < r.specials)) * 8 + b2n r.invalid * 4 + b2n trunc * 2 + b2n r.notNfc
  let used := out.foldl (fun n t => n + t.2) 0
  let s := miss.2.store .lpddr (fld d 0x18 8) (out.flatMap (fun t => leBytes 4 t.1))
  let s := s.store .lpddr (fld d 0x28 8) (qrnResult d 0 flags out.length used r.pieces r.merges cycles)
  let s := if r.notNfc then (s.bump w 10 0x104 1).event w 10 [sqBit 0x118 0] [] else s
  let s := if trunc then (s.bump w 10 0x108 1).event w 10 [sqBit 0x118 1] [] else s
  let s := if r.invalid then (s.bump w 10 0x10C 1).event w 10 [sqBit 0x118 2] [] else s
  let s := ((s.bumpWide w 10 1 (l % 4) input.length).bumpWide w 10 2 (l % 4) out.length).bumpWide w 10 3 (l % 4) cycles
  s.takeTokens (fld d 8 4) (out.map Prod.fst) trunc

/-- A refused descriptor (R247). -/
def State.refuseTokenise (s : State) (l : Nat) (d : List Byte) (code : Nat) : State :=
  let r := s.drawWord
  let s := if qrnResultOk d then r.2.store .lpddr (fld d 0x28 8) (qrnResult d code 0 0 0 0 0 r.1.toNat) else r.2
  (s.bump (l / 4) 10 0x110 1).event (l / 4) 10 [sqBit 0x118 3] [code]

/-- A lane takes the next descriptor of its work ring: it runs or is refused, and post_ctr advances (R245, R246, R247). Answers a refused
descriptor. -/
def State.laneRun (s : State) (l : Nat) : State × Option (List Byte) :=
  match s.lane l with
  | [] => (s, none)
  | d :: rest =>
    let q := Tbl.set [] s.qrn.lanes l rest
    let s := { s with qrn := { s.qrn with lanes := q } }
    let code := s.qrnCheck d
    let s := if code = 0 then s.runTokenise l d (((Tbl.look s.cat.tok (fld d 6 1)).map CatImg.bytes).getD [])
      else s.refuseTokenise l d code
    ((s.advanceFld (fld d 0x24 4) 1).qrnWaiters, if code = 0 then none else some d)

/-! ### Detokenising (R249, R250) -/

/-- The replacement character. -/
def replacement : List Byte := [0xEF, 0xBF, 0xBD]

/-- Release whole sequences and ill-formed parts of a byte string: what is released, what is held, and substitutions. -/
def releaseGo : Nat → List Byte → List Byte × List Byte × Nat
  | 0, _ => ([], [], 0)
  | fuel + 1, l =>
    match l with
    | [] => ([], [], 0)
    | _ =>
      let h := utf8Head (l.map BitVec.toNat)
      if 0 < h.1 ∧ h.2 = h.1 then
        let r := releaseGo fuel (l.drop h.1)
        (l.take h.1 ++ r.1, r.2.1, r.2.2)
      else if h.2 = l.length ∧ 0 < h.1 then ([], l, 0)
      else
        let r := releaseGo fuel (l.drop (max h.2 1))
        (replacement ++ r.1, r.2.1, r.2.2 + 1)

/-- A token's string as output: nothing for a special with render 0 (R249). -/
def renderTok (g : List Byte) (t : Nat) : List Byte :=
  if g.isEmpty then []
  else if (tokSpecialList g).any (fun e => fld e 0 4 == t && !bitAt (fld e 5 1) 1) then []
  else if t < tokVocab g then tokString g t else []

/-- Detokenise one token: released bytes, held bytes, substitutions. -/
def detokStep (g held : List Byte) (t : Nat) (last : Bool) : List Byte × List Byte × Nat :=
  let l := held ++ renderTok g t
  let r := releaseGo (l.length + 1) l
  if last && !r.2.1.isEmpty then (r.1 ++ replacement, [], r.2.2 + 1) else r

/-- The output records that carry a token's released bytes (R39). -/
def tokRecords (seq tok : Nat) (last : Bool) (bs : List Byte) : List (List Byte) :=
  let n := max (ceilDiv bs.length 4) 1
  (List.range n).map (fun i =>
    let t := (bs.drop (4 * i)).take 4
    outRecord seq i t.length tok (decide (i + 1 < n)) (last && decide (i + 1 = n)) t)

/-- The tokenizer table of a request's job. -/
def State.tokOf (s : State) (x : Slot) : List Byte :=
  match s.plan (descJob x.desc) with
  | none => []
  | some p => ((Tbl.look s.cat.tok (planTok p.hdr)).map CatImg.bytes).getD []

/-- Count a token that a lane of the slot's Wellhead detokenises (R250, R251); which lane is not stated. -/
def State.detokCount (s : State) (n t subs : Nat) (g : List Byte) : State :=
  let w := s.whOf (slotWh n)
  let lane := s.drawWord
  let l := lane.1.toNat % 4
  ((lane.2.bumpWide w 10 3 l (max 1 (ceilDiv (renderTok g t).length 16))).bumpWide w 10 4 l 1).bumpWide w 10 5 l subs

/-- DETOKENISE (R249): the slot's next delivered token is turned into its records. A request that ended otherwise than at a
natural end has `end` on the record of the last token delivered. -/
def detokenise (s : State) (n tok : Nat) : State :=
  let x := s.slot n
  match x.detok with
  | [] => s
  | (seq, t, last) :: rest =>
    if t ≠ tok then s
    else
      let last := last || (x.doneCode.isSome && rest.isEmpty)
      let r := detokStep (s.tokOf x) x.heldBytes t last
      let s := s.detokCount n t r.2.2 (s.tokOf x)
      let recs := tokRecords seq t last r.1
      let s := s.setSlot n { x with detok := rest, heldBytes := r.2.1, lastTok := some (seq, t, recs.length) }
      recs.foldl (fun s rec => s.pushRec n rec) s

/-! ### Meanings -/

/-- TOKENIZER_REGISTER. -/
def execTokenizerRegister (req : Requester) (id : Nat) (s : State) : Host.Outcome State Fault Refusal :=
  .next (tokenizerRegister s req (id % 256))
/-- TOKENIZER_UNREGISTER. -/
def execTokenizerUnregister (req : Requester) (id : Nat) (s : State) : Host.Outcome State Fault Refusal :=
  .next (tokenizerUnregister s req (id % 256))
/-- DETOKENISE. -/
def execDetokenise (slot tok : Nat) (s : State) : Host.Outcome State Fault Refusal := .next (detokenise s slot tok)

end Sys2Proof.Machine
end

