-- ==== Sys2Proof/Machine/Sheaf.lean ====
section
/-! DEFINITION. The Sheaf: tables, gathers and scatters, prefetch, feedback and updates (R252 to R269). -/

namespace Sys2Proof.Machine

/-! ### Tables (R252 to R255) -/

/-- fmt. -/
def stFmt (d : List Byte) : Nat := fld d 5 1
/-- rule. -/
def stRule (d : List Byte) : Nat := fld d 6 1
/-- shared. -/
def stShared (d : List Byte) : Bool := bitAt (fld d 7 1) 1
/-- default_zero. -/
def stZero (d : List Byte) : Bool := bitAt (fld d 7 1) 0
/-- rows. -/
def stRows (d : List Byte) : Nat := fld d 8 8
/-- width. -/
def stWidth (d : List Byte) : Nat := fld d 0x10 4
/-- job. -/
def stJob (d : List Byte) : Nat := fld d 0x14 2
/-- update_period. -/
def stPeriod (d : List Byte) : Nat := fld d 0x16 2
/-- base. -/
def stBase (d : List Byte) : Nat := fld d 0x18 8

/-- Bytes of an element of format 8, 9 or 10. -/
def elemBytes (f : Nat) : Nat := if f = 10 then 4 else 2

/-- A positive finite FP32 word. -/
def f32Positive (w : Nat) : Bool := decide (0 < w) && decide (w < 0x7F800000)

/-- The descriptor is within R253 and R254, its job aside. -/
def tableOk (d : List Byte) : Bool :=
  fld d 4 1 == 1 && decide (8 ≤ stFmt d) && decide (stFmt d ≤ 10) && decide (stRule d ≤ 2) && decide (fld d 7 1 < 4) &&
  decide (1 ≤ stRows d) && decide (stRows d ≤ 2 ^ 36) && decide (stWidth d % 16 = 0) && decide (16 ≤ stWidth d) &&
  decide (stWidth d ≤ 16384) && decide (1 ≤ stJob d) && decide (stJob d ≤ 1023) &&
  (if stRule d = 0 then stPeriod d == 0 else decide (1 ≤ stPeriod d) && decide (stPeriod d ≤ 1024)) &&
  decide (stBase d % 4096 = 0) && (stZero d || decide (fld d 0x20 8 < stRows d)) &&
  (stRule d == 2 || fld d 0x28 8 == 0) && (if stRule d = 0 then fld d 0x30 4 == 0 else f32Positive (fld d 0x30 4)) &&
  (if stRule d = 2 then f32Positive (fld d 0x34 4) else fld d 0x34 4 == 0) && ctrFieldOk (fld d 0x38 4) && zeros d 0x3C 4 &&
  (if stRule d = 0 then !bitAt (fld d 0x38 4) 31 else stFmt d == 10 && bitAt (fld d 0x38 4) 31)

/-- A table. -/
def State.table (s : State) (t : Nat) : Option ShfTable := Tbl.look s.shf.tables t

/-- Replace a table. -/
def State.setTable (s : State) (t : Nat) (x : ShfTable) : State :=
  { s with shf := { s.shf with tables := Tbl.put s.shf.tables t x } }

/-- The Wellhead that owns a table (R252). -/
def State.tableWh (s : State) (t : Nat) : Nat := s.whOf (t % 4)

/-- The descriptor of a table command: a code, or the descriptor. -/
def State.tableDesc (s : State) (addr : Nat) : Nat × List Byte :=
  if addr % 64 ≠ 0 ∨ s.inHost addr 64 = false then (2, [])
  else
    let d := s.load .lpddr addr 64
    if !crcOk d then (1, []) else if !tableOk d || (s.job (stJob d)).isNone then (2, []) else (0, d)

/-- SHEAF_TABLE_SET (R253). -/
def sheafTableSet (s : State) (req : Requester) (t : Nat) : State :=
  s.modCommand req 6 (fun s =>
    let r := s.tableDesc (s.cmdAddr 6)
    if r.1 ≠ 0 then s.cmdDone 6 r.1 t
    else if (s.table t).isSome then s.cmdDone 6 3 t
    else (s.setTable t { desc := r.2 }).cmdDone 6 0 t)

/-- The key of a merge entry. -/
def entryKey (t row : Nat) : Nat := t * 68719476736 + row

/-- Entries of a table, by row. -/
def State.tableEntries (s : State) (t : Nat) : List (Nat × ShfEntry) :=
  (s.shf.entries.filter (fun e => e.1 / 68719476736 = t)).map (fun e => (e.1 % 68719476736, e.2))

/-- Discard a table, its entries and the unconsumed events of its ring (R255). -/
def State.tableDrop (s : State) (t : Nat) : State :=
  let d := (s.table t).elim [] ShfTable.desc
  let ring := fld d 0x38 4 % 0x20000
  let s := { s with shf := { s.shf with
    tables := Tbl.del s.shf.tables t, entries := s.shf.entries.filter (fun e => e.1 / 68719476736 ≠ t) } }
  if !bitAt (fld d 0x38 4) 31 then s
  else match Tbl.look s.nor.rings ring with
    | none => s
    | some r => if r.kind = 8 then s.setRing ring { r with cons := r.prod } else s

/-- SHEAF_TABLE_CLEAR (R255). -/
def sheafTableClear (s : State) (req : Requester) (t : Nat) : State :=
  s.modCommand req 6 (fun s =>
    match s.table t with
    | none => s.cmdDone 6 4 t
    | some x =>
      if s.cis.plans.any (fun e => e.2.loaded.isSome && decide (e.1 ≠ stJob x.desc) && Config.planNamesTable e.2.image t) then
        s.cmdDone 6 5 t
      else (s.tableDrop t).cmdDone 6 0 t)

/-- The fields AMEND may not change are equal: all but update_period, default_zero, default_row, lr and eps. -/
def amendSame (a b : List Byte) : Bool :=
  fld a 4 3 == fld b 4 3 && stShared a == stShared b && (a.drop 8).take 14 == (b.drop 8).take 14 &&
  (a.drop 0x18).take 8 == (b.drop 0x18).take 8 && (a.drop 0x28).take 8 == (b.drop 0x28).take 8 &&
  (a.drop 0x38).take 8 == (b.drop 0x38).take 8

/-- SHEAF_TABLE_AMEND (R253): a read-only table, which has no apply boundary, takes the values at once. -/
def sheafTableAmend (s : State) (req : Requester) (t : Nat) : State :=
  s.modCommand req 6 (fun s =>
    match s.table t with
    | none => s.cmdDone 6 4 t
    | some x =>
      let r := s.tableDesc (s.cmdAddr 6)
      if r.1 ≠ 0 then s.cmdDone 6 r.1 t
      else if !amendSame x.desc r.2 then s.cmdDone 6 2 t
      else if stRule x.desc = 0 then (s.setTable t { x with desc := r.2 }).cmdDone 6 0 t
      else (s.setTable t { x with amended := some r.2 }).cmdDone 6 0 t)

/-! ### Descriptors (R256, R260) -/

/-- op. -/
def sdOp (d : List Byte) : Nat := fld d 4 1
/-- table. -/
def sdTable (d : List Byte) : Nat := fld d 5 1
/-- out_fmt. -/
def sdFmt (d : List Byte) : Nat := fld d 6 1
/-- count. -/
def sdCount (d : List Byte) : Nat := fld d 8 4
/-- bags. -/
def sdBags (d : List Byte) : Nat := fld d 0xC 4
/-- data_stride. -/
def sdStride (d : List Byte) : Nat := fld d 0x28 4

/-- The job a Sheaf runs for: the job that holds the Tiller, or on a Wellhead the job for which a core queued the descriptor (R256). -/
def State.sheafJob (s : State) (die job : Nat) : Nat := if 8 ≤ die then s.jobOn (die - 8) else job

/-- Bytes of an output row. -/
def rowOut (x fmt : Nat) (width : Nat) : Nat := width / elemBytes x * elemBytes fmt

/-- A list never falls. -/
def nondecreasing : List Nat → Bool
  | a :: b :: t => decide (a ≤ b) && nondecreasing (b :: t)
  | _ => true

/-- The bag offsets of a GATHER_SUM. -/
def State.bagOffsets (s : State) (job : Nat) (d : List Byte) : List Nat :=
  let bs := s.vaRead job (fld d 0x18 8) (4 * (sdBags d + 1))
  (List.range (sdBags d + 1)).map (fun i => fld bs (4 * i) 4)

/-- The checks of R260 in order; 0 passes. -/
def State.sdCheck (s : State) (job : Nat) (d : List Byte) : Nat :=
  if !crcOk d then 1
  else if 4 < sdOp d ∨ (sdOp d ≠ 4 ∧ (sdFmt d < 8 ∨ 10 < sdFmt d)) ∨ zeros d 7 1 = false ∨ ctrFieldOk (fld d 0x2C 4) = false ∨
      ctrFieldOk (fld d 0x34 4) = false ∨
      (sdOp d = 2 ∧ (s.table (sdTable d)).any (fun x => stFmt x.desc != sdFmt d) = true) then 2
  else if sdOp d = 4 then 0
  else match s.table (sdTable d) with
    | none => 3
    | some x =>
      if (stJob x.desc ≠ job ∧ ¬(stShared x.desc = true ∧ sdOp d ≠ 2)) ∨ (sdOp d = 2 ∧ stRule x.desc ≠ 0) then 4
      else if sdCount d = 0 ∨ 2 ^ 20 < sdCount d ∨ (if sdOp d = 1 then sdBags d = 0 ∨ 65536 < sdBags d else sdBags d ≠ 0) then 5
      else if sdOp d = 1 && !(let o := s.bagOffsets job d
          nondecreasing o && o.head? == some 0 && o.getLast? == some (sdCount d)) then 5
      else if fld d 0x10 8 % 8 ≠ 0 ∨ fld d 0x20 8 % 16 ≠ 0 ∨ sdStride d % 16 ≠ 0 ∨
          sdStride d < rowOut (stFmt x.desc) (sdFmt d) (stWidth x.desc) ∨ 2 ^ 48 < fld d 0x10 8 + 8 * sdCount d ∨
          2 ^ 48 < fld d 0x20 8 + sdStride d * (if sdOp d = 1 then sdBags d else sdCount d) ∨ 2 ^ 48 < fld d 0x38 8 + 16 ∨
          (sdOp d = 1 ∧ (fld d 0x18 8 % 4 ≠ 0 ∨ 2 ^ 48 < fld d 0x18 8 + 4 * (sdBags d + 1))) then 6
      else 0

/-! ### Rows (R257) -/

/-- The data of a row is lost or unreadable in its tier (R257, R341); `bad` are tier pages whose read from flash fails. -/
def State.rowMissing (s : State) (bad : List Nat) (x : List Byte) (r : Nat) : Bool :=
  (rangeVpns (stBase x + r * stWidth x) (stWidth x)).any (fun v =>
    match s.pte (stJob x) v with
    | none => false
    | some e => e.lost || s.flashLost (stJob x) v e || (decide (e.tier = 3) && e.valid && bad.contains v))

/-- The row an index names, none where it maps to the default row (R257). -/
def State.rowOf (s : State) (bad : List Nat) (x : List Byte) (i : Nat) : Option Nat :=
  let r := i % 68719476736
  if i / 68719476736 ≠ 0 ∨ stRows x ≤ r ∨ s.rowMissing bad x r = true then none else some r

/-- Bytes of a row. -/
def State.rowBytes (s : State) (x : List Byte) (r : Nat) : List Byte := s.vaRead (stJob x) (stBase x + r * stWidth x) (stWidth x)

/-- Bytes of the row an index reads: the default row where it maps to it, +0 where that is missing too. -/
def State.rowRead (s : State) (bad : List Nat) (x : List Byte) (i : Nat) : List Byte :=
  match s.rowOf bad x i with
  | some r => s.rowBytes x r
  | none =>
    let dr := fld x 0x20 8
    if stZero x || s.rowMissing bad x dr then List.replicate (stWidth x) 0 else s.rowBytes x dr

/-- Elements of a row as FP32 words (R105). -/
def rowVals (fmt : Nat) (bs : List Byte) : List Nat :=
  (List.range (bs.length / elemBytes fmt)).map (fun i =>
    let c := fld bs (i * elemBytes fmt) (elemBytes fmt)
    if fmt = 10 then rn (f32Val c) else rn (elemVal fmt c))

/-- FP32 words as bytes of a format (R103). -/
def valBytes (fmt : Nat) (vs : List Nat) : List Byte :=
  vs.flatMap (fun v => if fmt = 10 then leBytes 4 v else leBytes 2 (toElem fmt (f32Val v)))

/-- The indices of a descriptor. -/
def State.indices (s : State) (job : Nat) (d : List Byte) : List Nat :=
  let bs := s.vaRead job (fld d 0x10 8) (8 * sdCount d)
  (List.range (sdCount d)).map (fun i => fld bs (8 * i) 8)

/-- Tier pages of the rows that indices name whose read from flash fails. -/
def badRows (bad : List Nat) (x : List Byte) (idx : List Nat) : List Nat :=
  bad.filter (fun v => idx.any (fun i => decide (i < stRows x) &&
    (rangeVpns (stBase x + i * stWidth x) (stWidth x)).contains v))

/-- Rows read count for heat (R261). -/
def State.touchRows (s : State) (die : Nat) (bad : List Nat) (x : List Byte) (idx : List Nat) : State :=
  idx.foldl (fun s i => match s.rowOf bad x i with
    | some r => s.touchRange die (stJob x) (stBase x + r * stWidth x) (stWidth x) false
    | none => s) s

/-- End an operation: tally, counters, post_ctr after the writes (R256, R257, R268). -/
def State.sheafDone (s : State) (die job : Nat) (d : List Byte) (rows defaults dropped bytes : Nat) : State :=
  let s := if fld d 0x38 8 = 0 then s
    else s.vaWrite die job (fld d 0x38 8) (leBytes 4 defaults ++ leBytes 4 dropped ++ leBytes 8 s.strokeN)
  let s := ((s.bump die 28 0x104 rows).bump die 28 0x108 defaults).bumpWide die 28 1 0 bytes
  s.advanceFld (fld d 0x34 4) 1

/-- The output row of a gathered index. -/
def State.gatherRow (s : State) (bad : List Nat) (x : List Byte) (fmt i : Nat) : List Byte :=
  valBytes fmt (rowVals (stFmt x) (s.rowRead bad x i))

/-- Run a checked GATHER or PREFETCH (R258). -/
def State.runGather (s : State) (die job : Nat) (bad : List Nat) (d x : List Byte) : State :=
  let idx := s.indices job d
  let defaults := (idx.filter (fun i => (s.rowOf bad x i).isNone)).length
  let rows := idx.map (s.gatherRow bad x (sdFmt d))
  let s := (s.touchRows die bad x idx).losePages (stJob x) (badRows bad x idx)
  let s := rows.zipIdx.foldl (fun s r => s.vaWrite die job (fld d 0x20 8 + r.2 * sdStride d) r.1) s
  s.sheafDone die job d idx.length defaults 0 (idx.length * stWidth x)

/-- Elementwise sum of rows in order from +0 (R258). -/
def sumRows (n : Nat) (rows : List (List Nat)) : List Nat := rows.foldl (fun a r => List.zipWith fAdd a r) (List.replicate n 0)

/-- Run a checked GATHER_SUM (R258). -/
def State.runGatherSum (s : State) (die job : Nat) (bad : List Nat) (d x : List Byte) : State :=
  let idx := s.indices job d
  let offs := s.bagOffsets job d
  let defaults := (idx.filter (fun i => (s.rowOf bad x i).isNone)).length
  let bag (b : Nat) : List Nat := (idx.drop ((offs[b]?).getD 0)).take (((offs[b + 1]?).getD 0) - ((offs[b]?).getD 0))
  let rows := (List.range (sdBags d)).map (fun b => valBytes (sdFmt d)
    (sumRows (stWidth x / elemBytes (stFmt x)) ((bag b).map (fun i => rowVals (stFmt x) (s.rowRead bad x i)))))
  let s := (s.touchRows die bad x idx).losePages (stJob x) (badRows bad x idx)
  let s := rows.zipIdx.foldl (fun s r => s.vaWrite die job (fld d 0x20 8 + r.2 * sdStride d) r.1) s
  s.sheafDone die job d idx.length defaults 0 (idx.length * stWidth x)

/-- Run a checked SCATTER (R258). -/
def State.runScatter (s : State) (die job : Nat) (d x : List Byte) : State :=
  let idx := s.indices job d
  let dropped := (idx.filter (fun i => (s.rowOf [] x i).isNone)).length
  let s := idx.zipIdx.foldl (fun s e =>
    let bs := s.vaRead job (fld d 0x20 8 + e.2 * sdStride d) (stWidth x)
    match s.rowOf [] x e.1 with
    | none => s
    | some r => s.vaWrite die (stJob x) (stBase x + r * stWidth x) bs) s
  s.sheafDone die job d (idx.length - dropped) 0 dropped ((idx.length - dropped) * stWidth x)

/-- NaN of a format (R103). -/
def fmtNaN (f : Nat) : Nat := if f = 8 then 0x7FC0 else if f = 9 then 0x7E00 else f32NaN

/-- A refused operation (R260): a GATHER's output elements are NaN where table and format give them a shape. -/
def State.refuseSheaf (s : State) (die job addr : Nat) (d : List Byte) (code : Nat) : State :=
  let s := ((s.bump die 28 0x110 1).setRegN die 28 0x114 addr).event die 28 [sqBit 0x118 0] [code]
  let f := sdFmt d
  let s := match s.table (sdTable d) with
    | none => s
    | some x =>
      if sdOp d = 2 ∨ sdOp d = 4 ∨ f < 8 ∨ 10 < f then s
      else
        let row := (List.range (stWidth x.desc / elemBytes (stFmt x.desc))).flatMap (fun _ => leBytes (elemBytes f) (fmtNaN f))
        let n := if sdOp d = 1 then min (sdBags d) 65536 else min (sdCount d) (2 ^ 20)
        (List.range n).foldl (fun s k => s.vaWrite die job (fld d 0x20 8 + k * sdStride d) row) s
  s.advanceFld (fld d 0x34 4) 1

/-- The next descriptor of a Sheaf whose wait is met: of a Tiller from its list, of a Wellhead the one a core queued. -/
def State.sheafNext (s : State) (die : Nat) (fed : List Byte) : Option (Nat × List Byte) :=
  let nd : Option (Nat × List Byte) :=
    if 8 ≤ die then (Tbl.look s.shf.lists die).map (fun a => (a, s.sram (die - 8) a 64))
    else if fed.length = 64 ∧ die < 4 then some (0, fed) else none
  nd.bind (fun e =>
    let f := fld e.2 0x2C 4
    if bitAt f 31 && crcOk e.2 && !s.waitMet { unit := .sheaf die, ctr := f % 0x20000, thr := fld e.2 0x30 4 } then none
    else some e)

/-- Move a Tiller Sheaf's list on, and forget an answered WAIT. -/
def State.sheafTook (s : State) (die addr : Nat) (d : List Byte) : State :=
  let s := if 8 ≤ die then
      let l := Tbl.put s.shf.lists die (addr + 64)
      { s with shf := { s.shf with lists := l } }
    else s
  s.waitUsed (if crcOk d then fld d 0x2C 4 else 0) { unit := .sheaf die, ctr := fld d 0x2C 4 % 0x20000, thr := fld d 0x30 4 }

/-- Take the next descriptor when it has one of the given ops, check it for the running job, run it or refuse it. -/
def State.sheafRun (s : State) (die job : Nat) (fed : List Byte) (ops : Nat → Bool) (f : State → Nat → List Byte → List Byte → State) :
    State :=
  match s.sheafNext die fed with
  | none => s
  | some (a, d) =>
    if !ops (sdOp d) then s
    else
      let job := s.sheafJob die job
      let code := s.sdCheck job d
      let s := s.sheafTook die a d
      match code, s.table (sdTable d) with
      | 0, some x => f s job d x.desc
      | _, _ => s.refuseSheaf die job a d code

/-- GATHER (R258); a descriptor with an op above 4 is refused here. -/
def gather (s : State) (die : Nat) (fed : List Byte) (job : Nat) (bad : List Nat) : State :=
  s.sheafRun die job fed (fun o => o == 0 || decide (4 < o)) (fun s job d x => s.runGather die job bad d x)

/-- GATHER_SUM (R258). -/
def gatherSum (s : State) (die : Nat) (fed : List Byte) (job : Nat) (bad : List Nat) : State :=
  s.sheafRun die job fed (fun o => o == 1) (fun s job d x => s.runGatherSum die job bad d x)

/-- SCATTER (R258). -/
def scatter (s : State) (die : Nat) (fed : List Byte) (job : Nat) : State :=
  s.sheafRun die job fed (fun o => o == 2) (fun s job d x => s.runScatter die job d x)

/-- PREFETCH (R262): late when the boundary after the batch list has passed. -/
def prefetch (s : State) (die : Nat) (fed : List Byte) (job : Nat) (bad : List Nat) : State :=
  s.sheafRun die job fed (fun o => o == 3) (fun s job d x =>
    let late := match Tbl.look s.shf.batch job with
      | none => false
      | some n => decide (n < s.strokeN)
    let s := s.runGather die job bad d x
    if late then (s.bump die 28 0x10C 1).event die 28 [sqBit 0x118 1] [] else s)

/-- A write of SHF_LIST: a list that runs goes on at the new base at the next descriptor fetch (R268). -/
def State.sheafListWrite (s : State) (die v : Nat) : State :=
  let s := s.setRegN die 28 0x100 v
  if (Tbl.look s.shf.lists die).isNone then s else { s with shf := { s.shf with lists := Tbl.put s.shf.lists die v } }

/-- SHEAF_END (R256): the list stops; a refused END is logged and stops it as well. -/
def sheafEnd (s : State) (die : Nat) (fed : List Byte) : State :=
  match s.sheafNext die fed with
  | none => s
  | some (a, d) =>
    if sdOp d ≠ 4 then s
    else
      let code := s.sdCheck 0 d
      let s := s.sheafTook die a d
      let s := if code = 0 then s else s.refuseSheaf die 0 a d code
      { s with shf := { s.shf with lists := Tbl.del s.shf.lists die } }

/-! ### Batch lists (R262) -/

/-- The batch index list of a job: the last token of each request of the batch, no-index where there is none. -/
def State.batchList (s : State) (p : Plan) : List Byte :=
  let n := max (Config.planBatch p.image) p.next.length
  (List.range n).flatMap (fun i => match p.next[i]? with
    | none => leBytes 8 0xFFFFFFFFFFFFFFFF
    | some r => match (s.slot r).tokens.getLast? with
      | none => leBytes 8 0xFFFFFFFFFFFFFFFF
      | some t => leBytes 8 t)

/-- BATCH_LIST_WRITE (R262): at 36 µs each loaded model-service job's list is written and its batch counter advances. -/
def batchListWrite (s : State) : State :=
  (s.cis.plans.filter (fun e => e.2.loaded.isSome && planKind e.2.hdr == 0)).foldl (fun s e =>
    let s := s.vaWrite (s.whOf (e.1 % 4)) e.1 (Config.planIndexList e.2.image) (s.batchList e.2)
    let b := Tbl.put s.shf.batch e.1 s.strokeN
    { s with shf := { s.shf with batch := b } }.advanceFld (Config.planBatchCtr e.2.image) 1) s

/-! ### Feedback and updates (R263 to R267) -/

/-- Entries a Wellhead's merge buffer holds. -/
def State.mergeFill (s : State) (w : Nat) : Nat := (s.shf.entries.filter (fun e => s.tableWh (e.1 / 68719476736) = w)).length

/-- The gradient elements of an event. -/
def State.eventGrad (s : State) (x e : List Byte) : List Nat :=
  let n := stWidth x / 4
  if bitAt (fld e 5 1) 0 then (List.range n).map (fun i => fld e (0x20 + 4 * i) 4)
  else
    let bs := s.load .lpddr (fld e 0x20 8) (stWidth x)
    (List.range n).map (fun i => fld bs (4 * i) 4)

/-- An event is within R263. -/
def State.eventOk (s : State) (t : Nat) (x : ShfTable) (e : List Byte) : Bool :=
  let w := stWidth x.desc
  crcOk e && fld e 4 1 == 1 && decide (fld e 5 1 < 2) && fld e 6 1 == t && zeros e 7 1 && decide (x.serial < fld e 8 8) &&
  decide (fld e 0x10 8 < stRows x.desc) && f32Finite (fld e 0x18 4) && zeros e 0x1C 4 &&
  (if bitAt (fld e 5 1) 0 then decide (w ≤ 32) && zeros e (0x20 + w) (32 - w)
    else decide (fld e 0x20 8 % 16 = 0) && zeros e 0x28 24 && s.inHost (fld e 0x20 8) w)

/-- Count a dropped event or entry (R263, R265). -/
def State.fbDrop (s : State) (w : Nat) (errs : List Nat) : State := (s.bump w 28 0x124 1).event w 28 [sqBit 0x118 2] errs

/-- Merge an event into the entry of its row (R264). -/
def State.mergeEvent (s : State) (t : Nat) (x : ShfTable) (e : List Byte) : State :=
  let k := entryKey t (fld e 0x10 8)
  let old := (Tbl.look s.shf.entries k).getD { events := 0, grad := List.replicate (stWidth x.desc / 4) 0 }
  let g := List.zipWith (fun a b => fAdd a (fMul (fld e 0x18 4) b)) old.grad (s.eventGrad x.desc e)
  let s := s.setTable t { x with serial := fld e 8 8 }
  { s with shf := { s.shf with entries := Tbl.put s.shf.entries k { events := old.events + 1, grad := g } } }

/-- FEEDBACK_EVENT (R263, R264, R266): the next event of a table's ring is consumed; with the merge buffer full, one that
needs a new entry waits. -/
def feedbackEvent (s : State) (t : Nat) : State :=
  match s.table t with
  | none => s
  | some x =>
    let rid := fld x.desc 0x38 4 % 0x20000
    match Tbl.look s.nor.rings rid with
    | none => s
    | some r =>
      if !bitAt (fld x.desc 0x38 4) 31 || r.kind != 8 || r.bind != t || decide (r.prod ≤ r.cons) then s
      else
        let e := s.load .lpddr (r.addr r.cons) 64
        let w := s.tableWh t
        let ok := s.eventOk t x e
        if ok && (Tbl.look s.shf.entries (entryKey t (fld e 0x10 8))).isNone && decide (65536 ≤ s.mergeFill w) then s
        else
          let s := (s.consume rid r).bumpWide w 28 2 0 1
          if ok then s.mergeEvent t x e else s.fbDrop w [7]

/-- The new row and accumulator words of an update (R265). -/
def updateRow (x : List Byte) (w g : List Nat) (a : Nat) : List Nat × Nat :=
  let lr := fld x 0x30 4
  if stRule x = 1 then (List.zipWith (fun w g => fSub w (fMul lr g)) w g, a)
  else
    let ms := fMul (rowSum (g.map (fun v => fMul v v))) (fRecip (rn (.fin false (stWidth x / 4) 0)))
    let a := fAdd a ms
    let step := fMul lr (fRsqrt (fAdd a (fld x 0x34 4)))
    (List.zipWith (fun w g => fSub w (fMul step g)) w g, a)

/-- Apply one entry (R265): a missing row is not updated and its entry is dropped. -/
def State.applyEntry (s : State) (t : Nat) (x : List Byte) (row : Nat) (e : ShfEntry) : State :=
  let w := s.tableWh t
  let s := { s with shf := { s.shf with entries := Tbl.del s.shf.entries (entryKey t row) } }
  if s.rowMissing [] x row then s.fbDrop w []
  else
    let va := fld x 0x28 8 + 4 * row
    let a := leNat (s.vaRead (stJob x) va 4)
    let u := updateRow x (rowVals 10 (s.rowBytes x row)) e.grad a
    let s := s.vaWrite w (stJob x) (stBase x + row * stWidth x) (valBytes 10 u.1)
    let s := if stRule x = 2 then s.vaWrite w (stJob x) va (leBytes 4 u.2) else s
    s.bumpWide w 28 3 0 1

/-- Freeze and apply the entries of a table in ascending row order; an amendment takes effect here. -/
def State.applyTable (s : State) (t : Nat) : State :=
  match s.table t with
  | none => s
  | some x =>
    let d := x.amended.getD x.desc
    let s := s.setTable t { x with desc := d, amended := none, applied := some s.strokeN }
    (s.tableEntries t).foldl (fun s e => s.applyEntry t d e.1 e.2) s

/-- SHEAF_UPDATE_APPLY (R265): at a boundary whose stroke is a multiple of update_period, once. -/
def sheafUpdateApply (s : State) (t : Nat) : State :=
  match s.table t with
  | none => s
  | some x =>
    if stRule x.desc = 0 ∨ s.strokeN % stPeriod x.desc ≠ 0 ∨ x.applied = some s.strokeN then s else s.applyTable t

/-- FORCED_APPLY (R266): with its merge buffer full, every table of a Wellhead that holds entries is applied. -/
def forcedApply (s : State) (w : Nat) : State :=
  if s.mergeFill w < 65536 then s
  else
    let ts := (List.range 64).filter (fun t => decide (s.tableWh t = w) && !(s.tableEntries t).isEmpty)
    ((ts.foldl (fun s t => s.applyTable t) s).bump w 28 0x128 1).event w 28 [sqBit 0x118 3] []

/-! ### Meanings -/

/-- SHEAF_TABLE_SET. -/
def execSheafTableSet (req : Requester) (id : Nat) (s : State) : Host.Outcome State Fault Refusal :=
  .next (sheafTableSet s req (id % 64))
/-- SHEAF_TABLE_CLEAR. -/
def execSheafTableClear (req : Requester) (id : Nat) (s : State) : Host.Outcome State Fault Refusal :=
  .next (sheafTableClear s req (id % 64))
/-- SHEAF_TABLE_AMEND. -/
def execSheafTableAmend (req : Requester) (id : Nat) (s : State) : Host.Outcome State Fault Refusal :=
  .next (sheafTableAmend s req (id % 64))
/-- GATHER. -/
def execGather (die : Nat) (fed : GatherFeed) (s : State) : Host.Outcome State Fault Refusal :=
  .next (gather s die fed.bytes fed.job fed.bad)
/-- GATHER_SUM. -/
def execGatherSum (die : Nat) (fed : GatherFeed) (s : State) : Host.Outcome State Fault Refusal :=
  .next (gatherSum s die fed.bytes fed.job fed.bad)
/-- SCATTER. -/
def execScatter (die : Nat) (fed : SheafFeed) (s : State) : Host.Outcome State Fault Refusal :=
  .next (scatter s die fed.bytes fed.job)
/-- PREFETCH. -/
def execPrefetch (die : Nat) (fed : GatherFeed) (s : State) : Host.Outcome State Fault Refusal :=
  .next (prefetch s die fed.bytes fed.job fed.bad)
/-- SHEAF_END. -/
def execSheafEnd (die : Nat) (fed : List Byte) (s : State) : Host.Outcome State Fault Refusal := .next (sheafEnd s die fed)
/-- BATCH_LIST_WRITE. -/
def execBatchListWrite (s : State) : Host.Outcome State Fault Refusal := .next (batchListWrite s)
/-- FEEDBACK_EVENT. -/
def execFeedbackEvent (t : Nat) (s : State) : Host.Outcome State Fault Refusal := .next (feedbackEvent s t)
/-- SHEAF_UPDATE_APPLY. -/
def execSheafUpdateApply (t : Nat) (s : State) : Host.Outcome State Fault Refusal := .next (sheafUpdateApply s t)
/-- FORCED_APPLY. -/
def execForcedApply (w : Nat) (s : State) : Host.Outcome State Fault Refusal := .next (forcedApply s w)

end Sys2Proof.Machine
end

