-- ==== Sys2Proof/Machine/Search.lean ====
section
/-! DEFINITION. Graph search on flash: generations, the walk, walkers and hub windows (R290 to R324). -/

namespace Sys2Proof.Machine

/-! ### Generation slots -/

/-- Replace a generation slot. -/
def State.setGen (s : State) (g : Nat) (x : GenSlot) : State :=
  { s with idx := { s.idx with gens := Tbl.set {} s.idx.gens g x } }

/-- Requests that pin a generation slot (R43, R314). -/
def State.genPins (s : State) (g : Nat) : Nat :=
  (s.req.slots.filter (fun e => e.2.live && decide (e.2.genSlot = some g))).length

/-- Bytes of a node record (R294). -/
def recBytes (h : List Byte) : Nat := if fld h 7 1 = 0 then 2048 else 4096
/-- degree. -/
def genDegree (h : List Byte) : Nat := fld h 0xE 1
/-- nodes. -/
def genNodes (h : List Byte) : Nat := fld h 0x10 8
/-- hub_nodes. -/
def genHubs (h : List Byte) : Nat := fld h 0x18 4
/-- m. -/
def genM (h : List Byte) : Nat := fld h 0x1C 1
/-- pq_addr. -/
def genPq (h : List Byte) : Nat := fld h 0x28 8
/-- ext_addr. -/
def genExt (h : List Byte) : Nat := fld h 0x30 8
/-- The bit pattern that means no neighbour (R295). -/
def noNeighbour : Nat := 0xFFFFFFFFFFFFFFFF

/-- An entry node entry is well formed: a hub node of the generation (R292, R293, R295). -/
def entryOk (h : List Byte) (e : Nat) : Bool :=
  bitAt e 63 && decide (bitsOf e 62 40 < genHubs h) && decide (e % 1099511627776 < genNodes h)

/-- The header is within R292. -/
def genHdrOk (h : List Byte) : Bool :=
  fld h 4 1 == 1 && decide (fld h 5 1 ≤ 3) && decide (5 ≤ fld h 6 1) && decide (fld h 6 1 ≤ 7) && decide (fld h 7 1 ≤ 1) &&
  decide (1 ≤ genNum h) && decide (1 ≤ genJob h) && decide (genJob h ≤ 1023) &&
  [32, 64, 128].contains (genM h) && decide (0 < genDim h) && decide (genDim h % 32 = 0) && decide (genDim h % genM h = 0) &&
  decide (genDim h ≤ (if fld h 7 1 = 0 then 1472 else 3520)) &&
  decide (1 ≤ genDegree h) && decide (genDegree h ≤ 64) && decide (1 ≤ fld h 0xF 1) && decide (fld h 0xF 1 ≤ 16) &&
  decide (1 ≤ genNodes h) && decide (genNodes h ≤ 1099511627775) && decide (genHubs h ≤ 4194304) && zeros h 0x1D 3 &&
  decide (fld h 0x20 8 % 16 = 0) && decide (genPq h % 4096 = 0) && decide (genExt h % 4096 = 0) && zeros h 0x38 8 &&
  (List.range 16).all (fun i => if i < fld h 0xF 1 then entryOk h (fld h (0x40 + 8 * i) 8)
    else fld h (0x40 + 8 * i) 8 == noNeighbour) && zeros h 0xC0 64

/-- Write a result register of MOD page 8 and end a command. -/
def State.idxDone (s : State) (code g : Nat) : State := s.cmdDone 8 code g

/-- The job of a header is loaded and an index-service job. -/
def State.indexJob (s : State) (j : Nat) : Bool := match s.job j with | none => false | some p => planKind p.hdr == 1

/-- Another slot uses the generation number (R290). -/
def State.genTaken (s : State) (g n : Nat) : Bool :=
  (List.range 4).any (fun i => decide (i ≠ g) && decide ((s.gen i).state ≠ .free) && genNum (s.gen i).hdr == n)

/-- The checks of OPEN (R311, R321). -/
def State.openCheck (s : State) (g addr : Nat) : Nat :=
  let h := s.load .lpddr addr 256
  if (s.gen g).state ≠ .free then 3
  else if s.wdl.readOnly then 0xA
  else if addr % 128 ≠ 0 ∨ s.inHost addr 256 = false then 2
  else if !crcOk h then 1
  else if !(genHdrOk h && s.inHost (genExt h) (extBytes h) && s.inHost (genPq h) 64) then 2
  else if s.genTaken g (genNum h) then 2
  else if !s.indexJob (genJob h) then 4
  else 0

/-- INDEX_OPEN (R311). -/
def indexOpen (s : State) (req : Requester) (g : Nat) : State :=
  s.modCommand req 8 (fun s =>
    let addr := s.cmdAddr 8
    let c := s.openCheck g addr
    if c = 0 then
      let n := s.idx.openSerial + 1
      let s := { s with idx := { s.idx with openSerial := n } }
      (s.setGen g { state := .loading, hdr := s.load .lpddr addr 256, serial := n }).idxDone 0 g
    else s.idxDone c g)

/-! ### WRITE, SEAL, LOAD (R311, R312, R297) -/

/-- The address of an extent entry: region 0 ordinary, 1 hub, 2 passage (R297). -/
def extEntry (h : List Byte) (region i : Nat) : Nat :=
  let n := genGroups h
  genExt h + 64 + 8 * (match region with | 0 => i | 1 => n.1 + i | _ => n.1 + n.2.1 + i)

/-- loc0 and loc1 of a group. -/
def State.extLocs (s : State) (h : List Byte) (region i : Nat) : Nat × Nat :=
  let w := leNat (s.load .lpddr (extEntry h region i) 8)
  (w % 4294967296, w / 4294967296)

/-- Groups of a region. -/
def regionGroups (h : List Byte) (region : Nat) : Nat :=
  let n := genGroups h
  match region with | 0 => n.1 | 1 => n.2.1 | _ => n.2.2

/-- Bytes of data of a group as it lies in a WRITE: whole records, or the bytes of a passage group (R296, R312). -/
def groupBytes (h : List Byte) (region i : Nat) : Nat :=
  match region with
  | 0 => recBytes h * min (genGroup h) (genNodes h - genGroup h * i)
  | 1 => recBytes h * min (genGroup h) (genHubs h - genGroup h * i)
  | _ => min 25165824 (fld h 0x20 8 - 25165824 * i)

/-- Bytes between the starts of groups in a WRITE: groups lie back to back. -/
def groupsBytes (h : List Byte) (region first : Nat) : Nat → Nat
  | 0 => 0
  | n + 1 => groupBytes h region first + groupsBytes h region (first + 1) n

/-- The record checks of WRITE on an ordinary or hub group: node and gen of every record, passage ids strictly ascending
across ordinary groups (R293, R312). Answers the last passage id, none where a record is wrong. -/
def checkRecords (h : List Byte) (region : Nat) : Nat → Nat → Option Nat → List Byte → Option (Option Nat)
  | 0, _, last, _ => some last
  | k + 1, node, last, bs =>
    let pid := fld bs 0 8
    let up : Bool := match last with | none => true | some p => decide (p < pid)
    let ok := fld bs 0xE 2 == genNum h && (if region = 0 then fld bs 8 5 == node && up else decide (fld bs 8 5 < genNodes h))
    if ok then checkRecords h region k (node + 1) (if region = 0 then some pid else last) (bs.drop (recBytes h)) else none

/-- The check of one group's data at an address. -/
def State.checkGroup (s : State) (h : List Byte) (region i src : Nat) (last : Option Nat) : Option (Option Nat) :=
  if region = 2 then some last
  else
    let n := groupBytes h region i / recBytes h
    checkRecords h region n (genGroup h * i) last (s.load .lpddr src (groupBytes h region i))

/-- The checks of every group of a WRITE. -/
def State.checkGroups (s : State) (h : List Byte) (region : Nat) : Nat → Nat → Nat → Option Nat → Option (Option Nat)
  | 0, _, _, last => some last
  | n + 1, i, src, last =>
    match s.checkGroup h region i src last with
    | none => none
    | some l => s.checkGroups h region n (i + 1) (src + groupBytes h region i) l

/-- Copy a group's data into a block, with open_serial in every record (R294, R296). -/
def State.layGroup (s : State) (h : List Byte) (region i src serial k : Nat) : State :=
  let n := groupBytes h region i
  let m := Memory.copy s.mem (Space.key .lpddr src) (Space.key (.flash k) 0) n
  let m := if region = 2 then m else
    (List.range (n / recBytes h)).foldl (fun m r =>
      Memory.writeBytes m (Space.key (.flash k) (r * recBytes h + 0x1C)) (leBytes 4 serial)) m
  let s := { s with mem := m }.programmed k (ceilDiv n 16384)
  s.setBlock k { s.block k with state := .verify }

/-- The Wells of the rotation of R296 for ordinary group `g`. -/
def State.groupWells (s : State) (g : Nat) : List Nat :=
  let n := s.wellCount - 2
  (List.range n).map (fun j => 2 + (g + j) % n)

/-- The first of some Wells that is present and has a free block of a partition, with the block taken. -/
def State.takeFrom (s : State) (part serial : Nat) : List Nat → Option (Nat × State)
  | [] => none
  | w :: t =>
    if s.wellUp w then
      match s.takeBlock part w serial with
      | some r => some r
      | none => s.takeFrom part serial t
    else s.takeFrom part serial t

/-- Lay one group (R296): its locs, or none where no block is free. A hub copy on an absent Well is left out. -/
def State.placeGroup (s : State) (h : List Byte) (region i src serial : Nat) : Option (Nat × Nat × State) :=
  match region with
  | 0 =>
    match s.takeFrom 3 serial (s.groupWells i) with
    | none => none
    | some (k, s) => some (blkLoc k, 0, s.layGroup h 0 i src serial k)
  | 1 =>
    match s.takeFrom 3 serial [0], s.wellUp 0 with
    | none, true => none
    | a, _ =>
      let s1 := match a with | none => s | some (k, t) => t.layGroup h 1 i src serial k
      let l0 := match a with | none => 0 | some (k, _) => blkLoc k
      match s1.takeFrom 3 serial [1], s1.wellUp 1 with
      | none, true => none
      | b, _ =>
        let s2 := match b with | none => s1 | some (k, t) => t.layGroup h 1 i src serial k
        some (l0, (match b with | none => 0 | some (k, _) => blkLoc k), s2)
  | _ =>
    let r := s.drawWord
    let n := s.wellCount
    match r.2.takeFrom 4 serial ((List.range n).map (fun j => (r.1.toNat + j) % n)) with
    | none => none
    | some (k, s) => some (blkLoc k, 0, s.layGroup h 2 i src serial k)

/-- Lay groups one after another, writing their extent entries. -/
def State.placeGroups (s : State) (h : List Byte) (region serial : Nat) : Nat → Nat → Nat → Option State
  | 0, _, _ => some s
  | n + 1, i, src =>
    match s.placeGroup h region i src serial with
    | none => none
    | some (a, b, t) =>
      (t.store .lpddr (extEntry h region i) (leBytes 4 a ++ leBytes 4 b)).placeGroups h region serial n (i + 1)
        (src + groupBytes h region i)

/-- The next group a region takes. -/
def GenSlot.nextOf (x : GenSlot) (region : Nat) : Nat :=
  match region with | 0 => x.ordNext | 1 => x.hubNext | _ => x.passNext

/-- The write descriptor is within R312. -/
def writeDescOk (d : List Byte) : Bool :=
  decide (fld d 4 1 ≤ 2) && zeros d 5 3 && decide (1 ≤ fld d 0xC 4) && decide (fld d 0xC 4 ≤ 16) &&
    decide (fld d 0x10 8 % 4096 = 0) && zeros d 0x18 8

/-- WRITE of a checked slot: a code and the state (R311, R312, R321). -/
def State.indexWriteRun (s : State) (g addr : Nat) : Nat × State :=
  let x := s.gen g
  let d := s.load .lpddr addr 32
  let region := fld d 4 1
  let first := fld d 8 4
  let n := fld d 0xC 4
  if x.state ≠ .loading then (3, s)
  else if s.wdl.readOnly then (0xA, s)
  else if addr % 128 ≠ 0 ∨ s.inHost addr 32 = false then (2, s)
  else if !crcOk d then (1, s)
  else if !writeDescOk d then (2, s)
  else if regionGroups x.hdr region < first + n ∨ s.inHost (fld d 0x10 8) (groupsBytes x.hdr region first n) = false then (2, s)
  else if first ≠ x.nextOf region then (6, s)
  else match s.checkGroups x.hdr region n first (fld d 0x10 8) x.lastPid with
    | none => (6, s)
    | some last =>
      match s.placeGroups x.hdr region x.serial n first (fld d 0x10 8) with
      | none => (5, s)
      | some t =>
        let x := match region with
          | 0 => { x with ordNext := first + n, lastPid := last }
          | 1 => { x with hubNext := first + n }
          | _ => { x with passNext := first + n }
        (0, t.setGen g x)

/-- INDEX_WRITE (R311, R312). -/
def indexWrite (s : State) (req : Requester) (g : Nat) : State :=
  s.modCommand req 8 (fun s => let r := s.indexWriteRun g (s.cmdAddr 8); r.2.idxDone r.1 g)

/-- A placed block reads back: valid loc, its die serves, the block neither retired nor holding an unreadable page. -/
def State.locGood (s : State) (loc : Nat) : Bool :=
  let b := s.block (locBlk loc)
  locValid loc && s.dieUp (blkDie (locBlk loc)) && decide (b.state ≠ .retired) && b.bad.isEmpty

/-- Every group of a slot reads back (SEAL, R311). -/
def State.groupsGood (s : State) (h : List Byte) : Bool :=
  let n := genGroups h
  (List.range n.1).all (fun i => s.locGood (s.extLocs h 0 i).1) &&
  (List.range n.2.1).all (fun i => s.locGood (s.extLocs h 1 i).1 && s.locGood (s.extLocs h 1 i).2) &&
  (List.range n.2.2).all (fun i => s.locGood (s.extLocs h 2 i).1)

/-- The extent header without its crc (R297). -/
def extHeader (h : List Byte) (g serial : Nat) : List Byte :=
  let n := genGroups h
  leBytes 1 1 ++ leBytes 1 g ++ leBytes 2 (genNum h) ++ leBytes 4 n.1 ++ leBytes 4 n.2.1 ++ leBytes 4 n.2.2 ++
    leBytes 4 serial ++ leBytes 40 0

/-- SEAL of every block of a slot (R354). -/
def State.sealBlocks (s : State) (serial : Nat) : State :=
  { s with wdl := { s.wdl with blocks := s.wdl.blocks.map (fun e =>
      if (e.2.part = 3 ∨ e.2.part = 4) ∧ e.2.serial = serial ∧ e.2.state = .verify then (e.1, { e.2 with state := .sealed })
      else e) } }

/-- INDEX_SEAL (R311). -/
def indexSeal (s : State) (req : Requester) (g : Nat) : State :=
  s.modCommand req 8 (fun s =>
    let x := s.gen g
    let n := genGroups x.hdr
    if x.state ≠ .loading then s.idxDone 3 g
    else if x.lost ∨ x.ordNext ≠ n.1 ∨ x.hubNext ≠ n.2.1 ∨ x.passNext ≠ n.2.2 ∨ s.groupsGood x.hdr = false then s.idxDone 7 g
    else
      let tbl := extHeader x.hdr g x.serial ++ s.load .lpddr (genExt x.hdr + 64) (extBytes x.hdr - 64)
      let crc := crc32c tbl
      let s := (s.store .lpddr (genExt x.hdr) (withCrc (extHeader x.hdr g x.serial))).store .lpddr (genExt x.hdr) (leBytes 4 crc)
      let s := (s.sealBlocks x.serial).setGen g { x with state := .sealed, extents := true, extCrc := crc }
      (s.setRegN 120 8 0x110 crc).idxDone 0 g)

/-- The PQ header passes R299. -/
def State.pqOk (s : State) (h : List Byte) : Bool :=
  let p := s.load .lpddr (genPq h) 64
  crcOk p && fld p 4 1 == 1 && fld p 5 1 == genM h && fld p 6 2 == genDim h / genM h && fld p 8 8 == genNodes h &&
    fld p 0x20 2 == genNum h && zeros p 0x22 30

/-- An extent table at an address passes the check of LOAD and of the mount (R311, R316, R321). -/
def State.extOk (s : State) (g : Nat) (x : GenSlot) (addr : Nat) : Bool :=
  let t := s.load .lpddr addr (extBytes x.hdr)
  let n := genGroups x.hdr
  crcOk t && fld t 4 1 == 1 && fld t 5 1 == g && fld t 6 2 == genNum x.hdr && fld t 8 4 == n.1 && fld t 0xC 4 == n.2.1 &&
    fld t 0x10 4 == n.2.2 && fld t 0x14 4 == x.serial

/-- INDEX_LOAD (R311). -/
def indexLoad (s : State) (req : Requester) (g : Nat) : State :=
  s.modCommand req 8 (fun s =>
    let x := s.gen g
    let addr := s.cmdAddr 8
    if !(decide (x.state = .sealed) || decide (x.state = .active) || decide (x.state = .retiring)) || x.extents then s.idxDone 3 g
    else if addr % 4096 ≠ 0 ∨ s.inHost addr (extBytes x.hdr) = false then s.idxDone 2 g
    else if !s.extOk g x addr then s.idxDone 8 g
    else if !s.pqOk x.hdr then s.idxDone 9 g
    else (s.setGen g { x with extents := true, hdr := withCrc ((patch x.hdr 0x30 (leBytes 8 addr)).drop 4) }).idxDone 0 g)

/-- INDEX_ACTIVATE (R314): PENDING until its boundary. -/
def indexActivate (s : State) (req : Requester) (g : Nat) : State :=
  s.modCommand req 8 (fun s =>
    let x := s.gen g
    if !(decide (x.state = .sealed) || decide (x.state = .retiring)) || !x.extents then s.idxDone 3 g
    else if !s.indexJob (genJob x.hdr) then s.idxDone 4 g
    else if !s.pqOk x.hdr then s.idxDone 9 g
    else (s.setGen g { x with pend := true }).setResult 120 8 0x10C 2 0 g)

/-- ACTIVATION_APPLY (R314, R52 item 3): the job's ACTIVE slot becomes RETIRING. -/
def activationApply (s : State) (g : Nat) : State :=
  let x := s.gen g
  if !x.pend then s
  else
    let s := (List.range 4).foldl (fun s i =>
      let y := s.gen i
      if y.state = .active ∧ genJob y.hdr = genJob x.hdr then s.setGen i { y with state := .retiring } else s) s
    let s := s.setGen g { x with state := .active, pend := false }
    (s.idxDone 0 g).event 120 8 [sqBit 0x118 2] []

/-- Free a generation slot and release its blocks (R315, R354). -/
def State.freeGen (s : State) (g : Nat) : State :=
  let n := (s.gen g).serial
  let own (b : Block) : Bool := (decide (b.part = 3) || decide (b.part = 4)) && decide (b.serial = n) &&
    (decide (b.state = .opened) || decide (b.state = .verify) || decide (b.state = .sealed))
  let b := s.wdl.blocks.map (fun e => if own e.2 then (e.1, { e.2 with state := BlkState.released }) else e)
  ({ s with wdl := { s.wdl with blocks := b } }).setGen g {}

/-- INDEX_DISCARD (R315). -/
def indexDiscard (s : State) (req : Requester) (g : Nat) : State :=
  s.modCommand req 8 (fun s =>
    let x := s.gen g
    match x.state with
    | .loading | .sealed => (s.freeGen g).idxDone 0 g
    | .retiring =>
      if s.genPins g = 0 then (s.freeGen g).idxDone 0 g
      else (s.setGen g { x with state := .freeing, pend := false }).setResult 120 8 0x10C 2 0 g
    | _ => s.idxDone 3 g)

/-- INDEX_SLOT_FREED (R315): a FREEING slot with no pin becomes FREE; a DISCARD that waits for it reads DONE. -/
def indexSlotFreed (s : State) (g : Nat) : State :=
  if (s.gen g).state = .freeing ∧ s.genPins g = 0 then
    let s := s.freeGen g
    if s.cmdState 120 8 0x10C = 2 ∧ (s.reg 120 8 0x10C).toNat % 4 = g then s.idxDone 0 g else s
  else s

/-! ### Scores (R300, R301) -/

/-- FP32 values of a vector of an 8-bit format (R104: scale 1). -/
def vecVals (fmt : Nat) (bs : List Byte) : List Nat := bs.map (fun b => rn (elemVal fmt b.toNat))

/-- The FP32 readout of the anchored exact accumulation of two vectors with the FIXED anchor (R301, R125). -/
def dotExact (fmt : Nat) (a b : List Byte) : Nat :=
  ((a.zip b).foldl (fun acc p => acc.addProduct (elemVal fmt p.1.toNat) (elemVal fmt p.2.toNat) 0 false) (fixedAcc fmt fmt)).readout

/-- The query elements that the lookup table is built from (R300). -/
def queryVals (h : List Byte) (vec : List Byte) : List Nat :=
  let q := vecVals (fld h 6 1) vec
  if fld h 5 1 = 2 then
    let r := fRsqrt (dotExact (fld h 6 1) vec vec)
    q.map (fun x => fMul x r)
  else q

/-- The centroid entry (s, c) of a codebook (R299). -/
def State.centroid (s : State) (h : List Byte) (sub c : Nat) : List Nat :=
  let d := genDim h / genM h
  let off := leNat (s.load .lpddr (genPq h + 0x10) 8)
  let bs := s.load .lpddr (genPq h + off + 4 * ((256 * sub + c) * d)) (4 * d)
  (List.range d).map (fun x => fld bs (4 * x) 4)

/-- One entry t[s][c] of the lookup table (R300). -/
def State.tableEntry (s : State) (h : List Byte) (qf : List Nat) (sub c : Nat) : Nat :=
  let d := genDim h / genM h
  let q := (qf.drop (sub * d)).take d
  let cb := s.centroid h sub c
  if fld h 5 1 = 3 then fNeg (rowSum (List.zipWith (fun a b => let x := fSub a b; fMul x x) q cb))
  else rowSum (List.zipWith fMul q cb)

/-- pq(n) (R300). -/
def State.pq (s : State) (h vec : List Byte) (n : Nat) : Nat :=
  let m := genM h
  let off := leNat (s.load .lpddr (genPq h + 0x18) 8)
  let code := s.load .lpddr (genPq h + off + m * n) m
  let qf := queryVals h vec
  rowSum ((List.range m).map (fun i => s.tableEntry h qf i (fld code i 1)))

/-- The exact score of a record (R301). -/
def exactScore (h vec rec : List Byte) : Nat :=
  let f := fld h 6 1
  let v := (rec.drop 0x240).take (genDim h)
  let vs := fld rec 0x18 4
  let qv := dotExact f vec v
  match fld h 5 1 with
  | 2 => fMul (fMul qv (fRsqrt (dotExact f vec vec))) (fRsqrt (dotExact f v v))
  | 3 => fNeg (fAdd (fSub (dotExact f vec vec) (fMul 0x40000000 (fMul qv vs))) (fMul (fMul vs vs) (dotExact f v v)))
  | _ => fMul qv vs

/-- A score's place in rank: a number that rises with the score, NaN as −∞, both zeros equal (R302). -/
def scoreRank (x : Nat) : Nat :=
  if fIsNaN x then 0
  else if x % 0x80000000 = 0 then 0x80000000
  else if x < 0x80000000 then x + 0x80000000 else 0xFFFFFFFF - x + 1

/-- Rank before: larger score first, then the lower node number (R302). -/
def rankBefore (a an b bn : Nat) : Bool :=
  decide (scoreRank b < scoreRank a) || (decide (scoreRank a = scoreRank b) && decide (an < bn))

/-! ### The walk (R303) -/

/-- Insert an entry in rank order. -/
def insEnt (e : SEnt) : List SEnt → List SEnt
  | [] => [e]
  | x :: t => if rankBefore e.score e.node x.score x.node then e :: x :: t else x :: insEnt e t

/-- Insert a result in rank order. -/
def insRes (e : SRes) : List SRes → List SRes
  | [] => [e]
  | x :: t => if rankBefore e.score e.node x.score x.node then e :: x :: t else x :: insRes e t

/-- The node of a neighbour entry (R295). -/
def nbNode (e : Nat) : Nat := e % 1099511627776
/-- The hub copy of a neighbour entry. -/
def nbHub (e : Nat) : Option Nat := if bitAt e 63 then some (bitsOf e 62 40) else none

/-- A search slot. -/
def State.search (s : State) (i : Nat) : Option Search := Tbl.look s.idx.searches i

/-- Replace a search. -/
def State.setSearch (s : State) (i : Nat) (x : Search) : State :=
  { s with idx := { s.idx with searches := Tbl.put s.idx.searches i x } }

/-- The Wellhead of a search slot: its parts are adopted with the Wellhead's (R18, R498). -/
def State.searchWh (s : State) (i : Nat) : Nat := s.whOf (i / 8192 % 4)

/-- Search slots per Wellhead (R18, R305). -/
def State.searchSlots (s : State) : Nat := if s.isS then 4096 else 8192

/-- The paddock of the index job of a generation slot. -/
def State.genPad (s : State) (g : Nat) : Option Nat := (s.job (genJob (s.gen g).hdr)).bind (fun p => p.loaded)

/-- Searches that take Sounder slots of a paddock (R54, R305). -/
def State.sounderUse (s : State) (pad : Nat) : Nat :=
  (s.idx.searches.filter (fun e => decide (s.genPad e.2.gen = some pad))).length

/-- Table memory of a slice holds one more search of a generation (R305). -/
def State.tableFree (s : State) (w m : Nat) : Bool :=
  let walking := s.idx.searches.filter (fun e => decide (s.searchWh e.1 = w) && decide (e.2.state = .walk))
  decide (walking.length < 1024) &&
    decide (walking.foldl (fun n e => n + genM (s.gen e.2.gen).hdr) m ≤ 65536)

/-- Give a waiting call a search slot (R305): false where the slice or the paddock's Sounder quota has none. -/
def State.callGo (s : State) (n : Nat) : State × Bool :=
  let x := s.slot n
  let w := slotWh n
  match x.genSlot with
  | none => (s, false)
  | some g =>
    match s.genPad g with
    | none => (s, false)
    | some pad =>
      let r := s.rcpOf x
      match (List.range s.searchSlots).find? (fun i => (s.search (8192 * w + i)).isNone) with
      | none => (s, false)
      | some i =>
        if (s.paddock pad).sounder ≤ s.sounderUse pad then (s, false)
        else
          let k := 8192 * w + i
          let s := s.setSearch k { slot := n, order := s.idx.nextCall, gen := g, l := fld r 0x10 2, beam := fld r 0x12 1
                                   out := fld r 0x14 2, vec := x.queryVec }
          let s := { s with idx := { s.idx with nextCall := s.idx.nextCall + 1 } }
          let s := s.setSlot n { x with search := some k, frontStage := 3 }
          let queued := s.idx.searches.any (fun e => decide (e.1 ≠ k) && decide (s.searchWh e.1 = s.searchWh k) &&
            decide (e.2.state = .queued))
          (if queued || !s.tableFree (s.searchWh k) (genM (s.gen g).hdr) then s.event (s.searchWh k) 9 [sqBit 0x118 2] [] else s,
            true)

/-- Serve calls that wait for a search slot or a Sounder slot, in order of issue (R305); a call whose request has left FRONT
is dropped. -/
def State.callsGo (s : State) : State :=
  s.idx.waiting.foldl (fun s n =>
    let drop (s : State) : State := { s with idx := { s.idx with waiting := s.idx.waiting.erase n } }
    if (s.slot n).state ≠ .front ∨ (s.slot n).frontStage ≠ 2 then drop s
    else
      let r := s.callGo n
      if r.2 then drop r.1 else s) s

/-- Free a search slot (R306). -/
def State.freeSearch (s : State) (i : Nat) : State :=
  ({ s with idx := { s.idx with searches := Tbl.del s.idx.searches i } }).callsGo

/-- Count a value read through SND_COUNT. -/
def State.sndCount (s : State) (i kind n : Nat) : State := s.bumpWide (s.searchWh i) 9 kind 0 n

/-- Where a record lies and how it is read (R296, R309): block, offset in it, and the flash page (block × 512 + page)
where the read is a hub read; none where it is absent from the start (R310). -/
def State.locate (s : State) (x : GenSlot) (node : Nat) (hub : Option Nat) : Option (Nat × Nat × Option Nat) :=
  let h := x.hdr
  let rb := recBytes h
  let per := 16384 / rb
  let plain : Option (Nat × Nat × Option Nat) :=
    let g := node / genGroup h
    let loc := (s.extLocs h 0 g).1
    if x.stale.contains g || !locValid loc || !s.dieUp (blkDie (locBlk loc)) then none
    else some (locBlk loc, node % genGroup h * rb, none)
  match hub with
  | none => plain
  | some c =>
    let g := c / genGroup h
    let locs := s.extLocs h 1 g
    let first := c / per % 2
    let at_ (w : Nat) : Option (Nat × Nat × Option Nat) :=
      let loc := if w = 0 then locs.1 else locs.2
      if x.stale.contains ((1 + 2 * w) * 4294967296 + g) || !locValid loc || !s.dieUp (blkDie (locBlk loc)) then none
      else some (locBlk loc, c % genGroup h * rb, some (locBlk loc * 512 + c % genGroup h * rb / 16384))
    if s.wellUp first then at_ first
    else if s.wellUp (1 - first) then at_ (1 - first)
    else plain

/-- Issue the read of pick `j` (R307, R309, R310): absent at once, joining or opening a hub window, or sent to its Well. -/
def State.issueRead (s : State) (i : Nat) (x : Search) (j : Nat) (p : Pick) : State × Pick :=
  match s.locate (s.gen x.gen) p.node p.hub with
  | none => (s, { p with answered := true, absent := true })
  | some (k, _, hp) =>
    let w := blkWell k
    let s : State := match hp with
      | none => s
      | some page =>
        let n := (s.idx.nreads.filter (fun (r : NRead) => decide (r.well = w) && decide (r.hubPage = some page))).length
        s.sndCount i (if n % 256 = 0 then 4 else 5) 1
    ({ s with idx := { s.idx with nreads := s.idx.nreads ++
        [{ well := w, search := i, pick := j, hubPage := hp, plane := blkPlane k }] } }, p)

/-- Pick the unread entries of the next round and issue their reads, or end the walk (R303, R304). -/
def State.pickRound (s : State) (i : Nat) (x : Search) : State :=
  let sel := (x.q.filter (fun e => !e.read)).take (min x.beam (4096 - x.reads))
  if sel.isEmpty then
    let capped := x.capped || (x.q.any (fun e => !e.read))
    let s := s.setSearch i { x with state := .done, picks := [], capped := capped }
    let w := s.searchWh i
    let s := (s.sndCount i 1 1).bump w 9 0x114 x.skipped
    let s := if 0 < x.skipped then (s.bump w 9 0x10C 1).event w 9 [sqBit 0x118 1] [] else s
    if capped then (s.bump w 9 0x110 1).event w 9 [sqBit 0x118 3] [] else s
  else
    let r := sel.zipIdx.foldl (fun (a : State × List Pick) e =>
      let b := a.1.issueRead i x e.2 { node := e.1.node, hub := e.1.hub }
      (b.1, a.2 ++ [b.2])) (s, [])
    ((r.1.sndCount i 2 sel.length).setSearch i { x with picks := r.2 }).settlePlanes

/-- SEARCH_BUILD (R300, R303, R306): the earliest QUEUED search of its slice takes table memory and starts its walk. -/
def searchBuild (s : State) (i : Nat) : State :=
  match s.search i with
  | none => s
  | some x =>
    let w := s.searchWh i
    let h := (s.gen x.gen).hdr
    let earlier := s.idx.searches.any (fun e => decide (s.searchWh e.1 = w) && decide (e.2.state = .queued) && decide (e.2.order < x.order))
    if x.state ≠ .queued ∨ earlier = true ∨ s.tableFree w (genM h) = false then s
    else
      let es := (List.range (fld h 0xF 1)).map (fun j => fld h (0x40 + 8 * j) 8)
      let x := es.foldl (fun (x : Search) e =>
        { x with seen := if x.seen.contains (nbNode e) then x.seen else nbNode e :: x.seen
                 q := insEnt { node := nbNode e, hub := nbHub e, score := s.pq h x.vec (nbNode e), read := false } x.q }) x
      (s.sndCount i 3 es.length).pickRound i { x with state := .walk }

/-- Take the picked entry of a node out of a queue: the first in rank order that is unread. -/
def takeEnt (p : Pick) (q : List SEnt) : List SEnt :=
  q.eraseP (fun e => decide (e.node = p.node) && decide (e.hub = p.hub) && !e.read)

/-- The entries of the queue after the picks' results (R303): absent ones go, read ones take their exact score. -/
def applyPick (x : Search) (p : Pick) : Search :=
  let q := takeEnt p x.q
  if p.absent then { x with q := q, reads := x.reads + 1, skipped := x.skipped + 1 }
  else { x with q := insEnt { node := p.node, hub := p.hub, score := p.score, read := true } q
                res := (insRes { node := p.node, pid := p.pid, score := p.score, off := p.off, units := p.units } x.res).take x.out
                reads := x.reads + 1 }

/-- Insert a neighbour that has not been seen (R303). -/
def seeNeighbour (score : Nat → Nat) (x : Search × Nat) (e : Nat) : Search × Nat :=
  let n := nbNode e
  if x.1.seen.contains n then x
  else if 32768 ≤ x.1.seen.length then ({ x.1 with capped := true }, x.2)
  else ({ x.1 with seen := n :: x.1.seen
                   q := insEnt { node := n, hub := nbHub e, score := score n, read := false } x.1.q }, x.2 + 1)

/-- SEARCH_ROUND (R303): with every read of the round returned, the walk goes on or ends. -/
def searchRound (s : State) (i : Nat) : State :=
  match s.search i with
  | none => s
  | some x =>
    if x.state ≠ .walk ∨ x.picks.all (fun p => p.answered) = false then s
    else
      let h := (s.gen x.gen).hdr
      let ps := x.picks
      let x := ps.foldl applyPick x
      let r := (ps.flatMap (fun p => if p.absent then [] else p.nbr)).foldl (seeNeighbour (s.pq h x.vec)) (x, 0)
      let x := { r.1 with q := r.1.q.take x.l }
      (s.sndCount i 3 r.2).pickRound i x

/-- Free an aborted search whose reads have all returned (R306). -/
def State.abortDone (s : State) (i : Nat) : State :=
  match s.search i with
  | none => s
  | some x =>
    if x.state = .abort ∧ s.idx.nreads.all (fun r => decide (r.search ≠ i)) then s.freeSearch i else s

/-- Where the record of a read lies, and the page of its block (R296, R307). -/
def State.readAt (s : State) (rd : NRead) : Option (Nat × Nat) :=
  match s.search rd.search with
  | none => none
  | some x => match x.picks[rd.pick]? with
    | none => none
    | some p => (s.locate (s.gen x.gen) p.node (if rd.hubPage.isSome then p.hub else none)).map (fun l => (l.1, l.2.1 / 16384))

/-- The page of a walker read is read from flash (R348); true where it is uncorrectable. -/
def State.walkerPage (s : State) (rd : NRead) (uncorrectable : Bool) : State × Bool :=
  match s.readAt rd with
  | none => (s, uncorrectable)
  | some l =>
    let u := uncorrectable || (s.block l.1).bad.contains l.2
    (s.readPage l.1 u, u)

/-- The checks of R310 and the score of R301 on a record whose page was read. -/
def State.readPick (s : State) (i : Nat) (x : Search) (p : Pick) (rd : NRead) (uncorrectable : Bool) : State × Pick :=
  let g := s.gen x.gen
  match s.locate g p.node (if rd.hubPage.isSome then p.hub else none) with
  | none => (s, { p with answered := true, absent := true })
  | some (k, off, _) =>
    let rec_ := s.load (.flash k) off (recBytes g.hdr)
    let s := s.bumpWide (s.wellWh rd.well) 9 6 rd.well 1
    if uncorrectable then (s, { p with answered := true, absent := true })
    else if fld rec_ 8 5 ≠ p.node ∨ fld rec_ 0xE 2 ≠ genNum g.hdr ∨ fld rec_ 0x1C 4 ≠ g.serial then
      (s.event (s.searchWh i) 9 [sqBit 0x118 0] [1], { p with answered := true, absent := true })
    else
      (s, { p with answered := true, pid := fld rec_ 0 8, score := exactScore g.hdr x.vec rec_, off := fld rec_ 0x10 6, units := fld rec_ 0x16 2
                   nbr := (List.range (min (fld rec_ 0xD 1) 64)).map (fun j => fld rec_ (0x40 + 8 * j) 8) })

/-- Answer one read. -/
def State.answerRead (s : State) (rd : NRead) (uncorrectable : Bool) : State :=
  let s := { s with idx := { s.idx with nreads := s.idx.nreads.erase rd } }
  match s.search rd.search with
  | none => s
  | some x =>
    if x.state = .abort then s.abortDone rd.search
    else match x.picks[rd.pick]? with
      | none => s
      | some p =>
        let r := s.readPick rd.search x p rd uncorrectable
        r.1.setSearch rd.search { x with picks := x.picks.set rd.pick r.2 }

/-- A walker read is the next its plane serves (R307, R349): the first of the reads that hold one of its Well's 1,024 contexts and wait
at that plane, with no erase in progress there that can no longer be suspended. -/
def State.nextAtPlane (s : State) (rd : NRead) : Bool :=
  decide ((s.planeReads rd.plane).head? = some rd) && !(s.plane rd.plane).held

/-- NODE_READ (R307, R308, R310, R349): the next walker read of a plane is served and answered. -/
def nodeRead (s : State) (i j : Nat) (uncorrectable : Bool) : State :=
  match s.idx.nreads.find? (fun r => decide (r.search = i) && decide (r.pick = j)) with
  | none => s
  | some rd =>
    if s.nextAtPlane rd = false then s
    else
      let r := s.walkerPage rd uncorrectable
      (r.1.answerRead rd r.2).settlePlanes

/-- HUB_WINDOW_CLOSE (R309, R349): one read of the hub page, once its plane serves it, answers the reads of its window, at most 256,
in order of arrival. -/
def hubWindowClose (s : State) (well page : Nat) (uncorrectable : Bool) : State :=
  match (s.idx.nreads.filter (fun r => decide (r.well = well) && decide (r.hubPage = some page))).take 256 with
  | [] => s
  | rd :: t =>
    if s.planeServes rd.plane = false then s
    else
      let r := s.walkerPage rd uncorrectable
      ((rd :: t).foldl (fun s e => s.answerRead e r.2) r.1).settlePlanes

/-- SEARCH_ABORT (R306): the request has left FRONT, or its front stage has restarted. -/
def searchAbort (s : State) (i : Nat) : State :=
  match s.search i with
  | none => s
  | some x =>
    if (s.slot x.slot).state = .front ∧ (s.slot x.slot).search = some i then s
    else if x.state = .walk then (s.setSearch i { x with state := .abort }).abortDone i
    else if x.state = .abort then s.abortDone i
    else s.freeSearch i

/-- A Well is lost (R310, R317, R318): its outstanding reads return absent, and a slot being loaded has lost a group. -/
def State.searchWellLost (s : State) (w : Nat) : State :=
  let s := (s.idx.nreads.filter (fun r => decide (r.well = w))).foldl (fun (s : State) (rd : NRead) =>
    let s := { s with idx := { s.idx with nreads := s.idx.nreads.erase rd } }
    match s.search rd.search with
    | none => s
    | some x =>
      if x.state = .abort then s.abortDone rd.search
      else match x.picks[rd.pick]? with
        | none => s
        | some p => s.setSearch rd.search { x with picks := x.picks.set rd.pick { p with answered := true, absent := true } }) s
  (List.range 4).foldl (fun s g =>
    let x := s.gen g
    let own := s.wdl.blocks.any (fun e => decide (blkWell e.1 = w) && (decide (e.2.part = 3) || decide (e.2.part = 4)) &&
      decide (e.2.serial = x.serial) && decide (e.2.state ≠ .erased))
    if x.state = .loading ∧ own = true then s.setGen g { x with lost := true } else s) s

/-! ### Meanings -/

/-- SEARCH_BUILD. -/
def execSearchBuild (i : Nat) (s : State) : Host.Outcome State Fault Refusal := .next (searchBuild s i)
/-- SEARCH_ROUND. -/
def execSearchRound (i : Nat) (s : State) : Host.Outcome State Fault Refusal := .next (searchRound s i)
/-- NODE_READ. -/
def execNodeRead (i j : Nat) (uncorrectable : Bool) (s : State) : Host.Outcome State Fault Refusal :=
  .next (nodeRead s i j uncorrectable)
/-- HUB_WINDOW_CLOSE. -/
def execHubWindowClose (well page : Nat) (uncorrectable : Bool) (s : State) : Host.Outcome State Fault Refusal :=
  .next (hubWindowClose s well page uncorrectable)
/-- SEARCH_ABORT. -/
def execSearchAbort (i : Nat) (s : State) : Host.Outcome State Fault Refusal := .next (searchAbort s i)
/-- INDEX_OPEN. -/
def execIndexOpen (req : Requester) (g : Nat) (s : State) : Host.Outcome State Fault Refusal := .next (indexOpen s req (g % 4))
/-- INDEX_WRITE. -/
def execIndexWrite (req : Requester) (g : Nat) (s : State) : Host.Outcome State Fault Refusal := .next (indexWrite s req (g % 4))
/-- INDEX_SEAL. -/
def execIndexSeal (req : Requester) (g : Nat) (s : State) : Host.Outcome State Fault Refusal := .next (indexSeal s req (g % 4))
/-- INDEX_ACTIVATE. -/
def execIndexActivate (req : Requester) (g : Nat) (s : State) : Host.Outcome State Fault Refusal :=
  .next (indexActivate s req (g % 4))
/-- ACTIVATION_APPLY. -/
def execActivationApply (g : Nat) (s : State) : Host.Outcome State Fault Refusal := .next (activationApply s (g % 4))
/-- INDEX_LOAD. -/
def execIndexLoad (req : Requester) (g : Nat) (s : State) : Host.Outcome State Fault Refusal := .next (indexLoad s req (g % 4))
/-- INDEX_DISCARD. -/
def execIndexDiscard (req : Requester) (g : Nat) (s : State) : Host.Outcome State Fault Refusal :=
  .next (indexDiscard s req (g % 4))
/-- INDEX_SLOT_FREED. -/
def execIndexSlotFreed (g : Nat) (s : State) : Host.Outcome State Fault Refusal := .next (indexSlotFreed s (g % 4))

end Sys2Proof.Machine
end

