-- ==== Sys2Proof/Machine/Front.lean ====
section
/-! DEFINITION. The retrieval front end: recipes, the question's encoding, candidates, re-ranking, packing and the citation
map (R270 to R289). -/

namespace Sys2Proof.Machine

/-! ### Recipe images (R271, R272) -/

/-- main_len. -/
def rcpMain (g : List Byte) : Nat := fld g 0x30 2
/-- pass_len. -/
def rcpPass (g : List Byte) : Nat := fld g 0x32 2
/-- Bytes of a recipe image. -/
def rcpBytes (g : List Byte) : Nat := 128 + 4 * (rcpMain g + rcpPass g + 64)
/-- The main segment. -/
def rcpMainSeg (g : List Byte) : List Nat := (List.range (rcpMain g)).map (fun i => fld g (128 + 4 * i) 4)
/-- The passage segment. -/
def rcpPassSeg (g : List Byte) : List Nat := (List.range (rcpPass g)).map (fun i => fld g (128 + 4 * (rcpMain g + i)) 4)
/-- Ordinal token i. -/
def rcpOrdinal (g : List Byte) (i : Nat) : Nat := fld g (128 + 4 * (rcpMain g + rcpPass g + i)) 4
/-- index_job. -/
def rcpIndex (g : List Byte) : Nat := fld g 8 2
/-- encoder_job. -/
def rcpEncoder (g : List Byte) : Nat := fld g 0xA 2
/-- image_job. -/
def rcpImageJob (g : List Byte) : Nat := fld g 0xC 2
/-- reranker_job. -/
def rcpReranker (g : List Byte) : Nat := fld g 0xE 2
/-- candidates_out. -/
def rcpOut (g : List Byte) : Nat := fld g 0x14 2
/-- rerank_n. -/
def rcpRerankN (g : List Byte) : Nat := fld g 0x16 2
/-- rerank_tokens. -/
def rcpRerankTokens (g : List Byte) : Nat := fld g 0x18 2
/-- trunc: 0 SKIP, 1 CUT, 2 STOP. -/
def rcpTrunc (g : List Byte) : Nat := fld g 7 1 / 16
/-- order: 0 RANK, 1 RANK_REVERSED, 2 SOURCE. -/
def rcpOrder (g : List Byte) : Nat := fld g 7 1 % 16

/-- The markers of R272. -/
def mkQuestion : Nat := 0xFFFFFF01
/-- PASSAGES. -/
def mkPassages : Nat := 0xFFFFFF02
/-- ORDINAL. -/
def mkOrdinal : Nat := 0xFFFFFF03
/-- PASSAGE_TEXT. -/
def mkText : Nat := 0xFFFFFF04

/-- The header is within R271. -/
def rcpHdrOk (g : List Byte) : Bool :=
  let f := fld g 5 1
  fld g 4 1 == 1 && decide (f < 32) && decide (f % 4 = 0) && decide (1 ≤ fld g 6 1) && decide (rcpTrunc g ≤ 2) &&
  decide (rcpOrder g ≤ 2) && decide (1 ≤ rcpIndex g) && decide (rcpIndex g ≤ 1023) && decide (1 ≤ rcpEncoder g) &&
  decide (rcpEncoder g ≤ 1023) && (if bitAt f 2 then decide (1 ≤ rcpImageJob g) && decide (rcpImageJob g ≤ 1023)
    else rcpImageJob g == 0) && decide (rcpReranker g ≤ 1023) && decide (1 ≤ fld g 0x10 2) && decide (fld g 0x10 2 ≤ 256) &&
  decide (1 ≤ fld g 0x12 1) && decide (fld g 0x12 1 ≤ 16) && decide (fld g 0x13 1 ≤ 64) && decide (1 ≤ rcpOut g) &&
  decide (rcpOut g ≤ fld g 0x10 2) && (if rcpReranker g = 0 then rcpRerankN g == 0
    else decide (1 ≤ rcpRerankN g) && decide (rcpRerankN g ≤ rcpOut g)) &&
  decide (32 ≤ rcpRerankTokens g) && decide (rcpRerankTokens g ≤ 1024) && decide (1 ≤ fld g 0x1A 2) &&
  decide (fld g 0x1A 2 ≤ 1024) && decide (fld g 0x1C 1 ≤ 64) && decide (fld g 0x1D 1 ≤ 63) && decide (fld g 0x1E 1 ≤ 63) &&
  decide (1 ≤ fld g 0x1F 1) && f32Finite (fld g 0x24 4) && f32Finite (fld g 0x28 4) && decide (2 ≤ rcpMain g) &&
  decide (rcpMain g ≤ 512) && decide (1 ≤ rcpPass g) && decide (rcpPass g ≤ 256) && decide (fld g 0x34 2 ≤ 16) && zeros g 0x36 10

/-- Occurrences of an entry in a segment. -/
def occurs (m : Nat) (l : List Nat) : Nat := (l.filter (fun x => x = m)).length

/-- The template rules of R272. -/
def rcpTemplateOk (g : List Byte) (vocab : Nat) : Bool :=
  let m := rcpMainSeg g
  let p := rcpPassSeg g
  occurs mkQuestion m == 1 && occurs mkPassages m == 1 && decide (occurs mkOrdinal p ≤ 1) && occurs mkText p == 1 &&
    m.all (fun x => decide (x < vocab) || x == mkQuestion || x == mkPassages) &&
    p.all (fun x => decide (x < vocab) || x == mkOrdinal || x == mkText) &&
    (List.range 64).all (fun i => decide (rcpOrdinal g i < vocab)) && decide (fld g 0x20 4 < vocab)

/-- The vocabulary of a tokenizer table; 0 where it is not registered. -/
def State.tokVocabOf (s : State) (id : Nat) : Nat :=
  match Tbl.look s.cat.tok id with | none => 0 | some t => tokVocab t.bytes

/-- The checks of REGISTER: a code and the image (R270, R289). -/
def State.rcpRegister (s : State) (id addr : Nat) : Nat × List Byte :=
  if id = 0 then (2, [])
  else if (Tbl.look s.cat.rcp id).isSome then (4, [])
  else if addr % 128 ≠ 0 ∨ s.inHost addr 128 = false then (2, [])
  else
    let h := s.load .lpddr addr 128
    let n := rcpBytes h
    if s.inHost addr n = false then (2, [])
    else
      let g := s.load .lpddr addr n
      if !crcOk g then (1, [])
      else if !rcpHdrOk g then (2, [])
      else if !rcpTemplateOk g (s.tokVocabOf (fld g 6 1)) then (3, [])
      else if !Config.rcpSpace (s.cat.rcp.foldl (fun k e => k + e.2.bytes.length) n) then (5, [])
      else (0, g)

/-- RECIPE_REGISTER (R270). -/
def recipeRegister (s : State) (req : Requester) (id : Nat) : State :=
  s.modCommand req 7 (fun s =>
    let r := s.rcpRegister id (s.cmdAddr 7)
    let s := if r.1 = 0 then { s with cat := { s.cat with rcp := Tbl.put s.cat.rcp id { bytes := r.2 } } } else s
    s.cmdDone 7 r.1 id)

/-- RECIPE_UNREGISTER (R270). -/
def recipeUnregister (s : State) (req : Requester) (id : Nat) : State :=
  s.modCommand req 7 (fun s =>
    match s.recipe id with
    | none => s.cmdDone 7 (if id = 0 then 2 else 6) id
    | some g =>
      if s.rcpUsed id then
        let s := { s with cat := { s.cat with rcp := Tbl.put s.cat.rcp id { g with closed := true } } }
        s.setResult 120 7 0x10C 2 0 id
      else ({ s with cat := { s.cat with rcp := Tbl.del s.cat.rcp id } }).cmdDone 7 0 id)

/-! ### The stages of FRONT: 0 question, 2 vector written, 3 searching, 4 candidates scored, 5 final order formed -/

/-- The job that encodes a request's question (R277). -/
def encJob (x : Slot) (r : List Byte) : Nat := if descKind x.desc = 3 then rcpImageJob r else rcpEncoder r

/-- A request in FRONT waits for a batch of a job: its encoder, or its re-ranker (R90, R277, R281). -/
def State.frontWaits (s : State) (x : Slot) (job : Nat) : Bool :=
  let r := s.rcpOf x
  decide (x.state = .front) && decide (descService x.desc ≤ 2) &&
    ((decide (x.frontStage = 0) && x.tokDone && encJob x r == job) ||
     (decide (x.frontStage = 4) && decide (rcpReranker r ≠ 0) && rcpReranker r == job))

/-- The pixel tensor passes R275 against what the image encoder's plan declares. -/
def State.imageOk (s : State) (x : Slot) (r : List Byte) : Bool :=
  let i := x.input
  match s.job (rcpImageJob r) with
  | none => false
  | some p =>
    let d := Config.planImage p.image
    decide (16 ≤ i.length) && fld i 0 2 == d.1 && fld i 2 2 == d.2.1 && fld i 4 1 == d.2.2 &&
      (fld i 4 1 == 1 || fld i 4 1 == 3) && zeros i 5 11 && i.length == 16 + fld i 0 2 * fld i 2 2 * fld i 4 1

/-- The dimension of the generation a request pins, in bytes of a vector. -/
def State.pinDim (s : State) (x : Slot) : Nat := match x.genSlot with | none => 0 | some g => genDim (s.gen g).hdr

/-- The request is in the present batch of a loaded job. -/
def State.inBatch (s : State) (job n : Nat) : Bool := match s.job job with | none => false | some p => p.batch.contains n

/-- FRONT_ENCODE (R275, R277): the plan has written a request's query vector. A tensor that fails R275 goes on with no
passage. -/
def frontEncode (s : State) (n : Nat) (vec : List Byte) : State :=
  let x := s.slot n
  let r := s.rcpOf x
  if x.state ≠ .front ∨ x.frontStage ≠ 0 ∨ x.tokDone = false ∨ 2 < descService x.desc then s
  else if descKind x.desc = 3 ∧ s.imageOk x r = false then
    (s.setSlot n { x with frontStage := 5, cands := [], returned := 0 }).event 120 7 [sqBit 0x118 2] [2]
  else if s.inBatch (encJob x r) n = false ∨ vec.length ≠ s.pinDim x then s
  else s.setSlot n { x with queryVec := vec, frontStage := 2 }

/-- SEARCH_CALL (R278, R305): one call to the Sounder slice, behind those that wait; one that finds no slot waits. A service 3 request calls with
its input. -/
def searchCall (s : State) (n : Nat) : State :=
  let x := s.slot n
  let x := if descService x.desc = 3 ∧ x.frontStage = 0 then { x with queryVec := x.input, frontStage := 2 } else x
  let ext := match x.genSlot with | none => false | some g => (s.gen g).extents
  if x.state ≠ .front ∨ x.frontStage ≠ 2 ∨ ext = false ∨ s.idx.waiting.contains n = true then s
  else
    let s := s.setSlot n x
    { s with idx := { s.idx with waiting := s.idx.waiting ++ [n] } }.callsGo

/-! ### Candidates (R279, R280) -/

/-- The pieces of a range of the passage store: passage group, offset, length (R298). -/
def passPieces : Nat → Nat → Nat → List (Nat × Nat × Nat)
  | 0, _, _ => []
  | fuel + 1, off, n =>
    if n = 0 then []
    else
      let o := off % 25165824
      let k := min n (25165824 - o)
      (off / 25165824, o, k) :: passPieces fuel (off + k) (n - k)

/-- Bytes of the passage store; none where a block is absent or a page of it is known to be unreadable (R279, R298). -/
def State.passRead (s : State) (h : List Byte) (off n : Nat) : Option (List Byte) :=
  (passPieces 3 off n).foldl (fun a p =>
    let loc := (s.extLocs h 2 p.1).1
    let b := s.block (locBlk loc)
    match a with
    | none => none
    | some bs =>
      if locValid loc && s.dieUp (blkDie (locBlk loc)) && b.bad.all (fun q => decide (q * 16384 + 16384 ≤ p.2.1) ||
          decide (p.2.1 + p.2.2 ≤ q * 16384)) then some (bs ++ s.load (.flash (locBlk loc)) p.2.1 p.2.2)
      else none) (some [])

/-- A passage record's tokens. -/
def passTokens (b : List Byte) : List Nat := (List.range (min (fld b 8 4) 8192)).map (fun i => fld b (0x30 + 4 * i) 4)

/-- The candidate a search result makes, none where its record is dropped (R279). -/
def State.candOf (s : State) (h : List Byte) (e : SRes) : Option (Nat × Cand) :=
  match s.passRead h e.off (16 * e.units) with
  | none => none
  | some b =>
    if fld b 0 8 ≠ e.pid then none
    else some (fld b 0x18 8, { pid := e.pid, score := e.score, doc := fld b 0x10 8, spanStart := fld b 0x20 4
                               spanLen := fld b 0x24 4, tokens := passTokens b })

/-- Keep the best-ranked of candidates with equal content (R279). -/
def dedupCands : List (Nat × Cand) → List (Nat × Cand) → List Cand
  | _, [] => []
  | seen, c :: t =>
    if seen.any (fun e => decide (e.1 = c.1) && decide (e.2.tokens = c.2.tokens)) then dedupCands seen t
    else c.2 :: dedupCands (c :: seen) t

/-- Element 0 of a row that a Wellhead Sheaf gathers as the index job; a gather that the table refuses reads NaN (R257,
R258, R280). -/
def State.frontRow (s : State) (job t i : Nat) : Nat :=
  match s.table t with
  | none => f32NaN
  | some x =>
    if stJob x.desc = job ∨ stShared x.desc = true then ((rowVals (stFmt x.desc) (s.rowRead [] x.desc i))[0]?).getD f32NaN
    else f32NaN

/-- Distinct question tokens, ascending, among the first rerank_tokens ids of a candidate (R280). -/
def lexTokens (question tokens : List Nat) (cut : Nat) : List Nat :=
  ((question.foldl (fun l t => insNat t l) [])).filter (fun t => (tokens.take cut).contains t)

/-- The fused score of R280. -/
def State.fuse (s : State) (r : List Byte) (question : List Nat) (c : Cand) : Nat :=
  let lex := if bitAt (fld r 5 1) 4 then
      rowSum ((lexTokens question c.tokens (rcpRerankTokens r)).map (s.frontRow (rcpIndex r) (fld r 0x1D 1))) else 0
  let pri := if bitAt (fld r 5 1) 3 then s.frontRow (rcpIndex r) (fld r 0x1E 1) c.pid else 0
  fAdd (fAdd c.score (fMul (fld r 0x24 4) lex)) (fMul (fld r 0x28 4) pri)

/-- The Wellhead Sheaf counts the rows gathered for the fused scores and their heat (R261, R268, R280). -/
def State.frontGathers (s : State) (w : Nat) (r : List Byte) (question : List Nat) (cs : List Cand) : State :=
  let go (s : State) (t : Nat) (idx : List Nat) : State :=
    match s.table t with
    | none => s
    | some x => ((s.touchRows w [] x.desc idx).bump w 28 0x104 idx.length).bump w 28 0x108
        (idx.filter (fun i => (s.rowOf [] x.desc i).isNone)).length
  let s := if bitAt (fld r 5 1) 4 then
      cs.foldl (fun s c => go s (fld r 0x1D 1) (lexTokens question c.tokens (rcpRerankTokens r))) s else s
  if bitAt (fld r 5 1) 3 then go s (fld r 0x1E 1) (cs.map Cand.pid) else s

/-- A search of a request has its result. -/
def State.searchDone (s : State) (x : Slot) : Option (Nat × Search) :=
  match x.search with
  | none => none
  | some i =>
    match s.search i with
    | none => none
    | some q => if q.state = .done then some (i, q) else none

/-- FRONT_CANDIDATES (R279, R280): the core takes the result, fetches the passage records and scores them. `unreadable` are the
results, by rank, whose record reads back uncorrectable. -/
def frontCandidates (s : State) (n : Nat) (unreadable : List Nat) : State :=
  let x := s.slot n
  if x.state ≠ .front ∨ x.frontStage ≠ 3 ∨ 2 < descService x.desc then s
  else match s.searchDone x with
    | none => s
    | some (i, q) =>
      let r := s.rcpOf x
      let h := (s.gen q.gen).hdr
      let got := q.res.zipIdx.map (fun e => if unreadable.contains e.2 then none else s.candOf h e.1)
      let lost := (got.filter Option.isNone).length
      let cs := (dedupCands [] (got.filterMap id)).map (fun c => { c with fused := s.fuse r x.question c })
      let s := s.frontGathers (s.whOf (slotWh n)) r x.question cs
      let x := { x with cands := cs, returned := q.res.length, frontStage := if cs.isEmpty then 5 else 4, search := none
                        skipped := q.skipped + lost, degraded := x.degraded || decide (0 < q.skipped + lost) }
      (s.setSlot n x).freeSearch i

/-! ### Re-ranking (R281) -/

/-- The least rank key: higher scores first, ties to the higher second score, then to the lower passage id. -/
def candBefore (a b : Cand) : Bool :=
  match a.rerank, b.rerank with
  | some x, some y => decide (scoreRank y < scoreRank x) || (decide (scoreRank x = scoreRank y) && rankBefore a.fused a.pid b.fused b.pid)
  | some _, none => true
  | none, some _ => false
  | none, none => rankBefore a.fused a.pid b.fused b.pid

/-- Insert a candidate in final order. -/
def insCand (c : Cand) : List Cand → List Cand
  | [] => [c]
  | x :: t => if candBefore c x then c :: x :: t else x :: insCand c t

/-- The final order of R281. -/
def finalOrder (cs : List Cand) : List Cand := cs.foldl (fun l c => insCand c l) []

/-- Give the leading candidates their re-rank scores. -/
def giveScores : List Cand → List Word → List Cand
  | c :: t, w :: ws => { c with rerank := some w.toNat } :: giveScores t ws
  | l, _ => l

/-- The sequence of a candidate that the re-ranker reads (R281): the question, cut to half of rerank_tokens, sep_token and the
passage's tokens, cut to rerank_tokens. -/
def rerankSeq (r : List Byte) (question : List Nat) (c : Cand) : List Nat :=
  (question.take (rcpRerankTokens r / 2) ++ fld r 0x20 4 :: c.tokens).take (rcpRerankTokens r)

/-- The candidates that go to the re-ranker (R281): the rerank_n of the highest fused score. -/
def toRerank (r : List Byte) (cs : List Cand) : List Cand := (finalOrder cs).take (rcpRerankN r)

/-- The plan that a job is loaded with; none, no bytes. -/
def State.planImageOf (s : State) (job : Nat) : List Byte := match s.job job with | none => [] | some p => p.image

/-- FRONT_RERANK (R281): a re-ranker batch has scored the best rerank_n candidates; the plan gives each sequence one score.
The core then fetches the records again whole; `unreadable` are the candidates, by place in the final order, whose record reads back
uncorrectable: they are dropped as R279 drops them (log entry 101). -/
def frontRerank (s : State) (n : Nat) (unreadable : List Nat) : State :=
  let x := s.slot n
  let r := s.rcpOf x
  if x.state ≠ .front ∨ x.frontStage ≠ 4 ∨ rcpReranker r = 0 ∨ s.inBatch (rcpReranker r) n = false then s
  else
    let cs := toRerank r x.cands
    let scores := cs.map (fun c => Config.planScore (s.planImageOf (rcpReranker r)) (rerankSeq r x.question c))
    let order := finalOrder (giveScores (finalOrder x.cands) scores)
    let kept := (order.zipIdx.filter (fun e => !unreadable.contains e.2)).map Prod.fst
    s.setSlot n { x with
      cands := kept, reranked := cs.map Cand.pid, frontStage := 5
      skipped := x.skipped + (order.length - kept.length), degraded := x.degraded || decide (kept.length < order.length) }

/-! ### Packing (R272, R282, R283) -/

/-- The key of a candidate (R281). -/
def Cand.key (c : Cand) : Nat := match c.rerank with | some x => x | none => c.fused

/-- The packer of R282: selected candidates with the tokens packed, and whether the last is cut. -/
def packGo (r : List Byte) : List Cand → List (Cand × Nat) → Nat → List (Cand × Nat) × Bool
  | [], sel, _ => (sel, false)
  | c :: t, sel, avail =>
    let n := c.tokens.length
    let extra := rcpPass r - 1
    if sel.length = fld r 0x13 1 ∨ fLt c.key (fld r 0x2C 4) = true ∨ fIsNaN c.key = true then (sel, false)
    else if 0 < fld r 0x1C 1 ∧ (sel.filter (fun e => e.1.doc = c.doc)).length = fld r 0x1C 1 then packGo r t sel avail
    else if n + extra ≤ avail then packGo r t (sel ++ [(c, n)]) (avail - (n + extra))
    else if rcpTrunc r = 0 then packGo r t sel avail
    else if rcpTrunc r = 1 ∧ fld r 0x1F 1 + extra ≤ avail then (sel ++ [(c, avail - extra)], true)
    else (sel, false)

/-- doc_id, then span_start, then passage id (R283). -/
def sourceKey (c : Cand) : Nat := (c.doc * 4294967296 + c.spanStart) * 18446744073709551616 + c.pid

/-- Prompt order (R283): a cut passage is last. -/
def promptOrder (r : List Byte) (sel : List (Cand × Nat)) (cut : Bool) : List (Cand × Nat) :=
  let whole := if cut then sel.dropLast else sel
  let last := if cut then sel.drop (sel.length - 1) else []
  (match rcpOrder r with
    | 0 => whole
    | 1 => whole.reverse
    | _ => sortBy (fun e => sourceKey e.1) whole) ++ last

/-- One passage block (R272). -/
def passBlock (r : List Byte) (i : Nat) (tokens : List Nat) : List Nat :=
  (rcpPassSeg r).flatMap (fun e => if e = mkOrdinal then [rcpOrdinal r i] else if e = mkText then tokens else [e])

/-- Tokens of a passage block ahead of its text. -/
def textOffset (r : List Byte) : Nat := ((rcpPassSeg r).takeWhile (fun e => e ≠ mkText)).length

/-- The prompt (R272) from the question and the passages' tokens in prompt order. -/
def assemble (r : List Byte) (question : List Nat) (ps : List (List Nat)) : List Nat :=
  (rcpMainSeg r).flatMap (fun e =>
    if e = mkQuestion then question
    else if e = mkPassages then ps.zipIdx.flatMap (fun p => passBlock r p.2 p.1)
    else [e])

/-- Where the passages begin in the prompt. -/
def passagesAt (r : List Byte) (q : Nat) : Nat :=
  ((rcpMainSeg r).takeWhile (fun e => e ≠ mkPassages)).foldl (fun n e => n + (if e = mkQuestion then q else 1)) 0

/-- The offsets of the passages' texts in the prompt (R284). -/
def promptStarts (r : List Byte) (q : Nat) (lens : List Nat) : List Nat :=
  (lens.foldl (fun (a : List Nat × Nat) n => (a.1 ++ [a.2 + textOffset r], a.2 + n + (rcpPass r - 1))) ([], passagesAt r q)).1

/-- The budget of the packer: max_prompt_tokens − fixed (R272, R282). -/
def packAvail (r d : List Byte) (q : Nat) : Nat := descMaxPrompt d - (rcpMain r - 2 + q)

/-! ### The citation map (R284) -/

/-- The header record without crc and serial. -/
def mapHeader (n : Nat) (x : Slot) (count prompt returned reranked : Nat) (cut absent : Bool) : List Byte :=
  let d := x.desc
  leBytes 1 0x40 ++ leBytes 1 (b2n absent * 16 + b2n cut * 8 + b2n (descKind d == 3) * 4 + b2n x.qTrunc * 2 + b2n x.degraded) ++
    leBytes 2 (descSub d) ++ leBytes 8 (descTag d) ++ leBytes 4 n ++ leBytes 2 x.indexGen ++ leBytes 1 count ++ leBytes 1 0 ++
    leBytes 4 prompt ++ leBytes 4 x.question.length ++ leBytes 4 x.skipped ++ leBytes 4 returned ++ leBytes 4 reranked ++
    leBytes 12 0

/-- A passage record without crc and serial. -/
def mapPassage (x : Slot) (i pid doc spanStart spanLen start packed score key : Nat) (cut reranked : Bool) : List Byte :=
  leBytes 1 0x41 ++ leBytes 1 i ++ leBytes 2 (b2n reranked * 2 + b2n cut) ++ leBytes 8 (descTag x.desc) ++ leBytes 8 pid ++
    leBytes 8 doc ++ leBytes 4 spanStart ++ leBytes 4 spanLen ++ leBytes 4 start ++ leBytes 4 packed ++ leBytes 4 score ++
    leBytes 4 key

/-- The map of a packed prompt. -/
def mapOf (n : Nat) (x : Slot) (r : List Byte) (ps : List (Cand × Nat)) (cut : Bool) (prompt : Nat) : List (List Byte) :=
  let starts := promptStarts r x.question.length (ps.map Prod.snd)
  mapHeader n x ps.length prompt x.returned x.reranked.length cut false ::
    (ps.zip starts).zipIdx.map (fun e =>
      let c := e.1.1.1
      mapPassage x e.2 c.pid c.doc c.spanStart c.spanLen e.1.2 e.1.1.2 c.score c.key (cut && decide (e.2 + 1 = ps.length))
        c.rerank.isSome)

/-- The map of a service 3 request: no record is fetched, and its key is not stated (a free value). -/
def State.vecMap (s : State) (n : Nat) (x : Slot) (rs : List SRes) : List (List Byte) :=
  mapHeader n x rs.length 0 x.returned 0 false false ::
    rs.zipIdx.map (fun e => mapPassage x e.2 e.1.pid 0 0 0 0xFFFFFFFF 0 e.1.score (Config.freeWord (s.freeCount + e.2)).toNat false false)

/-- Count the ends of a front stage (R288). -/
def State.frontCounts (s : State) (x : Slot) (cut : Bool) : State :=
  let s := if x.degraded then (s.bump 120 7 0x11C 1).event 120 7 [sqBit 0x118 3] [] else s
  if cut then s.bump 120 7 0x120 1 else s

/-- Journal the FRONT record (R44, R283). -/
def State.frontRecord (s : State) (n prompt : Nat) (ids : List Nat) : State :=
  s.journalAdd n 2 (leBytes 4 ids.length ++ leBytes 4 prompt ++ leBytes 8 0 ++ ids.flatMap (leBytes 8))

/-- FRONT_PACK (R278, R282, R283): the packer selects passages, the prompt is assembled and the FRONT record journaled; a
service 3 request takes its first results. -/
def frontPack (s : State) (n : Nat) : State :=
  let x := s.slot n
  let r := s.rcpOf x
  if x.state ≠ .front ∨ x.frontJournaled = true then s
  else if descService x.desc = 3 then
    match if x.frontStage = 3 then s.searchDone x else none with
    | none => s
    | some (i, q) =>
      let rs := q.res.take 64
      let x := { x with search := none, skipped := q.skipped, degraded := x.degraded || decide (0 < q.skipped)
                        returned := q.res.length, frontIds := rs.map SRes.pid, frontJournaled := true }
      let x := { x with mapRecs := s.vecMap n x rs }
      let s := { s with freeCount := s.freeCount + rs.length }
      (((s.setSlot n x).frontRecord n 0 x.frontIds).frontCounts x false).freeSearch i
  else if x.frontStage = 5 ∨ (x.frontStage = 4 ∧ rcpReranker r = 0) then
    let sel := packGo r (finalOrder x.cands) [] (packAvail r x.desc x.question.length)
    let ps := promptOrder r sel.1 sel.2
    let prompt := assemble r x.question (ps.map (fun e => e.1.tokens.take e.2))
    let ids := ps.map (fun e => e.1.pid)
    let x := { x with promptTokens := prompt, frontIds := ids, frontJournaled := true, mapRecs := mapOf n x r ps sel.2 prompt.length }
    ((s.setSlot n x).frontRecord n prompt.length ids).frontCounts x sel.2
  else s

/-- The front stage of a request starts over from the question; what it has packed so far is discarded (R44, R286). -/
def Slot.frontAgain (x : Slot) : Slot :=
  { x with frontStage := 0, queryVec := [], search := none, returned := 0, cands := [], reranked := [], skipped := 0, frontJournaled := false
           frontIds := [], mapRecs := []
           promptTokens := if descService x.desc ≤ 1 then [] else x.promptTokens }

/-! ### Rebuilding a prompt from its FRONT record (R46, R283, R285) -/

/-- The node record of a node as it lies in its ordinary group; none where it is absent (R310). -/
def State.nodeRecord (s : State) (g : GenSlot) (node : Nat) : Option (List Byte) :=
  match s.locate g node none with
  | none => none
  | some (k, off, _) =>
    let b := s.load (.flash k) off (recBytes g.hdr)
    if fld b 8 5 ≠ node ∨ fld b 0xE 2 ≠ genNum g.hdr ∨ fld b 0x1C 4 ≠ g.serial then none else some b

/-- The node of a passage id, found by halving: passage ids rise with node numbers (R293). -/
def State.findPassage (s : State) (g : GenSlot) (pid : Nat) : Nat → Nat → Nat → Option (List Byte)
  | 0, _, _ => none
  | fuel + 1, lo, hi =>
    if hi ≤ lo then none
    else
      let mid := (lo + hi) / 2
      match s.nodeRecord g mid with
      | none => none
      | some b =>
        if fld b 0 8 = pid then some b
        else if fld b 0 8 < pid then s.findPassage g pid fuel (mid + 1) hi
        else s.findPassage g pid fuel lo mid

/-- The passage of an id in the pinned generation's store. -/
def State.passageOf (s : State) (g : GenSlot) (pid : Nat) : Option Cand :=
  match s.findPassage g pid 41 0 (genNodes g.hdr) with
  | none => none
  | some b => (s.candOf g.hdr { node := 0, pid := pid, score := f32NaN, off := fld b 0x10 6, units := fld b 0x16 2 }).map Prod.snd

/-- The packed lengths of listed passages: whole, the last one cut to what the budget leaves (R283). -/
def packedLens (r : List Byte) : Nat → List Cand → List (Cand × Nat)
  | _, [] => []
  | avail, c :: t => (c, min c.tokens.length (avail - (rcpPass r - 1))) :: packedLens r (avail - (c.tokens.length + (rcpPass r - 1))) t

/-- The prompt of a recipe request rebuilt from its FRONT record, and its map with scores absent (R283, R285); none where a
passage cannot be read. -/
def State.rebuildPrompt (s : State) (n : Nat) (x : Slot) : Option (List Nat × List (List Byte)) :=
  let r := s.rcpOf x
  match x.genSlot with
  | none => none
  | some gi =>
    let g := s.gen gi
    if descService x.desc = 3 then
      some ([], mapHeader n x x.frontIds.length 0 x.returned 0 false true ::
        x.frontIds.zipIdx.map (fun e => mapPassage x e.2 e.1 0 0 0 0xFFFFFFFF 0 f32NaN f32NaN false false))
    else
      let cs := x.frontIds.filterMap (s.passageOf g)
      if cs.length ≠ x.frontIds.length then none
      else
        let ps := packedLens r (packAvail r x.desc x.question.length) cs
        let cut := ps.any (fun e => decide (e.2 < e.1.tokens.length))
        let prompt := assemble r x.question (ps.map (fun e => e.1.tokens.take e.2))
        let starts := promptStarts r x.question.length (ps.map Prod.snd)
        some (prompt, mapHeader n x ps.length prompt.length x.returned x.reranked.length cut true ::
          (ps.zip starts).zipIdx.map (fun e =>
            let c := e.1.1.1
            mapPassage x e.2 c.pid c.doc c.spanStart c.spanLen e.1.2 e.1.1.2 f32NaN f32NaN
              (cut && decide (e.2 + 1 = ps.length)) (x.reranked.contains c.pid)))

/-! ### Meanings -/

/-- RECIPE_REGISTER. -/
def execRecipeRegister (req : Requester) (id : Nat) (s : State) : Host.Outcome State Fault Refusal :=
  .next (recipeRegister s req (id % 4096))
/-- RECIPE_UNREGISTER. -/
def execRecipeUnregister (req : Requester) (id : Nat) (s : State) : Host.Outcome State Fault Refusal :=
  .next (recipeUnregister s req (id % 4096))
/-- FRONT_ENCODE. -/
def execFrontEncode (n : Nat) (vec : List Byte) (s : State) : Host.Outcome State Fault Refusal := .next (frontEncode s n vec)
/-- SEARCH_CALL. -/
def execSearchCall (n : Nat) (s : State) : Host.Outcome State Fault Refusal := .next (searchCall s n)
/-- FRONT_CANDIDATES. -/
def execFrontCandidates (n : Nat) (unreadable : List Nat) (s : State) : Host.Outcome State Fault Refusal :=
  .next (frontCandidates s n unreadable)
/-- FRONT_RERANK. -/
def execFrontRerank (n : Nat) (unreadable : List Nat) (s : State) : Host.Outcome State Fault Refusal :=
  .next (frontRerank s n unreadable)
/-- FRONT_PACK. -/
def execFrontPack (n : Nat) (s : State) : Host.Outcome State Fault Refusal := .next (frontPack s n)

end Sys2Proof.Machine
end

