-- ==== Sys2Proof/Machine/Replay.lean ====
section
/-! DEFINITION. Replay: a request in REPLAY is carried back to its delivered position (R41, R46, R47, R200, R202). -/

namespace Sys2Proof.Machine

/-- The job's paddock runs. -/
def State.jobRuns (s : State) (job : Nat) : Bool :=
  match (s.job job).bind Plan.loaded with
  | none => false
  | some pad => decide ((s.paddock pad).state = .running)

/-- A request with a FRONT record has its prompt and, where it is owed, its map again (R47, R283, R285); none where they
cannot be rebuilt yet. -/
def State.replayPrompt (s : State) (n : Nat) : Option State :=
  let x := s.slot n
  if descRecipe x.desc = 0 then (if x.tokDone then some s else none)
  else if x.frontDurable = false ∨ x.tokDone = false ∨ s.restored x = false then none
  else if x.promptTokens ≠ [] ∧ (x.mapPending = false ∨ x.mapRecs ≠ []) then some s
  else match s.rebuildPrompt n x with
    | none => none
    | some (prompt, recs) => some (s.setSlot n { x with promptTokens := prompt, mapRecs := if x.mapPending then recs else x.mapRecs })

/-- The prompt is prefilled, then generated positions up to `upto` (R188, R197, R202): prompt pages enter the share table as they seal.
Positions from `again` on that restored pages cover are computed without being written (log entry 96). Answers the positions at which
a unit exceeded. -/
def State.replayRows (s : State) (n again upto : Nat) : State × List Nat :=
  let x := s.slot n
  if (s.kvd (descJob x.desc)).isEmpty then (s, [])
  else
    let s := if x.rows ≤ x.promptTokens.length then s.kvPrefill n else s
    let c := s.kvCovered n again (min upto (s.slot n).rows)
    let r := c.1.kvRows n upto false
    (r.1, c.2 ++ r.2)

/-- Steps 1 and 2 of R200: the share table's pages, then the spilled pages that follow them. -/
def State.replayPages (s : State) (n : Nat) (unreadable : List Nat) : State :=
  if (s.kvd (descJob (s.slot n).desc)).isEmpty then s else (shareLookup s n).kvRestore n unreadable

/-- The place in the history of the first token of the last recorded step (R185, R202). -/
def lastStart (hs : List Hist) : Nat :=
  ((List.range hs.length).reverse.find? (fun i => ((hs[i]?).map Hist.stepStart).getD false)).getD 0

/-- The width and quiet count after the last recorded step (R191, R202); seq 0 belongs to no decode step (R185). -/
def lastWidth (k : List Byte) (hs : List Hist) (exceeded : Bool) : Nat × Nat :=
  if lastStart hs = 0 then (0, 0)
  else match hs[lastStart hs]? with
    | none => (0, 0)
    | some h => widen k h.w h.quiet exceeded

/-- A request goes back to DECODE, or ends at its cancellation (R42, R47). -/
def State.replayDone (s : State) (n : Nat) : State :=
  let x := s.slot n
  let s := s.setSlot n { x with replayPos := 0, waitStrokes := 0 }
  match x.natural, x.cutSeq with
  | some c, _ => s.beginDrain n c
  | none, some _ => s.endRequest n 3
  | none, none => s.setSlot n { s.slot n with state := .decode }

/-- The history survives: every regenerated token must equal it (R47, R202). -/
def State.replayKept (s : State) (n : Nat) (steps : List (List Nat)) (unreadable : List Nat) (tiller : Nat) : State :=
  let x := s.slot n
  let h := x.history.map Hist.token
  let toks := steps.flatten.take h.length
  if ¬ toks <+: h then
    let s := s.setSlot n { x with replayPos := 0 }
    (s.endRequest n 8).postFault 0xB (8 + tiller) n
  else if toks.length ≠ h.length then s
  else
    let k := s.kvd (descJob x.desc)
    let upto := x.promptTokens.length + (h.length - 1)
    let t := s.replayPages n unreadable
    if !k.isEmpty && !t.kvFits n (upto - (t.slot n).rows) then s
    else
      let from_ := x.promptTokens.length + (lastStart x.history - 1)
      let r := t.replayRows n from_ upto
      let t := r.1
      let wq := lastWidth k x.history (r.2.any (fun p => decide (from_ ≤ p)))
      let y := t.slot n
      (t.setSlot n { y with w := wq.1, quiet := wq.2, grm := grmReplay (t.grmImage y) h }).replayDone n

/-- Deliver one regenerated token; records below the read-back index are suppressed (R47). -/
def State.replayToken (s : State) (n tok : Nat) (first : Bool) : State :=
  let x := s.slot n
  if x.natural.isSome || decide (x.cutSeq = some x.history.length) then s
  else
    let g := s.grmImage x
    let after := grmMove g x.grm tok
    let e := s.endOf x tok (x.tokensOut + 1) (after.ended && !g.isEmpty)
    let seq := x.history.length
    let x := { x with
      history := x.history ++ [{ w := x.w, quiet := x.quiet, stepStart := first, token := tok }]
      tokensOut := x.tokensOut + 1, grm := after, natural := e }
    let last := e.isSome
    if descBytesOut x.desc then
      let r := detokStep (s.tokOf x) x.heldBytes tok last
      let recs := tokRecords seq tok last r.1
      recs.foldl (fun s rec => s.pushRec n rec)
        ((s.setSlot n { x with heldBytes := r.2.1, lastTok := some (seq, tok, recs.length) }).detokCount n tok r.2.2 (s.tokOf x))
    else (s.setSlot n x).pushRec n (outRecord seq 0 0 tok false last [])

/-- Regenerate one step: its tokens, its positions, and its width update (R191, R202); seq 0 has no position of its own. -/
def State.replayStep (s : State) (n : Nat) (st : List Nat) : State :=
  let before := (s.slot n).history.length
  let s := st.zipIdx.foldl (fun s e => s.replayToken n e.1 (decide (e.2 = 0))) s
  let x := s.slot n
  let k := s.kvd (descJob x.desc)
  if before = 0 ∨ k.isEmpty = true then s
  else
    let r := s.kvRows n (x.promptTokens.length + (x.history.length - 1)) false
    let wq := widen k x.w x.quiet (!r.2.isEmpty)
    r.1.setSlot n { r.1.slot n with w := wq.1, quiet := wq.2 }

/-- The history did not survive: tokens are regenerated from seq 0 until a record is written, an end is reached, or the
cancellation's place (R47, R202). Anything less changes nothing. -/
def State.replayFresh (s : State) (n : Nat) (steps : List (List Nat)) : State :=
  let x := s.slot n
  let total := x.promptTokens.length + steps.flatten.length
  let t := s.replayPages n []
  if !(s.kvd (descJob x.desc)).isEmpty && !t.kvFits n (total - (t.slot n).rows) then s
  else
    let t := (t.replayRows n 0 0).1
    let t := t.setSlot n { t.slot n with w := 0, quiet := 0, grm := grmReplay (t.grmImage (t.slot n)) [] }
    let t := steps.foldl (fun t st => t.replayStep n st) t
    let y := t.slot n
    if y.natural.isSome ∨ y.cutSeq = some y.history.length ∨ x.suppress < y.recCount then t.replayDone n else s

/-- REPLAY_CATCH_UP (R41, R47, R202): the regenerated steps of a request in REPLAY reach its next undelivered record.
`unreadable` are spilled pages that do not read back; `tiller` ran the request. A service 2 or 3 request has nothing to
regenerate and ends (R278, R283). -/
def replayCatchUp (s : State) (n : Nat) (steps : List (List Nat)) (unreadable : List Nat) (tiller : Nat) : State :=
  let x := s.slot n
  if x.state ≠ .replay then s
  else match s.replayPrompt n with
    | none => s
    | some t =>
      if 1 < descService x.desc then t.beginDrain n 6
      else if s.jobRuns (descJob x.desc) = false then s
      else if x.history = [] ∧ 0 < x.suppress then t.replayFresh n steps
      else t.replayKept n steps unreadable tiller

/-- REPLAY_CATCH_UP. -/
def execReplayCatchUp (n : Nat) (steps : List (List Nat)) (unreadable : List Nat) (tiller : Nat) (s : State) :
    Host.Outcome State Fault Refusal := .next (replayCatchUp s n steps unreadable tiller)

end Sys2Proof.Machine
end

