-- ==== Sys2Proof/Machine/Windlass.lean ====
section
/-! DEFINITION. The Windlass: erases, verification, reclaim, media failures, Wells that fail or return, model images and the
layout (R352 to R370). Mount and the hold-up flush are in Machine/StartUp.lean. -/

namespace Sys2Proof.Machine

/-! ### Erases (R360) -/

/-- The slot field of an erase intent's journal record. -/
def noSlot : Nat := 0xFFFFFFFF

/-- ERASE_INTENT (R360): a RELEASED or HALF_ERASED block of a Wellhead's Well gets its intent record. -/
def eraseIntent (s : State) (w loc : Nat) : State :=
  let k := locBlk loc
  let b := s.block k
  if !(decide (b.state = .released) || decide (b.state = .halfErased)) || b.intent.isSome || s.wellWh (blkWell k) != s.whOf w then s
  else
    let o := blkWell k % 4
    let n := Tbl.val 0 s.req.jserial o
    let serial := o * 72057594037927936 + n
    let r : JRec := { wh := o, typ := 6, slot := noSlot, jserial := n
                      bytes := journalBytes 6 o noSlot s.strokeN n (leBytes 4 (blkLoc k) ++ leBytes 4 0 ++ leBytes 8 serial) }
    let s := { s with req := { s.req with journal := s.req.journal ++ [r], jserial := Tbl.set 0 s.req.jserial o (n + 1) } }
    s.setBlock k { b with intent := some serial }

/-- The record of an intent. -/
def JRec.isIntent (r : JRec) (serial : Nat) : Bool :=
  decide (r.typ = 6) && decide (r.wh * 72057594037927936 + r.jserial = serial)

/-- ERASE_ISSUE (R360): the intent is durable, and the erase is issued. -/
def eraseIssue (s : State) (loc : Nat) : State :=
  let k := locBlk loc
  let b := s.block k
  match b.intent with
  | none => s
  | some n =>
    let strict := s.strictJournal (n / 72057594037927936) && s.req.journal.any (fun r => r.isIntent n && !r.programmed)
    if !(decide (b.state = .released) || decide (b.state = .halfErased)) || strict || !s.dieUp (blkDie k) then s
    else
      let j := s.req.journal.map (fun (r : JRec) => if r.isIntent n then { r with durable := true } else r)
      ({ s with req := { s.req with journal := j } }.setBlock k { b with state := .erasing }).eraseQueue k

/-- An erase counts against its Well's life (R358). -/
def State.countErase (s : State) (k : Nat) (tlc : Bool) : State :=
  let w := blkWell k
  let x := s.well w
  (s.setWell w (if tlc then { x with tlcErases := x.tlcErases + 1 } else { x with slcErases := x.slcErases + 1 })).bumpWide
    (80 + w) 0 3 0 1

/-- ERASE_COMPLETE (R349, R360): the erase in progress on its plane ends, the stamp page is programmed and reads back, the intent
record is let go, and the block is ERASED; a failed erase retires the block (R354). -/
def eraseComplete (s : State) (loc : Nat) (ok : Bool) : State :=
  let k := locBlk loc
  let b := s.block k
  match b.intent with
  | none => s
  | some n =>
    if b.state ≠ .erasing ∨ s.eraseRuns k = false ∨ s.dieUp (blkDie k) = false then s
    else
      let s := (s.eraseLeaves k).countErase k b.tlc
      let s := { s with req := { s.req with journal := s.req.journal.filter (fun r => !r.isIntent n) } }
      if ok then
        let s := { s with mem := Memory.clear s.mem (Space.key (.flash k) 0) 25165824 }
        s.setBlock k { state := .erased, erases := b.erases + 1, stamp := n }
      else
        let s := s.setBlock k { b with erases := b.erases + 1 }
        (s.event (80 + blkWell k) 0 [] [2]).retireBlock k

/-! ### Moving what a block holds (R354, R355) -/

/-- Count pages rebuilt from parity (R355, R369). -/
def State.noteRebuilt (s : State) (k n : Nat) : State :=
  if n = 0 then s
  else (s.bumpWide (s.wellWh (blkWell k)) 12 3 0 n).event (s.wellWh (blkWell k)) 12 [sqBit 0x118 0] []

/-- Partition, copy and logical page of a map key. -/
def mapKeyParts (key : Nat) : Nat × Nat × Nat :=
  (key / 36893488147419103232, key / 18446744073709551616 % 2, key % 18446744073709551616)

/-- Map keys whose page lies in a block. -/
def State.keysIn (s : State) (k : Nat) : List Nat := (s.wdl.map.filter (fun e => entryBlk e.2 = k)).map Prod.fst

/-- The data page of a map entry. -/
def entryPage (e : Nat) : Nat := e / 4 % 2048

/-- Program the given map keys' pages elsewhere on a Well. -/
def State.moveKeys (s : State) (keys : List Nat) (well : Nat) : State :=
  keys.foldl (fun s key => let p := mapKeyParts key; s.programOn p.1 p.2.1 p.2.2 well) s

/-- The extent entry that names a block: slot header, region, group and whether loc1 does (R297). -/
def State.extentOf (s : State) (k : Nat) : Option (List Byte × Nat × Nat × Bool) :=
  (List.range 4).findSome? (fun g =>
    let x := s.gen g
    if x.state = .free then none
    else [0, 1, 2].findSome? (fun region =>
      (List.range (regionGroups x.hdr region)).findSome? (fun i =>
        let l := s.extLocs x.hdr region i
        if l.1 = blkLoc k then some (x.hdr, region, i, false)
        else if l.2 = blkLoc k then some (x.hdr, region, i, true) else none)))

/-- Rewrite an index or passage group to another block of a Well; its extent entry changes (R355). -/
def State.moveGroup (s : State) (k well : Nat) : State :=
  match s.extentOf k with
  | none => s
  | some (h, region, i, second) =>
    let b := s.block k
    match s.takeBlock b.part well b.serial with
    | none => s
    | some (n, s) =>
      let s := { s with mem := Memory.copy s.mem (Space.key (.flash k) 0) (Space.key (.flash n) 0) 25165824 }
      let s := s.programmed n b.used
      let s := s.setBlock n { s.block n with state := .verify }
      s.store .lpddr (extEntry h region i + (if second then 4 else 0)) (leBytes 4 (blkLoc n))

/-- BLOCK_VERIFY (R354, R355): a closed block is read back; failing pages are rebuilt from parity and relocated. -/
def blockVerify (s : State) (loc : Nat) (failing : List Nat) : State :=
  let k := locBlk loc
  let b := s.block k
  if b.state ≠ .verify then s
  else
    let bad := failing.filter (fun p => p < b.used)
    let s := s.noteRebuilt k bad.length
    let s := s.setBlock k { b with state := .sealed }
    if bad.isEmpty then s
    else if b.part = 3 ∨ b.part = 4 then
      let s := s.moveGroup k (blkWell k)
      s.setBlock k { s.block k with state := .released }
    else
      s.moveKeys ((s.keysIn k).filter (fun key =>
        match Tbl.look s.wdl.map key with | none => false | some e => bad.contains (entryPage e))) (blkWell k)

/-- Blocks of a partition on a Well, and how many of them are taken. -/
def State.partTaken (s : State) (part well : Nat) : Nat :=
  (s.wdl.blocks.filter (fun e => decide (blkWell e.1 = well) && decide (e.2.part = part) && decide (e.2.state ≠ .erased) &&
    decide (e.2.state ≠ .retired))).length

/-- RECLAIM (R354): below 2 % free blocks, the sealed block with the fewest valid pages is copied and released. -/
def reclaim (s : State) (well part : Nat) : State :=
  let size := 32 * s.partBlocks part well
  if !(part == 2 || part == 5) || decide (size ≤ 50 * (size - s.partTaken part well)) || !s.wellUp well then s
  else
    let c := s.wdl.blocks.filter (fun e => decide (blkWell e.1 = well) && decide (e.2.part = part) && decide (e.2.state = .sealed))
    match minBy (fun k => (s.keysIn k).length) (c.map Prod.fst) with
    | none => s
    | some k =>
      let keys := s.keysIn k
      let s := (s.moveKeys keys well).bumpWide (s.wellWh well) 12 4 0 keys.length
      if s.mapped k then s else s.setBlock k { s.block k with state := .released }

/-- PROGRAM_FAIL (R354, R355): a program or erase of a block fails; the block is retired, and its pages are rebuilt
elsewhere. -/
def programFail (s : State) (loc : Nat) (erase : Bool) : State :=
  let k := locBlk loc
  let b := s.block k
  if b.state ≠ (if erase then BlkState.erasing else .opened) ∨ (erase = true ∧ s.eraseRuns k = false) ∨ s.dieUp (blkDie k) = false then s
  else
    let s := (if erase then s.eraseLeaves k else s).event (80 + blkWell k) 0 [] [if erase then 2 else 1]
    if erase then
      let s := match b.intent with
        | none => s
        | some n => { s with req := { s.req with journal := s.req.journal.filter (fun r => !r.isIntent n) } }
      ((s.countErase k b.tlc).setBlock k { b with erases := b.erases + 1 }).retireBlock k
    else
      let s := (s.noteRebuilt k b.used).setBlock k { b with state := .retired }
      let s := if b.part = 3 ∨ b.part = 4 then s.moveGroup k (blkWell k) else s.moveKeys (s.keysIn k) (blkWell k)
      s.retireBlock k

/-- READ_ONLY_ENTRY (R357): a Well's spare blocks have run out; the module goes read-only at this boundary. -/
def readOnlyEntry (s : State) (well : Nat) : State :=
  if s.wdl.roDue = false ∨ (s.well well).spare ≠ 0 ∨ s.wdl.readOnly = true then s
  else
    let s := { s with wdl := { s.wdl with readOnly := true, roDue := false } }
    [0, 1, 2, 3].foldl (fun s w => s.event w 12 [sqBit 0x118 3] []) s

/-- HOLDUP_MEASURE (R363): the bank's usable energy in 0.1 J; below 90 J the module runs in write-through. -/
def holdupMeasure (s : State) (dj : Nat) : State :=
  let low := decide (dj < 900)
  let enter := low && !s.wdl.writeThrough
  let s := { s with wdl := { s.wdl with writeThrough := low } }
  [0, 1, 2, 3].foldl (fun s w =>
    let s := s.setRegN w 12 0x104 (dj % 65536)
    if enter then s.event w 12 [sqBit 0x118 2] [] else s) s

/-- MAP_CHECKPOINT (R352, R520): at every 20,000th boundary since the latest, the map directory and module time go to the
boot partition. -/
def mapCheckpoint (s : State) : State :=
  if s.wdl.mounted = false ∨ s.wdl.sinceCkpt < 20000 then s
  else { s with wdl := { s.wdl with ckpt := s.wdl.map, sinceCkpt := 0 }
                time := { s.time with bootNs := s.time.boundNs } }

/-! ### Wells that fail or return (R365, R366) -/

/-- The Wells a journal stream may take, in order (R351, R365). -/
def streamList (w copy : Nat) : List Nat :=
  let v := if copy = 0 then w else (w + 2) % 4
  [4 + v, 8 + v, 12 + v] ++ (List.range 12).map (fun i => 4 + i)

/-- Give a stream a Well: the next present one of its list after `from_`, else the first present of 04 to 15 that carries
neither stream of the Wellhead; 255 where there is none (R365). -/
def State.placeStream (s : State) (w copy : Nat) : State :=
  let l := streamList w copy
  let well := match (l.take 3).find? s.wellUp with
    | some n => n
    | none => ((l.drop 3).find? (fun n => s.wellUp n && s.streamWell w 0 != n && s.streamWell w 1 != n)).getD 255
  { s with wdl := { s.wdl with streams := Tbl.set 255 s.wdl.streams (2 * w + copy) well } }

/-- Move every stream off a Well. -/
def State.moveStreams (s : State) (well : Nat) : State :=
  [0, 1, 2, 3].foldl (fun s w => [0, 1].foldl (fun s c =>
    if s.streamWell w c = well then s.placeStream w c else s) s) s

/-- Model images that have a copy on a Well are marked single (R365). -/
def State.markSingle (s : State) (well : Nat) : State :=
  let hit (id : Nat) : Bool := s.wdl.map.any (fun e => decide (e.1 / 36893488147419103232 = 2) &&
    decide (e.1 % 18446744073709551616 / 4294967296 = id) && decide (blkWell (entryBlk e.2) = well))
  { s with wdl := { s.wdl with images := s.wdl.images.map (fun e => if hit e.1 then (e.1, { e.2 with single := true }) else e) } }

/-- Tier pages whose STORE or SCRATCH backing on flash no longer reads are lost (R341, R356); an IMAGE page stays unreadable only while
its Wells are away. -/
def State.loseBacking (s : State) : State :=
  s.cis.plans.foldl (fun s p => p.2.vpns.foldl (fun s v =>
    match s.pte p.1 v with
    | none => s
    | some e => if e.backing ≠ 0 ∧ s.flashLost p.1 v e = true then s.setPte p.1 v { e with lost := true, dirty := 0 } else s) s) s

/-- Spilled KV pages whose logical pages no longer read are not restored (R200, R365). -/
def State.loseSpilled (s : State) : State :=
  { s with req := { s.req with slots := s.req.slots.map (fun e =>
      (e.1, { e.2 with spilled := e.2.spilled.filter (fun p =>
        (s.wdl.map.filter (fun m => decide (m.1 / 36893488147419103232 = 5) &&
          decide (m.1 % 18446744073709551616 / 65536 = lpPark e.1 p 0 / 65536))).all
            (fun m => s.dieUp (blkDie (entryBlk m.2)))) })) } }

/-- WELL_FAILURE (R365): the Well is marked absent with FAULT 0x04, and its partitions fall back. -/
def State.wellFailure (s : State) (n : Nat) : State :=
  if s.wellUp n = false then s
  else
    let s := (s.setWell n { s.well n with state := 4 }).postFault 4 (80 + n) 0
    (((((s.moveStreams n).markSingle n).searchWellLost n).settlePlanes).loseBacking).loseSpilled

/-- Index groups of a returning Well whose first record does not carry the slot's gen and open_serial are stale (R317). -/
def State.staleOn (s : State) (well : Nat) (g : Nat) : State :=
  let x := s.gen g
  if x.state = .free ∨ x.state = .loading then s
  else
    let wrong (loc : Nat) : Bool :=
      let b := s.load (.flash (locBlk loc)) 0 32
      fld b 0xE 2 != genNum x.hdr || fld b 0x1C 4 != x.serial
    let n := genGroups x.hdr
    let on (loc : Nat) : Bool := locValid loc && decide (blkWell (locBlk loc) = well)
    let a := (List.range n.1).filter (fun i => let l := (s.extLocs x.hdr 0 i).1; on l && wrong l)
    let hubs := (List.range n.2.1).flatMap (fun i =>
      let l := s.extLocs x.hdr 1 i
      (if on l.1 && wrong l.1 then [4294967296 + i] else []) ++ (if on l.2 && wrong l.2 then [3 * 4294967296 + i] else []))
    s.setGen g { x with stale := x.stale ++ (a ++ hubs).filter (fun i => !x.stale.contains i) }

/-- WELL_RETURN (R366, R67): a failed or absent Well begins quarantine; after at least 20,000 strokes it joins at this
re-plan boundary, and its stale blocks are identified. -/
def wellReturn (s : State) (n : Nat) : State :=
  let x := s.well n
  if s.wellCount ≤ n then s
  else if x.state = 0 ∨ x.state = 4 then s.setWell n { x with state := 3, since := s.strokeN }
  else if x.state = 3 ∧ x.since + 20000 ≤ s.strokeN then
    let s := s.setWell n { x with state := 2 }
    let own (k : Nat) (b : Block) : Bool := decide (blkWell k = n) && (decide (b.part = 5) || decide (b.part = 1)) &&
      (decide (b.state = .opened) || decide (b.state = .verify) || decide (b.state = .sealed))
    let blocks := s.wdl.blocks.map (fun e => if own e.1 e.2 then (e.1, { e.2 with state := BlkState.released }) else e)
    let map := s.wdl.map.filter (fun e => !(decide (e.1 / 36893488147419103232 = 5) && decide (blkWell (entryBlk e.2) = n)))
    let s := { s with wdl := { s.wdl with blocks := blocks, map := map } }
    (List.range 4).foldl (fun s g => s.staleOn n g) s
  else s

/-! ### Model images (R367, R370) and the layout (R353) -/

/-- The descriptor of an image command: a code, and its bytes (R367). -/
def State.imgDesc (s : State) : Nat × List Byte :=
  let a := s.cmdAddr 10
  let d := s.load .lpddr a 32
  if a % 128 ≠ 0 ∨ s.inHost a 32 = false then (2, d)
  else if !crcOk d then (1, d) else (0, d)

/-- A model image. -/
def State.image (s : State) (id : Nat) : Option ModelImage := Tbl.look s.wdl.images id

/-- Replace a model image. -/
def State.setImage (s : State) (id : Nat) (x : ModelImage) : State :=
  { s with wdl := { s.wdl with images := Tbl.put s.wdl.images id x } }

/-- IMAGE_CREATE (R367). -/
def imageCreate (s : State) (req : Requester) (id : Nat) : State :=
  s.modCommand req 10 (fun s =>
    let r := s.imgDesc
    let d := r.2
    let n := fld d 8 8
    let code := if s.wdl.readOnly then 7
      else if r.1 ≠ 0 then r.1
      else if !(decide (id ≠ 0) && fld d 4 4 == 1 && decide (0 < n) && decide (n % 16384 = 0) && decide (n ≤ 8796093022208) &&
        zeros d 0x10 16) then 2
      else if (s.image id).isSome then 3
      else if s.storeRoom < n then 5 else 0
    (if code = 0 then s.setImage id { bytes := n } else s).cmdDone 10 code id)

/-- IMAGE_WRITE (R367): both copies of a range are programmed. -/
def imageWrite (s : State) (req : Requester) (id : Nat) : State :=
  s.modCommand req 10 (fun s =>
    let r := s.imgDesc
    let d := r.2
    let off := fld d 8 8
    let src := fld d 0x10 8
    let len := fld d 0x18 4
    if s.wdl.readOnly then s.cmdDone 10 7 id
    else if r.1 ≠ 0 then s.cmdDone 10 r.1 id
    else if !(fld d 4 4 == 1 && decide (off % 16384 = 0) && decide (src % 4096 = 0) && decide (0 < len) && decide (len % 16384 = 0) &&
        decide (len ≤ 1073741824) && s.inHost src len && zeros d 0x1C 4) then s.cmdDone 10 2 id
    else match s.image id with
      | none => s.cmdDone 10 3 id
      | some x =>
        if x.ready then s.cmdDone 10 3 id
        else if x.bytes < off + len then s.cmdDone 10 2 id
        else
          let s := { s with mem := Memory.copy s.mem (Space.key .lpddr src) (Space.key (.image id) off) len }
          let s := (List.range (len / 16384)).foldl (fun s i => s.writeLogical 2 (lpImage id (off / 16384 + i))) s
          let whole (i : Nat) : Bool := (s.copies 2 (lpImage id (off / 16384 + i))).length == 2
          let single := x.single || !(List.range (len / 16384)).all whole
          (s.setImage id { x with written := x.written ++ [(off, off + len)], single := single }).cmdDone 10 0 id)

/-- How far written ranges reach from a byte without a gap. -/
def reach (rs : List (Nat × Nat)) : Nat → Nat → Nat
  | 0, n => n
  | fuel + 1, n => reach rs fuel (rs.foldl (fun m r => if r.1 ≤ m then max m r.2 else m) n)

/-- IMAGE_SEAL (R367): every range written makes the image READY. -/
def imageSeal (s : State) (req : Requester) (id : Nat) : State :=
  s.modCommand req 10 (fun s =>
    let r := s.imgDesc
    if r.1 ≠ 0 then s.cmdDone 10 r.1 id
    else match s.image id with
      | none => s.cmdDone 10 3 id
      | some x =>
        if x.ready ∨ reach x.written (x.written.length + 1) 0 < x.bytes then s.cmdDone 10 3 id
        else (s.setImage id { x with ready := true }).cmdDone 10 0 id)

/-- A staged plan names the image (R329, R367). -/
def State.imageUsed (s : State) (id : Nat) : Bool := s.cis.plans.any (fun e => e.2.regions.any (fun r => r.srcId == id))

/-- IMAGE_DELETE (R367, R359). -/
def imageDelete (s : State) (req : Requester) (id : Nat) : State :=
  s.modCommand req 10 (fun s =>
    let r := s.imgDesc
    if r.1 ≠ 0 then s.cmdDone 10 r.1 id
    else if (s.image id).isNone then s.cmdDone 10 3 id
    else if s.imageUsed id then s.cmdDone 10 4 id
    else
      let s := s.discard 2 (fun lp => decide (lp / 4294967296 = id))
      ({ s with wdl := { s.wdl with images := Tbl.del s.wdl.images id } }).cmdDone 10 0 id)

/-- LAYOUT is held off (R353). -/
def State.layoutBusy (s : State) : Bool :=
  !s.cis.plans.isEmpty || (List.range 4).any (fun g => decide ((s.gen g).state ≠ .free)) || !s.wdl.images.isEmpty ||
    s.req.slots.any (fun e => decide (e.2.state = .parked))

/-- LAYOUT (R353): the record is replaced and every partition but boot and journal is erased. -/
def layout (s : State) (req : Requester) : State :=
  s.modCommand req 10 (fun s =>
    let r := s.imgDesc
    let d := r.2
    let i := fld d 8 2
    let p := fld d 0xA 2
    let q := fld d 0xC 2
    if s.wdl.readOnly then s.cmdDone 10 7 0
    else if r.1 ≠ 0 then s.cmdDone 10 r.1 0
    else if !(fld d 4 4 == 1 && decide (16 ≤ i) && decide (16 ≤ p) && decide (16 ≤ q) && decide (i + p + q + 2 + 72 + 512 ≤ 9557) &&
        zeros d 0xE 18) then s.cmdDone 10 2 0
    else if s.layoutBusy then s.cmdDone 10 6 0
    else
      let own (b : Block) : Bool := decide (2 ≤ b.part) &&
        (decide (b.state = .opened) || decide (b.state = .verify) || decide (b.state = .sealed))
      let blocks := s.wdl.blocks.map (fun e => if own e.2 then (e.1, { e.2 with state := BlkState.released }) else e)
      ({ s with wdl := { s.wdl with layout := { index := i, passage := p, spill := q, gen := s.wdl.layout.gen + 1 }
                                    blocks := blocks, map := [] } }).cmdDone 10 0 0)

/-! ### Meanings -/

/-- ERASE_INTENT. -/
def execEraseIntent (w loc : Nat) (s : State) : Host.Outcome State Fault Refusal := .next (eraseIntent s w loc)
/-- ERASE_ISSUE. -/
def execEraseIssue (loc : Nat) (s : State) : Host.Outcome State Fault Refusal := .next (eraseIssue s loc)
/-- ERASE_COMPLETE. -/
def execEraseComplete (loc : Nat) (ok : Bool) (s : State) : Host.Outcome State Fault Refusal := .next (eraseComplete s loc ok)
/-- BLOCK_VERIFY. -/
def execBlockVerify (loc : Nat) (failing : List Nat) (s : State) : Host.Outcome State Fault Refusal :=
  .next (blockVerify s loc failing)
/-- RECLAIM. -/
def execReclaim (well part : Nat) (s : State) : Host.Outcome State Fault Refusal := .next (reclaim s well part)
/-- PROGRAM_FAIL. -/
def execProgramFail (loc : Nat) (erase : Bool) (s : State) : Host.Outcome State Fault Refusal := .next (programFail s loc erase)
/-- READ_ONLY_ENTRY. -/
def execReadOnlyEntry (well : Nat) (s : State) : Host.Outcome State Fault Refusal := .next (readOnlyEntry s well)
/-- HOLDUP_MEASURE. -/
def execHoldupMeasure (dj : Nat) (s : State) : Host.Outcome State Fault Refusal := .next (holdupMeasure s dj)
/-- MAP_CHECKPOINT. -/
def execMapCheckpoint (s : State) : Host.Outcome State Fault Refusal := .next (mapCheckpoint s)
/-- WELL_FAILURE. -/
def execWellFailure (n : Nat) (s : State) : Host.Outcome State Fault Refusal := .next (s.wellFailure n)
/-- WELL_RETURN. -/
def execWellReturn (n : Nat) (s : State) : Host.Outcome State Fault Refusal := .next (wellReturn s n)
/-- IMAGE_CREATE. -/
def execImageCreate (req : Requester) (id : Nat) (s : State) : Host.Outcome State Fault Refusal :=
  .next (imageCreate s req (id % 65536))
/-- IMAGE_WRITE. -/
def execImageWrite (req : Requester) (id : Nat) (s : State) : Host.Outcome State Fault Refusal :=
  .next (imageWrite s req (id % 65536))
/-- IMAGE_SEAL. -/
def execImageSeal (req : Requester) (id : Nat) (s : State) : Host.Outcome State Fault Refusal :=
  .next (imageSeal s req (id % 65536))
/-- IMAGE_DELETE. -/
def execImageDelete (req : Requester) (id : Nat) (s : State) : Host.Outcome State Fault Refusal :=
  .next (imageDelete s req (id % 65536))
/-- LAYOUT. -/
def execLayout (req : Requester) (s : State) : Host.Outcome State Fault Refusal := .next (layout s req)

end Sys2Proof.Machine
end

