-- ==== Sys2Proof/Machine/Ziori.lean ====
section
/-! DEFINITION. Ziori: messages that arrive, credits and acknowledgements, resends, frame marks, joining and leaving a
ring, lanes and ports that fail (R419 to R440, R51). -/

namespace Sys2Proof.Machine

/-! ### Messages that arrive (R422, R423, R426, R427) -/

/-- Count and forget a message (R422, R427): ZIO_UNREACH of the Wellhead owning a port. -/
def State.zioUnreach (s : State) (port n : Nat) : State := s.bump (portWh port) 33 0x110 n

/-- Flits that arrive on a port are counted, and a resend ends the dropping of R425. -/
def State.zioArrived (s : State) (port n : Nat) : State :=
  let x := s.zport port
  let s := s.setZport port { x with rxSeq := (x.rxSeq + n) % 4096, dropping := false }
  s.bumpWide (portWh port) 33 2 (portLocal port) n

/-- The pair of a ring-in port forwards ring DATA: joined, leaving with its bypass open, or past the training of R433. -/
def State.zioForwards (s : State) (i : Nat) : Bool :=
  let x := s.zpair i
  let up := decide ((s.zport (2 * i)).state = 3) && decide ((s.zport (2 * i + 1)).state = 3)
  up && (decide (x.state = 2) || (x.opened && (decide (x.state = 1) || decide (x.state = 3))))

/-- Forward a message on the ring-out port of its pair (R423). -/
def State.zioForward (s : State) (m : ZioMsg) : State :=
  let n := zioFlits (16 * m.length)
  let o := m.port + 1
  let x := s.zport o
  let s := s.setZport o (x.keep (zioMsgFlits { m with flits := n } x.txSeq x.rxSeq))
  s.bumpWide (portWh o) 33 1 (portLocal o) n

/-- A port takes DATA for the module: a point-to-point port in service, a ring-in port whose pair is JOINED (R432). -/
def State.zioTakes (s : State) (p : Nat) : Bool :=
  s.boot.ready && s.zioUp p && decide (p < 48) && (decide (16 ≤ p) || decide (p % 2 = 0))

/-- The advance a message carries, made after its data are committed (R427). -/
def State.zioAdvance (s : State) (m : ZioMsg) : State := if m.advEn then s.advance m.advCtr 1 else s

/-- Take a message whose op is `op`: it is for this module, next in its stream, and its space is one of `spaces`; a message below
the next expected eseq is dropped, and one outside the table is counted in ZIO_UNREACH (R422, R423, R426). -/
def State.zioTake (s : State) (m : ZioMsg) (op : Nat) (spaces : List Nat) (f : State → State) : State :=
  let n := zioFlits (16 * m.length)
  let k := m.src * 4 + m.vc
  if m.dst ≠ s.node ∧ m.port < 16 then
    (if s.zioForwards (m.port / 2) && decide (m.port % 2 = 0) then (s.zioArrived m.port n).zioForward m else s)
  else if !s.zioTakes m.port then s
  else
    let s := s.zioArrived m.port n
    if m.dst ≠ s.node then s
    else if m.eseq % 4294967296 ≠ Tbl.val 0 s.zio.rxNext k then s
    else
      let s : State := { s with zio := { s.zio with rxNext := Tbl.set 0 s.zio.rxNext k ((m.eseq + n) % 4294967296) } }
      if m.op ≠ op ∨ spaces.contains m.space = false then s.zioUnreach m.port 1 else f s

/-- The packets of the leg from the Wellhead of a message's port to the Tiller it names (R18, R165). -/
def legPackets (m : ZioMsg) (kind vc : Nat) : List Packet :=
  cutRuns (packetHead (portWh m.port) (8 + m.tiller) kind vc 0) (if m.advEn then 0x80000000 + m.advCtr else 0)
    [(m.addr, m.payload.take (16 * m.length))]

/-- ZIO_WRITE (R422, R427): bytes for an SRAM, or for the host area of LPDDR. -/
def zioWrite (s : State) (m : ZioMsg) : State :=
  s.zioTake m 0 [0, 2] (fun s =>
    let bs := m.payload.take (16 * m.length)
    if m.space = 2 then
      (if s.inHost m.addr bs.length then (s.store .lpddr m.addr bs).zioAdvance m else s.zioUnreach m.port 1)
    else if 68 ≤ m.tiller then s.zioUnreach m.port 1
    else s.leg (legPackets m 0 2) (fun s => (s.sramWrite m.tiller m.addr bs).zioAdvance m))

/-- ZIO_PARTIAL (R422, R153): the words are handed to the destination's exact-partial adder with the message's advance. -/
def zioPartial (s : State) (m : ZioMsg) : State :=
  s.zioTake m 1 [0] (fun s =>
    if 68 ≤ m.tiller then s.zioUnreach m.port 1
    else s.leg (legPackets m 3 3) (fun s =>
      let r := s.tiller m.tiller
      let words := (List.range m.length).foldl (fun w i => Tbl.put w i (fld m.payload (16 * i) 16)) []
      let c : Contrib := { addr := m.addr, words := words, ctr := if m.advEn then 0x80000000 + m.advCtr else 0 }
      s.setTiller m.tiller { r with adder := r.adder ++ [c] }))

/-- ZIO_CTR_ADD (R427): the counter is advanced after every earlier message of the stream. The spec gives the amount no field:
it is a free value. -/
def zioCtrAdd (s : State) (m : ZioMsg) : State :=
  s.zioTake m 2 [0] (fun s =>
    let r := s.drawWord
    r.2.advance m.advCtr r.1.toNat)

/-- ZIO_COMMAND (R61, R62): the committed message is received as a command from source port 2. -/
def zioCommand (s : State) (m : ZioMsg) : State :=
  s.zioTake m 3 [0] (fun s => (s.receive (decodeCmd 2 (m.payload.take 64))).zioAdvance m)

/-- ZIO_RECORD (R422): the record is delivered once. -/
def zioRecord (s : State) (m : ZioMsg) : State :=
  s.zioTake m 4 [0] (fun s =>
    let z : ZioSt := { s.zio with records := s.zio.records ++ [m.payload.take (16 * m.length)] }
    State.zioAdvance { s with zio := z } m)

/-! ### Credits, acknowledgements, resends (R424 to R427) -/

/-- A CTRL flit is taken: a point-to-point port in service; a port of a pair JOINED, or LEAVING and still acknowledged. -/
def State.zioCtrlTaken (s : State) (p : Nat) : Bool :=
  s.boot.ready && decide (p < 48) && decide ((s.zport p).state = 3) &&
    (decide (16 ≤ p) || decide ((s.zpair (p / 2)).state = 2) || decide ((s.zpair (p / 2)).state = 3))

/-- An acknowledged eseq is at or past another: eseq has 32 bits and goes on at 0 (R421; DEDUCED, log entry 100). -/
def eseqCovered (e eack : Nat) : Bool := decide ((eack + 4294967296 - e % 4294967296) % 4294967296 < 2147483648)

/-- The messages of a stream that an end-to-end acknowledgement covers leave the replay store (R426). -/
def State.zioAck (s : State) (dst vc eack : Nat) : State :=
  let mine (o : ZioOut) : Bool := decide (o.msg.dst = dst) && decide (o.msg.vc = vc)
  let k := dst * 4 + vc
  let out := s.zio.out.filter (fun o => !(mine o && o.sent && eseqCovered (o.msg.eseq + o.msg.flits) eack))
  if out.length = s.zio.out.length then s
  else
    let ack := if out.any mine then Tbl.put s.zio.ackNs k s.nowNs else Tbl.del s.zio.ackNs k
    { s with zio := { s.zio with out := out, ackNs := ack } }

/-- ZIO_CTRL (R424 to R426): credits return, the link acknowledgement or NAK moves the link sequence, and the acknowledged
messages of stream (`src`, `dst`, `vc`) are released; the messages this lets leave are sent. -/
def zioCtrl (s : State) (port vc credits : Nat) (nak : Bool) (lseq src dst eack : Nat) : State :=
  if !s.zioCtrlTaken port then s
  else
    let x := s.zport port
    let again := (x.txSeq + 4096 - lseq % 4096) % 4096
    let x := { x with store := x.store.drop (x.store.length - again) }
    let x := if vc = 1 then x else x.setCredits vc (min (x.credits vc + credits) (zioBuffer vc))
    let s := s.setZport port { x with txAck := lseq % 4096 }
    let s := if nak then
        (s.bumpWide (portWh port) 33 3 (portLocal port) again).bumpWide (portWh port) 33 1 (portLocal port) again
      else s
    let s := if src = s.node then s.zioAck dst vc eack else s
    s.zioPump

/-- HEADER_CRC_NAK (R425): a codeword FEC could not correct spoils a header; that flit and every later one are dropped until the
sender resends from the sequence the NAK names. -/
def headerCrcNak (s : State) (port : Nat) : State :=
  if 48 ≤ port ∨ (s.zport port).state ≠ 3 ∨ (s.zport port).dropping = true then s
  else
    let s := s.setZport port { s.zport port with dropping := true }
    (s.bumpWide (portWh port) 33 4 (portLocal port) 1).event (portWh port) 33 [sqBit 0x118 1] []

/-- E2E_RESEND (R426): after a retrain or a change of partner every stream of the port is resent from its oldest
unacknowledged message. -/
def e2eResend (s : State) (port : Nat) : State :=
  if !s.zioUp port then s
  else
    let mine := s.zio.out.filter (fun o => decide (o.msg.port = port) && o.sent)
    let s := s.bumpWide (portWh port) 33 5 (portLocal port) mine.length
    let out := s.zio.out.map (fun o => if o.msg.port = port then { o with sent := false } else o)
    State.zioPump { s with zio := { s.zio with out := out } }

/-- STREAM_TEARDOWN (R427): after 100 ms without an acknowledgement the stream's messages of a Wellhead are dropped and
counted; their advances are never made. -/
def streamTeardown (s : State) (dst vc w : Nat) : State :=
  let k := dst * 4 + vc
  let mine (o : ZioOut) : Bool := decide (o.msg.dst = dst) && decide (o.msg.vc = vc)
  let gone := s.zio.out.filter (fun o => mine o && decide (portWh o.msg.port = w))
  match Tbl.look s.zio.ackNs k with
  | none => s
  | some t =>
    if gone.isEmpty ∨ s.nowNs < t + 100000000 then s
    else
      let out := s.zio.out.filter (fun o => !(mine o && decide (portWh o.msg.port = w)))
      let ack := if out.any mine then s.zio.ackNs else Tbl.del s.zio.ackNs k
      let s : State := { s with zio := { s.zio with out := out, ackNs := ack } }
      ((s.bump w 33 0x110 gone.length).err w 33 4).zioPump

/-! ### Frame marks (R428 to R430) -/

/-- A pair's bit of ZIO_PAIR_CTL. -/
def State.pairCtl (s : State) (i : Nat) : Nat := (s.reg (i / 2) 33 (0x100 + 4 * (i % 2))).toNat

/-- The payload of a frame mark sent on a port at a phase (R428). -/
def State.markBytes (s : State) (port phase : Nat) : List Byte :=
  let i := port / 2
  let ring := decide (port < 16)
  let x := s.zpair (if ring then i else s.zio.timing.getD 8)
  let joined := decide (x.state = 2)
  leBytes 8 s.strokeN ++ leBytes 1 phase ++ leBytes 1 (if joined then x.hops else 255) ++
    leBytes 1 (if joined then x.authority else 0) ++ leBytes 1 (if ring then i else 255) ++
    leBytes 2 (if ring then s.pairCtl i % 65536 else 0) ++ leBytes 2 0

/-- The module's present stroke is the one lengthened to join a ring (R51). -/
def State.lengthened (s : State) : Bool := s.zio.takeStroke.isSome

/-- FRAME_MARK_SEND (R428): a port that is up sends a mark; none leaves the joining pair's ring-out port in the lengthened
stroke (R51). -/
def frameMarkSend (s : State) (port phase : Nat) : State :=
  if 48 ≤ port ∨ 4 < phase ∨ (s.zport port).state ≠ 3 then s
  else if s.lengthened ∧ s.zio.timing = some (port / 2) ∧ port < 16 ∧ port % 2 = 1 then s
  else
    let x := s.zport port
    let f := zioFlit (zioHeader 3 0 true true 1 x.txSeq s.node 255 x.rxSeq 0) (s.markBytes port phase)
    let s := s.setZport port (x.keep [f])
    (s.bumpWide (portWh port) 33 1 (portLocal port) 1).answer (leNat f)

/-- How far a mark's stroke and phase lie from the module's own, in nanoseconds. -/
def State.markError (s : State) (m : FrameMark) : Int := m.offsetNs - ((m.stroke : Int) - (s.strokeN : Int)) * 50000

/-- The ring's timing authority as a mark shows it to the module, with the module's hops: the joined member with the lowest
node id (R429). -/
def State.markAuthority (s : State) (m : FrameMark) : Nat × Nat :=
  if m.authority = 0 ∨ s.node ≤ m.authority then (s.node, 0) else (m.authority, min (m.hops + 1) 254)

/-- The timing pair is the lowest-numbered joined pair (R429). -/
def State.retime (s : State) : State :=
  { s with zio := { s.zio with timing := (List.range 8).find? (fun i => decide ((s.zpair i).state = 2)) } }

/-- FRAME_MARK_RECEIVE (R429, R430, R51): a joined pair's marks carry the authority and hops; those of the timing pair
correct the phase by at most 4 ns and are counted when more than 100 ns off. -/
def frameMarkReceive (s : State) (m : FrameMark) : State :=
  if 48 ≤ m.port ∨ (s.zport m.port).state ≠ 3 then s
  else
    let s := s.zioArrived m.port 1
    let i := m.port / 2
    if 16 ≤ m.port ∨ m.port % 2 = 1 ∨ (s.zpair i).state ≠ 2 then s
    else
      let a := s.markAuthority m
      let s := s.setZpair i { s.zpair i with authority := a.1, hops := a.2 }
      if s.zio.timing ≠ some i ∨ s.lengthened = true then s
      else
        let e := s.markError m
        let bad := if e.natAbs ≤ 100 then 0 else s.zio.badMarks + 1
        let trim := if a.1 = s.node then 0 else max (-4) (min 4 e)
        { s with zio := { s.zio with badMarks := bad, trimNs := trim } }

/-! ### Joining and leaving (R431 to R435) -/

/-- A write of a pair's ZIO_PAIR_CTL (R435, R439). -/
def State.pairCtlWrite (s : State) (i v : Nat) : State :=
  let x := s.zpair i
  let old := s.pairCtl i
  if (x.state = 1 ∨ x.state = 2) ∧ v % 65536 ≠ old % 65536 then s.err (i / 2) 33 2
  else
    let join := bitAt v 31
    let s := s.setRegN (i / 2) 33 (0x100 + 4 * (i % 2)) (b2n join * 0x80000000 + v % 65536)
    if join then s
    else s.setZpair i { x with barred := false, leave := x.leave || decide (x.state = 1) || decide (x.state = 2) }

/-- JOIN_CLEAR (R435): join is cleared through the pair's register; the leave begins at the next boundary. -/
def joinClear (s : State) (req : Requester) (i : Nat) : State :=
  if 8 ≤ i then s else s.gated req (i / 2) 33 3 (fun s => s.pairCtlWrite i (s.pairCtl i % 65536))

/-- A port begins training with its link partner (R433, R436). -/
def State.train (s : State) (p : Nat) : State :=
  let x := s.zport p
  if x.state = 2 ∨ x.state = 4 then s else s.setZport p { x with state := 1, width := 0, peer := 0 }

/-- A pair may join: join is set and not barred by R430, the module is in service, its node is 1 to 254 (R432). -/
def State.mayJoin (s : State) (i : Nat) : Bool :=
  bitAt (s.pairCtl i) 31 && !(s.zpair i).barred && s.boot.ready && decide (1 ≤ s.node) && decide (s.node ≤ 254)

/-- A join begins: the bypass opens and both ports train (R433 steps 1 and 2). -/
def State.beginJoin (s : State) (i : Nat) : State :=
  let s := s.setZpair i { s.zpair i with state := 1, opened := true, leave := false, failed := false, checked := none }
  (s.train (2 * i)).train (2 * i + 1)

/-- A pair leaves (R434). -/
def State.beginLeave (s : State) (i : Nat) : State :=
  (s.setZpair i { s.zpair i with state := 3, leave := false, checked := none, leftNs := s.nowNs }).retime

/-- A leaving pair goes on forwarding for up to 1 ms, until its own streams are acknowledged (R434). -/
def State.leftLong (s : State) (i : Nat) : Bool :=
  decide ((s.zpair i).leftNs + 1000000 ≤ s.nowNs) || s.zio.out.all (fun o => decide (o.msg.port / 2 ≠ i ∨ 16 ≤ o.msg.port) || !o.sent)

/-- R433 step 3: the marks that arrive are held against ring_id and the module's own timing. -/
def State.checkMarks (s : State) (i : Nat) (m : FrameMark) : State :=
  if m.ringId ≠ s.pairCtl i % 65536 then (s.beginLeave i).err (i / 2) 33 2
  else if s.zio.timing.isSome ∧ 100 < (s.markError m).natAbs then (s.beginLeave i).err (i / 2) 33 3
  else s.setZpair i { s.zpair i with checked := some m, checkedAt := s.strokeN }

/-- The ring's stroke number at the module's next boundary, and the time that boundary waits for it (R51). -/
def joinAlign (m : FrameMark) (checkedAt strokeN : Nat) : Nat × Nat :=
  let wait := (m.offsetNs % 50000).toNat
  let next : Int := (m.stroke : Int) + ((strokeN : Int) + 1 - (checkedAt : Int)) - m.offsetNs / 50000
  (next.toNat % 18446744073709551616, wait)

/-- R433 step 4: the pair becomes JOINED; a module with no timing pair aligns in the lengthened stroke (R51). -/
def State.joined (s : State) (i : Nat) (m : FrameMark) : State :=
  let x := s.zpair i
  let a := s.markAuthority m
  let align := s.zio.timing.isNone && decide (m.authority ≠ 0)
  let al := joinAlign m x.checkedAt s.strokeN
  let s := (s.setZpair i { x with state := 2, checked := none, authority := a.1, hops := a.2 }).retime
  let s : State := if align then
      { s with time := { s.time with strokeNs := 50000 + al.2 }, zio := { s.zio with takeStroke := some al.1, badMarks := 0 } }
    else s
  (s.event (i / 2) 33 [sqBit 0x118 0] []).zioPump

/-- PAIR_JOIN (R432, R433): the next step of a join. A pair in LOOPBACK that may join opens its bypass at a boundary and trains; once
both ports are up, a JOINING pair checks the marks; once they are checked it becomes JOINED at the next boundary. -/
def pairJoin (s : State) (i : Nat) (mark : Option FrameMark) : State :=
  let x := s.zpair i
  let up := decide ((s.zport (2 * i)).state = 3) && decide ((s.zport (2 * i + 1)).state = 3)
  if 8 ≤ i then s
  else if x.state = 0 then (if s.mayJoin i && s.atBoundary then s.beginJoin i else s)
  else if x.state ≠ 1 ∨ x.leave = true ∨ up = false then s
  else match x.checked with
    | some m => if s.atBoundary && decide (x.checkedAt < s.strokeN) then s.joined i m else s
    | none => match mark with
      | none => s
      | some m => s.checkMarks i m

/-- The bypass of a pair closes and its ports meet their own looped transmitters (R431, R434). -/
def State.closePair (s : State) (i : Nat) : State :=
  let x := s.zpair i
  let s := s.setZpair i { x with
    state := if x.failed then 4 else 0, opened := false, leave := false, failed := false, authority := 0, hops := 255
    checked := none }
  (((s.train (2 * i)).train (2 * i + 1)).retime).event (i / 2) 33 [sqBit 0x118 0] []

/-- PAIR_LEAVE (R434, R435): at the next boundary a pair told to leave stops originating ring traffic; the bypass of a JOINING
pair, and that of a LEAVING one whose streams are acknowledged or whose time is up, closes. -/
def pairLeave (s : State) (i : Nat) : State :=
  let x := s.zpair i
  if 8 ≤ i then s
  else if x.state = 2 ∧ x.leave = true ∧ s.atBoundary = true then s.beginLeave i
  else if (x.state = 1 ∧ x.leave = true ∧ s.atBoundary = true) ∨ (x.state = 3 ∧ s.leftLong i = true) then s.closePair i
  else s

/-- TIMING_LEAVE (R430): after 16 marks in a row more than 100 ns off, the module leaves every ring it has joined and joins
again only when join is cleared and set. -/
def timingLeave (s : State) : State :=
  match s.zio.timing with
  | none => s
  | some i =>
    if s.zio.badMarks < 16 then s
    else
      let s := (List.range 8).foldl (fun s j =>
        let x := s.zpair j
        if x.state = 2 then s.setZpair j { x with leave := true, barred := true } else s) s
      let s : State := { s with zio := { s.zio with badMarks := 0, trimNs := 0 } }
      (s.event (i / 2) 33 [sqBit 0x118 4] []).postFault 8 (i / 2) (2 * i)

/-! ### Lanes and ports (R436, R437) -/

/-- The lanes of the half a port retrains on: 4, or none when neither half is clean (R436). -/
def cleanHalf (good : Nat) : Bool := good % 16 == 15 || good / 16 % 16 == 15

/-- A port fails: FAULT 0x08, and a ring pair leaves and will be FAILED (R436). -/
def State.failPort (s : State) (p : Nat) : State :=
  let w := portWh p
  let s := s.setZport p { s.zport p with state := 4, width := 0, peer := 0 }
  let s := (s.event w 33 [sqBit 0x118 3] []).postFault 8 w p
  if 16 ≤ p then s
  else
    let x := s.zpair (p / 2)
    let s := s.setZpair (p / 2) { x with failed := true, leave := true, state := if x.state = 0 then 4 else x.state }
    s.retime

/-- LANE_DROP (R436): the lane is dropped; the port retrains at 4 lanes, or fails when neither half is clean. -/
def laneDrop (s : State) (p lane : Nat) : State :=
  let x := s.zport p
  if 48 ≤ p ∨ 8 ≤ lane ∨ x.state = 4 ∨ bitAt x.good lane = false then s
  else
    let w := portWh p
    let good := x.good - 2 ^ lane
    let s := s.setZport p { x with good := good }
    let s := (s.event w 33 [sqBit 0x118 2] []).postFault 7 w (8 * p + lane)
    if cleanHalf good then s.train p else s.failPort p

/-- The credits and link sequences of a port whose link has just trained. -/
def ZioPort.fresh (x : ZioPort) : ZioPort :=
  { x with cred0 := 128, cred2 := 1024, cred3 := 512, txSeq := 0, txAck := 0, rxSeq := 0, dropping := false, store := [] }

/-- PORT_TRAIN_RETRY (R437): a failed port attempts training; on success it is quarantined. -/
def portTrainRetry (s : State) (p : Nat) (trained : Bool) : State :=
  let x := s.zport p
  if 48 ≤ p ∨ x.state ≠ 4 ∨ trained = false then s
  else s.setZport p { x with state := 2, since := s.strokeN }

/-- PORT_QUARANTINE_END (R437): after at least 20,000 strokes of link tests a point-to-point port returns at a boundary as up, and a ring
pair into JOINING if its join bit is still 1; a port that does not pass is failed again. -/
def portQuarantineEnd (s : State) (p : Nat) (pass : Bool) : State :=
  let x := s.zport p
  if 48 ≤ p ∨ x.state ≠ 2 ∨ s.strokeN < x.since + 20000 then s
  else if !pass then s.setZport p { x with state := 4 }
  else if !s.atBoundary then s
  else if 16 ≤ p then
    let w := if x.good = 255 then 8 else if cleanHalf x.good then 4 else 0
    (s.setZport p { x.fresh with state := 3, width := w }).zioPump
  else
    let s := s.setZport p { x.fresh with state := 1 }
    let i := p / 2
    let other := s.zport (if p % 2 = 0 then p + 1 else p - 1)
    if (s.zpair i).state ≠ 4 ∨ other.state = 4 ∨ other.state = 2 then s
    else if s.mayJoin i then s.beginJoin i
    else s.setZpair i { s.zpair i with state := 0, failed := false, leave := false }

/-- ZIORI_PORT_TRAINED (R428, R432, R420): training with the link partner ends; the delay is measured and the port comes
up at 8 or 4 lanes. -/
def zioriPortTrained (s : State) (p lanes peer delay : Nat) : State :=
  let x := s.zport p
  if 48 ≤ p ∨ x.state = 2 ∨ x.state = 4 ∨ (lanes ≠ 4 ∧ lanes ≠ 8) ∨ (lanes = 8 ∧ x.good ≠ 255) ∨ cleanHalf x.good = false then s
  else (s.setZport p { x.fresh with state := 3, width := lanes, peer := peer % 256, delay := delay % 65536 }).zioPump

/-- NODE_WRITE (R435, R440): the node id is set while every pair is in LOOPBACK and no point-to-point port is up; otherwise a
write that changes it is dropped. -/
def State.nodeWrite (s : State) (v : Nat) : State :=
  let busy := (List.range 8).any (fun i => decide ((s.zpair i).state ≠ 0)) ||
    (List.range 48).any (fun p => decide (16 ≤ p) && decide ((s.zport p).state = 3))
  let n := v % 256
  if n = 255 ∨ (n ≠ s.node ∧ busy = true) then s.err 120 13 1 else s.setRegN 120 13 0x100 n

/-- NODE_WRITE through the gate. -/
def nodeWrite (s : State) (req : Requester) (v : Nat) : State := s.gated req 120 13 3 (fun s => s.nodeWrite v)

/-! ### Meanings -/

/-- ZIO_WRITE. -/
def execZioWrite (m : ZioMsg) (s : State) : Host.Outcome State Fault Refusal := .next (zioWrite s m)
/-- ZIO_PARTIAL. -/
def execZioPartial (m : ZioMsg) (s : State) : Host.Outcome State Fault Refusal := .next (zioPartial s m)
/-- ZIO_CTR_ADD. -/
def execZioCtrAdd (m : ZioMsg) (s : State) : Host.Outcome State Fault Refusal := .next (zioCtrAdd s m)
/-- ZIO_COMMAND. -/
def execZioCommand (m : ZioMsg) (s : State) : Host.Outcome State Fault Refusal := .next (zioCommand s m)
/-- ZIO_RECORD. -/
def execZioRecord (m : ZioMsg) (s : State) : Host.Outcome State Fault Refusal := .next (zioRecord s m)
/-- ZIO_CTRL. -/
def execZioCtrl (port vc credits : Nat) (nak : Bool) (lseq src dst eack : Nat) (s : State) :
    Host.Outcome State Fault Refusal := .next (zioCtrl s port vc credits nak lseq src dst eack)
/-- HEADER_CRC_NAK. -/
def execHeaderCrcNak (port : Nat) (s : State) : Host.Outcome State Fault Refusal := .next (headerCrcNak s port)
/-- E2E_RESEND. -/
def execE2eResend (port : Nat) (s : State) : Host.Outcome State Fault Refusal := .next (e2eResend s port)
/-- STREAM_TEARDOWN. -/
def execStreamTeardown (dst vc w : Nat) (s : State) : Host.Outcome State Fault Refusal := .next (streamTeardown s dst vc w)
/-- FRAME_MARK_SEND. -/
def execFrameMarkSend (port phase : Nat) (s : State) : Host.Outcome State Fault Refusal := .next (frameMarkSend s port phase)
/-- FRAME_MARK_RECEIVE. -/
def execFrameMarkReceive (m : FrameMark) (s : State) : Host.Outcome State Fault Refusal := .next (frameMarkReceive s m)
/-- PAIR_JOIN. -/
def execPairJoin (i : Nat) (m : Option FrameMark) (s : State) : Host.Outcome State Fault Refusal := .next (pairJoin s i m)
/-- JOIN_CLEAR. -/
def execJoinClear (req : Requester) (i : Nat) (s : State) : Host.Outcome State Fault Refusal := .next (joinClear s req i)
/-- PAIR_LEAVE. -/
def execPairLeave (i : Nat) (s : State) : Host.Outcome State Fault Refusal := .next (pairLeave s i)
/-- TIMING_LEAVE. -/
def execTimingLeave (s : State) : Host.Outcome State Fault Refusal := .next (timingLeave s)
/-- LANE_DROP. -/
def execLaneDrop (p lane : Nat) (s : State) : Host.Outcome State Fault Refusal := .next (laneDrop s p lane)
/-- PORT_TRAIN_RETRY. -/
def execPortTrainRetry (p : Nat) (ok : Bool) (s : State) : Host.Outcome State Fault Refusal := .next (portTrainRetry s p ok)
/-- PORT_QUARANTINE_END. -/
def execPortQuarantineEnd (p : Nat) (ok : Bool) (s : State) : Host.Outcome State Fault Refusal :=
  .next (portQuarantineEnd s p ok)
/-- ZIORI_PORT_TRAINED. -/
def execZioriPortTrained (p lanes peer delay : Nat) (s : State) : Host.Outcome State Fault Refusal :=
  .next (zioriPortTrained s p lanes peer delay)
/-- NODE_WRITE. -/
def execNodeWrite (req : Requester) (v : Word) (s : State) : Host.Outcome State Fault Refusal := .next (nodeWrite s req v.toNat)

end Sys2Proof.Machine
end

