-- ==== Sys2Proof/Machine/Check.lean ====
section
/-! DEFINITION. The check-value units: the CRC of a unit, register feeds, configuration and the scan engine (R480 to
R489). -/

namespace Sys2Proof.Machine

/-! ### The arithmetic (R481, R482) -/

/-- A unit (R481). -/
def State.chkUnit (s : State) (u : Nat) : ChkUnit := Tbl.val {} s.chk u

/-- Replace a unit. -/
def State.setChk (s : State) (u : Nat) (x : ChkUnit) : State := { s with chk := Tbl.set {} s.chk u x }

/-- Reverse the low `n` bits. -/
def reverseBits : Nat → Nat → Nat
  | 0, _ => 0
  | n + 1, v => v % 2 * 2 ^ n + reverseBits n (v / 2)

/-- One bit of R481's loop, from bit 7 down: `i` bits of the byte are still to come. -/
def chkBits (w p b : Nat) : Nat → Nat → Nat
  | 0, c => c
  | i + 1, c =>
    let top := (bitAt c (w - 1)) != (bitAt b i)
    let c := c * 2 % 2 ^ w
    chkBits w p b i (if top then c ^^^ p else c)

/-- Feed one byte. -/
def ChkUnit.feed (x : ChkUnit) (b : Byte) : ChkUnit :=
  let b := if x.refin then reverseBits 8 b.toNat else b.toNat
  { x with c := chkBits x.width (x.poly % 2 ^ x.width) b 8 (x.c % 2 ^ x.width) }

/-- Feed bytes in order. -/
def ChkUnit.feeds (x : ChkUnit) (bs : List Byte) : ChkUnit := bs.foldl ChkUnit.feed x

/-- The value of the bytes fed since the last restart (R481). -/
def ChkUnit.value (x : ChkUnit) : Nat :=
  (if x.refout then reverseBits x.width x.c else x.c % 2 ^ x.width) ^^^ (x.xorout % 2 ^ x.width)

/-- Restart a unit: c becomes init. -/
def ChkUnit.restart (x : ChkUnit) : ChkUnit := { x with c := x.init % 2 ^ x.width }

/-- Bytes of the stored check (R482). -/
def ChkUnit.checkBytes (x : ChkUnit) : Nat := ceilDiv x.width 8

/-- The stored check (R482): little-endian when refout is 1, else big-endian. -/
def ChkUnit.check (x : ChkUnit) : List Byte :=
  let bs := leBytes x.checkBytes x.value
  if x.refout then bs else bs.reverse

/-- A preset of R483: width, polynomial, initial value, reflection, final XOR. -/
def chkPreset : Nat → Option (Nat × Nat × Nat × Bool × Nat)
  | 1 => some (32, 0x1EDC6F41, 0xFFFFFFFF, true, 0xFFFFFFFF)
  | 2 => some (32, 0x04C11DB7, 0xFFFFFFFF, true, 0xFFFFFFFF)
  | 3 => some (32, 0x04C11DB7, 0xFFFFFFFF, false, 0)
  | 4 => some (64, 0x42F0E1EBA9EA3693, 0xFFFFFFFFFFFFFFFF, true, 0xFFFFFFFFFFFFFFFF)
  | 5 => some (64, 0x42F0E1EBA9EA3693, 0, false, 0)
  | 6 => some (24, 0x864CFB, 0xB704CE, false, 0)
  | 7 => some (16, 0x1021, 0xFFFF, false, 0)
  | 8 => some (16, 0x1021, 0, true, 0)
  | 9 => some (16, 0x8005, 0, true, 0)
  | 10 => some (8, 0x07, 0, false, 0)
  | _ => none

/-- Load a preset and restart (R483). -/
def ChkUnit.load (x : ChkUnit) (n : Nat) : ChkUnit :=
  match chkPreset n with
  | none => x
  | some (w, p, i, r, o) =>
    ChkUnit.restart { x with preset := n, width := w, poly := p, init := i, refin := r, refout := r, xorout := o }

/-- CHK_CFG as read. -/
def ChkUnit.cfg (x : ChkUnit) : Nat := x.preset * 0x10000000 + b2n x.refout * 512 + b2n x.refin * 256 + x.width

/-! ### Register accesses (R484, R485, R489) -/

/-- Write to a unit's register: through the gate, and dropped with BUSY while a scan is busy (R484). -/
def State.chkWrite (s : State) (req : Requester) (u : Nat) (f : State → ChkUnit → State) : State :=
  s.gated req (u / 4) 14 3 (fun s =>
    let x := s.chkUnit u
    if x.busy.isSome then s.err (u / 4) 14 1 else f s x)

/-- Feed bytes through a register (R484). -/
def State.chkFeed (s : State) (req : Requester) (u n v : Nat) : State :=
  if 16 ≤ u then s
  else s.chkWrite req u (fun s x => (s.setChk u (x.feeds (leBytes n v))).bumpWide (u / 4) 14 2 (u % 4) n)

/-- CHK_RESTART (R484). -/
def chkRestart (s : State) (req : Requester) (u : Nat) : State :=
  if 16 ≤ u then s else s.chkWrite req u (fun s x => s.setChk u x.restart)

/-- CHK_CFG_WRITE (R483, R489): a width outside 3 to 64 or a preset above 10 is dropped with BAD_CONFIG. -/
def chkCfgWrite (s : State) (req : Requester) (u v : Nat) : State :=
  if 16 ≤ u then s
  else s.chkWrite req u (fun s x =>
    let n := bitsOf v 31 28
    let w := v % 128
    if 10 < n ∨ (n = 0 ∧ (w < 3 ∨ 64 < w)) then s.err (u / 4) 14 2
    else if n ≠ 0 then s.setChk u (x.load n)
    else s.setChk u { x with preset := 0, width := w, refin := bitAt v 8, refout := bitAt v 9, c := x.c % 2 ^ w })

/-- Replace the low or high word of a parameter. -/
def halfPut (hi : Bool) (old v : Nat) : Nat :=
  if hi then old % 4294967296 + v * 4294967296 else old / 4294967296 * 4294967296 + v

/-- A write of a word of the indirect space (R489): a parameter word makes the preset CUSTOM (R483); bits at and above the
width are ignored (R481). -/
def State.chkParam (s : State) (u word v : Nat) : State :=
  let x := s.chkUnit u
  let hi := decide (word % 2 = 1)
  let m := 2 ^ x.width
  if x.busy.isSome then s.err (u / 4) 14 1
  else match word / 2 with
    | 0 => s.setChk u { x with preset := 0, poly := halfPut hi x.poly v % m }
    | 1 => s.setChk u { x with preset := 0, init := halfPut hi x.init v % m }
    | 2 => s.setChk u { x with preset := 0, xorout := halfPut hi x.xorout v % m }
    | _ => s

/-- A word of the indirect space as read (R489). -/
def ChkUnit.paramWord (x : ChkUnit) (word : Nat) : Nat :=
  let v := match word / 2 with
    | 0 => x.poly
    | 1 => x.init
    | 2 => x.xorout
    | _ => 0
  let v := v % 2 ^ x.width
  if word % 2 = 1 then v / 4294967296 else v % 4294967296

/-! ### The scan engine (R486 to R488) -/

/-- Fields of a scan descriptor are as R486 lists; `k` is the length of the check. -/
def scanFieldsOk (d : List Byte) (k : Nat) : Bool :=
  let op := fld d 5 1
  let len := fld d 0x18 4
  fld d 4 1 == 1 && decide (op ≤ 2) && zeros d 6 2 && decide (1 ≤ len) && decide (len ≤ 1073741824) &&
    decide (fld d 0x1C 4 / 131072 % 16384 = 0) && !(decide (op = 2) && decide (len ≤ k))

/-- Bytes a scan writes at its destination. -/
def scanOut (d : List Byte) (k : Nat) : Nat :=
  let len := fld d 0x18 4
  match fld d 5 1 with
  | 1 => len + k
  | 2 => len - k
  | _ => 0

/-- Every range of a scan lies in the host area, and dst does not overlap src unless it begins with it
(R488). -/
def State.scanAddrsOk (s : State) (d : List Byte) (k : Nat) : Bool :=
  let src := fld d 8 8
  let dst := fld d 0x10 8
  let len := fld d 0x18 4
  let out := scanOut d k
  let inPlace := decide (dst = 0)
  s.inHost src len && (!(inPlace && decide (fld d 5 1 = 1)) || s.inHost (src + len) k) &&
    (inPlace || decide (out = 0) ||
      (s.inHost dst out && (decide (dst + out ≤ src) || decide (src + len ≤ dst) || decide (dst = src))))

/-- The status of a scan before it runs (R488): 0, or 2 BAD_CRC, 3 BAD_FIELD, 4 BAD_ADDR. -/
def State.scanCheck (s : State) (d : List Byte) (k : Nat) : Nat :=
  if !crcOk d then 2 else if !scanFieldsOk d k then 3 else if !s.scanAddrsOk d k then 4 else 0

/-- A scan runs (R487): the state after its writes, the unit, its status and its payload bytes. -/
def State.scanRun (s : State) (x : ChkUnit) (d : List Byte) : State × ChkUnit × Nat × Nat :=
  let src := fld d 8 8
  let dst := fld d 0x10 8
  let len := fld d 0x18 4
  let k := x.checkBytes
  let bs := s.load .lpddr src len
  match fld d 5 1 with
  | 0 => (s, x.restart.feeds bs, 0, len)
  | 1 =>
    let x := x.restart.feeds bs
    let s := if dst = 0 then s else s.store .lpddr dst bs
    (s.store .lpddr ((if dst = 0 then src else dst) + len) x.check, x, 0, len)
  | _ =>
    let x := x.restart.feeds (bs.take (len - k))
    if x.check = bs.drop (len - k) then
      (if dst = 0 then s else s.store .lpddr dst (bs.take (len - k)), x, 0, len - k)
    else (s, x, 1, 0)

/-- CHK_SCAN_GO of a unit (R486 to R488) for a descriptor of op `op`: the scan moves its bytes and is busy until it completes;
a descriptor that is checked and of another op is the event of another row. -/
def State.scanGo (s : State) (req : Requester) (u op : Nat) : State :=
  if 16 ≤ u then s
  else s.chkWrite req u (fun s x =>
    let r := 0x200 + 0x40 * (u % 4)
    let addr := (s.reg (u / 4) 14 (r + 0x14)).toNat / 32 * 32 + (s.reg (u / 4) 14 (r + 0x18)).toNat % 65536 * 4294967296
    let d := s.load .lpddr addr 32
    if !s.inHost addr 32 then s.setChk u { x.restart with busy := some (4, 0, 0) }
    else
      let st := s.scanCheck d x.checkBytes
      if st ≠ 0 then s.setChk u { x.restart with busy := some (st, 0, fld d 0x1C 4) }
      else if fld d 5 1 ≠ op then s
      else
        let g := s.scanRun x d
        let fed := if op = 2 then fld d 0x18 4 - x.checkBytes else fld d 0x18 4
        (g.1.setChk u { g.2.1 with busy := some (g.2.2.1, g.2.2.2, fld d 0x1C 4) }).bumpWide (u / 4) 14 2 (u % 4) fed)

/-- CHK_SCAN_DONE (R488): RESULT reads DONE with the status, then done_ctr advances. -/
def chkScanDone (s : State) (u : Nat) : State :=
  let x := s.chkUnit u
  match x.busy with
  | none => s
  | some (st, n, ctr) =>
    let w := u / 4
    let s := s.setChk u { x with busy := none, status := some st, payload := n }
    let s := s.bumpWide w 14 3 (u % 4) 1
    let s := if st = 1 then s.bumpWide w 14 4 (u % 4) 1 else s
    (s.event w 14 (sqBit 0x118 (u % 4) :: (if st = 1 then [sqBit 0x118 (4 + u % 4)] else [])) []).advanceFld ctr 1

/-- CHK_RESULT as read. -/
def ChkUnit.result (x : ChkUnit) : Nat :=
  if x.busy.isSome then 0x10000000
  else match x.status with
    | none => 0
    | some st => 0x30000000 + st * 0x1000000

/-! ### Meanings -/

/-- CHK_FEED8. -/
def execChkFeed8 (req : Requester) (u : Nat) (v : Word) (s : State) : Host.Outcome State Fault Refusal :=
  .next (s.chkFeed req u 1 v.toNat)
/-- CHK_FEED16. -/
def execChkFeed16 (req : Requester) (u : Nat) (v : Word) (s : State) : Host.Outcome State Fault Refusal :=
  .next (s.chkFeed req u 2 v.toNat)
/-- CHK_FEED32. -/
def execChkFeed32 (req : Requester) (u : Nat) (v : Word) (s : State) : Host.Outcome State Fault Refusal :=
  .next (s.chkFeed req u 4 v.toNat)
/-- CHK_RESTART. -/
def execChkRestart (req : Requester) (u : Nat) (s : State) : Host.Outcome State Fault Refusal := .next (chkRestart s req u)
/-- CHK_CFG_WRITE. -/
def execChkCfgWrite (req : Requester) (u : Nat) (v : Word) (s : State) : Host.Outcome State Fault Refusal :=
  .next (chkCfgWrite s req u v.toNat)
/-- CHK_SCAN_COMPUTE. -/
def execChkScanCompute (req : Requester) (u : Nat) (s : State) : Host.Outcome State Fault Refusal := .next (s.scanGo req u 0)
/-- CHK_SCAN_APPEND. -/
def execChkScanAppend (req : Requester) (u : Nat) (s : State) : Host.Outcome State Fault Refusal := .next (s.scanGo req u 1)
/-- CHK_SCAN_VERIFY. -/
def execChkScanVerify (req : Requester) (u : Nat) (s : State) : Host.Outcome State Fault Refusal := .next (s.scanGo req u 2)
/-- CHK_SCAN_DONE. -/
def execChkScanDone (u : Nat) (s : State) : Host.Outcome State Fault Refusal := .next (chkScanDone s u)

end Sys2Proof.Machine
end

