-- ==== Sys2Proof/Machine/Paddock.lean ====
section
/-! DEFINITION. Paddocks, jobs, commands and re-plan boundaries: placement, ranks and their hosts, the eight commands, faults
of Tillers, promotion of spares, quarantine (R16, R17, R25, R54 to R68, R492 to R495, R500). -/

namespace Sys2Proof.Machine

/-! ### Clocks and rails of a Tiller (R466 to R468) -/

/-- The clock record of a die. -/
def State.clkDie (s : State) (d : Nat) : ClkDie := Tbl.val {} s.clk d

/-- Replace the clock record of a die. -/
def State.setClk (s : State) (d : Nat) (x : ClkDie) : State := { s with clk := Tbl.set {} s.clk d x }

/-- Nominal rail voltage of an operating point in mV (R466). -/
def nominalMv : Nat → Nat
  | 0 => 750
  | 1 => 680
  | 2 => 620
  | 3 => 560
  | _ => 500

/-- The point of a paddock: the lower of its ceiling and what the cap controller allows (R467). -/
def State.padPoint (s : State) (p : Nat) : Nat := Tbl.val 0 s.pwr.padOp p

/-- The operating point a Tiller is to run at (R467). -/
def State.tillerPoint (s : State) (t : Nat) : Nat :=
  match (s.tiller t).role, (s.tiller t).pad with
  | .inService, some p => s.padPoint p
  | _, _ => 3

/-- Ask a Tiller's sequencer for a point and offset: the latest request replaces one that waits (R468). -/
def State.askPoint (s : State) (t op off : Nat) : State :=
  let x := s.clkDie (8 + t)
  let cur := x.want.getD (x.op, x.offset)
  if cur = (op, off) then s
  else
    let s := s.setClk (8 + t) { x with want := some (op, off) }
    if cur.1 = op then s else s.event (8 + t) 35 [sqBit 0x118 0] []

/-- Every Tiller that is powered is asked for its point and its planner's margin offset (R466, R467, R504); a retired Tiller's rails
are off. -/
def State.setPoints (s : State) : State :=
  (List.range 68).foldl (fun s t =>
    let x := s.clkDie (8 + t)
    if (s.tiller t).role = .retired then
      (if x.mv = 0 ∧ x.want = none then s else s.setClk (8 + t) { x with mv := 0, want := none })
    else s.askPoint t (s.tillerPoint t) (Tbl.val {} s.flt.planners t).offset) s

/-! ### Placement of pinned pages (R55, R325, R329, R334, R493) -/

/-- Copy a page's present contents to a location; a page with none leaves zeros. -/
def State.copyPageTo (s : State) (job vpn : Nat) (sp : Space) (a : Nat) : State :=
  match s.pte job vpn with
  | none => s
  | some e =>
    let s0 : State := { s with mem := Memory.clear s.mem (sp.key a) tierPage }
    if e.lost || !e.valid then s0
    else match s.pageAt job vpn e with
      | some (p, b) => if p = sp ∧ b = a then s else { s with mem := Memory.copy s.mem (p.key b) (sp.key a) tierPage }
      | none => s0.store sp a (s.inlineBytes job vpn 0 tierPage)

/-- Bring a page to a tier and Tiller; `loc` is its SRAM frame. -/
def State.bringPage (s : State) (job vpn tier tiller loc : Nat) (pin : Bool) : State :=
  match s.pte job vpn with
  | none => s
  | some e =>
    let there := e.valid && decide (e.tier = tier) && (decide (tier = 2) || decide (e.tiller = tiller)) &&
      (decide (tier ≠ 0) || decide (e.loc = loc))
    if there then s.setPte job vpn { e with pinned := pin }
    else
      let r : Nat × State := match tier with
        | 0 => (loc, s)
        | 1 => s.allocHbm tiller
        | _ => s.allocLp
      let s := match tier with
        | 0 => r.2.copyPageTo job vpn (.sram tiller) (tierPage * r.1)
        | 1 => r.2.copyPageTo job vpn (.hbm tiller) (tierPage * r.1)
        | _ => r.2.copyPageTo job vpn .lpddr (tierPage * r.1)
      (s.freeFrame e).setPte job vpn { e with
        valid := true, tier := tier, tiller := if tier = 2 then 0 else tiller, loc := r.1, pinned := pin, moving := false
        dirty := if e.tier = 3 then 0 else e.dirty }

/-- A Tiller holds a rank of its paddock itself (and does not only host it). -/
def State.ownsRank (s : State) (pad t k : Nat) : Bool := decide ((s.paddock pad).ranks[k]? = some (some t))

/-- SRAM frames of a Tiller in use by pinned pages. -/
def State.sramFrames (s : State) (t : Nat) : List Nat :=
  (s.cis.ptes.filter (fun e => e.2.valid && decide (e.2.tier = 0) && decide (e.2.tiller = t))).foldl (fun l e => insNat e.2.loc l) []

/-- HBM frames of a Tiller that are free. -/
def State.hbmRoom (s : State) (t : Nat) : Nat :=
  393216 - (s.cis.hbmUsed.filter (fun k => k / 16777216 = t)).length - (s.cis.hbmRetired.filter (fun k => k / 16777216 = t)).length

/-- Place one page of a region placed SRAM, HBM or LPDDR; `i` is its index in the region. A hosted rank's SRAM pages take free
frames of the host, its HBM pages the host's HBM while it has room and LPDDR after that (R493). -/
def State.placePage (s : State) (job pad : Nat) (p : Plan) (r : Region) (vpn i : Nat) : State :=
  let ranks := planRanks p.hdr
  if r.place = 2 then s.bringPage job vpn 2 0 0 true
  else match r.rankOf ranks vpn with
    | none => s
    | some k =>
      match s.rankTiller pad k with
      | none => s
      | some t =>
        if r.place = 1 then
          (if s.ownsRank pad t k || decide (0 < s.hbmRoom t) then s.bringPage job vpn 1 t 0 true
            else s.bringPage job vpn 2 0 0 true)
        else if s.ownsRank pad t k then
          s.bringPage job vpn 0 t (r.sramAddr / tierPage + (if r.rank = 0xFF then i / ranks else i)) true
        else match s.pte job vpn with
          | none => s
          | some e =>
            if e.valid = true ∧ e.tier = 0 ∧ e.tiller = t then s
            else
              let f := s.pickFree (s.sramFrames t) 5120
              f.2.bringPage job vpn 0 t f.1 true

/-- The tier pages of a plan's pool that kv_pin 1 pins in HBM: first page and count (R194). -/
def Plan.pinnedPool (p : Plan) : Nat × Nat :=
  if p.kvd.isEmpty || !kvPin p.kvd then (0, 0)
  else (kvData p.kvd / tierPage, ceilDiv (kvPool p.kvd * kvPageStride p.kvd) tierPage)

/-- A page is one of those. -/
def Plan.poolPins (p : Plan) (vpn : Nat) : Bool :=
  decide (p.pinnedPool.1 ≤ vpn) && decide (vpn < p.pinnedPool.1 + p.pinnedPool.2)

/-- Place the whole pool of a job with kv_pin 1 in HBM (R194); a page of a region that names no rank of HBM goes to rank
(va >> 16) mod ranks (R329). -/
def State.placePool (s : State) (job pad : Nat) (p : Plan) : State :=
  (List.range p.pinnedPool.2).foldl (fun s i =>
    let vpn := p.pinnedPool.1 + i
    match findRegion p.regions vpn 0 with
    | none => s
    | some (r, _) => if r.place = 1 then s else s.placePage job pad p { r with place := 1, rank := 0xFF } vpn i) s

/-- Place every pinned page of a loaded job (R55, R330). -/
def State.placeJob (s : State) (job : Nat) : State :=
  match s.plan job with
  | none => s
  | some p =>
    match p.loaded with
    | none => s
    | some pad =>
      let s := p.regions.foldl (fun s r =>
        if r.place = 3 then s
        else (List.range r.pages).foldl (fun s i =>
          if decide (r.place ≠ 1) && p.poolPins (r.va / tierPage + i) then s
          else s.placePage job pad p r (r.va / tierPage + i) i) s) s
      s.placePool job pad p

/-- Place every job of a paddock again, after its Tillers changed. -/
def State.placePad (s : State) (pad : Nat) : State := (s.paddock pad).jobs.foldl State.placeJob s

/-- Move the tier pages of a leaving Tiller's stack to LPDDR. R65 has them go to the paddock's remaining HBM or to LPDDR and does not say
which (DESIGN CHOICE, log entry 88). -/
def State.evacuate (s : State) (t : Nat) : State :=
  (s.cis.ptes.filter (fun e => e.2.valid && decide (e.2.tier = 1) && decide (e.2.tiller = t) && !e.2.pinned)).foldl
    (fun s e => s.bringPage (e.1 / 4294967296) (e.1 % 4294967296) 2 0 0 false) s

/-- SRAM frames of one rank of a plan. -/
def Plan.rankSram (p : Plan) (k : Nat) : Nat :=
  p.regions.foldl (fun n r =>
    if r.place ≠ 0 then n
    else if r.rank = 0xFF then n + ceilDiv r.pages (planRanks p.hdr)
    else if r.rank = k then n + r.pages else n) 0

/-- Pages from `lo` to below `hi` whose number is `k` modulo `m`. -/
def pagesOfRank (lo hi k m : Nat) : Nat := (hi + (m - 1) - k) / m - (lo + (m - 1) - k) / m

/-- Pages of a region that a pinned pool takes into HBM. -/
def Plan.poolShare (p : Plan) (r : Region) : Nat × Nat :=
  let lo := max (r.va / tierPage) p.pinnedPool.1
  (lo, max lo (min (r.va / tierPage + r.pages) (p.pinnedPool.1 + p.pinnedPool.2)))

/-- Pinned HBM pages of one rank of a plan: its HBM regions, and its share of a pinned pool that lies in other regions. -/
def Plan.rankHbmPins (p : Plan) (k : Nat) : Nat :=
  let m := planRanks p.hdr
  p.regions.foldl (fun n r =>
    if r.place ≠ 1 then n + pagesOfRank (p.poolShare r).1 (p.poolShare r).2 k m
    else if r.rank = 0xFF then n + pagesOfRank (r.va / tierPage) (r.va / tierPage + r.pages) k m
    else if r.rank = k then n + r.pages else n) 0

/-- Pinned LPDDR pages and shadows of a plan; pages that a pinned pool takes into HBM are not among them. -/
def Plan.lpPins (p : Plan) : Nat :=
  p.regions.foldl (fun n r => if r.place = 2 then n + r.pages - ((p.poolShare r).2 - (p.poolShare r).1) else n) p.shadowPages

/-- The SRAM pages of a rank as intervals of frames: (first, count). -/
def Plan.rankSpans (p : Plan) (k : Nat) : List (Nat × Nat) :=
  (p.regions.filter (fun r => r.place == 0 && (r.rank == k || r.rank == 0xFF))).map (fun r =>
    (r.sramAddr / tierPage, if r.rank = 0xFF then ceilDiv r.pages (planRanks p.hdr) else r.pages))

/-- No span of one list meets a span of the other. -/
def spansApart (a b : List (Nat × Nat)) : Bool :=
  a.all (fun x => b.all (fun y => decide (x.1 + x.2 ≤ y.1) || decide (y.1 + y.2 ≤ x.1)))

/-- The plans of a paddock's jobs. -/
def State.padPlans (s : State) (pad : Nat) : List Plan := (s.paddock pad).jobs.filterMap s.plan

/-- Frames of a Tiller's stack that pinned pages of ranks it only hosts hold (R493). -/
def State.hostedHbm (s : State) (pad t : Nat) : Nat :=
  (s.cis.ptes.filter (fun e => e.2.valid && e.2.pinned && decide (e.2.tier = 1) && decide (e.2.tiller = t) &&
    (match s.plan (e.1 / 4294967296) with
      | none => false
      | some p => match findRegion p.regions (e.1 % 4294967296) 0 with
        | none => false
        | some (r, _) => match r.rankOf (planRanks p.hdr) (e.1 % 4294967296) with
          | none => false
          | some k => !s.ownsRank pad t k))).length

/-- The SRAM that a rank of a plan needs is free on the Tiller that runs it (R55, R493): a rank's own Tiller gives it the frames its
regions name, a host any that are free. -/
def State.sramFits (s : State) (pad : Nat) (p : Plan) (k : Nat) : Bool :=
  match s.rankTiller pad k with
  | none => false
  | some t =>
    let used := s.sramFrames t
    if s.ownsRank pad t k then
      (p.rankSpans k).all (fun x => used.all (fun f => decide (f < x.1) || decide (x.1 + x.2 ≤ f)))
    else
      let own := (List.range (planRanks p.hdr)).foldl (fun n j => if s.ownsRank pad t j then n + p.rankSram j else n) 0
      decide (p.rankSram k + own + used.length ≤ 5120)

/-- The HBM budget of a rank of a plan is free on the Tiller that holds the rank (R55); an orphan rank has no budget of its own, its pins
take what room its host has and LPDDR after that (R493). -/
def State.hbmFits (s : State) (pad : Nat) (p : Plan) (k : Nat) : Bool :=
  match ((s.paddock pad).ranks[k]?).join with
  | none => true
  | some t =>
    decide (planHbm p.hdr + (s.padPlans pad).foldl (fun n o => if k < planRanks o.hdr then n + planHbm o.hdr else n) 0 +
      s.hostedHbm pad t + (s.cis.hbmRetired.filter (fun f => f / 16777216 = t)).length ≤ 393216)

/-- A plan's placement fits what the paddock has free (R55 check 6). -/
def State.placementFits (s : State) (pad : Nat) (p : Plan) : Bool :=
  let others := s.padPlans pad
  (List.range (planRanks p.hdr)).all (fun k =>
    others.all (fun o => decide (planRanks o.hdr ≤ k) || spansApart (p.rankSpans k) (o.rankSpans k)) &&
    decide (p.rankHbmPins k ≤ planHbm p.hdr) && s.sramFits pad p k && s.hbmFits pad p k) &&
  decide (p.lpPins ≤ planLpddr p.hdr) &&
  decide (tierPage * (planLpddr p.hdr + others.foldl (fun n o => n + planLpddr o.hdr) 0) ≤ s.lpddrQuota pad)

/-! ### Ranks and their hosts (R65, R493) -/

/-- The widest plan of a paddock. -/
def State.padRanks (s : State) (pad : Nat) : Nat := (s.padPlans pad).foldl (fun n p => max n (planRanks p.hdr)) 0

/-- Put Tillers into the vacancies of a rank list in order; those left over follow at its end. -/
def fillRanks : List (Option Nat) → List Nat → List (Option Nat)
  | [], ts => ts.map some
  | some t :: r, ts => some t :: fillRanks r ts
  | none :: r, t :: ts => some t :: fillRanks r ts
  | none :: r, [] => none :: fillRanks r []

/-- Rank list for a new set of Tillers: a Tiller that stays keeps its rank below `need`, vacancies are filled in ascending
order. -/
def assignRanks (old : List (Option Nat)) (new : List Nat) (need : Nat) : List (Option Nat) :=
  let keep := (old.take need).map (fun x => x.filter (fun t => new.contains t))
  let keep := keep ++ List.replicate (need - keep.length) none
  fillRanks keep (new.filter (fun t => !keep.contains (some t)))

/-- SRAM frames that the ranks a Tiller runs take. -/
def State.sramLoad (s : State) (pad : Nat) (q : Paddock) (t : Nat) : Nat :=
  let ks := ((q.ranks.zipIdx).filter (fun e => e.1 = some t)).map Prod.snd ++ (q.hosted.filter (fun e => e.2 = t)).map Prod.fst
  ks.foldl (fun n k => (s.padPlans pad).foldl (fun n p => if k < planRanks p.hdr then n + p.rankSram k else n) n) 0

/-- The host of an orphan rank: the lowest-numbered Tiller that holds exactly one rank and has the SRAM room (R493). -/
def State.hostFor (s : State) (pad : Nat) (q : Paddock) (k : Nat) : Option Nat :=
  let need := (s.padPlans pad).foldl (fun n p => if k < planRanks p.hdr then n + p.rankSram k else n) 0
  let ts := (List.range 68).filter (fun t => q.tillers.contains t)
  ts.find? (fun t =>
    decide (((q.ranks.take (s.padRanks pad)).filter (fun x => x = some t)).length = 1) &&
    !(q.hosted.any (fun e => decide (e.2 = t))) && decide (s.sramLoad pad q t + need ≤ 5120))

/-- Host every rank without a Tiller, in ascending order; none where some rank finds no host. -/
def State.hostRanks (s : State) (pad : Nat) (q : Paddock) : Option Paddock :=
  let orphans := (List.range (s.padRanks pad)).filter (fun k => decide ((q.ranks[k]?).join = none))
  orphans.foldl (fun (r : Option Paddock) k => match r with
    | none => none
    | some q => match s.hostFor pad q k with
      | none => none
      | some t => some { q with hosted := q.hosted ++ [(k, t)] }) (some { q with hosted := [] })

/-- The paddock's Tillers become `new`; none where a rank is left without a host. -/
def State.rankPad (s : State) (pad : Nat) (new : List Nat) : Option Paddock :=
  let q := s.paddock pad
  s.hostRanks pad { q with tillers := new, ranks := assignRanks q.ranks new (s.padRanks pad), noHost := false }

/-! ### Sprint slots (R25, R494) -/

/-- The sprint job of a paddock. -/
def State.sprintJob (s : State) (pad : Nat) : Option Nat :=
  (s.paddock pad).jobs.find? (fun j => match s.plan j with | none => false | some p => p.sprint)

/-- The published sprint slot count floor(S × n / r) (R494). -/
def State.sprintCount (s : State) (pad : Nat) : Nat :=
  let q := s.paddock pad
  match s.sprintJob pad with
  | none => q.sprintS
  | some j =>
    let r := match s.plan j with | none => 1 | some p => max 1 (planRanks p.hdr)
    q.sprintS * q.tillers.length / r

/-- The order of admission of requests: by the time of admission; of two admitted at one time the one in the higher slot counts as the
later, which the spec does not say (DESIGN CHOICE, log entry 89). -/
def Slot.admitKey (x : Slot) (n : Nat) : Nat := x.admitNs * 32768 + n

/-- The holders of a paddock's sprint slots, the earliest admitted first (R25). -/
def State.sprintHolders (s : State) (pad : Nat) : List Nat :=
  let xs := s.req.slots.filter (fun e => e.2.sprintSlot && e.2.live && decide (e.2.state ≠ .draining) && decide (s.sprintJob pad = some (descJob e.2.desc)))
  (sortBy (fun (e : Nat × Slot) => e.2.admitKey e.1) xs).map Prod.fst

/-- Publish the count; slots above it are released by the most recently admitted requests (R25). A request whose slot is released here
still runs in the batch that the cut of the closing stroke fixed: R53 fixes that batch at the cut, R52 starts it after this, and no rule
says which prevails (DESIGN CHOICE, log entry 89). -/
def State.publishSlots (s : State) (pad : Nat) : State :=
  let n := s.sprintCount pad
  let s := s.setPaddock pad { s.paddock pad with sprintPub := n }
  ((s.sprintHolders pad).drop n).foldl (fun s i => s.modSlot i (fun x => { x with sprintSlot := false })) s

/-! ### Roles -/

/-- Give a Tiller a role and paddock (R16). -/
def State.setRole (s : State) (t : Nat) (role : Role) (pad : Option Nat) : State :=
  s.setTiller t { s.tiller t with role := role, pad := pad }

/-- Tillers in service. -/
def State.inService (s : State) : Nat := ((List.range 68).filter (fun t => (s.tiller t).role = .inService)).length

/-- The lowest-numbered spare that no promotion names and that has not failed (R66, R473). -/
def State.nextSpare (s : State) : Option Nat :=
  (List.range 68).find? (fun t => decide ((s.tiller t).role = .spare) && !s.til.leaving.contains t &&
    !s.pad.promos.any (fun m => decide (m.spare = some t)))

/-- What the capability table shows of the Tillers, cap_gen apart (R137). -/
def State.capView (s : State) : List (Role × Option Nat × Nat × List (Nat × Nat)) :=
  (List.range 68).map (fun t =>
    let r := s.tiller t
    (r.role, r.pad, s.tillerPoint t, (r.arrays.filter (fun e => e.2.pubWidth ≠ 64)).map (fun e => (e.1, e.2.pubWidth))))

/-- cap_gen rises at a re-plan boundary that changes a record (R138). -/
def State.bumpCap (s old : State) : State :=
  if s.boot.ready && decide (s.capView ≠ old.capView) then { s with til := { s.til with capGen := s.til.capGen + 1 } } else s

/-- The units of a Tiller lose the work in hand: tiles, drains, contributions, lists of its paddock's jobs (R48, R66). -/
def Tiller.idle (r : Tiller) : Tiller :=
  { r with
    arrays := r.arrays.map (fun e => (e.1, { e.2 with
      state := if e.2.retired then 5 else 0, tile := none, shadow := none, turn := 0, heldAt := none, held := [] }))
    chains := [], adder := [], lists := [], rests := [] }

/-- Stop a Tiller's other units: Winnow, Sheaf and Siphon lists, and its parked WAITs. -/
def State.idleUnits (s : State) (t : Nat) : State :=
  let mine (u : WaitUnit) : Bool := match u with
    | .array x _ => x == t
    | .winnow x => x == t
    | .sheaf d => d == 8 + t
    | .chain x _ => x == t
    | .siphon d _ => d == 8 + t
    | .packet _ _ => false
  { s.setTiller t (s.tiller t).idle with
    smp := Tbl.del s.smp t
    shf := { s.shf with lists := Tbl.del s.shf.lists (8 + t) }
    sip := s.sip.filter (fun e => e.1 / 64 ≠ 8 + t)
    nor := { s.nor with
      parked := s.nor.parked.filter (fun p => !mine p.unit), retry := s.nor.retry.filter (fun p => !mine p.unit)
      answered := s.nor.answered.filter (fun p => !mine p.unit) } }

/-- A Tiller leaves service for good or for quarantine: its rails are off and its memories hold nothing (R16, R17). -/
def State.powerOff (s : State) (t : Nat) : State :=
  let s := (s.idleUnits t).setRole t .retired none
  let s := s.setClk (8 + t) { s.clkDie (8 + t) with mv := 0, want := none }
  { s with mem := Memory.clear (Memory.clear s.mem (Space.key (.sram t) 0) 0x14000000) (Space.key (.hbm t) 0) 25769803776 }

/-! ### Results (R63) -/

/-- The result record of a command. -/
def resultRec (m : CmdMsg) (result stroke aux : Nat) : List Byte :=
  withCrc (leBytes 1 0x10 ++ leBytes 1 result ++ leBytes 1 m.paddock ++ leBytes 1 m.cmd ++ leBytes 8 m.serial ++
    leBytes 8 stroke ++ leBytes 4 aux ++ leBytes 4 0)

/-- Post a command's result to its port's command status ring, and mark an applied one (R63, R68). -/
def State.cmdResult (s : State) (m : CmdMsg) (result aux : Nat) : State :=
  let s := if 1 < m.source then s else
    match s.findRing 5 m.source with
    | none => s
    | some rid => s.postRing rid (fun _ => resultRec m result s.strokeN aux)
  if result = 0 then s.event 120 2 [padBit (m.paddock % 16) 0] [] else s

/-! ### The commands (R55, R57, R61, R64, R65, R67) -/

/-- Restart the default wheel at entry 0 (R57). -/
def Paddock.rewheel (q : Paddock) : Paddock := if q.wheel.isNone then { q with wheelPos := 0 } else q

/-- A job uses Tillers: its plan is a model-service plan. -/
def State.usesTillers (s : State) (j : Nat) : Bool :=
  match s.plan j with
  | none => false
  | some p => planKind p.hdr == 0

/-- A plan's tokenizer table is registered, or it names none (R240). -/
def State.planTokOk (s : State) (p : Plan) : Bool := planTok p.hdr == 0 || (Tbl.look s.cat.tok (planTok p.hdr)).isSome

/-- The checks of LOAD_JOB in order (R55); `ready` says that staging is complete. -/
def State.loadCheck (s : State) (m : CmdMsg) (ready : Bool) : Nat :=
  let q := s.paddock m.paddock
  match s.plan m.job with
  | none => 4
  | some p =>
    if p.loaded.isSome || p.freeing then 4
    else if (m.k ≠ 0 ∧ m.k ≠ planK p.hdr) ∨ s.planTokOk p = false then 2
    else if (s.sprintJob m.paddock).isSome ∨ (p.sprint = true ∧ q.jobs ≠ []) then 5
    else if p.sprint = true ∧ 40000 < planCert p.hdr then 7
    else if kvLoadOk p = false then 2
    else if kvRoomOk p q.sprintS = false then 4
    else if q.tillers.length < planRanks p.hdr ∨ (p.sprint = true ∧ q.sprintPub = 0) ∨ s.placementFits m.paddock p = false ∨
        16 ≤ q.jobs.length ∨ 256 ≤ (s.cis.plans.filter (fun e => e.2.loaded.isSome)).length then 4
    else if !ready then 6
    else 0

/-- LOAD_JOB (R55). -/
def State.doLoad (s : State) (m : CmdMsg) (ready : Bool) : State × Nat × Nat :=
  let c := s.loadCheck m ready
  if c ≠ 0 then (s, c, 0)
  else match s.plan m.job with
    | none => (s, 4, 0)
    | some p =>
      let n := s.cis.loadSeq
      let s := s.putPlan m.job { p with loaded := some m.paddock, order := n, batch := [], next := [], ran := 0 }
      let s : State := { s with cis := { s.cis with loadSeq := n + 1 } }
      let q := s.paddock m.paddock
      let st := if q.state = .empty then .running else q.state
      let s := s.setPaddock m.paddock (Paddock.rewheel { q with state := st, jobs := q.jobs ++ [m.job] })
      let s := (s.placeJob m.job).publishSlots m.paddock
      (s.event 120 2 [padBit m.paddock 3] [], 0, 0)

/-- The jobs a recipe names. -/
def State.usesJob (s : State) (x : Slot) (j : Nat) : Bool :=
  descJob x.desc == j || (decide (x.state = .front) && [rcpIndex (s.rcpOf x), rcpEncoder (s.rcpOf x), rcpImageJob (s.rcpOf x), rcpReranker (s.rcpOf x)].contains j)

/-- Requests of a removed job end (R42, R61, R286): one whose ACCEPT is not yet posted ends once it is. -/
def State.removeRequests (s : State) (j : Nat) : State :=
  s.req.slots.foldl (fun s e =>
    let x := s.slot e.1
    if !x.live || x.state = .draining || !s.usesJob x j then s
    else if x.state = .admitted ∧ x.acceptNs = none then s.setSlot e.1 { x with removed := true }
    else s.endRequest e.1 7) s

/-- Free a removed job's frames: STORE pages stay at their backing, SCRATCH and pinned copies go (R339, R340). -/
def State.unplaceJob (s : State) (j : Nat) : State :=
  let s : State := { s with cis := { s.cis with moves := s.cis.moves.filter (fun m => m.job ≠ j) } }
  let s := s.mapPtes (fun k e => if k / 4294967296 = j then { e with moving := false } else e)
  if s.wdl.readOnly && (s.livePtes j).any (fun e => decide (e.2.backing = 1) && decide (e.2.dirty ≠ 0)) then
    match s.plan j with
    | none => s
    | some p => s.putPlan j { p with freeing := true }
  else
    let s := s.flushJob j
    let s := (s.livePtes j).foldl (fun s e => s.freeFrame e.2) s
    let ptes := s.cis.ptes.filterMap (fun e =>
      if e.1 / 4294967296 ≠ j then some e
      else if e.2.backing = 1 ∧ e.2.valid = true then
        some (e.1, ({ valid := true, tier := 3, lost := e.2.lost, backing := 1, loc := s.backIdx j (e.1 % 4294967296) } : Pte))
      else none)
    ({ s with cis := { s.cis with ptes := ptes } }).discard 5 (fun lp => decide (lp / 1099511627776 = j))

/-- The Tillers of a paddock let go of a job: lists, deferred items and gate tags (R152). -/
def State.forgetJob (s : State) (pad j : Nat) : State :=
  (s.paddock pad).tillers.foldl (fun s t =>
    let r := s.tiller t
    let mine (x : Option Tile) : Bool := match x with | none => false | some y => y.job == j
    let gone (c : Chain) : Chain := { c with
      tags := c.tags.filter (fun e => e.2 ≠ j), ready := c.ready.filter (fun x => x.job ≠ j)
      order := c.order.filter (fun a => !mine (r.array a).shadow), deferred := c.deferred.filter (fun a => !mine (r.array a).shadow)
      finishes := c.finishes.filter (fun x => x.job ≠ j), prompt := c.prompt.filter (fun x => x.job ≠ j) }
    let drop (a : MatArray) : MatArray := { (if mine a.tile then a.to 0 else a) with
      tile := if mine a.tile then none else a.tile, shadow := if mine a.shadow then none else a.shadow }
    let freed := r.arrays.filter (fun e => mine e.2.shadow)
    let s := s.setTiller t { r with
      arrays := r.arrays.map (fun e => (e.1, drop e.2)), chains := r.chains.map (fun e => (e.1, gone e.2))
      lists := r.lists.filter (fun e => e.1 / 65536 ≠ j), rests := r.rests.filter (fun e => e.1 / 65536 ≠ j) }
    freed.foldl (fun s e => s.freeShadow t e.1) s) s

/-- An index job's ACTIVE slot becomes RETIRING (R318). -/
def State.retireGens (s : State) (j : Nat) : State :=
  (List.range 4).foldl (fun s g =>
    let x := s.gen g
    if x.state = .active ∧ genJob x.hdr = j then s.setGen g { x with state := .retiring } else s) s

/-- What a removed job leaves behind (R56): its requests end, its units forget it, its pages, tables and index generations go. -/
def State.clearJob (s : State) (pad j : Nat) : State :=
  let s := ((s.removeRequests j).forgetJob pad j).unplaceJob j
  let s := (s.shf.tables.filter (fun e => stJob e.2.desc == j)).foldl (fun s e => s.tableDrop e.1) s
  let s := s.retireGens j
  { s with
    kv := { s.kv with pages := s.kv.pages.filter (fun e => e.1 / 16777216 ≠ j), share := Tbl.del s.kv.share j }
    cis := { s.cis with thr := Tbl.del s.cis.thr j, thrStaged := Tbl.del s.cis.thrStaged j } }

/-- The plan of a job is no longer loaded. -/
def State.unloadPlan (s : State) (j : Nat) : State :=
  match s.plan j with
  | none => s
  | some p => s.putPlan j { p with loaded := none, batch := [], next := [], ran := 0 }

/-- A paddock without a job. -/
def Paddock.without (q : Paddock) (j : Nat) : Paddock :=
  let q := { q with jobs := q.jobs.filter (fun i => i ≠ j) }
  Paddock.rewheel { q with
    wheel := if q.jobs = [] then none else q.wheel, occupant := if q.occupant = j then 0 else q.occupant
    stepOpen := if q.occupant = j then none else q.stepOpen }

/-- A paddock that a rank without a host keeps HALTED is ranked again (R64). -/
def State.rerank (s : State) (pad : Nat) : State :=
  let q := s.paddock pad
  if q.noHost then (match s.rankPad pad q.tillers with
    | none => s
    | some q => (s.setPaddock pad q).placePad pad)
  else s

/-- REMOVE_JOB (R61, R42, R255, R318, R339); of a paddock halted with a rank that finds no host it restores the placement where what is
left fits (R64). -/
def State.doRemove (s : State) (m : CmdMsg) : State × Nat × Nat :=
  match s.plan m.job with
  | none => (s, 2, 0)
  | some p =>
    if p.loaded ≠ some m.paddock then (s, 2, 0)
    else
      let s := (s.clearJob m.paddock m.job).unloadPlan m.job
      let s := (s.setPaddock m.paddock ((s.paddock m.paddock).without m.job)).rerank m.paddock
      ((s.publishSlots m.paddock).event 120 2 [padBit m.paddock 3] [], 0, 0)

/-- The entries of a SET_WHEEL. -/
def State.wheelEntries (s : State) (m : CmdMsg) : List Nat :=
  (List.range m.wheelLen).map (fun i => leNat (s.load .lpddr (m.wheelRef + 2 * i) 2))

/-- SET_WHEEL (R57, R61). -/
def State.doWheel (s : State) (m : CmdMsg) : State × Nat × Nat :=
  let q := s.paddock m.paddock
  let es := s.wheelEntries m
  if s.inHost m.wheelRef (2 * m.wheelLen) = false ∨ es.all (fun j => q.jobs.contains j && s.usesTillers j) = false then (s, 2, 0)
  else (s.setPaddock m.paddock { q with wheel := some es, wheelPos := 0 }, 0, 0)

/-- DRAIN and RESUME (R62, R64): of a halted paddock they change the state it will take. -/
def State.doDrain (s : State) (m : CmdMsg) (drain : Bool) : State × Nat × Nat :=
  let q := s.paddock m.paddock
  let st : PadState := if drain then .drained else .running
  let q := match q.state with
    | .halted => { q with heldState := st }
    | .empty => q
    | _ => { q with state := st }
  (s.setPaddock m.paddock q, 0, 0)

/-- The Tillers a command's mask selects. -/
def maskTillers (mask : Nat) : List Nat := (List.range 68).filter (fun t => bitAt mask t)

/-- Sounder slots of the module (R54). -/
def State.sounderLimit (s : State) : Nat := if s.isS then 16384 else 32768

/-- Sum of a field over the other paddocks. -/
def State.otherPads (s : State) (pad : Nat) (f : Paddock → Nat) : Nat :=
  s.pad.pads.foldl (fun n e => if e.1 = pad then n else n + f e.2) 0

/-- A paddock whose ranks all run again leaves HALTED (R64, R493). -/
def State.unhalt (s : State) (pad : Nat) : State :=
  let q := s.paddock pad
  if q.state = .halted ∧ q.noHost = false ∧ (s.pad.promos.any (fun x => decide (x.paddock = pad))) = false then
    s.setPaddock pad { q with state := q.heldState }
  else s

/-- RESIZE (R25, R54, R61, R65, R181). -/
def State.doResize (s : State) (m : CmdMsg) (ready : Bool) : State × Nat × Nat :=
  let pad := m.paddock
  let q := s.paddock pad
  let new := maskTillers m.tillers
  let raised := decide (q.sprintS < m.sprintSlots)
  if (s.sprintJob pad).isSome ∧ m.sprintSlots = 0 then (s, 2, 0)
  else if new.any (fun t => decide ((s.tiller t).role ≠ .inService) ||
      (decide ((s.tiller t).pad ≠ some pad) && (s.tiller t).pad.isSome)) = true ∨
      3840 < s.otherPads pad Paddock.lpddrGib + m.lpddrGib ∨
      s.sounderLimit < s.otherPads pad Paddock.sounder + m.sounderSlots ∨
      (raised = true ∧ (s.padPlans pad).all (fun p => kvRoomOk p m.sprintSlots) = false) then (s, 4, 0)
  else match s.rankPad pad new with
    | none => (s, 4, 0)
    | some q' =>
      if !ready then (s, 6, 0)
      else
        let left := q.tillers.filter (fun t => !new.contains t)
        let joined := new.filter (fun t => !q.tillers.contains t)
        let st : PadState := if new = [] ∧ q.jobs = [] then .empty else if q.state = .empty then .running else q.state
        let s := s.setPaddock pad { q' with
          state := st, lpddrGib := m.lpddrGib, sounder := m.sounderSlots, sprintS := m.sprintSlots }
        let s := joined.foldl (fun s t => s.setRole t .inService (some pad)) s
        let s := left.foldl (fun s t => s.evacuate t) s
        let s := s.placePad pad
        let s := left.foldl (fun s t => (s.idleUnits t).setRole t .inService none) s
        let s := ((s.publishSlots pad).event 120 2 [padBit pad 3] []).unhalt pad
        (s.setPoints, 0, (s.paddock pad).sprintPub)

/-- A planned departure of a Tiller from its paddock (R65, R495): the lowest-numbered spare takes its rank, or the paddock
narrows; none where no Tiller can host the rank. -/
def State.depart (s : State) (t : Nat) : Option State :=
  match (s.tiller t).pad with
  | none => some (s.powerOff t)
  | some pad =>
    let q := s.paddock pad
    let left := q.tillers.filter (fun x => x ≠ t)
    match s.nextSpare with
    | some sp =>
      let q := { q with tillers := insNat sp left, ranks := q.ranks.map (fun x => if x = some t then some sp else x)
                        hosted := q.hosted.map (fun e => if e.2 = t then (e.1, sp) else e) }
      let s := (s.setPaddock pad q).setRole sp .inService (some pad)
      some ((((s.evacuate t).placePad pad).powerOff t).event 120 2 [padBit pad 3] [])
    | none =>
      match s.rankPad pad left with
      | none => none
      | some q' =>
        let s := s.setPaddock pad q'
        some (((((s.evacuate t).placePad pad).powerOff t).publishSlots pad).event 120 2 [padBit pad 3] [])

/-- RETIRE_TILLER (R61, R65). -/
def State.doRetire (s : State) (m : CmdMsg) (ready : Bool) : State × Nat × Nat :=
  match maskTillers m.tillers with
  | [t] =>
    let r := s.tiller t
    if r.role = .spare then
      let renamed := s.pad.promos.map (fun x => if x.spare = some t then { x with spare := none } else x)
      let s := (s.powerOff t).setPoints
      let s : State := { s with pad := { s.pad with promos := renamed } }
      (renamed.foldl (fun s x => if x.spare.isSome then s else
        { s with pad := { s.pad with promos := s.pad.promos.map (fun y => if y = x then { y with spare := s.nextSpare } else y) } }) s,
        0, 0)
    else if r.role ≠ .inService ∨ r.pad ≠ some m.paddock then (s, 2, 0)
    else match s.depart t with
      | none => (s, 4, 0)
      | some s' => if ready then (s'.setPoints, 0, 0) else (s, 6, 0)
  | _ => (s, 2, 0)

/-- A Tiller is in quarantine or has passed it and not yet joined: READMIT_TILLER refuses both. R67 names quarantine only, and leaves the
time between its end and the joining boundary open (DESIGN CHOICE, log entry 90). -/
def State.returning (s : State) (t : Nat) : Bool :=
  s.pad.quars.any (fun x => decide (x.tiller = t)) || s.pad.rejoin.any (fun x => decide (x.1 = t))

/-- READMIT_TILLER begins its quarantine; answers none while that runs, else the result (R67). -/
def State.doReadmit (s : State) (m : CmdMsg) : State × Option Nat :=
  match maskTillers m.tillers with
  | [t] =>
    if (s.tiller t).role ≠ .retired ∨ s.returning t = true then (s, some 2)
    else if s.flt.permanent.contains t then (s, some 8)
    else
      let x : Quar := { tiller := t, since := s.strokeN, cmd := some m }
      ({ s with pad := { s.pad with quars := s.pad.quars ++ [x] } }, none)
  | _ => (s, some 2)

/-- Apply or refuse a command at this boundary (R61); `ready` says that its staging is complete. -/
def State.applyCmd (s : State) (m : CmdMsg) (ready : Bool) : State :=
  let go (r : State × Nat × Nat) : State := r.1.cmdResult m r.2.1 r.2.2
  match m.cmd with
  | 1 => go (s.doLoad m ready)
  | 2 => (go (s.doRemove m)).unhalt m.paddock
  | 3 => go (s.doWheel m)
  | 4 => go (s.doDrain m true)
  | 5 => go (s.doDrain m false)
  | 6 => go (s.doResize m ready)
  | 7 => go (s.doRetire m ready)
  | 8 =>
    let r := s.doReadmit m
    match r.2 with
    | none => r.1
    | some c => r.1.cmdResult m c 0
  | _ => s.cmdResult m 2 0

/-! ### Taking commands (R61, R62, R64) -/

/-- A command is one that takes effect at a re-plan boundary. -/
def CmdMsgReplan (m : CmdMsg) : Bool := [1, 6, 7, 8].contains m.cmd

/-- The fields of a command are within R61: ranges, those of a paddock under R54 among them, and fields it does not use 0. -/
def cmdFieldsOk (m : CmdMsg) : Bool :=
  let c := m.cmd
  m.reservedOk && decide (m.paddock < 16) && decide (1 ≤ c) && decide (c ≤ 8) &&
  (CmdMsgReplan m || m.atStroke == 0) &&
  (if c = 1 ∨ c = 2 then decide (1 ≤ m.job) && decide (m.job ≤ 1023) else m.job == 0) &&
  (c == 1 || m.k == 0) &&
  (if c = 3 then decide (1 ≤ m.wheelLen) && decide (m.wheelLen ≤ 64) else m.wheelLen == 0 && m.wheelRef == 0) &&
  (if c = 6 then decide (m.sprintSlots ≤ 512) && decide (m.lpddrGib ≤ 3840) && decide (m.sounderSlots ≤ 32768) &&
      decide ((maskTillers m.tillers).length ≤ 64)
    else m.sprintSlots == 0 && m.lpddrGib == 0 && m.sounderSlots == 0) &&
  (if c = 7 ∨ c = 8 then decide ((maskTillers m.tillers).length = 1) else c == 6 || m.tillers == 0)

/-- The checks of R62 made when a command is taken: 0, or the result. -/
def State.takeCheck (s : State) (m : CmdMsg) (received : Nat) : Nat :=
  if !m.crcOk then 1
  else if !cmdFieldsOk m then 2
  else if m.source < 2 ∧ s.permitsPad m.source m.paddock = false then 3
  else if CmdMsgReplan m = true ∧ m.atStroke ≠ 0 ∧ m.atStroke < received + 64 then 6
  else 0

/-- Hold a command. -/
def State.holdCmd (s : State) (m : CmdMsg) : State :=
  let q := s.paddock m.paddock
  s.setPaddock m.paddock { q with heldCmds := q.heldCmds ++ [m] }

/-- Refuse a command that fails a check of R62; a denied one is logged on the MOD page (R62). -/
def State.refuseCmd (s : State) (m : CmdMsg) (code : Nat) : State :=
  (if code = 3 then s.err 120 2 0xFF else s).cmdResult m code 0

/-- A re-plan command waits for its boundary; its number names its staging among what a boundary finds complete. -/
def State.awaitDue (s : State) (m : CmdMsg) : State :=
  let k := s.pad.dueKey
  { s with pad := { s.pad with due := s.pad.due ++ [{ stroke := m.atStroke, msg := m, key := k }], dueKey := k + 1 } }

/-- Take a received command at a boundary (R62); one received while its paddock was HALTED is held while the paddock is (R64). -/
def State.takeCmd (s : State) (r : Recvd) : State :=
  let m := r.msg
  let c := s.takeCheck m r.stroke
  if c ≠ 0 then s.refuseCmd m c
  else if r.halted && s.holds m.paddock then s.holdCmd m
  else if CmdMsgReplan m && m.cmd != 8 then s.awaitDue m
  else s.applyCmd m true

/-- The consumer index of a port's command ring passes a command taken from it. -/
def State.cmdConsumed (s : State) (source : Nat) : State :=
  if 1 < source then s
  else match s.findRing 4 source with
    | none => s
    | some rid => match Tbl.look s.nor.rings rid with
      | none => s
      | some r => s.setRing rid { r with cons := min (r.cons + 1) r.prod }

/-- The command status ring of a source has records waiting for room (R381). -/
def State.statusStuck (s : State) (source : Nat) : Bool :=
  decide (source ≤ 1) && (match s.findRing 5 source with
    | none => false
    | some rid => s.ringStuck rid)

/-- A received command is taken at this boundary: it was received before this stroke, and its port's status ring has room (R62,
R381). -/
def State.takes (s : State) (r : Recvd) : Bool :=
  decide (r.stroke < s.strokeN) && !s.statusStuck r.msg.source && !s.boot.shutting

/-- Take the commands received before this stroke, by source port and arrival (R62); those of a port whose status ring is full
stay (R381). -/
def State.takeCommands (s : State) : State :=
  let now := s.pad.recvd.filter s.takes
  let later := s.pad.recvd.filter (fun r => !s.takes r)
  let s : State := { s with pad := { s.pad with recvd := later } }
  (sortBy (fun (r : Recvd) => r.msg.source) now).foldl (fun s r => (s.cmdConsumed r.msg.source).takeCmd r) s

/-- The command that is the first to be taken at this boundary, in the order of R62. -/
def State.firstTaken (s : State) : Option Recvd := (sortBy (fun (r : Recvd) => r.msg.source) (s.pad.recvd.filter s.takes)).head?

/-- The commands whose re-plan boundary this is: at_stroke reached, or with at_stroke 0 their staging complete (R65). -/
def State.dueNow (s : State) (ready : List Nat) : List Due :=
  sortBy (fun (d : Due) => d.msg.source) (s.pad.due.filter (fun d =>
    if d.stroke = 0 then ready.contains d.key else decide (d.stroke ≤ s.strokeN)))

/-- The entry of a command that waits for its re-plan boundary. -/
def State.dueOf (s : State) (m : CmdMsg) : Option Due := s.pad.due.find? (fun d => d.msg = m)

/-- A waiting command is the first to be applied at this boundary once its staging is complete. -/
def State.dueFirst (s : State) (d : Due) : Bool := (s.dueNow [d.key]).head? == some d

/-- A command no longer waits for a re-plan boundary. -/
def State.undue (s : State) (d : Due) : State :=
  { s with pad := { s.pad with due := s.pad.due.filter (fun x => x ≠ d) } }

/-- A received command is taken from those received, and its ring's consumer index passes it. -/
def State.untaken (s : State) (r : Recvd) : State :=
  ({ s with pad := { s.pad with recvd := s.pad.recvd.erase r } } : State).cmdConsumed r.msg.source

/-- The command waits in a paddock that is HALTED. -/
def State.isHeld (s : State) (m : CmdMsg) : Bool := s.pad.pads.any (fun e => e.2.heldCmds.contains m)

/-- A command by its own row. At a boundary, one that waits for its re-plan boundary is applied there with its staging complete (R65),
and one received in an earlier stroke is taken (R62), each when it is the first in the order of R62. A command of the Pumphouse that is
not known yet is posted to its internal ring (R62; log entry 11). -/
def State.cmdNow (s : State) (m : CmdMsg) (cmd : Nat) : State :=
  if m.cmd ≠ cmd then s
  else match s.dueOf m with
    | some d =>
      if !s.atBoundary || !s.dueFirst d then s
      else
        let u := s.undue d
        if u.holds m.paddock then u.holdCmd m else (u.applyCmd m true).bumpCap u
    | none =>
      if s.pad.recvd.any (fun r => decide (r.msg = m)) then
        (match s.firstTaken with
          | none => s
          | some r => if s.atBoundary ∧ r.msg = m then (s.untaken r).takeCmd r else s)
      else if m.source = 3 ∧ s.isHeld m = false then s.receive m
      else s

/-! ### Re-plan boundaries (R65, R135, R495) -/

/-- The key of a returning Tiller among the staged things of a boundary. -/
def rejoinKey (t : Nat) : Nat := 18446744073709551616 + t

/-- The key of a paddock's promotion among them: the spare's self-test has passed and its weights or the narrowed placement are staged. -/
def promoKey (pad : Nat) : Nat := 36893488147419103232 + pad

/-- The key of route tables that are ready after a router fault (R173). -/
def routeKey : Nat := 73786976294838206464

/-- The key of a placement that is narrowed by pending columns and staged (R504). -/
def columnKey : Nat := 92233720368547758080

/-- The key of a generation slot whose headers are durable, so that its ACTIVATE is applied (R314). -/
def activeKey (g : Nat) : Nat := 55340232221128654848 + g

/-- Bypass the pending columns of an array, beside those an earlier boundary settled: at its next tile boundary, or at once when it
holds no tile. The fifth column retires it (R135). -/
def State.bypassArray (s : State) (t a : Nat) : State :=
  let x := (s.tiller t).array a
  if x.pending = [] ∨ x.settled.2 = true then s
  else
    let b := x.pending.foldl (fun l c => insNat c l) x.settled.1
    let s := s.setArray t a { x with pending := [], change := some (if b.length ≤ 4 then (b, false) else (x.settled.1, true)) }
    if x.tile.isNone then s.applyWidth t a else s

/-- COLUMN_BYPASS (R135): every pending column, and Tillers left with fewer than 72 arrays leave service (R495). -/
def State.bypassColumns (s : State) : State :=
  (List.range 68).foldl (fun (s : State) t =>
    let s := (List.range 96).foldl (fun s a => s.bypassArray t a) s
    let r := s.tiller t
    if r.live < 72 ∧ r.role ≠ .retired ∧ s.til.leaving.contains t = false then
      { s with til := { s.til with leaving := s.til.leaving ++ [t] }
               flt := { s.flt with permanent := insNat t s.flt.permanent } }
    else s) { s with til := { s.til with marked := none } }

/-- Tillers that leave service at this boundary (R473, R495); one whose paddock is halted, or whose rank finds no host,
waits. -/
def State.leaveNow (s : State) : State :=
  s.til.leaving.foldl (fun s t =>
    let r := s.tiller t
    let off (s : State) : State := { s with til := { s.til with leaving := s.til.leaving.filter (fun x => x ≠ t) } }
    if r.role = .retired then off s
    else if r.role ≠ .inService then off (s.powerOff t)
    else match r.pad with
      | none => off (s.powerOff t)
      | some pad =>
        if (s.paddock pad).state = .halted then s
        else match s.depart t with
          | none => s
          | some s => off s) s

/-- A paddock runs narrowed: some rank is hosted (R67, R493). One that a rank without a host keeps HALTED does not run, and no Tiller
that returns restores it (R64). -/
def State.narrowed (s : State) (pad : Nat) : Bool :=
  let q := s.paddock pad
  q.hosted != [] && !q.noHost

/-- A Tiller that passed quarantine joins (R67): as a spare, in the lowest narrowed paddock, or in none. -/
def State.rejoinTiller (s : State) (t : Nat) (cmd : Option CmdMsg) (ready : Bool) : State × Bool :=
  let result (s : State) : State := match cmd with | none => s | some m => s.cmdResult m 0 0
  if 64 ≤ s.inService then (result (s.setRole t .spare none), true)
  else match (List.range 16).find? (fun p => s.narrowed p) with
    | none => (result (s.setRole t .inService none), true)
    | some pad =>
      if !ready then (s, false)
      else match s.rankPad pad (insNat t (s.paddock pad).tillers) with
        | none => (s, false)
        | some q =>
          let s := (s.setPaddock pad q).setRole t .inService (some pad)
          let s := (((s.placePad pad).publishSlots pad).event 120 2 [padBit pad 3] []).unhalt pad
          (result s, true)

/-- The Tillers that passed quarantine join (R67). -/
def State.rejoins (s : State) (ready : List Nat) : State :=
  s.pad.rejoin.foldl (fun s e =>
    let due := match e.2 with | none => 0 | some m => m.atStroke
    if s.strokeN < due then s
    else
      let r := s.rejoinTiller e.1 e.2 (ready.contains (rejoinKey e.1))
      if r.2 then { r.1 with pad := { r.1.pad with rejoin := r.1.pad.rejoin.filter (fun x => x.1 ≠ e.1) } } else s) s

/-- Apply the re-plan commands due (R62, R64, R65). -/
def State.applyDue (s : State) (ready : List Nat) : State :=
  let now := s.dueNow ready
  let s : State := { s with pad := { s.pad with due := s.pad.due.filter (fun d => !now.contains d) } }
  now.foldl (fun s d =>
    if s.holds d.msg.paddock then s.holdCmd d.msg else s.applyCmd d.msg (ready.contains d.key)) s

/-! ### Faults of Tillers (R66, R492, R500) -/

/-- 720 hours of module time in nanoseconds. -/
def hours720 : Nat := 2592000000000000

/-- Failures of a Tiller in the last 720 hours. -/
def State.recentFaults (s : State) (t : Nat) : Nat :=
  ((Tbl.val [] s.flt.tillerTimes t).filter (fun n => decide (s.nowNs < n + hours720))).length

/-- A request of a halted paddock repeats its step or starts over (R48, R66, R201, R286). -/
def State.faultSlot (s : State) (pad n : Nat) : State :=
  let x := s.slot n
  let inPad (j : Nat) : Bool := (s.paddock pad).jobs.contains j
  let clean : Slot := { x with opened := [], drafts := [], specOpen := false, scratch := none, natural := none, sprintSlot := x.sprintSlot }
  match x.state with
  | .front =>
    let r := s.rcpOf x
    if x.frontDurable = false ∧ (inPad (encJob x r) || inPad (rcpReranker r)) = true then
      (s.journalDrop n 2).setSlot n x.frontAgain
    else s
  | .prefill | .decode =>
    if inPad (descJob x.desc) then
      (s.setSlot n { clean with
        state := .replay, replays := x.replays + 1, replayPos := 0, grm := grmReplay (s.grmImage x) [] }).kvDiscard n
    else s
  | .replay => if inPad (descJob x.desc) then s.kvDiscard n else s
  | _ => s

/-- Halt a paddock in the stroke of detection (R64, R66): its step is lost, its requests repeat. -/
def State.haltPad (s : State) (pad : Nat) : State :=
  let q := s.paddock pad
  let s := s.setPaddock pad { q with
    heldState := if q.state = .halted then q.heldState else q.state, state := .halted }
  let s := s.req.slots.foldl (fun s e => s.faultSlot pad e.1) s
  let s := q.jobs.foldl (fun s j => match s.plan j with
    | none => s
    | some p => s.putPlan j { p with batch := [], next := [], ran := 0 }) s
  let s := q.tillers.foldl State.idleUnits s
  if q.state = .halted then s else s.event 120 2 [padBit pad 2] []

/-- The links of the neighbours to a failed router are down; the site is found dead (R174). -/
def State.routerDown (s : State) (site : Nat) : State :=
  let s := [0, 1, 2, 3].foldl (fun s port => match neighbour site port with
    | none => s
    | some y =>
      let k := y * 4 + (port + 2) % 4
      if s.rhz.down.contains k then s
      else
        let s : State := { s with rhz := { s.rhz with down := insNat k s.rhz.down } }
        s.event (siteDie y) 25 [sqBit 0x118 2] [1]) s
  { s with rhz := { s.rhz with
      found := insNat site s.rhz.found, detect := if s.rhz.detect.isSome then s.rhz.detect else some s.strokeN } }

/-- Quarantine of a Tiller fails: it stays retired, for good, and its command is refused (R67, R492, R500). -/
def State.quarFail (s : State) (t : Nat) : State :=
  let qs := s.pad.quars.filter (fun x => x.tiller = t)
  let s : State := { s with
    pad := { s.pad with quars := s.pad.quars.filter (fun x => x.tiller ≠ t) }
    flt := { s.flt with permanent := insNat t s.flt.permanent } }
  qs.foldl (fun s x => match x.cmd with | none => s | some m => s.cmdResult m 8 0) s

/-- A spare fails (R473, R500): it is never named, becomes retired at the next re-plan boundary, and a promotion that named it
names the next one. -/
def State.spareFail (s : State) (t : Nat) (permanent : Bool) : State :=
  let s : State := { s with
    til := { s.til with leaving := if s.til.leaving.contains t then s.til.leaving else s.til.leaving ++ [t] }
    flt := { s.flt with
      permanent := if permanent then insNat t s.flt.permanent else s.flt.permanent
      tillerTimes := Tbl.put s.flt.tillerTimes t (s.nowNs :: Tbl.val [] s.flt.tillerTimes t) } }
  let s := s.postFault 1 (8 + t) (b2n permanent)
  s.pad.promos.foldl (fun s x =>
    if x.spare = some t then
      let y := { x with spare := s.nextSpare, detect := s.strokeN }
      { s with pad := { s.pad with promos := s.pad.promos.map (fun z => if z = x then y else z) } }
    else s) s

/-- The pending columns and the planner run of a failed Tiller are dropped with it (R500). -/
def State.dropPlanned (s : State) (t : Nat) : State :=
  let r := s.tiller t
  let s := s.setTiller t { r with arrays := r.arrays.map (fun e => (e.1, { e.2 with pending := [] })) }
  match Tbl.look s.flt.planners t with
  | none => s
  | some x => { s with flt := { s.flt with planners := Tbl.put s.flt.planners t { x with running := false } } }

/-- A Tiller is failed (R492): in service, its paddock halts, FAULT 0x01 is posted and the lowest-numbered spare is named (R66). -/
def State.tillerFail (s : State) (t : Nat) (permanent : Bool) (router : Bool) : State :=
  let s := if router then s.routerDown (tillerSite t) else s
  match (s.tiller t).role with
  | .inService =>
    if s.pad.promos.any (fun x => decide (x.failed = t)) then s
    else
      let perm := permanent || decide (1 ≤ s.recentFaults t)
      let s : State := { s with flt := { s.flt with
        permanent := if perm then insNat t s.flt.permanent else s.flt.permanent
        tillerTimes := Tbl.put s.flt.tillerTimes t (s.nowNs :: Tbl.val [] s.flt.tillerTimes t) } }
      let s := (s.postFault 1 (8 + t) (b2n perm)).dropPlanned t
      match (s.tiller t).pad with
      | none => ({ s with til := { s.til with leaving := s.til.leaving ++ [t] } }).idleUnits t
      | some pad =>
        let s := (s.haltPad pad).tierLoss t
        let x : Promo := { failed := t, spare := s.nextSpare, paddock := pad, detect := s.strokeN, transient := !perm }
        { s with pad := { s.pad with promos := sortBy Promo.failed (s.pad.promos ++ [x]) } }
  | .spare => s.spareFail t permanent
  | _ => if s.pad.quars.any (fun x => decide (x.tiller = t)) then s.quarFail t else s

/-- TILLER_FAULT (R66, R492): a rail fault is permanent, and with the rails the router goes (R174). -/
def tillerFault (s : State) (t : Nat) (cause : TillerCause) : State :=
  if 68 ≤ t then s
  else match cause with
    | .railFault => s.tillerFail t true true
    | .rootLoss => s.tillerFail t false true
    | _ => s.tillerFail t false false

/-- SPARE_FAILURE (R473, R500). -/
def spareFailure (s : State) (t : Nat) : State :=
  if (s.tiller t).role = .spare ∧ s.til.leaving.contains t = false ∧ t < 68 then s.spareFail t false else s

/-- Complete one promotion at its boundary (R66, R493): the spare takes the rank, or the paddock narrows. -/
def State.promoteOne (s : State) (x : Promo) : State :=
  let pad := x.paddock
  let q := s.paddock pad
  let t := x.failed
  let left := q.tillers.filter (fun y => y ≠ t)
  let s : State := { s with pad := { s.pad with promos := s.pad.promos.filter (fun y => y ≠ x) } }
  match x.spare with
  | some sp =>
    let q := { q with tillers := insNat sp left, ranks := q.ranks.map (fun y => if y = some t then some sp else y)
                      hosted := q.hosted.map (fun e => if e.2 = t then (e.1, sp) else e) }
    let s := (s.setPaddock pad q).setRole sp .inService (some pad)
    let s := s.powerOff t
    if x.transient then
      { s with pad := { s.pad with quars := s.pad.quars ++ [{ tiller := t, since := s.strokeN, cmd := none }] } }
    else s
  | none =>
    let s := s.powerOff t
    match s.rankPad pad left with
    | some q' => s.setPaddock pad q'
    | none => s.setPaddock pad { q with
        tillers := left, ranks := q.ranks.map (fun y => if y = some t then none else y), noHost := true }

/-- The commands held while a paddock was halted are applied, in the order of R62 (R64): by source, and by arrival within one source,
over every stroke in which they were received (DESIGN CHOICE, log entry 60: the spec does not say whether the stroke of receipt comes
first). -/
def State.releaseHeld (s : State) (pad : Nat) : State :=
  let cs := (s.paddock pad).heldCmds
  let s := s.setPaddock pad { s.paddock pad with heldCmds := [] }
  (sortBy CmdMsg.source cs).foldl (fun s m => s.applyCmd m true) s

/-- The promotions in flight of a paddock. -/
def State.promosOf (s : State) (pad : Nat) : List Promo := s.pad.promos.filter (fun x => decide (x.paddock = pad))

/-- A boundary after every detection of a paddock's failed Tillers may be its boundary b (R66). -/
def State.promosFit (s : State) (pad : Nat) : Bool :=
  !(s.promosOf pad).isEmpty && (s.promosOf pad).all (fun x => decide (x.detect < s.strokeN))

/-- This boundary is b for a paddock: what b needs is staged, or 4,000 strokes have passed since a detection, which is the latest that b
may fall (R66). -/
def State.promosDue (s : State) (ready : List Nat) (pad : Nat) : Bool :=
  s.promosFit pad &&
    (ready.contains (promoKey pad) || (s.promosOf pad).any (fun x => decide (x.detect + 4000 ≤ s.strokeN)))

/-- The promotions of a paddock are completed (R66, R493, R494): its jobs are placed again, the sprint slot count is published and the
paddock leaves HALTED. -/
def State.promotePad (s : State) (pad : Nat) : State :=
  let t := (s.promosOf pad).foldl State.promoteOne s
  (((t.placePad pad).publishSlots pad).event 120 2 [padBit pad 3] []).unhalt pad

/-- A halted paddock that waits for no promotion and whose ranks all have a Tiller. -/
def State.restorable (s : State) (pad : Nat) : Bool :=
  let q := s.paddock pad
  decide (q.state = .halted) && !q.noHost && !s.pad.promos.any (fun x => decide (x.paddock = pad))

/-- Such a paddock is restored (R64). -/
def State.restorePad (s : State) (pad : Nat) : State :=
  if s.restorable pad then (s.event 120 2 [padBit pad 3] []).unhalt pad else s

/-- The commands held for a paddock that is no longer halted, or that no boundary restores without a command, are applied after the
re-plan (R64). -/
def State.freeHeld (s : State) (pad : Nat) : State :=
  if s.holds pad || (s.paddock pad).heldCmds.isEmpty then s else s.releaseHeld pad

/-- Columns have been pending for 64 strokes and the narrowed placement is staged (R504). -/
def State.columnsDue (s : State) (ready : List Nat) : Bool :=
  ready.contains columnKey && (match s.til.marked with | none => false | some n => decide (n + 64 ≤ s.strokeN)) &&
    s.til.tillers.any (fun e => e.2.arrays.any (fun a => decide (a.2.pending ≠ [])))

/-- REPLAN_BOUNDARY (R65): pending columns, leaving Tillers, promotions, commands due, Tillers that rejoin, paddocks restored, and then
the commands held for them. -/
def State.replan (s : State) (ready : List Nat) : State :=
  let t := s.bypassColumns.leaveNow
  let t := (List.range 16).foldl (fun t p => if t.promosDue ready p then t.promotePad p else t) t
  let t := (t.applyDue ready).rejoins ready
  let t := (List.range 16).foldl State.restorePad t
  let t := (List.range 16).foldl State.freeHeld t.setPoints
  (t.setPoints).bumpCap s

/-- Something falls due that makes this boundary a re-plan boundary (R65). -/
def State.replanDue (s : State) (ready : List Nat) : Bool :=
  !(s.dueNow ready).isEmpty || !s.til.leaving.isEmpty || s.columnsDue ready || (List.range 16).any (s.promosDue ready) ||
  (List.range 16).any (fun p => s.restorable p || (!s.holds p && !(s.paddock p).heldCmds.isEmpty)) ||
  s.pad.rejoin.any (fun e => match e.2 with
    | none => true
    | some m => decide (m.atStroke ≤ s.strokeN))

/-- QUARANTINE_END (R67): after at least 20,000 strokes the Tiller joins at the next re-plan boundary, or stays retired. -/
def quarantineEnd (s : State) (t : Nat) (pass : Bool) : State :=
  match s.pad.quars.find? (fun x => decide (x.tiller = t)) with
  | none => s
  | some x =>
    if s.strokeN < x.since + 20000 then s
    else if !pass then s.quarFail t
    else { s with pad := { s.pad with
      quars := s.pad.quars.filter (fun y => y.tiller ≠ t), rejoin := s.pad.rejoin ++ [(t, x.cmd)] } }

/-! ### Meanings -/

/-- LOAD_JOB. -/
def execLoadJob (m : CmdMsg) (s : State) : Host.Outcome State Fault Refusal := .next (s.cmdNow m 1)
/-- REMOVE_JOB. -/
def execRemoveJob (m : CmdMsg) (s : State) : Host.Outcome State Fault Refusal := .next (s.cmdNow m 2)
/-- SET_WHEEL. -/
def execSetWheel (m : CmdMsg) (s : State) : Host.Outcome State Fault Refusal := .next (s.cmdNow m 3)
/-- DRAIN. -/
def execDrain (m : CmdMsg) (s : State) : Host.Outcome State Fault Refusal := .next (s.cmdNow m 4)
/-- RESUME. -/
def execResume (m : CmdMsg) (s : State) : Host.Outcome State Fault Refusal := .next (s.cmdNow m 5)
/-- RESIZE. -/
def execResize (m : CmdMsg) (s : State) : Host.Outcome State Fault Refusal := .next (s.cmdNow m 6)
/-- RETIRE_TILLER. -/
def execRetireTiller (m : CmdMsg) (s : State) : Host.Outcome State Fault Refusal := .next (s.cmdNow m 7)
/-- READMIT_TILLER. -/
def execReadmitTiller (m : CmdMsg) (s : State) : Host.Outcome State Fault Refusal := .next (s.cmdNow m 8)
/-- TILLER_FAULT. -/
def execTillerFault (t : Nat) (c : TillerCause) (s : State) : Host.Outcome State Fault Refusal := .next (tillerFault s t c)
/-- QUARANTINE_END. -/
def execQuarantineEnd (t : Nat) (pass : Bool) (s : State) : Host.Outcome State Fault Refusal := .next (quarantineEnd s t pass)
/-- SPARE_FAILURE. -/
def execSpareFailure (t : Nat) (s : State) : Host.Outcome State Fault Refusal := .next (spareFailure s t)

end Sys2Proof.Machine
end

