-- ==== Sys2Proof/Machine/Loss.lean ====
section
/-! DEFINITION. What the module keeps and what it loses when it starts again, and the safe states (R462, R474, R507, and the
reset rule of each block). -/

namespace Sys2Proof.Machine

/-- A start keeps a cell: host memory and flash always, LPDDR where it kept power, SRAM and HBM never (R507, R342). -/
def cellKept (lpddr : Bool) (k : Nat) : Bool :=
  let n := k / 18446744073709551616
  if n = 0 then lpddr else decide (n % 8 ≠ 1) && decide (n % 8 ≠ 2)

/-- Register words that a start which leaves LPDDR powered keeps: MOD_EARLY_DOORBELLS (R418), and TMG_TELEM_RING and TMG_SPRINT_RESERVE
as they stood at the latest boundary (R95). -/
def State.regsKept (s : State) : Tbl Word :=
  s.tmg.keptRegs.foldl (fun t e => Tbl.put t e.1 e.2) (s.pg.regs.filter (fun e => decide (e.1 = regKey 120 12 0x100)))

/-- A staged plan after a restart: not loaded (R342, R509). -/
def Plan.kept (p : Plan) : Plan := { p with loaded := none, order := 0, freeing := false, batch := [], next := [], ran := 0 }

/-- A ring after a start: positions whose records were not issued are free again (R46, R383). -/
def Ring.kept (r : Ring) : Ring := { r with resv := r.prod, issued := r.prod, filled := [], waiting := false, postedCi := r.cons }

/-- What a start leaves of a live request beside its journal records (log entry 86). -/
def Slot.base (x : Slot) : ReqBase :=
  { out := x.outBase, cit := x.citBase, replays := x.replays, colour := x.colour, cost := x.cost, dSvcC := x.dSvcC, dSvcP := x.dSvcP
    dAggC := x.dAggC, dAggP := x.dAggP, svcWP := x.svcWP, svcWG := x.svcWG, aggWP := x.aggWP, aggWG := x.aggWG
    promptRefunded := x.promptRefunded, degraded := x.degraded, skipped := x.skipped, returned := x.returned, reranked := x.reranked }

/-- The debits of a request are forgotten with the buckets that they were made from (R95). -/
def ReqBase.undebited (b : ReqBase) : ReqBase :=
  { b with cost := 0, dSvcC := false, dSvcP := false, dAggC := false, dAggP := false }

/-- What a start leaves of every request that was live; buckets do not survive a start that loses LPDDR. -/
def State.basesKept (s : State) (lpddr : Bool) : Tbl ReqBase :=
  let b := s.req.slots.foldl (fun b e => if e.2.live then Tbl.put b e.1 e.2.base else Tbl.del b e.1) s.req.bases
  if lpddr then b else b.map (fun e => (e.1, e.2.undebited))

/-- A journal record that a start finds: durable in staging LPDDR that kept power, or programmed (R30, R31). -/
def JRec.kept (lpddr : Bool) (r : JRec) : Bool := r.programmed || (lpddr && r.durable)

/-- A host port after a start: link and configuration space stay, all else is reset (R410, R474). -/
def HostPort.kept (h : HostPort) : HostPort :=
  { released := h.released, cfgReady := h.cfgReady, linkUp := h.linkUp, width := h.width, speed := h.speed, flit := h.flit
    d3hot := h.d3hot }

/-- Tillers whose readmission the module itself had begun (R492, R509). -/
def State.ownReadmits (s : State) : List Nat :=
  let a := (s.pad.quars.filter (fun q => q.cmd.isNone)).map Quar.tiller
  let b := (s.pad.rejoin.filter (fun e => e.2.isNone)).map Prod.fst
  (a ++ b ++ s.boot.readmits).foldl (fun l t => insNat t l) []

/-- The bypasses the boot partition keeps of an array (R504): bypassed and marked columns, and 64 for a retired array. -/
def MatArray.stored (x : MatArray) : List Nat :=
  let c := match x.change with | some c => c | none => (x.bypass, x.retired)
  x.pending.foldl (fun l k => insNat k l) c.1 ++ (if c.2 || x.retired then [64] else [])

/-- The bypasses of every array, over those kept before (R142, R504). -/
def State.bypassKept (s : State) : Tbl (List Nat) :=
  s.til.tillers.foldl (fun m e => e.2.arrays.foldl (fun m a =>
    if a.2.stored = [] then m else Tbl.put m (e.1 * 128 + a.1) a.2.stored) m) s.flt.bypass

/-- Everything a start loses is as after reset; what it keeps stands (R462, R95, R142, R161, R235, R240, R267, R269, R345,
R392, R498, R509, R520, R524). -/
def State.lose (s : State) (keep : Bool) : State :=
  { pending := s.pending
    freeCount := s.freeCount + 1
    mem := s.mem.filter (fun c => cellKept keep c.1)
    pg := { regs := if keep then s.regsKept else [] }
    time := { bootNs := s.time.bootNs }
    nor := { rings := s.nor.rings.map (fun e => (e.1, e.2.kept)) }
    hp0 := if keep then s.hp0.kept else {}
    hp1 := if keep then s.hp1.kept else {}
    req := { journal := s.req.journal.filter (JRec.kept keep), jserial := s.req.jserial, bases := s.basesKept keep }
    tmg := if keep then { meters := s.tmg.keptMeters, shapers := s.tmg.keptShapers, keptMeters := s.tmg.keptMeters
                          keptShapers := s.tmg.keptShapers, keptRegs := s.tmg.keptRegs } else {}
    cis := if keep then { plans := s.cis.plans.map (fun e => (e.1, e.2.kept)), ptes := s.cis.ptes, hostGib := s.cis.hostGib
                          lpUsed := s.cis.lpUsed, hbmRetired := s.cis.hbmRetired }
           else { hbmRetired := s.cis.hbmRetired }
    cat := if keep then s.cat else {}
    idx := { gens := s.idx.gens.map (fun e => (e.1, { e.2 with pend := false })), openSerial := s.idx.openSerial }
    wdl := { s.wdl with
      mounted := false, roDue := false, writeThrough := false, streams := [], sinceCkpt := 0
      wells := s.wdl.wells.map (fun e => (e.1, { e.2 with state := 1, since := 0 })) }
    flt := { s.flt with
      failedCores := [], safe := false, bypass := s.bypassKept
      planners := s.flt.planners.map (fun e => (e.1, { e.2 with running := false, done := false, outcome := 0 })) }
    boot := { s.boot with
      started := false, lpddrKept := keep, phase := 0, phaseDone := false, ready := false, applied := none, running := 3
      runImage := [], persist := none, fwHold := false, resetState := 0, shutting := false, waitJobs := []
      readmits := s.ownReadmits, firstStroke := 0, restartDue := false, lock := s.boot.fuses.lock
      shadow := if keep then s.boot.shadow else none, upStrokes := if keep then s.boot.upStrokes else 0
      bankCharged := keep && s.boot.bankCharged, flushed := false, fuseHold := false }
    dbg := { nonce := Config.freeNonce s.freeCount, barred := keep && s.dbg.barred
             haltOnReset := if keep then s.dbg.haltOnReset else [], halted := if keep then s.dbg.haltOnReset else []
             extest := keep && s.dbg.extest, cells := if keep then s.dbg.cells else [] } }

/-- The safe states (R474): Ziori idles with every bypass closed, rails drop, LPDDR keeps its contents in self-refresh, links stay up
and BAR accesses are not served; erases in progress are cut short. -/
def State.safeStates (s : State) : State :=
  let t := s.lose true
  { t with flt := { t.flt with safe := true } }

end Sys2Proof.Machine
end

