-- ==== Sys2Proof/Machine/Faults.lean ====
section
/-! DEFINITION. Faults of links, routers, HBM, flash, Wellheads and cores, route switches, and the margin planner (R163,
R173, R174, R490 to R506). -/

namespace Sys2Proof.Machine

/-! ### Links, routers and route switches (R163, R173, R174) -/

/-- A die with a router that is live: a Wellhead or a Tiller that is not powered down. -/
def State.routerLive (s : State) (site : Nat) : Bool := decide (site < 72) && !s.dieDown (siteDie site)

/-- One end of a link is marked down (R178). -/
def State.linkEndDown (s : State) (site port : Nat) : State :=
  let k := site * 4 + port
  if s.rhz.down.contains k then s
  else
    let s : State := { s with rhz := { s.rhz with down := insNat k s.rhz.down } }
    s.event (siteDie site) 25 [sqBit 0x118 2] [1]

/-- LINK_RETRY (R163, R175, R177): flits sent again; more than 8 retries of one flit mark the link down. -/
def linkRetry (s : State) (site port retries : Nat) : State :=
  match neighbour site port with
  | none => s
  | some y =>
    if !s.routerLive site || retries = 0 || s.rhz.down.contains (site * 4 + port) then s
    else
      let d := siteDie site
      let s := (s.bumpWide d 25 3 port (min retries 8)).event d 25 [sqBit 0x118 1] []
      if retries ≤ 8 then { s with rhz := { s.rhz with retrying := insNat (site * 4 + port) s.rhz.retrying } }
      else
        let s : State := { s with rhz := { s.rhz with retrying := s.rhz.retrying.filter (fun k => k ≠ site * 4 + port) } }
        (s.linkEndDown site port).linkEndDown y ((port + 2) % 4)

/-- Sites of retired Tillers and failed Wellheads: their routers are powered down (R168). -/
def State.offSites (s : State) : List Nat := (List.range 72).filter (fun x => s.dieDown (siteDie x))

/-- Sites found dead whose Tiller has not left service yet; a site that left is dead by its role (R174). -/
def State.stillFound (s : State) : List Nat :=
  s.rhz.found.filter (fun x =>
    let d := siteDie x
    if d < 8 then !s.dieDown d
    else s.pad.promos.any (fun m => decide (m.failed = d - 8)) || s.til.leaving.contains (d - 8))

/-- The dead sites of the next route tables (R168, R173). -/
def State.nextDead (s : State) : List Nat := s.stillFound.foldl (fun l x => insNat x l) s.offSites

/-- The paddock of the Tiller at a site. -/
def State.sitePad (s : State) (x : Nat) : Option Nat :=
  let d := siteDie x
  if d < 8 then none else (s.tiller (d - 8)).pad

/-- The boundary's route switch begins: every router stops injecting (R173). The tables change at a re-plan boundary that changes
the set of dead sites, and at a boundary at which the tables for a router fault are ready, at the latest two after its
detection. -/
def State.armSwitch (s : State) (replan : Bool) (ready : List Nat) : State :=
  let due := match s.rhz.detect with
    | none => false
    | some d => decide (d + 2 ≤ s.strokeN) || (decide (d < s.strokeN) && ready.contains routeKey)
  if (replan || due) && decide (s.nextDead ≠ s.rhz.dead) then { s with rhz := { s.rhz with pausing := true } } else s

/-- A packet that cannot reach its destination is discarded at the switch where it stands, and its paddocks halt (R174). -/
def State.switchDiscard (s : State) (at_ : Nat) (p : Packet) : State :=
  let hops := ((packetPath p).zip ((packetPath p).drop 1)).takeWhile (fun h => decide (h.1 ≠ at_))
  let s := (s.countHops hops (packetFlits p)).rhzDrop (siteDie at_) 3
  let s : State := { s with rhz := { s.rhz with flight := s.rhz.flight.filter (fun q => q ≠ p) } }
  ([s.sitePad p.src, s.sitePad p.dst].filterMap id).foldl (fun s pad =>
    if (s.paddock pad).state = .halted then s else s.haltPad pad) s

/-- Every router is empty but for packets that wait for a link that is down (R173, R174). -/
def State.routersEmpty (s : State) : Bool := s.rhz.flight.all (fun p => (s.stuckAt p).isSome)

/-- ROUTE_SWITCH (R173, R174): once every packet that can be delivered on its old path has been, the tables switch to the dead sites
in force, the packets whose old path needs a down link are discarded, and injection resumes. -/
def routeSwitch (s : State) (pauseNs : Nat) : State :=
  let dead := s.nextDead
  if !s.rhz.pausing || !s.routersEmpty then s
  else
    let old := s.rhz.dead
    let s := s.rhz.flight.foldl (fun s p => match s.stuckAt p with
      | none => s
      | some x => s.switchDiscard x p) s
    let wait := s.rhz.held
    let back := old.filter (fun x => !dead.contains x)
    let gone (k : Nat) : Bool := back.contains (k / 4) ||
      (match neighbour (k / 4) (k % 4) with | none => false | some y => back.contains y)
    let s : State := { s with rhz := { s.rhz with
      gen := s.rhz.gen + 1, dead := dead, found := s.stillFound, down := s.rhz.down.filter (fun k => !gone k), detect := none
      pausing := false, held := [] } }
    let s := ((List.range 72).filter (fun x => s.routerLive x)).foldl (fun s x =>
      (s.setRegN (siteDie x) 25 0x110 (pauseNs % 4294967296)).event (siteDie x) 25 [sqBit 0x118 3] []) s
    wait.foldl State.inject s

/-- ROUTER_FAILURE (R174): the neighbours mark their links down, and the Tiller of the site is failed. -/
def routerFailure (s : State) (site : Nat) : State :=
  if !s.routerLive site || s.rhz.found.contains site then s
  else
    let d := siteDie site
    if d < 8 then s.routerDown site
    else match (s.tiller (d - 8)).role with
      | .inService => s.tillerFail (d - 8) false true
      | .spare => (s.routerDown site).spareFail (d - 8) false
      | _ => s.routerDown site

/-! ### HBM (R496) -/

/-- What becomes of the page in an HBM frame that is gone (R341): clean, it is at its backing; dirty, it is lost. -/
def State.frameLost (s : State) (k : Nat) (e : Pte) : State :=
  let job := k / 4294967296
  let vpn := k % 4294967296
  let s : State := { s with cis := { s.cis with moves := s.cis.moves.filter (fun m => !(decide (m.job = job) && decide (m.vpn = vpn))) } }
  let e' : Pte := { e with
    tier := 3, tiller := 0, loc := s.backIdx job vpn, moving := false, lost := e.lost || decide (e.dirty ≠ 0), dirty := 0 }
  let s := s.setPte job vpn e'
  let s := if e.dirty = 0 then s else s.event (8 + e.tiller) 29 [sqBit 0x118 2] []
  if e.pinned then s.bringPage job vpn 1 e.tiller 0 true else s

/-- HBM_STACK_FAIL (R496): FAULT 0x03, and the Tiller is failed for good. -/
def hbmStackFail (s : State) (t : Nat) : State :=
  if 68 ≤ t ∨ (s.tiller t).role = .retired ∨ (s.tiller t).role = .unknown then s
  else (s.postFault 3 (8 + t) 0).tillerFail t true false

/-- HBM_FRAME_RETIRE (R496): the frame leaves use and its page is handled as under R341; more than 64 of them fail the
stack. -/
def hbmFrameRetire (s : State) (t frame : Nat) : State :=
  let key := t * 16777216 + frame
  if 68 ≤ t ∨ 393216 ≤ frame ∨ (s.tiller t).role ≠ .inService ∨ s.cis.hbmRetired.contains key = true then s
  else
    let s : State := { s with cis := { s.cis with
      hbmRetired := insNat key s.cis.hbmRetired, hbmUsed := s.cis.hbmUsed.filter (fun k => k ≠ key) } }
    let s : State := { s with mem := Memory.clear s.mem (Space.key (.hbm t) (tierPage * frame)) tierPage }
    let s := (s.cis.ptes.filter (fun e => e.2.valid && decide (e.2.tier = 1) && decide (e.2.tiller = t) && decide (e.2.loc = frame))).foldl
      (fun s e => s.frameLost e.1 e.2) s
    if 64 < (s.cis.hbmRetired.filter (fun k => k / 16777216 = t)).length then hbmStackFail s t else s

/-! ### Flash (R497) -/

/-- Blocks of a NAND die (R350: 9,557). -/
def dieBlocks : Nat := 9557

/-- A NAND die's blocks are gone: open ones are rebuilt from parity, all count as retired against the Well's spares (R355, R357,
R497). -/
def State.dieLoss (s : State) (d : Nat) : State :=
  let w := d / 32
  let mine := s.wdl.blocks.filter (fun e => decide (blkDie e.1 = d))
  let retired := (mine.filter (fun e => decide (e.2.state = .retired))).length
  let s : State := { s with wdl := { s.wdl with deadDies := insNat d s.wdl.deadDies } }
  let s := mine.foldl (fun s e =>
    if e.2.state = .opened then
      let s := s.noteRebuilt e.1 e.2.used
      if e.2.part = 3 ∨ e.2.part = 4 then s.moveGroup e.1 w else s.moveKeys (s.keysIn e.1) w
    else s) s
  let s := mine.foldl (fun s e => s.setBlock e.1 { s.block e.1 with state := .retired, intent := none }) s
  let n := dieBlocks - retired
  let x := s.well w
  let s := s.setWell w { x with spare := x.spare - n, retired := x.retired + n }
  let s := if x.spare < n then { s with wdl := { s.wdl with roDue := true } } else s
  let s := s.event (80 + w) 0
    (sqBit 0x118 3 :: (if x.spare - n < 1024 ∧ 1024 ≤ x.spare then [sqBit 0x118 0] else [])) []
  let hit (id : Nat) : Bool := s.wdl.map.any (fun e => decide (e.1 / 36893488147419103232 = 2) &&
    decide (e.1 % 18446744073709551616 / 4294967296 = id) && decide (blkDie (entryBlk e.2) = d))
  let s : State := { s with wdl := { s.wdl with
    images := s.wdl.images.map (fun e => if hit e.1 then (e.1, { e.2 with single := true }) else e) } }
  (s.loseBacking).loseSpilled

/-- FLASH_DIE_FAIL (R497): FAULT 0x05, and the die's blocks are handled by partition. -/
def flashDieFail (s : State) (w ch die : Nat) : State :=
  let d := w * 32 + ch * 4 + die
  if s.wellUp w = false ∨ 8 ≤ ch ∨ 4 ≤ die ∨ s.wdl.deadDies.contains d = true then s
  else (s.postFault 5 (80 + w) (4 * ch + die)).dieLoss d

/-- FLASH_CHANNEL_FAIL (R497): FAULT 0x06; the four dies go, and the third failed channel fails the Well. -/
def flashChannelFail (s : State) (w ch : Nat) : State :=
  let c := w * 8 + ch
  if s.wellUp w = false ∨ 8 ≤ ch ∨ s.wdl.deadChans.contains c = true then s
  else
    let s := s.postFault 6 (80 + w) ch
    let s : State := { s with wdl := { s.wdl with deadChans := insNat c s.wdl.deadChans } }
    let s := [0, 1, 2, 3].foldl (fun s i =>
      if s.wdl.deadDies.contains (c * 4 + i) then s else s.dieLoss (c * 4 + i)) s
    if 3 ≤ (s.wdl.deadChans.filter (fun x => x / 8 = w)).length then s.wellFailure w else s

/-! ### Wellheads and cores (R498, R499) -/

/-- A Wellhead fails (R498): its host port is down, FAULT 0x09, the safe states, and a restart without it; a second failure leaves the module in its safe
states. -/
def State.wellheadFail (s : State) (w : Nat) : State :=
  if 4 ≤ w ∨ s.flt.failedWh.contains w = true then s
  else
    let s := (if w < 2 then s.setHp w { s.hp w with linkUp := false } else s).postFault 9 w 0
    ({ s with flt := { s.flt with failedWh := insNat w s.flt.failedWh } } : State).safeStates

/-- Every claim of a core is released: counters that hold its owner id read 0 (R386, R499). -/
def State.releaseClaims (s : State) (c : Nat) : State :=
  { s with nor := { s.nor with ctrs := s.nor.ctrs.filter (fun e => decide (e.2.toNat / 16777216 ≠ 2 * 16 + c)) } }

/-- A core fails (R499): FAULT 0x0A; its claims are released, and the next live core of its Wellhead adopts its slots and rings; the
last one takes the Wellhead with it. -/
def State.coreFail (s : State) (c : Nat) : State :=
  let w := c / 4
  let s := s.postFault 0xA w c
  let s : State := { s with
    flt := { s.flt with failedCores := insNat c s.flt.failedCores }
    dbg := { s.dbg with halted := s.dbg.halted.filter (fun x => x ≠ c), forced := s.dbg.forced.filter (fun x => x ≠ c) } }
  let s := s.releaseClaims c
  if [0, 1, 2, 3].all (fun i => s.flt.failedCores.contains (4 * w + i)) then s.wellheadFail w else s.settle

/-- CORE_FAILURE (R499): the watchdog does not act on a core halted for debug. -/
def coreFailure (s : State) (c : Nat) : State :=
  if 16 ≤ c ∨ s.coreLive c = false then s else s.coreFail c

/-- TOKENISE (R241, R247): a lane takes the next descriptor of its work ring. A refusal is charged to the core that issued it, which
fails, and the core that adopts its slots issues the request's TOKENISE again (R499). -/
def tokenise (s : State) (l : Nat) : State :=
  let r := s.laneRun l
  match r.2 with
  | none => r.1
  | some d =>
    let n := fld d 8 4
    let c := r.1.coreOf (r.1.slot n).core
    let s := if (r.1.slot n).live && r.1.coreLive c then r.1.coreFail c else r.1
    let x := s.slot n
    if x.live && !x.tokDone && decide (x.state ≠ .admitted) then s.qrnIssue n else s

/-! ### The margin planner (R503, R504) -/

/-- 24 h of module time in nanoseconds. -/
def hours24 : Nat := 86400000000000

/-- The planner of a Tiller. -/
def State.planner (s : State) (t : Nat) : Planner := Tbl.val {} s.flt.planners t

/-- Replace the planner of a Tiller. -/
def State.setPlanner (s : State) (t : Nat) (p : Planner) : State :=
  { s with flt := { s.flt with planners := Tbl.put s.flt.planners t p } }

/-- A run is asked for, or 24 h have passed since the latest (R503). -/
def State.plannerDue (s : State) (t : Nat) : Bool :=
  let p := s.planner t
  p.running || decide (p.lastRunNs.getD 0 + hours24 ≤ s.nowNs)

/-- The smallest margin step at which the least slack at P0 is at least 15 ps; `slack` gives it step by step (R503). -/
def marginStep (slack : List Int) : Option Nat := (List.range 13).find? (fun k => match slack[k]? with
  | none => false
  | some x => decide (15 ≤ x))

/-- Mark a column bad (R504): pending, with FAULT 0x02. -/
def State.markColumn (s : State) (t a c : Nat) : State :=
  let x := (s.tiller t).array a
  let none_ := s.til.tillers.all (fun e => e.2.arrays.all (fun a => decide (a.2.pending = [])))
  let s : State := { s with til := { s.til with marked := if none_ then some s.strokeN else some (s.til.marked.getD s.strokeN) } }
  let s := s.setArray t a { x with pending := x.pending ++ [c] }
  let s := (s.event (8 + t) (1 + a / 8) [sqBit 0x180 (a % 8)] []).event (8 + t) 36 [sqBit 0x118 1] []
  (s.postFault 2 (8 + t) (64 * a + c)).bumpWide (8 + t) 36 2 0 1

/-- MARGIN_PLANNER_RUN (R503, R504): the voltage step, never lowered by more than one, then the array test in the Tiller's quiet
window. -/
def marginPlannerRun (s : State) (t : Nat) (slack : List Int) (failing : List (Nat × Nat)) (quiet : Bool) : State :=
  let r := s.tiller t
  if 68 ≤ t ∨ ¬(r.role = .inService ∨ r.role = .spare) ∨ s.plannerDue t = false then s
  else
    let p := s.planner t
    let short := (marginStep slack).isNone
    let off := max ((marginStep slack).getD 12) (p.offset - 1)
    let bad := if !quiet then [] else failing.filter (fun e => decide (e.1 < 96) && decide (e.2 < 64) &&
      !(r.array e.1).retired && !(r.array e.1).bypass.contains e.2 && !(r.array e.1).pending.contains e.2)
    let bad := bad.foldl (fun l e => if l.contains e then l else l ++ [e]) []
    let s := bad.foldl (fun s e => s.markColumn t e.1 e.2) s
    let outcome := if short then 4 else if bad ≠ [] then 3 else if !quiet then 5
      else if p.offset < off then 1 else if off < p.offset then 2 else 0
    let s := s.setPlanner t { p with
      running := false, done := true, outcome := outcome, offset := off, lastRunNs := some s.nowNs }
    let s := (s.bumpWide (8 + t) 36 1 0 1).event (8 + t) 36 (sqBit 0x118 0 :: (if quiet then [] else [sqBit 0x118 2])) []
    if short ∧ s.til.leaving.contains t = false then
      { s with til := { s.til with leaving := s.til.leaving ++ [t] }
               flt := { s.flt with permanent := insNat t s.flt.permanent } }
    else s

/-! ### Meanings -/

/-- LINK_RETRY. -/
def execLinkRetry (site port retries : Nat) (s : State) : Host.Outcome State Fault Refusal := .next (linkRetry s site port retries)
/-- ROUTE_SWITCH. -/
def execRouteSwitch (pauseNs : Nat) (s : State) : Host.Outcome State Fault Refusal := .next (routeSwitch s pauseNs)
/-- ROUTER_FAILURE. -/
def execRouterFailure (site : Nat) (s : State) : Host.Outcome State Fault Refusal := .next (routerFailure s site)
/-- HBM_FRAME_RETIRE. -/
def execHbmFrameRetire (t frame : Nat) (s : State) : Host.Outcome State Fault Refusal := .next (hbmFrameRetire s t frame)
/-- HBM_STACK_FAIL. -/
def execHbmStackFail (t : Nat) (s : State) : Host.Outcome State Fault Refusal := .next (hbmStackFail s t)
/-- FLASH_DIE_FAIL. -/
def execFlashDieFail (w ch die : Nat) (s : State) : Host.Outcome State Fault Refusal := .next (flashDieFail s w ch die)
/-- FLASH_CHANNEL_FAIL. -/
def execFlashChannelFail (w ch : Nat) (s : State) : Host.Outcome State Fault Refusal := .next (flashChannelFail s w ch)
/-- WELLHEAD_FAILURE. -/
def execWellheadFailure (w : Nat) (s : State) : Host.Outcome State Fault Refusal := .next (s.wellheadFail w)
/-- CORE_FAILURE. -/
def execCoreFailure (c : Nat) (s : State) : Host.Outcome State Fault Refusal := .next (coreFailure s c)
/-- TOKENISE. -/
def execTokenise (l : Nat) (s : State) : Host.Outcome State Fault Refusal := .next (tokenise s l)
/-- MARGIN_PLANNER_RUN. -/
def execMarginPlannerRun (t : Nat) (slack : List Int) (failing : List (Nat × Nat)) (quiet : Bool) (s : State) :
    Host.Outcome State Fault Refusal := .next (marginPlannerRun s t slack failing quiet)

end Sys2Proof.Machine
end

