-- ==== Sys2Proof/Machine/Clocks.lean ====
section
/-! DEFINITION. Clocks, domain multiplexers, loss of root or reference, the sequencer, power entry, caps and temperature
(R463 to R479). -/

namespace Sys2Proof.Machine

/-- The operands of a die name a Wellhead, a Tiller or a fitted Well. -/
def State.dieThere (s : State) (d : Nat) : Bool := s.pageThere d 34

/-- Set bit `i` of a small bit set to a value. -/
def putBit (x i : Nat) (v : Bool) : Nat := x - b2n (bitAt x i) * 2 ^ i + b2n v * 2 ^ i

/-! ### Domain multiplexers (R471, R472) -/

/-- CLK_MUX_SWITCH (R471): a switch is asked for and never refused. -/
def clkMuxSwitch (s : State) (req : Requester) (d v : Nat) : State :=
  s.gated req d 34 3 (fun s =>
    let x := s.clkDie d
    let sel := v % 8
    let pend := sel ^^^ x.cur
    s.setClk d { x with
      sel := sel, pend := pend, hung := x.hung.filter (fun i => bitAt pend i)
      since := [0, 1, 2].foldl (fun m i => if bitAt pend i && !bitAt x.pend i then Tbl.put m i s.strokeN else m) x.since })

/-- MUX_SWITCH_COMPLETE (R471): with the old clock running, the domain changes over. -/
def muxSwitchComplete (s : State) (d dom : Nat) : State :=
  let x := s.clkDie d
  let alive := if bitAt x.cur dom then x.pllAlive else x.oscAlive
  if 3 ≤ dom ∨ bitAt x.pend dom = false ∨ alive = false then s
  else s.setClk d { x with
    cur := putBit x.cur dom (bitAt x.sel dom), pend := putBit x.pend dom false, hung := x.hung.filter (fun i => i ≠ dom) }

/-- MUX_HANG (R471): a switch pending for 1 ms, 20 strokes, is logged once. -/
def muxHang (s : State) (d dom : Nat) : State :=
  let x := s.clkDie d
  if 3 ≤ dom ∨ bitAt x.pend dom = false ∨ s.strokeN < Tbl.val 0 x.since dom + 20 ∨ s.dieThere d = false ∨
      x.hung.contains dom = true then s
  else (s.setClk d { x with hung := x.hung ++ [dom] }).event d 34 [sqBit 0x118 3] [1]

/-- The page headers of a die are as after reset: the state of its register-bus domain (R462, R472). -/
def State.resetHeaders (s : State) (d : Nat) : State :=
  { s with pg := { s.pg with hdr := s.pg.hdr.filter (fun e => e.1 / 256 ≠ d) } }

/-- Reset domain `dom` of a die (R472). -/
def State.domReset (s : State) (d dom : Nat) : State :=
  let x := s.clkDie d
  let s := s.setClk d { x with
    sel := putBit x.sel dom false, cur := putBit x.cur dom false, pend := putBit x.pend dom false
    hung := x.hung.filter (fun i => i ≠ dom)
    busDown := if dom = 2 then some s.strokeN else x.busDown }
  if dom = 2 then s.resetHeaders d
  else if d < 4 then s.safeStates
  else if d < 80 then
    (if (s.tiller (d - 8)).role = .inService then s.tillerFail (d - 8) false (dom == 1) else s.idleUnits (d - 8))
  else s.wellFailure (d - 80)

/-- CLK_DOM_RESET (R472): each bit written as 1 resets its domain. -/
def clkDomReset (s : State) (req : Requester) (d v : Nat) : State :=
  s.gated req d 34 3 (fun s => [2, 1, 0].foldl (fun s dom => if bitAt v dom then s.domReset d dom else s) s)

/-! ### Start-up checks (R469) and trim (R464) -/

/-- The dies that must run from their PLLs before the first boundary (R50): all fitted ones that are not powered down. -/
def State.liveDies (s : State) : List Nat :=
  let off (t : Nat) : Bool := s.boot.fuses.dead.contains t || s.flt.permanent.contains t ||
    (match Tbl.look s.boot.cfg.roles t with | some (.retired, _) => true | _ => false)
  (List.range 4).filter (fun w => !s.flt.failedWh.contains w) ++
  ((List.range 68).filter (fun t => !off t)).map (fun t => 8 + t) ++ (List.range s.wellCount).map (fun n => 80 + n)

/-- Every live die runs from its PLL. -/
def State.allLocked (s : State) : Bool := s.liveDies.all (fun d => (s.clkDie d).locked)

/-- OSC_STABLE (R469): 65,536 cycles have been counted; the root PLL starts. -/
def oscStable (s : State) (d : Nat) : State :=
  let x := s.clkDie d
  if s.boot.powered = false ∨ s.dieThere d = false ∨ x.oscOk = true then s
  else s.setClk d { x with oscOk := true, oscAlive := true, pllAlive := true, lost := false }

/-- PLL_LOCK_CONFIRM (R469, R50): the die's domains switch to the PLL, a Tiller's rail stands at P3 and its offset, and with the last
live die the clocks phase ends: the first stroke boundary falls, and the counter is 0. -/
def pllLockConfirm (s : State) (d : Nat) : State :=
  let x := s.clkDie d
  if x.oscOk = false ∨ x.locked = true ∨ x.pllAlive = false ∨ s.boot.powered = false then s
  else
    let off := if 8 ≤ d ∧ d < 76 then (s.planner (d - 8)).offset else 0
    let x := { x with locked := true, sel := 7, cur := 7, pend := 0 }
    let s := s.setClk d (if 8 ≤ d ∧ d < 76 then { x with op := 3, offset := off, mv := nominalMv 3 + 5 * off } else x)
    let s := if d < 4 then
        ((List.range 48).filter (fun p => portWh p = d)).foldl (fun s p => if p < 16 then s else s.train p) s
      else s
    if s.boot.started || s.flt.safe || !s.allLocked then s
    else
      { s with time := { s.time with stroke := 0, boundNs := 0, phaseUs := 0, strokeNs := 50000 }
               boot := { s.boot with started := true } }

/-- TRIM_SOURCE_SWITCH (R464): at a boundary the die takes another trim source; marks need a timing pair. -/
def trimSourceSwitch (s : State) (d source : Nat) (trim : Int) : State :=
  let x := s.clkDie d
  if s.atBoundary = false ∨ s.dieThere d = false ∨ 3 < source ∨ source = 0 ∨ source = x.src ∨ (source = 2 ∧ s.zio.timing = none) then s
  else
    (s.setClk d { x with src := source, trim := unsigned 16 trim }).event d 34
      (sqBit 0x118 1 :: (if x.src = 1 then [sqBit 0x118 0] else [])) []

/-! ### Loss of root or reference (R473, R474) -/

/-- ROOT_LOSS (R473): a PLL loses lock outside the checks of R469, or an oscillator stops; which, a free value says. -/
def rootLoss (s : State) (d : Nat) : State :=
  let x := s.clkDie d
  if x.locked = false ∨ s.dieThere d = false then s
  else
    let osc := Config.freeBool s.freeCount
    let s : State := { s with freeCount := s.freeCount + 1 }
    let s := (s.setClk d { x with locked := false, oscOk := false, oscAlive := osc, pllAlive := false, lost := true }).event d 34
      [sqBit 0x118 2] []
    if d < 4 then s.safeStates
    else if d < 80 then
      match (s.tiller (d - 8)).role with
      | .inService => (s.setClk d { s.clkDie d with mv := 0, want := none }).tillerFail (d - 8) false true
      | .spare =>
        ((s.setClk d { s.clkDie d with mv := 0, want := none }).routerDown (tillerSite (d - 8))).spareFail (d - 8) false
      | _ => s
    else s.wellFailure (d - 80)

/-- RESTART_WAIT (R474, R498): every root has been stable for 1 ms, and a restart follows; a Wellhead not stable after 100 ms is
failed, and the wait goes on without it. -/
def restartWait (s : State) (unstable : Option Nat) : State :=
  if s.flt.safe = false ∨ 2 ≤ s.flt.failedWh.length then s
  else match unstable with
    | some w => if (s.clkDie w).locked then s else s.wellheadFail w
    | none => if s.allLocked then { s with boot := { s.boot with restartDue := true } } else s

/-! ### The sequencer (R468) -/

/-- SEQUENCER_CHANGE (R466, R468): rail and frequency go to the latest target. -/
def sequencerChange (s : State) (t : Nat) : State :=
  let x := s.clkDie (8 + t)
  match x.want with
  | none => s
  | some (op, off) =>
    if 68 ≤ t ∨ (s.tiller t).role = .retired then s
    else s.setClk (8 + t) { x with op := op, offset := off, mv := nominalMv op + 5 * off, want := none }

/-! ### Power entry, caps and temperature (R475 to R477, R479) -/

/-- The die that runs the cap controller (R479, R498). -/
def State.capDie (s : State) : Nat := if s.flt.failedWh.contains 0 then 1 else 0

/-- INPUT_LOW (R475): between 46 V and 48 V. -/
def inputLow (s : State) (cv : Nat) : State :=
  if cv < 4600 ∨ 4800 ≤ cv then s else s.event s.capDie 35 [sqBit 0x118 2] []

/-- INPUT_OVERVOLTAGE (R475): the input stage disconnects, and the hold-up flush follows. -/
def inputOvervoltage (s : State) : State := { s with pwr := { s.pwr with cut := true } }

/-- PWR_CAP as read (reset value 16,000 W). -/
def State.capWatts (s : State) : Nat :=
  let v := (s.reg s.capDie 35 0x110).toNat
  if v = 0 then 16000 else v

/-- A ceiling register as a word holds points of at most 4. -/
def ceilOk (v : Nat) : Bool := (List.range 8).all (fun i => decide (v / 16 ^ i % 16 ≤ 4))

/-- The ceiling of a paddock (R467). -/
def State.padCeil (s : State) (p : Nat) : Nat := (s.reg s.capDie 35 (0x120 + 4 * (p / 8))).toNat / 16 ^ (p % 8) % 16

/-- A write of PWR_CAP or a ceiling on the page of a die (R479): live on the cap controller's die, dropped on others. -/
def State.pwrWrite (s : State) (d off v : Nat) : State :=
  if d ≠ s.capDie then s
  else if off = 0x110 then
    (if 2000 ≤ v % 65536 ∧ v % 65536 ≤ 16000 then s.setRegN d 35 0x110 (v % 65536) else s.err d 35 1)
  else if off = 0x120 ∨ off = 0x124 then (if ceilOk v then s.setRegN d 35 off v else s.err d 35 1)
  else s

/-- PWR_CAP_WRITE (R479). -/
def pwrCapWrite (s : State) (req : Requester) (off v : Nat) : State :=
  s.gated req s.capDie 35 3 (fun s => s.pwrWrite s.capDie off v)

/-- The 1 ms average of the input power (R476, R479). -/
def State.inputWatts (s : State) : Nat := s.pwr.watts.foldl (· + ·) 0 / max 1 s.pwr.watts.length

/-- Lower a paddock by one point, remembering the average it stood at. -/
def State.lowerPad (s : State) (p avg : Nat) : State :=
  let op := min 4 (s.padPoint p + 1)
  { s with pwr := { s.pwr with
      allow := Tbl.set 0 s.pwr.allow p op, drops := { pad := p, stroke := s.strokeN, avg := avg } :: s.pwr.drops, calm := 0 } }

/-- The paddock of a Tiller that is too hot is lowered one point, unless it was in the last 20 strokes or stands at P4 (R477). -/
def State.coolTiller (s : State) (t : Nat) : State :=
  match (s.tiller t).pad with
  | none => s
  | some p =>
    let due := match Tbl.look s.pwr.heatAt p with | none => true | some n => decide (n + 20 ≤ s.strokeN)
    if !due || decide (4 ≤ max (s.padPoint p) (Tbl.val 0 s.pwr.allow p)) then s
    else
      let s := s.lowerPad p s.inputWatts
      let s : State := { s with pwr := { s.pwr with heatAt := Tbl.put s.pwr.heatAt p s.strokeN } }
      s.event (8 + t) 35 [sqBit 0x118 3] []

/-- HOTSPOT_HIGH (R477): from 105 °C down to 100 °C the Tiller's paddock is lowered one point every 20 strokes; the first time now, then
at the boundaries. -/
def hotspotHigh (s : State) (t : Nat) (eighths : Int) : State :=
  if 68 ≤ t then s
  else if eighths ≤ 800 then { s with pwr := { s.pwr with hot := s.pwr.hot.filter (fun x => x ≠ t) } }
  else if eighths < 840 ∧ s.pwr.hot.contains t = false then s
  else ({ s with pwr := { s.pwr with hot := insNat t s.pwr.hot } } : State).coolTiller t

/-- The paddocks of the Tillers that are too hot, at a boundary (R477). -/
def State.coolAll (s : State) : State := s.pwr.hot.foldl State.coolTiller s

/-- HOTSPOT_TRIP (R477): at 125 °C the module disconnects its input, and the hold-up flush follows. -/
def hotspotTrip (s : State) (d : Nat) : State :=
  if s.dieThere d then { s with pwr := { s.pwr with cut := true } } else s

/-- The fall of a lowering is recorded 20 strokes after it (R476). -/
def recordFall (now avg : Nat) (d : PwrDrop) : PwrDrop :=
  if d.fall.isNone && decide (d.stroke + 20 ≤ now) then { d with fall := some (d.avg - avg) } else d

/-- The paddock to lower: the greatest draw, ties to the higher number, among those given that hold Tillers and are above
P4. -/
def State.pickLower (s : State) (draw : List Nat) (ps : List Nat) : Option Nat :=
  minBy (fun p => 16 * (18446744073709551616 - (draw[p]?.getD 0)) + (15 - p))
    (ps.filter (fun p => decide ((s.paddock p).tillers ≠ []) && decide (s.padPoint p < 4)))

/-- The controller may raise the paddock it lowered latest: none of its Tillers is above its limit. -/
def State.coolPad (s : State) (p : Nat) : Bool := !(s.paddock p).tillers.any (fun t => s.pwr.hot.contains t)

/-- The points of the paddocks take effect (R467, R476): a change shows on the controller's page and on those of the paddock's
Tillers (R479), and the controller rests after it. -/
def State.applyPoints (s : State) : State :=
  let ops : Tbl Nat := (List.range 16).foldl (fun (m : Tbl Nat) p => Tbl.set 0 m p (max (s.padCeil p) (Tbl.val 0 s.pwr.allow p))) []
  let old := s.pwr.padOp
  if ops = old then s
  else
    let moved := (List.range 16).filter (fun p => decide (Tbl.val 0 ops p ≠ Tbl.val 0 old p))
    let s : State := { s with pwr := { s.pwr with padOp := ops, lastChange := some s.strokeN } }
    ((moved.flatMap (fun p => (s.paddock p).tillers)).map (fun t => 8 + t)).foldl (fun s d => s.event d 35 [sqBit 0x118 0] [])
      (s.event s.capDie 35 [sqBit 0x118 0] [])

/-- CAP_CONTROL (R476): one boundary of the cap controller; `draw` is each paddock's power. -/
def State.capControl (s : State) (input : Nat) (draw : List Nat) : State :=
  let ws := (input :: s.pwr.watts).take 20
  let n := ws.length
  let sum := ws.foldl (· + ·) 0
  let cap := s.capWatts
  let now := s.strokeN
  let drops := s.pwr.drops.map (recordFall now (sum / n))
  let room := match drops with
    | [] => false
    | d :: _ => match d.fall with
      | none => false
      | some f => decide (100 * sum + n * (100 * f + 2 * cap) ≤ 100 * n * cap)
  let calm := if room then s.pwr.calm + 1 else 0
  let s : State := { s with pwr := { s.pwr with
    watts := ws, drops := drops, calm := calm, energyUj := s.pwr.energyUj + 50 * input } }
  let rested := match s.pwr.lastChange with | none => true | some l => decide (l + 20 ≤ now)
  let s : State :=
    if n * cap < sum ∧ rested = true then
      let plain := (List.range 16).filter (fun p => (s.sprintJob p).isNone)
      let sprint := (List.range 16).filter (fun p => (s.sprintJob p).isSome)
      match (s.pickLower draw plain).orElse (fun _ => s.pickLower draw sprint) with
      | none => s
      | some p =>
        ((s.lowerPad p (sum / n)).bumpWide s.capDie 35 3 0 1).event s.capDie 35 [sqBit 0x118 1] []
    else match s.pwr.drops with
      | d :: rest =>
        if 200 < calm ∧ s.coolPad d.pad = true then
          { s with pwr := { s.pwr with
              allow := Tbl.set 0 s.pwr.allow d.pad (Tbl.val 0 s.pwr.allow d.pad - 1), drops := rest, calm := 0 } }
        else s
      | [] => s
  s.applyPoints

/-! ### Meanings -/

/-- CLK_MUX_SWITCH. -/
def execClkMuxSwitch (req : Requester) (d : Nat) (v : Word) (s : State) : Host.Outcome State Fault Refusal :=
  .next (clkMuxSwitch s req d v.toNat)
/-- MUX_SWITCH_COMPLETE. -/
def execMuxSwitchComplete (d dom : Nat) (s : State) : Host.Outcome State Fault Refusal := .next (muxSwitchComplete s d dom)
/-- MUX_HANG. -/
def execMuxHang (d dom : Nat) (s : State) : Host.Outcome State Fault Refusal := .next (muxHang s d dom)
/-- CLK_DOM_RESET. -/
def execClkDomReset (req : Requester) (d : Nat) (v : Word) (s : State) : Host.Outcome State Fault Refusal :=
  .next (clkDomReset s req d v.toNat)
/-- OSC_STABLE. -/
def execOscStable (d : Nat) (s : State) : Host.Outcome State Fault Refusal := .next (oscStable s d)
/-- PLL_LOCK_CONFIRM. -/
def execPllLockConfirm (d : Nat) (s : State) : Host.Outcome State Fault Refusal := .next (pllLockConfirm s d)
/-- TRIM_SOURCE_SWITCH. -/
def execTrimSourceSwitch (d source : Nat) (trim : Int) (s : State) : Host.Outcome State Fault Refusal :=
  .next (trimSourceSwitch s d source trim)
/-- ROOT_LOSS. -/
def execRootLoss (d : Nat) (s : State) : Host.Outcome State Fault Refusal := .next (rootLoss s d)
/-- RESTART_WAIT. -/
def execRestartWait (w : Option Nat) (s : State) : Host.Outcome State Fault Refusal := .next (restartWait s w)
/-- SEQUENCER_CHANGE. -/
def execSequencerChange (t : Nat) (s : State) : Host.Outcome State Fault Refusal := .next (sequencerChange s t)
/-- INPUT_LOW. -/
def execInputLow (cv : Nat) (s : State) : Host.Outcome State Fault Refusal := .next (inputLow s cv)
/-- INPUT_OVERVOLTAGE. -/
def execInputOvervoltage (s : State) : Host.Outcome State Fault Refusal := .next (inputOvervoltage s)
/-- PWR_CAP_WRITE. -/
def execPwrCapWrite (req : Requester) (off : Nat) (v : Word) (s : State) : Host.Outcome State Fault Refusal :=
  .next (pwrCapWrite s req off v.toNat)
/-- HOTSPOT_HIGH. -/
def execHotspotHigh (t : Nat) (e : Int) (s : State) : Host.Outcome State Fault Refusal := .next (hotspotHigh s t e)
/-- HOTSPOT_TRIP. -/
def execHotspotTrip (d : Nat) (s : State) : Host.Outcome State Fault Refusal := .next (hotspotTrip s d)

end Sys2Proof.Machine
end

