-- ==== Sys2Proof/Machine/Signature.lean ====
section
/-! DEFINITION. The digest and the signature that the boot ROM and UNLOCK check: SHA-384, and the verification of ECDSA over
P-384, as the standard that R511 names (FIPS 186-5, with FIPS 180-4 for the digest) sets them out. -/

namespace Sys2Proof.Machine

/-! ### SHA-384 -/

/-- Round constants 0 to 19 of SHA-384. -/
def shaK0 : List Word64 :=
  [0x428A2F98D728AE22, 0x7137449123EF65CD, 0xB5C0FBCFEC4D3B2F, 0xE9B5DBA58189DBBC,
   0x3956C25BF348B538, 0x59F111F1B605D019, 0x923F82A4AF194F9B, 0xAB1C5ED5DA6D8118,
   0xD807AA98A3030242, 0x12835B0145706FBE, 0x243185BE4EE4B28C, 0x550C7DC3D5FFB4E2,
   0x72BE5D74F27B896F, 0x80DEB1FE3B1696B1, 0x9BDC06A725C71235, 0xC19BF174CF692694,
   0xE49B69C19EF14AD2, 0xEFBE4786384F25E3, 0x0FC19DC68B8CD5B5, 0x240CA1CC77AC9C65]

/-- Round constants 20 to 39 of SHA-384. -/
def shaK1 : List Word64 :=
  [0x2DE92C6F592B0275, 0x4A7484AA6EA6E483, 0x5CB0A9DCBD41FBD4, 0x76F988DA831153B5,
   0x983E5152EE66DFAB, 0xA831C66D2DB43210, 0xB00327C898FB213F, 0xBF597FC7BEEF0EE4,
   0xC6E00BF33DA88FC2, 0xD5A79147930AA725, 0x06CA6351E003826F, 0x142929670A0E6E70,
   0x27B70A8546D22FFC, 0x2E1B21385C26C926, 0x4D2C6DFC5AC42AED, 0x53380D139D95B3DF,
   0x650A73548BAF63DE, 0x766A0ABB3C77B2A8, 0x81C2C92E47EDAEE6, 0x92722C851482353B]

/-- Round constants 40 to 59 of SHA-384. -/
def shaK2 : List Word64 :=
  [0xA2BFE8A14CF10364, 0xA81A664BBC423001, 0xC24B8B70D0F89791, 0xC76C51A30654BE30,
   0xD192E819D6EF5218, 0xD69906245565A910, 0xF40E35855771202A, 0x106AA07032BBD1B8,
   0x19A4C116B8D2D0C8, 0x1E376C085141AB53, 0x2748774CDF8EEB99, 0x34B0BCB5E19B48A8,
   0x391C0CB3C5C95A63, 0x4ED8AA4AE3418ACB, 0x5B9CCA4F7763E373, 0x682E6FF3D6B2B8A3,
   0x748F82EE5DEFB2FC, 0x78A5636F43172F60, 0x84C87814A1F0AB72, 0x8CC702081A6439EC]

/-- Round constants 60 to 79 of SHA-384. -/
def shaK3 : List Word64 :=
  [0x90BEFFFA23631E28, 0xA4506CEBDE82BDE9, 0xBEF9A3F7B2C67915, 0xC67178F2E372532B,
   0xCA273ECEEA26619C, 0xD186B8C721C0C207, 0xEADA7DD6CDE0EB1E, 0xF57D4F7FEE6ED178,
   0x06F067AA72176FBA, 0x0A637DC5A2C898A6, 0x113F9804BEF90DAE, 0x1B710B35131C471B,
   0x28DB77F523047D84, 0x32CAAB7B40C72493, 0x3C9EBE0A15C9BEBC, 0x431D67C49C100D4C,
   0x4CC5D4BECB3E42B6, 0x597F299CFC657E2A, 0x5FCB6FAB3AD6FAEC, 0x6C44198C4A475817]

/-- The round constants of SHA-384. -/
def shaK : List Word64 := shaK0 ++ shaK1 ++ shaK2 ++ shaK3

/-- The initial hash value of SHA-384. -/
def shaInit : List Word64 :=
  [0xCBBB9D5DC1059ED8, 0x629A292A367CD507, 0x9159015A3070DD17, 0x152FECD8F70E5939,
   0x67332667FFC00B31, 0x8EB44A8768581511, 0xDB0C2E0D64F98FA7, 0x47B5481DBEFA4FA4]

/-- A word of eight bytes, the most significant first. -/
def beNat (b : List Byte) : Nat := b.foldl (fun n x => n * 256 + x.toNat) 0

/-- The bytes of a number, the most significant first. -/
def beBytes (n v : Nat) : List Byte := (leBytes n v).reverse

/-- A message padded to whole blocks: 0x80, zeros, and its length in bits. -/
def shaPad (m : List Byte) : List Byte :=
  m ++ [0x80] ++ List.replicate ((239 - m.length % 128) % 128) 0 ++ beBytes 16 (8 * m.length)

/-- Consecutive pieces of eight bytes as words, `n` of them. -/
def shaWords : Nat → List Byte → List Word64
  | 0, _ => []
  | n + 1, b => BitVec.ofNat 64 (beNat (b.take 8)) :: shaWords n (b.drop 8)

/-- The word of the message schedule that follows its latest sixteen words, `w` with the latest first. -/
def shaNext (w : List Word64) : Word64 :=
  let x := w.getD 1 0
  let y := w.getD 14 0
  (x.rotateRight 19 ^^^ x.rotateRight 61 ^^^ x >>> 6) + w.getD 6 0 +
    (y.rotateRight 1 ^^^ y.rotateRight 8 ^^^ y >>> 7) + w.getD 15 0

/-- The message schedule: `n` words more, the latest first. -/
def shaSchedule : Nat → List Word64 → List Word64
  | 0, w => w
  | n + 1, w => shaSchedule n (shaNext w :: w)

/-- One round on the eight working variables, with the round's constant and schedule word. -/
def shaRound (v : List Word64) (k w : Word64) : List Word64 :=
  match v with
  | [a, b, c, d, e, f, g, h] =>
    let t1 := h + (e.rotateRight 14 ^^^ e.rotateRight 18 ^^^ e.rotateRight 41) + ((e &&& f) ^^^ (~~~e &&& g)) + k + w
    let t2 := (a.rotateRight 28 ^^^ a.rotateRight 34 ^^^ a.rotateRight 39) + ((a &&& b) ^^^ (a &&& c) ^^^ (b &&& c))
    [t1 + t2, a, b, c, d + t1, e, f, g]
  | _ => v

/-- One block of 128 bytes into the hash value. -/
def shaBlock (h : List Word64) (b : List Byte) : List Word64 :=
  let w := (shaSchedule 64 (shaWords 16 b).reverse).reverse
  List.zipWith (· + ·) h ((List.zip shaK w).foldl (fun v e => shaRound v e.1 e.2) h)

/-- The blocks of a padded message, `n` of them. -/
def shaBlocks : Nat → List Word64 → List Byte → List Word64
  | 0, h, _ => h
  | n + 1, h, b => shaBlocks n (shaBlock h (b.take 128)) (b.drop 128)

/-- The SHA-384 digest of a message: 48 bytes. -/
def sha384 (m : List Byte) : List Byte :=
  let p := shaPad m
  ((shaBlocks (p.length / 128) shaInit p).take 6).flatMap (fun w => beBytes 8 w.toNat)

/-! ### P-384 -/

/-- The prime of the field of P-384. -/
def p384P : Nat := 2 ^ 384 - 2 ^ 128 - 2 ^ 96 + 2 ^ 32 - 1
/-- The order of the base point. -/
def p384N : Nat :=
  0xFFFFFFFFFFFFFFFFFFFFFFFFFFFFFFFFFFFFFFFFFFFFFFFFC7634D81F4372DDF581A0DB248B0A77AECEC196ACCC52973
/-- The coefficient b of the curve; the coefficient a is -3. -/
def p384B : Nat :=
  0xB3312FA7E23EE7E4988E056BE3F82D19181D9C6EFE8141120314088F5013875AC656398D8A2ED19D2A85C8EDD3EC2AEF
/-- The base point. -/
def p384G : Nat × Nat :=
  (0xAA87CA22BE8B05378EB1C71EF320AD746E1D3B628BA79B9859F741E082542A385502F25DBF55296C3A545E3872760AB7,
   0x3617DE4A96262C6F5D9E98BF9292DC29F8F41DBD289A147CE9DA3113B5F0B8C00A60B1CE1D7E819D7A431D7C90EA0E5F)

/-- A difference in the field, of numbers below the prime. -/
def subMod (a b : Nat) : Nat := (a + p384P - b) % p384P

/-- A point in Jacobian coordinates (x, y, z): the affine point (x / z², y / z³), or the point at infinity where z is 0. -/
structure CurvePoint where
  x : Nat
  y : Nat
  z : Nat
  deriving DecidableEq, Repr

/-- Twice a point. -/
def CurvePoint.double (q : CurvePoint) : CurvePoint :=
  let zz := q.z * q.z % p384P
  let yy := q.y * q.y % p384P
  let b := q.x * yy % p384P
  let m := 3 * (subMod q.x zz * ((q.x + zz) % p384P)) % p384P
  let x := subMod (m * m % p384P) (8 * b % p384P)
  ⟨x, subMod (m * subMod (4 * b % p384P) x % p384P) (8 * (yy * yy % p384P) % p384P), 2 * (q.y * q.z) % p384P⟩

/-- The sum of two points. -/
def CurvePoint.add (q r : CurvePoint) : CurvePoint :=
  if q.z = 0 then r
  else if r.z = 0 then q
  else
    let zq := q.z * q.z % p384P
    let zr := r.z * r.z % p384P
    let u := q.x * zr % p384P
    let t := q.y * (r.z * zr % p384P) % p384P
    let h := subMod (r.x * zq % p384P) u
    let d := subMod (r.y * (q.z * zq % p384P) % p384P) t
    if h = 0 then (if d = 0 then q.double else ⟨1, 1, 0⟩)
    else
      let hh := h * h % p384P
      let hhh := h * hh % p384P
      let v := u * hh % p384P
      let x := subMod (subMod (d * d % p384P) hhh) (2 * v % p384P)
      ⟨x, subMod (d * subMod v x % p384P) (t * hhh % p384P), h * (q.z * r.z % p384P) % p384P⟩

/-- The sum of `u` times `g` and `v` times `q`, over the `n` low bits of `u` and `v`. -/
def twoMul (g q : CurvePoint) (u v : Nat) : Nat → CurvePoint
  | 0 => ⟨1, 1, 0⟩
  | n + 1 =>
    let r := (twoMul g q (u / 2) (v / 2) n).double
    let r := if u % 2 = 1 then r.add g else r
    if v % 2 = 1 then r.add q else r

/-- A power modulo `m`, over the `n` low bits of the exponent. -/
def powMod (m a e : Nat) : Nat → Nat
  | 0 => 1 % m
  | n + 1 =>
    let r := powMod m a (e / 2) n
    if e % 2 = 1 then r * r % m * a % m else r * r % m

/-- An affine point lies on the curve. -/
def onCurve (x y : Nat) : Bool :=
  decide (x < p384P) && decide (y < p384P) && decide (y * y % p384P = (x * (subMod (x * x % p384P) 3) + p384B) % p384P)

/-- ECDSA P-384: a signature (r then s, 48 bytes each) of a digest under a public key (an uncompressed point, 97 bytes), both
big-endian, verifies (R511). -/
def ecdsaVerify (key digest signature : List Byte) : Bool :=
  let x := beNat ((key.drop 1).take 48)
  let y := beNat ((key.drop 49).take 48)
  let r := beNat (signature.take 48)
  let s := beNat (signature.drop 48)
  let w := powMod p384N s (p384N - 2) 384
  let c := twoMul ⟨p384G.1, p384G.2, 1⟩ ⟨x, y, 1⟩ (beNat digest * w % p384N) (r * w % p384N) 384
  key.length == 97 && key.take 1 == [4] && signature.length == 96 && onCurve x y && decide (0 < r) && decide (r < p384N) &&
    decide (0 < s) && decide (s < p384N) && decide (c.z ≠ 0) &&
    decide (c.x * powMod p384P (c.z * c.z % p384P) (p384P - 2) 384 % p384P % p384N = r)

end Sys2Proof.Machine
end

