-- ==== Sys2Proof/Machine/StartUp.lean ====
section
/-! DEFINITION. Starts and their phases, hold-up flush, recovery of requests, shutdown, firmware, fuses and the setting of module
time (R46, R142, R179, R316, R342, R361 to R364, R383, R507 to R520). -/

namespace Sys2Proof.Machine

/-! ### Starts (R507) -/

/-- POWER_ON (R507): LPDDR is unpowered. -/
def powerOn (s : State) : State :=
  if s.boot.powered then s
  else
    let t := s.lose false
    { t with boot := { t.boot with powered := true } }

/-- A host port at a start that is no power-on: its timeline begins again (R410, R474); a port on a failed Wellhead is down. -/
def HostPort.again (h : HostPort) (gone : Bool) : HostPort :=
  if gone then {} else { h with strokes := 0, cfgReady := false, pagesReady := false }

/-- The module starts again with LPDDR in self-refresh (R507). -/
def State.startAgain (s : State) : State :=
  let t := s.lose true
  { t with hp0 := t.hp0.again (t.flt.failedWh.contains 0), hp1 := t.hp1.again (t.flt.failedWh.contains 1) }

/-- RESTART (R507, R498): a restart that is due; two failed Wellheads hold the module in its safe states. -/
def restart (s : State) : State :=
  if s.boot.restartDue = false ∨ s.boot.powered = false ∨ 2 ≤ s.flt.failedWh.length then s else s.startAgain

/-- A restart is asked for. -/
def State.askRestart (s : State) : State := { s with boot := { s.boot with restartDue := true } }

/-- DBG_RESET op RESET (R507, R529). -/
def dbgReset (s : State) (req : Requester) : State := s.gated req 0 16 3 State.askRestart

/-- HOLDUP_FLUSH (R362, R520): after mount, staging buffers, the map checkpoint, module time and the marker are written, then every rail
is off; before mount nothing is written. A flush past 30 ms leaves what it has not written. -/
def holdupFlush (s : State) (us : Nat) : State :=
  if s.boot.powered = false then s
  else
    let ok := decide (us ≤ 30000)
    let s : State := if s.wdl.mounted = false then s else
      { s with
        req := { s.req with journal := s.req.journal.map (fun r => if ok && r.durable then { r with programmed := true } else r) }
        wdl := { s.wdl with ckpt := if ok then s.wdl.map else s.wdl.ckpt }
        time := { s.time with bootNs := if ok then BitVec.ofNat 64 s.nowNs else s.time.bootNs }
        boot := { s.boot with flushDone := ok, flushUs := us % 4294967296, clean := false } }
    let t := s.lose false
    { t with boot := { t.boot with powered := false, flushed := s.wdl.mounted } }

/-! ### FUSE_LOAD (R508, R514, R515) -/

/-- Permissions of a port in force after a fuse load (R417, R514). -/
def Fuses.permit (f : Fuses) (p : Nat) : Nat :=
  if f.provisioned then (if p = 0 then f.permit0 else f.permit1) / 2 * 2 + 1 else 0xFFFF000F

/-- The lock level a set of fuses gives (R514). -/
def Fuses.level (f : Fuses) : Nat := if f.provisioned then f.lock else 0

/-- The role the repair data gives a Tiller (R16). -/
def Fuses.role (f : Fuses) (t : Nat) : Role :=
  if f.dead.contains t then .retired else if f.spares.contains t then .spare else .inService

/-- An array with a list of columns bypassed; a fifth, or entry 64, retires it (R135, R142). -/
def arrayWith (cols : List Nat) : MatArray :=
  let ret := decide (4 < (cols.filter (fun c => c < 64)).length) || cols.contains 64
  { bypass := (cols.filter (fun c => c < 64)).take 4, retired := ret, state := if ret then 5 else 0 }

/-- Bypass the columns a table names on every array (R135, R142). -/
def State.applyBypass (s : State) (m : Tbl (List Nat)) : State :=
  m.foldl (fun s e => s.setArray (e.1 / 128) (e.1 % 128)
    (arrayWith (e.2.foldl (fun l c => insNat c l) ((s.tiller (e.1 / 128)).array (e.1 % 128)).bypass))) s

/-- Apply a set of fuses: trim, repair data, permissions and lock level. -/
def State.applyFuses (s : State) (f : Fuses) : State :=
  let s := (List.range 68).foldl (fun s t => s.setRole t (f.role t) none) s
  let s := s.applyBypass f.bypass
  let s := f.trim.foldl (fun s e => s.setClk e.1 { s.clkDie e.1 with trim := if (s.clkDie e.1).src = 0 then e.2 else (s.clkDie e.1).trim }) s
  { s with
    flt := { s.flt with permanent := f.dead.foldl (fun l t => insNat t l) s.flt.permanent }
    boot := { s.boot with applied := some f, perm0 := f.permit 0, perm1 := f.permit 1, lock := f.level, phase := 1, fuseHold := false } }

/-- FUSE_LOAD cannot complete: the module holds in it (R508). -/
def State.holdFuses (s : State) : State := { s with boot := { s.boot with fuseHold := true } }

/-- FUSE_LOAD (R508, R514, R515): Wellhead 0's rows, or a shadow when it is failed; rows that fail their ECC hold the phase and are
logged. -/
def fuseLoad (s : State) (eccOk : Bool) : State :=
  if s.boot.started = false ∨ s.boot.phase ≠ 0 then s
  else
    let gone := s.flt.failedWh.contains 0
    match (if gone then s.boot.shadow else some s.boot.fuses) with
    | none => s.holdFuses
    | some f =>
      if !eccOk then (if gone then s.holdFuses else s.holdFuses.err 0 15 0x10)
      else
        let s := s.applyFuses f
        if gone then s else { s with boot := { s.boot with shadow := some f } }

/-! ### FIRMWARE (R511 to R513) -/

/-- Code bytes of an image. -/
def fwCode (b : List Byte) : Nat := fld b 0x10 8
/-- fw_version of an image. -/
def fwVersion (b : List Byte) : Nat := fld b 8 4
/-- sec_version of an image. -/
def fwSec (b : List Byte) : Nat := fld b 0xC 4

/-- Magic, format and sizes are as R511 sets out. -/
def fwFieldsOk (b : List Byte) : Bool :=
  decide (fld b 0 4 = 0x57464C59) && fld b 4 4 == 1 && decide (fwSec b ≤ 255) && decide (fwCode b % 16 = 0) &&
  decide (fwCode b ≤ 67108864) && decide (b.length = 512 + fwCode b)

/-- A SHA-384 digest as the number a fuse row holds, its first byte least significant. -/
def hashNum (key : List Byte) : Nat := leNat (sha384 key)

/-- The signature of an image verifies (R511). -/
def fwSigned (b : List Byte) : Bool :=
  ecdsaVerify ((b.drop 0x40).take 97) (sha384 (b.take 0xC0 ++ b.drop 0x200)) ((b.drop 0xC0).take 96)

/-- The checks of R512 in order: 0, or the code of R530. -/
def fwCheck (f : Fuses) (b : List Byte) : Nat :=
  if !fwFieldsOk b then 2
  else if hashNum ((b.drop 0x40).take 97) ≠ f.fwKeyHash then 6
  else if fwSec b < f.secMin then 7
  else if !fwSigned b then 6
  else 0

/-- The fuses in force: those applied, else the block's. -/
def State.fusesNow (s : State) : Fuses := s.boot.applied.getD s.boot.fuses

/-- FIRMWARE_LOAD (R512, R513): the higher fw_version first, ties to slot A; with neither accepted the module holds. -/
def firmwareLoad (s : State) : State :=
  if s.boot.phase ≠ 1 ∨ s.boot.applied = none then s
  else
    let a := s.boot.slotA
    let b := s.boot.slotB
    let order := if fwVersion a < fwVersion b then [(1, b), (0, a)] else [(0, a), (1, b)]
    match order.find? (fun e => fwCheck s.fusesNow e.2 == 0) with
    | some e => { s with boot := { s.boot with running := e.1, runImage := e.2, phase := 2, fwHold := false } }
    | none => if s.boot.fwHold then s else ({ s with boot := { s.boot with fwHold := true } } : State).err 0 15 0x11

/-- FIRMWARE_PERSIST (R513): after mount the image stored in the hold goes to slot A. -/
def firmwarePersist (s : State) : State :=
  match s.boot.persist with
  | none => s
  | some img => if s.wdl.mounted then { s with boot := { s.boot with slotA := img, persist := none } } else s

/-! ### MOUNT (R361, R364) -/

/-- Resolve a block at mount (R361, R364): an erase cut short shows its stamp or leaves the block HALF_ERASED, and which is the
medium's; an intent of an erase not begun leaves it HALF_ERASED; every spill block is released. -/
def State.mountBlock (s : State) (k : Nat) : State :=
  let b := s.block k
  let half (s : State) (n : Nat) : State :=
    ((s.setBlock k { b with state := .halfErased, intent := none, erases := b.erases + n }).bump (80 + blkWell k) 0 0x114 1).event
      (80 + blkWell k) 0 [sqBit 0x118 1] []
  match b.intent with
  | some n =>
    let begun := (s.plane (blkPlane k)).running && decide ((s.plane (blkPlane k)).erases.head? = some k)
    if b.state = .erasing ∧ begun = true then
      let done := Config.freeBool s.freeCount
      let s := ({ s with freeCount := s.freeCount + 1 } : State).countErase k b.tlc
      if done then
        let s : State := { s with mem := Memory.clear s.mem (Space.key (.flash k) 0) 25165824 }
        s.setBlock k { state := .erased, erases := b.erases + 1, stamp := n }
      else half s 1
    else if s.req.journal.any (fun r => r.isIntent n) then half s 0
    else s.setBlock k { b with intent := none }
  | none =>
    if b.part = 5 ∧ (b.state = .opened ∨ b.state = .verify ∨ b.state = .sealed) then s.setBlock k { b with state := .released }
    else s

/-- A Well at mount: present where it answers and its Wellhead lives; its spare blocks are set at first mount (R364, R368). -/
def State.mountWell (s : State) (answering : List Nat) (n : Nat) : State :=
  let up := answering.contains n && !s.flt.failedWh.contains (n % 4)
  let x := match Tbl.look s.wdl.wells n with
    | none => { s.well n with spare := Config.spareBlocks n }
    | some x => x
  { s with wdl := { s.wdl with wells := Tbl.put s.wdl.wells n { x with state := if up then 2 else 0 } } }

/-- MOUNT (R364, R520, R537): the bank holds 54 V when it begins; boot copy, block states, journal tails, intents, map, spill partition; the saved time is read. -/
def mount (s : State) (dj : Nat) (answering : List Nat) : State :=
  if s.boot.phase ≠ 2 ∨ s.boot.started = false then s
  else
    let s := (List.range s.wellCount).foldl (fun s n => s.mountWell answering n) s
    let s := s.wdl.blocks.foldl (fun s e => s.mountBlock e.1) s
    let map := s.wdl.map.filter (fun e => e.1 / 36893488147419103232 ≠ 5)
    let journal := s.req.journal.filter (fun r => r.typ ≠ 6)
    let s : State := { s with wdl := { s.wdl with map := map, planes := [] }, req := { s.req with journal := journal } }
    let s := [0, 1, 2, 3].foldl (fun s w => (s.placeStream w 0).placeStream w 1) s
    let s := holdupMeasure s dj
    let s := [0, 1, 2, 3].foldl (fun s w =>
      let s := s.setRegN w 12 0x114 s.boot.flushUs
      if s.boot.flushDone then s.event w 12 [sqBit 0x118 1] [] else s) s
    { s with
      wdl := { s.wdl with mounted := true }
      time := { s.time with resume := if s.time.bootNs = 0 then none else some s.time.bootNs }
      boot := { s.boot with phase := 3, flushDone := false, clean := false, bankCharged := true } }

/-! ### REBUILD (R142, R179, R316, R342, R498, R509) -/

/-- A page entry after a start (R342): SRAM and HBM copies are gone, SCRATCH is not valid, heat is 0; frames on a failed Wellhead's
packages are gone as well (R498). -/
def State.rebuildPte (s : State) (k : Nat) (e : Pte) : Pte :=
  let gone := e.valid && (decide (e.tier ≤ 1) || (decide (e.tier = 2) && s.flt.failedWh.contains (e.loc % 4)))
  let e : Pte := { e with heat := 0, acc := false, moving := false, pinned := false, hold := false }
  if e.backing = 2 then { e with valid := false, lost := false, dirty := 0, tier := 3, tiller := 0, loc := s.backIdx (k / 4294967296) (k % 4294967296) }
  else if gone then
    { e with tier := 3, tiller := 0, loc := s.backIdx (k / 4294967296) (k % 4294967296), lost := e.lost || decide (e.dirty ≠ 0), dirty := 0 }
  else e

/-- The Cistern rebuild (R342). -/
def State.cisternRebuild (s : State) : State :=
  let ptes := s.cis.ptes.map (fun e => (e.1, s.rebuildPte e.1 e.2))
  let lp := (ptes.filter (fun e => e.2.valid && decide (e.2.tier = 2))).foldl (fun l e => insNat e.2.loc l) []
  { s with cis := { s.cis with ptes := ptes, lpUsed := lp, hbmUsed := [], moves := [] } }

/-- A generation slot at mount (R316). -/
def State.rebuildGen (s : State) (g : Nat) : State :=
  let x := s.gen g
  match x.state with
  | .free | .freeing => s
  | .loading => s.freeGen g
  | _ => s.setGen g { x with extents := s.extOk g x (genExt x.hdr) && s.pqOk x.hdr }

/-- The state of a paddock that the configuration record restores (R64, R509). -/
def Paddock.restored (q : Paddock) (jobs : Bool) : Paddock :=
  { tillers := q.tillers, ranks := q.ranks, hosted := q.hosted, noHost := q.noHost, lpddrGib := q.lpddrGib, sounder := q.sounder
    sprintS := q.sprintS, sprintPub := q.sprintPub, wheel := q.wheel
    state := if q.tillers = [] ∧ jobs = false then .empty else .running }

/-- Restore paddocks and roles from the configuration record (R509); a module never configured keeps its fuse roles. -/
def State.restoreConfig (s : State) : State :=
  let c := s.boot.cfg
  let s := c.roles.foldl (fun s e => if s.flt.permanent.contains e.1 then s else s.setRole e.1 e.2.1 e.2.2) s
  let s := s.flt.permanent.foldl (fun s t => s.setRole t .retired none) s
  let s := c.pads.foldl (fun s e => s.setPaddock e.1 (e.2.restored (c.jobs.any (fun j => decide (j.2 = e.1))))) s
  { s with boot := { s.boot with waitJobs := c.jobs } }

/-- REBUILD (R508): the Cistern, route generation 1, bypasses, slot headers, configuration. -/
def rebuild (s : State) : State :=
  if s.boot.phase ≠ 3 then s
  else
    let s := (s.restoreConfig.applyBypass s.flt.bypass).cisternRebuild
    let s := [0, 1, 2, 3].foldl State.rebuildGen s
    { s with rhz := { s.rhz with gen := 1, dead := s.offSites, found := [], down := [] }, boot := { s.boot with phase := 4 } }

/-! ### RECOVERY (R46, R47, R383) -/

/-- The records of a slot from its latest ADMIT on. -/
def sinceAdmit : List JRec → List JRec
  | [] => []
  | r :: t => if t.any (fun x => decide (x.typ = 1)) then sinceAdmit t else if r.typ = 1 then r :: t else sinceAdmit t

/-- The records of a slot that recovery takes. -/
def State.slotRecs (s : State) (n : Nat) : List JRec := sinceAdmit (s.req.journal.filter (fun r => r.slot = n))

/-- The latest record of a type. -/
def latest (rs : List JRec) (typ : Nat) : Option JRec := (rs.filter (fun r => r.typ = typ)).getLast?

/-- Body of a journal record. -/
def JRec.body (r : JRec) : List Byte := r.bytes.drop 32

/-- The slots that the journal names. -/
def State.journalSlots (s : State) : List Nat :=
  (s.req.journal.filter (fun r => r.typ = 1)).foldl (fun l r => insNat r.slot l) []

/-- A port's reads of host memory succeed, or it is on a failed Wellhead and its rings wait (R46, R412, R498). -/
def State.portKnown (s : State) (p : Nat) : Bool := s.flt.failedWh.contains p || (s.hp p).up

/-- A ring at recovery (R383): a host ring's indices are read back from its index block, a device ring restarts empty at its
producer index. -/
def State.readBack (s : State) (rid : Nat) (r : Ring) : State :=
  if deviceKind r.kind || r.kind == 9 then s.setRing rid { r with cons := r.prod }
  else if s.flt.failedWh.contains r.port then s
  else
    let p := leNat (s.load (.host r.port) r.idx 8)
    let c := leNat (s.load (.host r.port) (r.idx + 8) 8)
    let ok := decide (p - r.entries ≤ c) && decide (c ≤ p)
    let s := s.setRing rid { r with prod := p, resv := p, issued := p, filled := [], cons := if ok then c else p - r.entries }
    if ok then s else s.badIndex (s.ringWh rid) []

/-- The position of a slot's ACCEPT (1) or DONE (3): of its latest REPOST, else of its record. -/
def postPos (rs : List JRec) (kind : Nat) : Option Nat :=
  let re := (rs.filter (fun r => decide (r.typ = 5) && decide (fld r.body 0 1 = kind))).getLast?
  match re with
  | some r => some (fld r.body 8 8)
  | none =>
    if kind = 1 then (latest rs 1).map (fun r => fld r.body 272 8) else (latest rs 4).map (fun r => fld r.body 8 8)

/-- Journal a REPOST record and post the record again (R46): what its first post carried and no record keeps is a free value. -/
def State.repost (s : State) (n kind : Nat) : State :=
  let rs := s.slotRecs n
  match latest rs 1 with
  | none => s
  | some a =>
    let d := a.body.take 256
    match s.compRing (descSub d) with
    | none => s
    | some comp =>
      let r := s.reserve comp
      let s := r.2.journalNow n 5 (leBytes 1 kind ++ leBytes 7 0 ++ leBytes 8 r.1)
      let gen := fld a.body 264 2
      if kind = 1 then
        s.fillRing comp r.1 (record64 1 0 (descSub d) (descTag d) n gen 4 (fld a.bytes 16 8) s.nowNs 0 0 0 0 r.1)
      else match latest rs 4 with
        | none => s
        | some e =>
          let deg := Config.freeBool s.freeCount
          let w1 := ({ s with freeCount := s.freeCount + 1 } : State).drawWord
          let w2 := w1.2.drawWord
          let w3 := w2.2.drawWord
          let w4 := w3.2.drawWord
          let skipped := if descRecipe d = 0 then 0 else w3.1.toNat
          let replays := w4.1.toNat
          let prompt := match latest rs 2 with
            | some f => fld f.body 4 4
            | none => if descRecipe d = 0 ∧ descKind d = 2 then min (descInLen d / 4) (descMaxPrompt d) else w1.1.toNat
          w4.2.fillRing comp r.1 (record64 3 (fld e.body 0 1) (descSub d) (descTag d) n gen
            (b2n (deg && decide (descRecipe d ≠ 0)) + 2 * b2n (decide (0 < replays)) + 4) (fld e.bytes 16 8)
            (w1.1.toNat + 4294967296 * w2.1.toNat) (fld e.body 4 4) prompt skipped replays r.1)

/-- Records to post again, by rising original position (R46 step 3): position, slot, kind. -/
def State.reposts (s : State) : List (Nat × Nat × Nat) :=
  sortBy (fun (e : Nat × Nat × Nat) => e.1) (s.journalSlots.flatMap (fun n =>
    let rs := s.slotRecs n
    let ring := match latest rs 1 with | none => none | some a => s.compRing (descSub (a.body.take 256))
    match ring with
    | none => []
    | some rid =>
      ([1, 3].filterMap (fun k => match postPos rs k with
        | none => none
        | some p => if s.prodOf rid ≤ p then some (p, n, k) else none))))

/-- The ADMIT records of a slot, each with whether its request has ended: a DONE record or a later request of the slot follows. -/
def admitsOf : List JRec → List (JRec × Bool)
  | [] => []
  | r :: t => if r.typ = 1 then (r, t.any (fun x => decide (x.typ = 1) || decide (x.typ = 4))) :: admitsOf t else admitsOf t

/-- The entries of the de-duplication set that a slot's retained ADMIT records give: of its live request, and of every one that ended
and was accepted less than 600 s ago (R32, R46). -/
def State.dedupOf (s : State) (n : Nat) : List Dedup :=
  (admitsOf (s.req.journal.filter (fun r => r.slot = n))).filterMap (fun e =>
    let ns := fld e.1.body 256 8
    if e.2 = true ∧ ns + horizonNs ≤ s.nowNs then none
    else some { sub := descSub (e.1.body.take 256), tag := descTag (e.1.body.take 256), slot := n, acceptNs := ns })

/-- The boundary that opened the stroke of a request's admission, as its ADMIT record tells it: the earliest admission among the records
made in the same stroke, for only their order counts (R89). -/
def State.admitBoundOf (s : State) (a : JRec) : Nat :=
  let t := fld a.body 256 8
  let same := s.req.journal.filter (fun r => decide (r.typ = 1) && decide (fld r.bytes 16 8 = fld a.bytes 16 8) &&
    decide (fld r.body 256 8 < t + 100000) && decide (t < fld r.body 256 8 + 100000))
  (same.map (fun r => fld r.body 256 8)).foldl min t

/-- A live slot rebuilt from its journal records, in REPLAY, or in FRONT where its front stage had not ended (R46, R47). Its token
history is taken as lost at every start, where R47 names the Tiller fault only (DESIGN CHOICE, log entry 50). -/
def State.recoverSlot (s : State) (n : Nat) : State :=
  let rs := s.slotRecs n
  match latest rs 1, latest rs 4 with
  | some a, none =>
    let d := a.body.take 256
    let gen := fld a.body 264 2
    let base : ReqBase := Tbl.val {} s.req.bases n
    let front := latest rs 2
    let x : Slot := {
      state := .replay, desc := d, core := s.coreOf (n / 2048)
      input := if descInline d then (d.drop 0x80).take (min (descInLen d) 128) else (a.body.drop 288).take (descInLen d)
      admitStroke := s.strokeN, admitNs := fld a.body 256 8, admitBound := s.admitBoundOf a, acceptNs := some (fld a.body 256 8), acceptStroke := s.strokeN
      spent := (s.nowNs - fld a.body 256 8) / 50000, acceptPos := (postPos rs 1).getD 0, admitDurable := true, cost := base.cost
      dSvcC := base.dSvcC, dSvcP := base.dSvcP, dAggC := base.dAggC, dAggP := base.dAggP
      svcWP := base.svcWP, svcWG := base.svcWG, aggWP := base.aggWP, aggWG := base.aggWG, colour := base.colour
      promptRefunded := base.promptRefunded, outBase := base.out, citBase := base.cit
      replays := base.replays + 1, indexGen := gen
      genSlot := if gen = 0 then none else [0, 1, 2, 3].find? (fun g => decide ((s.gen g).state ≠ .free) && genNum (s.gen g).hdr == gen)
      cutSeq := (latest rs 3).map (fun r => fld r.body 0 4), suppress := s.prodOf (descOut d) - base.out
      tokDone := descKind d != 1
      grm := { state := match Tbl.look s.cat.grm (descGrammar d) with | none => 0 | some i => fld i.bytes 0x1C 4 } }
    let toks := (inputTokens x.input).take (descMaxPrompt d)
    let x : Slot := { x with promptTokens := if descRecipe d == 0 && descKind d == 2 then toks else [] }
    let x : Slot := match front with
      | some f => { x with
          frontJournaled := true, frontDurable := true, degraded := base.degraded, skipped := base.skipped, frontStage := 0
          returned := base.returned, reranked := base.reranked
          frontIds := (List.range (fld f.body 0 4)).map (fun i => fld f.body (16 + 8 * i) 8)
          mapPending := descMap d && s.prodOf (descCit d) == base.cit }
      | none => if descRecipe d = 0 then x else { x with state := .front }
    (s.setSlot n x).readyQuestion n
  | _, _ => s

/-- A host port whose rings' indices are to be read back is down: recovery waits (R46, R412). -/
def State.readBackWaits (s : State) : Bool :=
  s.nor.rings.any (fun e => !(deviceKind e.2.kind || e.2.kind == 9) && !s.portKnown e.2.port)

/-- RECOVERY (R46, R383): indices are read back, records posted again, the de-duplication set and the live slots rebuilt, and FAULT
0x0C posted; a host port that is down holds the phase. -/
def recovery (s : State) : State :=
  if s.boot.phase ≠ 4 ∨ s.boot.phaseDone = true then s
  else if s.readBackWaits then s
  else
    let s := s.nor.rings.foldl (fun s e => s.readBack e.1 e.2) s
    let s := s.reposts.foldl (fun s e => s.repost e.2.1 e.2.2) s
    let slots := s.journalSlots
    let s : State := { s with req := { s.req with dedup := slots.flatMap (fun n => s.dedupOf n) } }
    let s := slots.foldl State.recoverSlot s
    let s := (s.faultTo 0 0xC 0 0 4).faultTo 1 0xC 0 0 4
    let s := s.nor.rings.foldl (fun s e => consumerIndexPost s e.1) s
    { s with boot := { s.boot with phaseDone := true } }

/-- SERVICE_ENTRY (R508, R138): MOD_READY.ready and cap_gen read 1. -/
def serviceEntry (s : State) : State :=
  if s.boot.phase ≠ 4 ∨ s.boot.phaseDone = false then s
  else
    let s : State := { s with
      boot := { s.boot with phase := 5, phaseDone := false, ready := true, firstStroke := s.strokeN }
      til := { s.til with capGen := 1 } }
    s.event 120 0 [sqBit 0x118 0] []

/-! ### SHUTDOWN (R510) -/

/-- SHUTDOWN (R510, R529): begins; a second one is BUSY. -/
def shutdown (s : State) (req : Requester) : State :=
  s.gated req 0 16 3 (fun s =>
    if s.boot.resetState ≠ 0 then s.err 0 16 1 else { s with boot := { s.boot with resetState := 1 } })

/-- Nothing is in flight any more: no batch runs and no output waits. -/
def State.drained (s : State) : Bool :=
  s.cis.plans.all (fun e => e.2.batch.isEmpty) && s.tmg.queues.all (fun e => e.2.isEmpty) &&
  s.pad.pads.all (fun e => e.2.stepOpen.isNone)

/-- Steps 3 to 5 of R510: staging, dirty STORE pages, directory, time and the CLEAN marker are written; rails off, bypasses closed. -/
def State.shutOff (s : State) : State :=
  let s := s.cis.plans.foldl (fun s e => s.flushJob e.1) s
  let s := (List.range 68).foldl (fun s t => (s.idleUnits t).setClk (8 + t) { s.clkDie (8 + t) with mv := 0, want := none }) s
  { s with
    req := { s.req with journal := s.req.journal.map (fun r => { r with durable := true, programmed := true }) }
    mem := s.mem.filter (fun c => cellKept true c.1)
    wdl := { s.wdl with ckpt := s.wdl.map }
    time := { s.time with bootNs := BitVec.ofNat 64 s.nowNs }
    zio := {}
    boot := { s.boot with clean := true, resetState := 2 } }

/-- One boundary of a shutdown (R510). -/
def State.shutStep (s : State) : State :=
  if s.boot.resetState ≠ 1 then s
  else
    let s : State := { s with boot := { s.boot with shutting := true } }
    if s.drained then s.shutOff else s

/-! ### The FUS page (R516, R530) -/

/-- A command of the FUS page ends. -/
def State.fusDone (s : State) (code : Nat) : State :=
  (s.setResult 0 15 0x124 3 code 0).event 0 15 (sqBit 0x118 0 :: (if code = 0 then [] else [sqBit 0x118 1])) []

/-- The address registers of the FUS page. -/
def State.fusAddr (s : State) : Nat := (s.reg 0 15 0x110).toNat + (s.reg 0 15 0x114).toNat % 65536 * 4294967296

/-- Permissions in the HPT_PERMIT layout with bit 0 set. -/
def permitOk (v : Nat) : Bool := decide (v % 2 = 1) && decide (v / 16 % 4096 = 0)

/-- PROVISION (R516); a fuse bit that is programmed stays so, and the lock level does not fall. -/
def provision (s : State) (req : Requester) : State :=
  s.gated req 0 15 3 (fun s =>
    let a := s.fusAddr
    let d := s.load .lpddr a 32
    let f := s.boot.fuses
    if f.provisioned then s.fusDone 3
    else if a % 32 ≠ 0 ∨ s.inHost a 32 = false then s.fusDone 2
    else if !crcOk d then s.fusDone 1
    else if !(fld d 4 1 == 1 && decide (fld d 5 1 ≤ 2) && zeros d 6 2 && permitOk (fld d 8 4) && permitOk (fld d 0xC 4) &&
        zeros d 0x10 16) then s.fusDone 2
    else
      let f := { f with lock := max f.lock (fld d 5 1), permit0 := fld d 8 4, permit1 := fld d 0xC 4, provisioned := true }
      ({ s with boot := { s.boot with fuses := f, lock := f.level } } : State).fusDone 0)

/-- RAISE_LOCK (R516): takes effect at once and ends any unlock. -/
def raiseLock (s : State) (req : Requester) (arg : Nat) : State :=
  s.gated req 0 15 3 (fun s =>
    let f := s.boot.fuses
    if 2 < arg then s.fusDone 2
    else if arg ≤ f.lock then s.fusDone 4
    else
      let f := { f with lock := arg }
      ({ s with boot := { s.boot with fuses := f, lock := f.level }, dbg := { s.dbg with unlocked := false } } : State).fusDone 0)

/-- RAISE_SEC (R516). -/
def raiseSec (s : State) (req : Requester) (arg : Nat) : State :=
  s.gated req 0 15 3 (fun s =>
    let f := s.boot.fuses
    if arg ≤ f.secMin then s.fusDone 4
    else if fwSec s.boot.runImage < arg then s.fusDone 5
    else ({ s with boot := { s.boot with fuses := { f with secMin := arg } } } : State).fusDone 0)

/-- STORE_FW (R513, R516): a good image goes to the slot not running, or, while the module holds in FIRMWARE, runs at once. -/
def storeFw (s : State) (req : Requester) : State :=
  s.gated req 0 15 3 (fun s =>
    let a := s.fusAddr
    let h := s.load .lpddr a 512
    if a % 32 ≠ 0 ∨ s.inHost a 512 = false then s.fusDone 2
    else if 67108864 < fwCode h ∨ s.inHost a (512 + fwCode h) = false then s.fusDone 2
    else
      let b := s.load .lpddr a (512 + fwCode h)
      let code := fwCheck { s.fusesNow with secMin := s.boot.fuses.secMin } b
      if code ≠ 0 then s.fusDone code
      else if s.boot.fwHold then
        ({ s with boot := { s.boot with
            running := 3, runImage := b, persist := some b, fwHold := false, phase := 2 } } : State).fusDone 0
      else if s.wdl.readOnly then s.fusDone 8
      else
        let boot := if s.boot.running = 0 then { s.boot with slotB := b } else { s.boot with slotA := b }
        ({ s with boot := boot } : State).fusDone 0)

/-! ### Module time (R519) -/

/-- TIME_STAGE (R519): both halves are latched. -/
def timeStage (s : State) (req : Requester) : State :=
  s.gated req 120 1 3 (fun s =>
    { s with time := { s.time with
      staged := some (BitVec.ofNat 64 ((s.reg 120 1 0x100).toNat + (s.reg 120 1 0x104).toNat * 4294967296)) } })

/-- TIME_CANCEL (R519). -/
def timeCancel (s : State) (req : Requester) : State :=
  s.gated req 120 1 3 (fun s => { s with time := { s.time with staged := none } })

/-! ### Meanings -/

/-- POWER_ON. -/
def execPowerOn (s : State) : Host.Outcome State Fault Refusal := .next (powerOn s)
/-- RESTART. -/
def execRestart (s : State) : Host.Outcome State Fault Refusal := .next (restart s)
/-- FUSE_LOAD. -/
def execFuseLoad (ok : Bool) (s : State) : Host.Outcome State Fault Refusal := .next (fuseLoad s ok)
/-- FIRMWARE_LOAD. -/
def execFirmwareLoad (s : State) : Host.Outcome State Fault Refusal := .next (firmwareLoad s)
/-- MOUNT. -/
def execMount (dj : Nat) (wells : List Nat) (s : State) : Host.Outcome State Fault Refusal := .next (mount s dj wells)
/-- REBUILD. -/
def execRebuild (s : State) : Host.Outcome State Fault Refusal := .next (rebuild s)
/-- RECOVERY. -/
def execRecovery (s : State) : Host.Outcome State Fault Refusal := .next (recovery s)
/-- SERVICE_ENTRY. -/
def execServiceEntry (s : State) : Host.Outcome State Fault Refusal := .next (serviceEntry s)
/-- SHUTDOWN. -/
def execShutdown (req : Requester) (s : State) : Host.Outcome State Fault Refusal := .next (shutdown s req)
/-- DBG_RESET. -/
def execDbgReset (req : Requester) (s : State) : Host.Outcome State Fault Refusal := .next (dbgReset s req)
/-- HOLDUP_FLUSH. -/
def execHoldupFlush (us : Nat) (s : State) : Host.Outcome State Fault Refusal := .next (holdupFlush s us)
/-- PROVISION. -/
def execProvision (req : Requester) (s : State) : Host.Outcome State Fault Refusal := .next (provision s req)
/-- RAISE_LOCK. -/
def execRaiseLock (req : Requester) (arg : Nat) (s : State) : Host.Outcome State Fault Refusal := .next (raiseLock s req (arg % 256))
/-- RAISE_SEC. -/
def execRaiseSec (req : Requester) (arg : Nat) (s : State) : Host.Outcome State Fault Refusal := .next (raiseSec s req (arg % 256))
/-- STORE_FW. -/
def execStoreFw (req : Requester) (s : State) : Host.Outcome State Fault Refusal := .next (storeFw s req)
/-- FIRMWARE_PERSIST. -/
def execFirmwarePersist (s : State) : Host.Outcome State Fault Refusal := .next (firmwarePersist s)
/-- TIME_STAGE. -/
def execTimeStage (req : Requester) (s : State) : Host.Outcome State Fault Refusal := .next (timeStage s req)
/-- TIME_CANCEL. -/
def execTimeCancel (req : Requester) (s : State) : Host.Outcome State Fault Refusal := .next (timeCancel s req)

end Sys2Proof.Machine
end

