-- ==== Sys2Proof/Machine/Stroke.lean ====
section
/-! DEFINITION. The stroke: what a boundary applies and in which order, the wheel and the handover of the Tillers, and the composition
cut (R33, R40, R41, R50 to R53, R57 to R60, R89, R90, R493, R509, R517 to R520). -/

namespace Sys2Proof.Machine

/-! ### Missed strokes (R59, R60) -/

/-- The cause of a missed stroke (R60, R494): a halt, a cap or ceiling below P0, or the plan or the fabric; between these two a free
value chooses where no Tiller hosts a second rank. -/
def State.missCause (s : State) (pad : Nat) : Nat × State :=
  let q := s.paddock pad
  if q.state = .halted then (4, s)
  else if 0 < s.padPoint pad then (3, s)
  else if q.hosted ≠ [] then (1, s)
  else (if Config.freeBool s.freeCount then 2 else 1, { s with freeCount := s.freeCount + 1 })

/-- A boundary that a paddock's sprint step runs past counts a missed stroke (R60); the step of a halted paddock is lost. -/
def State.missOne (s : State) (pad : Nat) : State :=
  let q := s.paddock pad
  match q.stepOpen with
  | none => s
  | some _ =>
    let c := s.missCause pad
    let s := ((c.2.bump 120 2 (0x108 + 0x20 * pad) 1).setRegN 120 2 (0x10C + 0x20 * pad) c.1).event 120 2 [padBit pad 1] []
    if q.state = .halted then s.setPaddock pad { s.paddock pad with stepOpen := none } else s

/-- Missed strokes of every paddock. -/
def State.noteMissed (s : State) : State := (List.range 16).foldl State.missOne s

/-! ### Counter and time (R50, R51, R517, R520) -/

/-- The counter advances by 1, or takes the ring's number after a lengthened stroke; time advances by 50,000 ns, or takes a saved value
that is greater. -/
def State.advanceTime (s : State) : State :=
  let t := s.time
  let own := (t.boundNs.toNat + 50000) % 18446744073709551616
  let now := match t.resume with | none => own | some v => max v.toNat own
  let n := match s.zio.takeStroke with | none => t.stroke.toNat + 1 | some v => v
  { s with
    time := { t with stroke := BitVec.ofNat 64 n, boundNs := BitVec.ofNat 64 now, phaseUs := 0, resume := none
                     strokeNs := (50000 + s.zio.trimNs).toNat }
    zio := { s.zio with takeStroke := none, trimNs := 0 }
    boot := { s.boot with upStrokes := s.boot.upStrokes + 1 } }

/-- A staged time write (R519): it becomes the boundary's time, or is refused as BACKWARD. -/
def State.timeApply (s : State) : State :=
  match s.time.staged with
  | none => s
  | some v =>
    let s : State := { s with time := { s.time with staged := none } }
    if v.toNat < s.time.boundNs.toNat then s.event 120 1 [sqBit 0x118 1] [1]
    else ({ s with time := { s.time with boundNs := v, timeSet := true } } : State).event 120 1 [sqBit 0x118 0] []

/-! ### Cancellations and slot changes (R33, R41, R42) -/

/-- A cancellation takes effect (R33, R42): its CANCEL record is durable first; a request that reached a natural end keeps its code, and
one in REPLAY goes on to its cut. A halted core makes no record, and the cancellation waits for it (R526). -/
def State.cancelSlot (s : State) (n : Nat) : State :=
  let x := s.slot n
  let cut := s.cutOf x
  if s.dbg.halted.contains (s.coreOf x.core) then s
  else
    let s := s.setSlot n { x with cancel := false }
    if x.natural.isSome then s.endRequest n 3
    else
      let s := s.journalNow n 3 (leBytes 4 cut ++ leBytes 12 0)
      if x.state = .replay then s.setSlot n { s.slot n with cutSeq := some cut } else s.endRequest n 3

/-- The tokenizer table that a slot's input needs is registered. -/
def State.slotTok (s : State) (x : Slot) : Bool :=
  let id := if descRecipe x.desc = 0 then (s.jobTok (descJob x.desc)).getD 0 else fld (s.rcpOf x) 6 1
  (Tbl.look s.cat.tok id).isSome

/-- What a boundary does to one slot (R33, R41, R42): DONE becomes FREE, a removed job's request, a cancelled one or one past its
deadline ends, one that is to be parked leaves DECODE, and a replayed input whose tokenizer table is back is tokenised again. -/
def State.boundarySlot (s : State) (n : Nat) : State :=
  let x := s.slot n
  let open_ := x.live && decide (x.state ≠ .draining) && x.acceptNs.isSome
  if x.state = .done then s.setSlot n {}
  else if open_ && x.removed then s.endRequest n 7
  else if open_ && x.cancel then s.cancelSlot n
  else if s.deadlineDue x then s.endRequest n 4
  else if x.parkDue then
    (if x.state = .decode ∧ x.natural = none ∧ s.wdl.readOnly = false then s.parkSlot n else s.setSlot n { x with parkDue := false })
  else if open_ && (decide (x.state = .replay) || decide (x.state = .front)) && descKind x.desc == 1 && !x.tokDone && !x.tokAsk &&
      !s.qrn.wait.contains n && s.slotTok x then s.qrnIssue n
  else s

/-- Cancellations and slot changes of a boundary. -/
def State.boundarySlots (s : State) : State := s.req.slots.keys.foldl State.boundarySlot s

/-! ### Service without commands (R64, R492, R509) -/

/-- Load a job that the configuration record lists (R509). -/
def State.reloadJob (s : State) (j pad : Nat) : State :=
  match s.plan j with
  | none => s
  | some p =>
    let n := s.cis.loadSeq
    let s := s.putPlan j { p with loaded := some pad, order := n, batch := [], next := [], ran := 0 }
    let s : State := { s with cis := { s.cis with loadSeq := n + 1 } }
    let q := s.paddock pad
    let st := if q.state = .empty then .running else q.state
    let s := s.setPaddock pad (Paddock.rewheel { q with state := st, jobs := q.jobs ++ [j] })
    (s.placeJob j).publishSlots pad

/-- One listed job at a boundary of service (R509): loaded once its plan is staged, dropped after 20,000 strokes. -/
def State.waitJob (s : State) (e : Nat × Nat) : State :=
  let off (s : State) : State := { s with boot := { s.boot with waitJobs := s.boot.waitJobs.filter (fun x => x ≠ e) } }
  match s.plan e.1 with
  | some p => if p.loaded.isNone && !p.freeing then (off s).reloadJob e.1 e.2 else s
  | none => if s.boot.firstStroke + 20000 ≤ s.strokeN then (off s).removeRequests e.1 else s

/-- Readmissions that the module itself had begun start again (R492, R509). -/
def State.readmitOwn (s : State) : State :=
  let qs := (s.boot.readmits.filter (fun t => decide ((s.tiller t).role = .retired) && !s.flt.permanent.contains t)).map
    (fun t => ({ tiller := t, since := s.strokeN, cmd := none } : Quar))
  { s with pad := { s.pad with quars := s.pad.quars ++ qs }, boot := { s.boot with readmits := [] } }

/-- The loaded jobs in order of loading, with their paddocks. -/
def State.loadedJobs (s : State) : List (Nat × Nat) :=
  (sortBy (fun (e : Nat × Plan) => e.2.order) (s.cis.plans.filter (fun e => e.2.loaded.isSome))).map
    (fun e => (e.1, e.2.loaded.getD 0))

/-- The configuration record follows what boundaries have applied (R509). -/
def State.writeConfig (s : State) : State :=
  if !s.boot.ready || s.wdl.readOnly then s
  else
    let c : CfgRec := {
      pads := s.pad.pads.map (fun e => (e.1, e.2.restored (!e.2.jobs.isEmpty)))
      jobs := s.loadedJobs ++ s.boot.waitJobs
      roles := s.til.tillers.map (fun e => (e.1, (e.2.role, e.2.pad))) }
    { s with boot := { s.boot with cfg := c } }

/-! ### Handover of the Tillers (R58, R148, R210, R252, R393) -/

/-- The key under which a Tiller keeps where unit `u` of a job's lists stands: 0 Winnow, 1 Sheaf, 16 + c Siphon channel c. -/
def unitKey (job u : Nat) : Nat := job * 65536 + 65280 + u

/-- The units of a Tiller, other than arrays, that take lists. -/
def listUnits : List Nat := [0, 1] ++ (List.range 16).map (fun c => 16 + c)

/-- Where a unit's list stands. -/
def State.unitList (s : State) (t u : Nat) : Option Nat :=
  if u = 0 then (s.win t).at_
  else if u = 1 then Tbl.look s.shf.lists (8 + t)
  else (Tbl.val {} s.sip ((8 + t) * 64 + (u - 16))).at_

/-- Give a unit a list, or none; its list register shows the base (R232, R268, R402). -/
def State.setUnit (s : State) (t u : Nat) (a : Option Nat) : State :=
  if u = 0 then (s.setWin t { s.win t with at_ := a }).setRegN (8 + t) 26 0x100 (a.getD 0)
  else if u = 1 then
    let l := match a with | none => Tbl.del s.shf.lists (8 + t) | some a => Tbl.put s.shf.lists (8 + t) a
    ({ s with shf := { s.shf with lists := l } } : State).setRegN (8 + t) 28 0x100 (a.getD 0)
  else
    let k := (8 + t) * 64 + (u - 16)
    { s with sip := Tbl.set {} s.sip k { Tbl.val {} s.sip k with base := a.getD 0, at_ := a } }

/-- Keep where the units of a Tiller stand in the lists of the outgoing job. -/
def State.saveUnits (s : State) (t job : Nat) : State :=
  listUnits.foldl (fun s u =>
    let r := s.tiller t
    s.setTiller t { r with lists := match s.unitList t u with
      | none => Tbl.del r.lists (unitKey job u)
      | some a => Tbl.put r.lists (unitKey job u) a }) s

/-- Give the units of a Tiller the lists of a job where they stood. -/
def State.restoreUnits (s : State) (t job : Nat) : State :=
  listUnits.foldl (fun s u => s.setUnit t u (Tbl.look (s.tiller t).lists (unitKey job u))) s

/-- The epilogue tables and Siphon priorities of a job (R148, R159, R393). -/
def State.giveTables (s : State) (t k : Nat) (p : Plan) : State :=
  let s := (List.range 12).foldl (fun s g =>
    s.setRegN (8 + t) (13 + g) 0x100 (Config.planEpi p.image k g % 536870912 / 128 * 128)) s
  (List.range 16).foldl (fun s c =>
    let key := (8 + t) * 64 + c
    { s with sip := Tbl.set {} s.sip key { Tbl.val {} s.sip key with prio := Config.planUnitList p.image k (32 + c) % 8 } }) s

/-- Give a Tiller the lists of a job's step (R58): an array list for every rank it runs, unit lists for its own. -/
def State.giveStep (s : State) (t job : Nat) (p : Plan) : State :=
  let ks := (s.ranksOf t).filter (fun k => k < planRanks p.hdr)
  let r := s.tiller t
  let s := s.setTiller t { r with
    lists := r.lists.filter (fun e => e.1 / 65536 ≠ job), arrays := r.arrays.map (fun e => (e.1, { e.2 with turn := 0 })) }
  let s := ks.foldl (fun s k => (List.range 96).foldl (fun s a =>
    let l := Config.planList p.image k a
    if l = 0 then s else s.giveList t job k a l) s) s
  match ks with
  | [] => s
  | k :: _ => (listUnits.foldl (fun s u =>
      let l := Config.planUnitList p.image k u
      s.setUnit t u (if l = 0 then none else some l)) s).giveTables t k p

/-- JOB_HANDOVER (R58): the Tillers of a paddock pass from one job to another, or begin a step of a job. -/
def State.handover (s : State) (pad old new : Nat) (start : Bool) : State :=
  match s.plan new with
  | none => s
  | some p =>
    (s.paddock pad).tillers.foldl (fun s t =>
      let s := if old ≠ new ∧ old ≠ 0 then
          let s := s.saveUnits t old
          s.setTiller t (s.tiller t).yield
        else s
      if start then s.giveStep t new p
      else if old = new then s
      else match (s.ranksOf t).filter (fun k => k < planRanks p.hdr) with
        | [] => s.restoreUnits t new
        | k :: _ => (s.restoreUnits t new).giveTables t k p) s

/-! ### The wheel and the start of a batch (R52, R57) -/

/-- The wheel of a paddock: as set, or the default wheel. -/
def State.wheelOf (s : State) (pad : Nat) : List Nat :=
  match (s.paddock pad).wheel with
  | some es => es
  | none => (s.paddock pad).jobs.filter s.usesTillers

/-- Entries of the wheel from a position on, one turn. -/
def State.turnFrom (s : State) (pad pos : Nat) : List Nat :=
  let es := s.wheelOf pad
  let n := pos % max 1 es.length
  es.drop n ++ es.take n

/-- Entries of the wheel from the position of the coming stroke on, one turn. -/
def State.turnOf (s : State) (pad : Nat) : List Nat := s.turnFrom pad (s.paddock pad).wheelPos

/-- A request may still run in a composed batch. -/
def State.mayRun (s : State) (job n : Nat) : Bool :=
  let x := s.slot n
  match x.state with
  | .decode => x.natural.isNone && descJob x.desc == job
  | .parked => descJob x.desc == job
  | .front => s.frontWaits x job
  | _ => false

/-- Prompts of a job are to be prefilled, or requests of it replayed. -/
def State.prefills (s : State) (job : Nat) : Bool :=
  s.req.slots.any (fun e => (decide (e.2.state = .prefill) || decide (e.2.state = .replay)) && descJob e.2.desc == job)

/-- A job has work for the stroke: a step in progress, or, in a paddock that composes, a composed batch or prompts. -/
def State.hasWork (s : State) (pad job : Nat) (run : Bool) : Bool :=
  match s.plan job with
  | none => false
  | some p => decide (p.loaded = some pad) &&
    (!p.batch.isEmpty || (run && (p.next.any (s.mayRun job) || s.prefills job)))

/-- A granted PARKED request enters REPLAY (R41, R90). -/
def State.unpark (s : State) (n : Nat) : State :=
  s.modSlot n (fun x => { x with state := .replay, replays := x.replays + 1, replayPos := 0, grm := grmReplay (s.grmImage x) [] })

/-- Run a job in the stroke that opens: its step goes on, or its composed batch starts. -/
def State.runJob (s : State) (pad job : Nat) : State :=
  match s.plan job with
  | none => s
  | some p =>
    let q := s.paddock pad
    let old := q.occupant
    if p.batch ≠ [] then
      let s := s.putPlan job { p with next := if p.sprint then [] else p.next, ran := p.ran + 1 }
      (s.setPaddock pad { q with occupant := job }).handover pad old job false
    else
      let ns := p.next.filter (s.mayRun job)
      let parked := ns.filter (fun n => decide ((s.slot n).state = .parked))
      let batch := ns.filter (fun n => decide ((s.slot n).state ≠ .parked))
      let s := s.putPlan job { p with batch := batch, next := [], ran := 1 }
      let s := parked.foldl State.unpark s
      let s := s.setPaddock pad { q with
        occupant := job, stepOpen := if p.sprint ∧ batch ≠ [] then some s.strokeN else none }
      s.handover pad old job (batch ≠ [] || old ≠ job)

/-- A batch that an earlier cut composed and that has not started is dropped: this cut composes anew (R53). -/
def State.dropNext (s : State) (pad : Nat) : State :=
  (s.paddock pad).jobs.foldl (fun s j => match s.plan j with
    | none => s
    | some p => if p.next = [] then s else s.putPlan j { p with next := [] }) s

/-- The stroke's occupant of a paddock (R57): the first entry of a turn with work; a paddock that does not compose starts no composed
batch (R64). -/
def State.occupy (s : State) (pad : Nat) (turn : List Nat) : State :=
  let q := s.paddock pad
  let run := decide (q.state = .running)
  let s := if run then s else s.dropNext pad
  if q.state = .halted ∨ q.state = .empty then s
  else match turn.find? (fun j => s.hasWork pad j run) with
    | none => s
    | some j => s.runJob pad j

/-- The stroke's occupant of a paddock, and the position advances by one (R57). -/
def State.startPad (s : State) (pad : Nat) : State :=
  let q := s.paddock pad
  let turn := s.turnOf pad
  (s.setPaddock pad { q with wheelPos := (q.wheelPos + 1) % max 1 turn.length }).occupy pad turn

/-- Start of the batches composed in the previous stroke (R52 item 6). -/
def State.startBatches (s : State) : State := (List.range 16).foldl State.startPad s

/-! ### The boundary (R52) -/

/-- A stroke at P0 with busy arrays counts towards a Tiller's rated life where the hotspot is at most 95 °C and the coolant within its
limits, which is a free value here (R505). -/
def State.noteDuty (s : State) : State :=
  (List.range 68).foldl (fun s t =>
    let r := s.tiller t
    if r.role = .inService ∧ (s.clkDie (8 + t)).op = 0 ∧ s.pwr.hot.contains t = false ∧
        r.arrays.any (fun e => decide (1 ≤ e.2.state) && decide (e.2.state ≤ 4)) then
      ({ s with freeCount := s.freeCount + 1 } : State).setPlanner t { s.planner t with
        duty := (s.planner t).duty + b2n (Config.freeBool s.freeCount) }
    else s) s

/-- Holds of R194 for every loaded job, then the Cistern's steps (R333). -/
def State.tiersBoundary (s : State) : State :=
  (s.loadedJobs.foldl (fun s e => s.updateHolds e.1) s).cisternBoundary

/-- What the module does without commands at boundaries of service. -/
def State.serviceBoundary (s : State) : State :=
  if !s.boot.ready then s
  else (s.boot.waitJobs.foldl State.waitJob s).readmitOwn

/-- The accepted ACTIVATEs whose slot headers are durable are applied (R52 item 3, R314). -/
def State.activations (s : State) (ready : List Nat) : State :=
  [0, 1, 2, 3].foldl (fun s g => if ready.contains (activeKey g) then activationApply s g else s) s

/-- The items of R52 in order; what service does without a command follows the commands. Search calls that waited take what the boundary
has freed (R305). -/
def State.boundaryItems (s : State) (ready : List Nat) : State :=
  let due := s.replanDue ready
  let s := if due then s.replan ready else s
  let s := s.takeCommands.serviceBoundary
  let s := (s.activations ready).timeApply
  s.boundarySlots.callsGo.startBatches.armSwitch due ready

/-- SPARE_PROMOTION (R66, R493, R494) at boundary b: the spare enters service and the paddock, or the paddock narrows; its held commands
follow, and its stroke begins with prefill replay. -/
def sparePromotion (s : State) (pad : Nat) : State :=
  if !s.atBoundary || !s.promosFit pad then s
  else
    let t := (((s.promotePad pad).setPoints.freeHeld pad).setPoints).bumpCap s
    (t.occupy pad (t.turnFrom pad ((t.paddock pad).wheelPos + (t.wheelOf pad).length - 1))).armSwitch true []

/-- A meter as a restart brings it back: without staged words (R95). -/
def Meter.kept (m : Meter) : Meter := { m with staged := [] }

/-- A shaper as a restart brings it back: eligible, without staged words (R95). -/
def Shaper.kept (h : Shaper) : Shaper := { h with staged := [], due := none, lastUs := 0 }

/-- Each slice keeps its entries, buckets and two registers in LPDDR as they stand at this boundary (R95). -/
def State.keepTmg (s : State) : State :=
  let regs := s.pg.regs.filter (fun e => [0, 1, 2, 3].any (fun w => decide (e.1 = regKey w 11 0x100) || decide (e.1 = regKey w 11 0x104)))
  { s with tmg := { s.tmg with
      keptMeters := s.tmg.meters.map (fun e => (e.1, e.2.kept)), keptShapers := s.tmg.shapers.map (fun e => (e.1, e.2.kept))
      keptRegs := regs } }

/-- STROKE_BOUNDARY (R50 to R52): the closing stroke is counted, counter and time advance, meters refill, the Cistern and the cap
controller act, and the staged changes are applied in order. `watts` is the input power of the closing stroke, `draw` that of each
paddock, `ready` what has been staged for re-plan boundaries. A boundary comes after the route switch of the one before it (R173). -/
def strokeBoundary (s : State) (watts : Nat) (draw ready : List Nat) : State :=
  if s.boot.started = false ∨ s.flt.safe = true ∨ s.rhz.pausing = true then s
  else
    let s := s.noteMissed.noteDuty.advanceTime
    let s := ((s.portTick 0).portTick 1).refillAll
    let s : State := { s with
      tmg := { s.tmg with passes := [] }
      wdl := { s.wdl with sinceCkpt := if s.wdl.mounted then s.wdl.sinceCkpt + 1 else 0 } }
    let s := (s.tiersBoundary.coolAll.capControl watts draw).boundaryItems ready
    (s.setPoints.keepTmg.writeConfig).shutStep

/-! ### The composition cut (R40, R53, R88 to R90) -/

/-- The egress buffer of a request's slice has room: while it is too full, no request of the slice sees any (R88). -/
def State.sliceRoom (s : State) (x : Slot) : Bool := decide (s.egressFill (descSub x.desc % 4) ≤ 1040384)

/-- The output ring and the slice's egress buffer have room for a request's next step (R40, R88). -/
def State.outRoom (s : State) (x : Slot) : Bool := s.sliceRoom x && s.ringRoom x

/-- A request in DECODE is left out for want of room (R40), of its output ring's among them a wait of that ring (R381). -/
def State.leaveOut (s : State) (n : Nat) : State :=
  let t := s.modSlot n (fun x => { x with leftOut := x.leftOut + 1 })
  if s.ringRoom (s.slot n) then t else t.ringWaits (descOut (s.slot n).desc)

/-- A bulk or front request is left out for want of a page id (R199). -/
def State.leaveWait (s : State) (n : Nat) : State := s.modSlot n (fun x => { x with pageWait := true })

/-- A request of a bulk or front job waits for a page id in this stroke (R199): it was left out of its job's batch, or its prompt or its
replay needs more ids than there are. -/
def State.waitsPage (s : State) (n : Nat) : Bool :=
  let x := s.slot n
  let job := descJob x.desc
  match s.job job with
  | none => false
  | some p =>
    !p.sprint && !p.kvd.isEmpty && (match x.state with
      | .decode => x.pageWait
      | .prefill => (decide (descRecipe x.desc ≠ 0) || x.tokDone) && !s.kvFits n (x.promptTokens.length - x.rows)
      | .replay => !x.promptTokens.isEmpty && !s.kvFits n (x.promptTokens.length + (x.history.length - 1) - x.rows)
      | _ => false)

/-- Count the stroke for every request that waits in it for a page id (R199). -/
def State.countWaits (s : State) : State :=
  s.req.slots.keys.foldl (fun s n =>
    if s.waitsPage n then
      (s.modSlot n (fun x => { x with waitStrokes := x.waitStrokes + 1 })).kvNote (descJob (s.slot n).desc) 0x114 1 (some 3)
    else if (s.slot n).waitStrokes = 0 then s
    else s.modSlot n (fun x => { x with waitStrokes := 0 })) s

/-- Requests of a job in DECODE that have not reached an end. -/
def State.decoding (s : State) (job : Nat) : List Nat :=
  (s.slotsOf job).filter (fun n => decide ((s.slot n).state = .decode) && (s.slot n).natural.isNone)

/-- SPRINT_SLOT_GRANT (R89): free slots go to the waiting service 0 requests of earliest admission. -/
def State.grantSlots (s : State) (pad job : Nat) : State :=
  let free := (s.paddock pad).sprintPub - (s.sprintHolders pad).length
  let wait := (s.decoding job).filter (fun n => !(s.slot n).sprintSlot && descService (s.slot n).desc == 0)
  ((sortBy (fun n => (s.slot n).admitBound * 32768 + n) wait).take free).foldl
    (fun s n => s.modSlot n (fun x => { x with sprintSlot := true })) s

/-- Compose the batch of a sprint job (R89): every holder in DECODE that R40 does not leave out. -/
def State.composeSprint (s : State) (pad job : Nat) : State :=
  let s := s.grantSlots pad job
  let hold := (s.sprintHolders pad).filter (fun n => (s.decoding job).contains n)
  let s := (hold.filter (fun n => !s.outRoom (s.slot n))).foldl State.leaveOut s
  match s.plan job with
  | none => s
  | some p => s.putPlan job { p with next := hold.filter (fun n => s.outRoom (s.slot n)) }

/-- The key of a service counter. -/
def vsKey (job sub : Nat) : Nat := job * 4096 + sub

/-- A subscriber's service counter for a job (R90). -/
def State.vs (s : State) (job sub : Nat) : Nat := Tbl.val 0 s.tmg.vs (vsKey job sub)

/-- Set a service counter. -/
def State.setVs (s : State) (job sub v : Nat) : State :=
  { s with tmg := { s.tmg with vs := Tbl.set 0 s.tmg.vs (vsKey job sub) v } }

/-- The requests of a job that a cut looks at: in DECODE, PARKED or FRONT, and able to run in its step (R90). -/
def State.askingFor (s : State) (job : Nat) : List Nat :=
  (s.req.slots.filter (fun e => e.2.live && s.mayRun job e.1)).map Prod.fst

/-- The output ring of a request in DECODE, and the egress buffer of any, have room (R40, R88). -/
def State.mayYield (s : State) (n : Nat) : Bool :=
  let x := s.slot n
  if x.state = .decode then s.outRoom x else s.sliceRoom x

/-- Subscribers of a list of slots. -/
def State.subsOf (s : State) (ns : List Nat) : List Nat := ns.foldl (fun l n => insNat (descSub (s.slot n).desc) l) []

/-- A subscriber of a slice that was not eligible at the job's previous cut catches up with the least counter of those of the slice that
were and still are (R90). -/
def State.catchUp (s : State) (job w : Nat) (now : List Nat) : State :=
  let prev := Tbl.val [] s.tmg.prevElig (job * 4 + w)
  let least := leastNat ((now.filter (fun b => prev.contains b)).map (fun b => s.vs job b))
  let s := match least with
    | none => s
    | some v => (now.filter (fun b => !prev.contains b)).foldl (fun s b => s.setVs job b (max (s.vs job b) v)) s
  { s with tmg := { s.tmg with prevElig := Tbl.set [] s.tmg.prevElig (job * 4 + w) now } }

/-- The order of R90: colour, service counter, stroke of the last step, slot. -/
def State.before (s : State) (job a b : Nat) : Bool :=
  let x := s.slot a
  let y := s.slot b
  let u := s.vs job (descSub x.desc)
  let v := s.vs job (descSub y.desc)
  if x.colour ≠ y.colour then decide (x.colour < y.colour)
  else if u ≠ v then decide (u < v)
  else if x.lastStep ≠ y.lastStep then decide (x.lastStep < y.lastStep)
  else decide (a < b)

/-- The request that is first in the order of R90. -/
def State.firstOf (s : State) (job : Nat) : List Nat → Option Nat
  | [] => none
  | n :: t => match s.firstOf job t with
    | none => some n
    | some m => some (if s.before job n m then n else m)

/-- New page ids that a request in DECODE needs for its next step (R186, R199). -/
def State.stepNeeds (s : State) (job n : Nat) : Nat :=
  let x := s.slot n
  if x.state = .decode ∧ (s.kvd job).isEmpty = false then s.kvNeeds n (1 + descSpec x.desc) else 0

/-- A batch being filled: the requests granted, and those not yet looked at. -/
structure Fill where
  st : State
  got : List Nat := []
  rest : List Nat := []

/-- A slice grants its requests a batch's slots one at a time in the order of R90, at most `b` of them, and sets aside the page ids their
step needs; a request that finds too few is left out (R199). -/
def State.fillBatch (job w : Nat) : Nat → Nat → Fill → Fill
  | 0, _, a => a
  | fuel + 1, b, a =>
    let s := a.st
    match s.firstOf job (a.rest.filter (fun n => descSub (s.slot n).desc % 4 = w)) with
    | none => a
    | some n =>
      let need := s.stepNeeds job n
      let rest := a.rest.filter (fun m => m ≠ n)
      if b = 0 then a
      else if s.kvFree job < need then State.fillBatch job w fuel b { a with st := s.leaveWait n, rest := rest }
      else
        let sub := descSub (s.slot n).desc
        let s := s.setVs job sub (s.vs job sub + 65536 / (s.meter (aggKey sub)).bulkWeight)
        State.fillBatch job w fuel (b - 1)
          { st := s.modSlot n (fun x => { x with kvGrant := need }), got := a.got ++ [n], rest := rest }

/-- The slices fill a batch of `b`, each from its own subscribers (R69, R90). R90 speaks of one slice and does not say how a batch divides
over the four: each slice's first share is free, and what is then left of the batch goes to the slices in order (log entry 92). -/
def State.fillSlices (s : State) (job b : Nat) (ns : List Nat) : Fill :=
  let a := [0, 1, 2, 3].foldl (fun (a : Fill) w =>
    let r := a.st.drawWord
    State.fillBatch job w ns.length (r.1.toNat % (b - a.got.length + 1)) { a with st := r.2 }) { st := s, rest := ns }
  [0, 1, 2, 3].foldl (fun (a : Fill) w => State.fillBatch job w ns.length (b - a.got.length) a) a

/-- DECODE_SLOT_SELECT (R90): compose the batch of a bulk or front job whose step starts at the next stroke. -/
def State.composeBulk (s : State) (job : Nat) : State :=
  match s.plan job with
  | none => s
  | some p =>
    let ask := s.askingFor job
    let s := ask.foldl (fun s n => s.modSlot n (fun x => { x with kvGrant := 0, pageWait := false })) s
    let s := (ask.filter (fun n => !s.mayYield n)).foldl State.leaveOut s
    let ns := ask.filter s.mayYield
    let short := ns.filter (fun n => decide (s.kvFree job < s.stepNeeds job n))
    let s := short.foldl State.leaveWait s
    let ns := ns.filter (fun n => !short.contains n)
    let s := [0, 1, 2, 3].foldl (fun s w => s.catchUp job w ((s.subsOf ns).filter (fun b => b % 4 = w))) s
    let a := s.fillSlices job (Config.planBatch p.image) ns
    a.st.putPlan job { p with next := a.got }

/-- A job's step runs past the next boundary. -/
def State.goesOn (s : State) (pad job : Nat) : Bool :=
  match s.plan job with
  | none => false
  | some p => !p.batch.isEmpty && !(decide ((s.paddock pad).occupant = job) && decide (planK p.hdr ≤ p.ran))

/-- Look along the wheel for the job of the next stroke and compose its batch where its step starts then (R57, R90). -/
def State.composeTurn (s : State) (pad : Nat) : List Nat → State
  | [] => s
  | j :: t =>
    match s.plan j with
    | none => s.composeTurn pad t
    | some p =>
      if p.loaded ≠ some pad then s.composeTurn pad t
      else if s.goesOn pad j then s
      else
        let s := s.composeBulk j
        match s.plan j with
        | none => s
        | some p => if p.next = [] ∧ s.prefills j = false then s.composeTurn pad t else s

/-- The cut of one paddock: only a RUNNING one composes (R64). -/
def State.cutPad (s : State) (pad : Nat) : State :=
  let s := s.dropNext pad
  if (s.paddock pad).state ≠ .running then s
  else match s.sprintJob pad with
    | some j => s.composeSprint pad j
    | none => s.composeTurn pad (s.turnOf pad)

/-- COMPOSITION_CUT (R53): at 35 µs, once a stroke, the decode slots of the next stroke are fixed. -/
def compositionCut (s : State) : State :=
  if s.boot.ready = false ∨ s.boot.shutting = true ∨ s.time.cut = some s.strokeN then s
  else
    let s : State := { s with time := { s.time with cut := some s.strokeN, phaseUs := max s.time.phaseUs 35 } }
    ((List.range 16).foldl State.cutPad s).countWaits

/-- REPLAN_BOUNDARY (R65): the re-plan of a boundary, which a change of the dead sites follows with a route switch (R173). -/
def replanBoundary (s : State) (ready : List Nat) : State := if s.atBoundary then (s.replan ready).armSwitch true ready else s

/-! ### Meanings -/

/-- REPLAN_BOUNDARY. -/
def execReplanBoundary (ready : List Nat) (s : State) : Host.Outcome State Fault Refusal := .next (replanBoundary s ready)
/-- SPARE_PROMOTION. -/
def execSparePromotion (pad : Nat) (s : State) : Host.Outcome State Fault Refusal := .next (sparePromotion s (pad % 16))
/-- STROKE_BOUNDARY. -/
def execStrokeBoundary (watts : Nat) (draw ready : List Nat) (s : State) : Host.Outcome State Fault Refusal :=
  .next (strokeBoundary s watts draw ready)
/-- COMPOSITION_CUT. -/
def execCompositionCut (s : State) : Host.Outcome State Fault Refusal := .next (compositionCut s)

end Sys2Proof.Machine
end

