-- ==== Sys2Proof/Machine/Harts.lean ====
section
/-! DEFINITION. Claims seen and forced by the debugger, and the Debug Module of the Pumphouse cores: halt, resume, step, triggers,
abstract commands and system bus accesses (R525 to R529). The register layout of the Debug Module is that of RISC-V Debug
Specification 1.0, which R525 names (PRESUMED). -/

namespace Sys2Proof.Machine

/-! ### Claims (R527) -/

/-- A write to DBG_CLAIM_SCAN: every counter is scanned for owner bits [31:24]. -/
def dbgClaimScan (s : State) (req : Requester) (v : Nat) : State :=
  s.gated req 0 16 3 (fun s => { s with dbg := { s.dbg with scan := some (bitsOf v 31 24) } })

/-- The first 256 counters, in ascending id, whose value has the bits [31:24]. A counter that no entry lists reads 0. -/
def State.claimIds (s : State) (m : Nat) : List Nat :=
  if m = 0 then
    (((List.range (256 + s.nor.ctrs.length)).filter (fun c =>
      decide (c < 131072) && decide ((s.ctr c).toNat / 16777216 = 0))).take 256)
  else ((s.nor.ctrs.filter (fun e => decide (e.2.toNat / 16777216 = m))).map Prod.fst).take 256

/-- CLAIM_SCAN_DONE (R527): the scan lists the ids in DBG_CLAIM_LIST. -/
def claimScanDone (s : State) : State :=
  match s.dbg.scan with
  | none => s
  | some m => ({ s with dbg := { s.dbg with scan := none, claims := s.claimIds m } } : State).event 0 16 [sqBit 0x118 3] []

/-- A write of 1 to DBG_CLAIM_FORCE (R527): CAS of the named counter from the expected owner to 0. -/
def dbgClaimForce (s : State) (req : Requester) : State :=
  s.gated req 0 16 3 (fun s =>
    let owner := (s.reg 0 16 0x110).toNat
    let r := s.ctrOp 3 ((s.reg 0 16 0x10C).toNat % 131072) owner 0 0
    if r.2.2 ≠ 0 then r.1.event 0 16 [sqBit 0x118 2] []
    else
      let d := r.1.dbg
      let f := if owner / 268435456 = 2 then insNat (owner / 16777216 % 16) d.forced else d.forced
      (({ r.1 with dbg := { d with forced := f } } : State).bump 0 16 0x12C 1).event 0 16 [sqBit 0x118 1] [])

/-! ### Access and cores -/

/-- The debug port's TAP runs: the module is powered and Wellhead 0 has not failed (R498, R522). -/
def State.tapLive (s : State) : Bool := s.boot.powered && !s.flt.failedWh.contains 0

/-- The lock level lets the port reach everything (R523). -/
def State.portOpen (s : State) : Bool :=
  s.tapLive && (decide (s.boot.lock = 0) || (decide (s.boot.lock = 1) && s.dbg.unlocked))

/-- A core that exists: of a live Wellhead and not failed. -/
def State.coreThere (s : State) (c : Nat) : Bool :=
  decide (c < 16) && !s.flt.failedCores.contains c && !s.flt.failedWh.contains (c / 4)

/-- Forget what the debugger read or wrote of a core's registers: the core changes them as it runs. dcsr (0x7B0) stays. -/
def State.coreRan (s : State) (c : Nat) : State :=
  { s with dbg := { s.dbg with hregs := s.dbg.hregs.filter (fun e => !(decide (e.1 / 65536 = c) && decide (e.1 % 65536 ≠ 0x7B0))) } }

/-- HART_HALT (R525, R526). -/
def hartHalt (s : State) (c : Nat) : State :=
  if s.portOpen && s.coreThere c then { s with dbg := { s.dbg with halted := insNat c s.dbg.halted } } else s

/-- HART_RESUME (R526, R527): the core runs on; one with a claim forced away is failed. -/
def hartResume (s : State) (c : Nat) : State :=
  if !(s.portOpen && s.dbg.halted.contains c) then s
  else if s.dbg.forced.contains c then (s.coreRan c).coreFail c
  else
    let t := s.coreRan c
    { t with dbg := { t.dbg with halted := t.dbg.halted.filter (fun x => x ≠ c) } }

/-- HART_STEP (R525, R526): one instruction runs and the core halts again; its registers are whatever that instruction left. -/
def hartStep (s : State) (c : Nat) : State :=
  if s.portOpen && s.dbg.halted.contains c then s.coreRan c else s

/-- An mcontrol6 trigger matches an access (0 execute, 1 store, 2 load) of an address: its kind is armed, its action enters debug
mode, and the address is equal to tdata2 or lies in the NAPOT range it names. -/
def trigMatch (t1 t2 access addr : Nat) : Bool :=
  decide (t1 / 2 ^ 60 = 6) && decide (bitsOf t1 15 12 = 1) && bitAt t1 (if access = 0 then 2 else if access = 1 then 1 else 0) &&
    (if bitsOf t1 10 7 = 0 then decide (addr = t2)
     else if bitsOf t1 10 7 = 1 then
       let m := t2 ^^^ (t2 + 1)
       decide (addr / (m + 1) = t2 / (m + 1))
     else false)

/-- TRIGGER_HIT (R525): a running core whose trigger matches enters debug mode. -/
def triggerHit (s : State) (c trigger access addr : Nat) : State :=
  let t := Tbl.val (0, 0) s.dbg.trig (c * 4 + trigger % 4)
  if s.coreThere c && !s.dbg.halted.contains c && trigMatch t.1 t.2 access addr then
    { s with dbg := { s.dbg with halted := insNat c s.dbg.halted } }
  else s

/-! ### Registers and memory -/

/-- A register of a halted core as the debugger reads it: x0 is 0, the trigger registers are the core's own, and any other one that the
debugger has not touched since the halt is a free value. -/
def State.coreReg (s : State) (c regno : Nat) : Nat × State :=
  let sel := Tbl.val 0 s.dbg.tsel c
  let t := Tbl.val (0, 0) s.dbg.trig (c * 4 + sel)
  if regno = 0x1000 then (0, s)
  else if regno = 0x7A0 then (sel, s)
  else if regno = 0x7A1 then (t.1, s)
  else if regno = 0x7A2 then (t.2, s)
  else match Tbl.look s.dbg.hregs (c * 65536 + regno) with
    | some v => (v, s)
    | none =>
      let r := s.drawBytes 8
      let v := leNat r.1
      (v, { r.2 with dbg := { r.2.dbg with hregs := Tbl.put r.2.dbg.hregs (c * 65536 + regno) v } })

/-- A register of a halted core as the debugger writes it; the core has 4 triggers. -/
def State.setCoreReg (s : State) (c regno v : Nat) : State :=
  let sel := Tbl.val 0 s.dbg.tsel c
  let t := Tbl.val (0, 0) s.dbg.trig (c * 4 + sel)
  let d := s.dbg
  { s with dbg :=
    if regno = 0x1000 then d
    else if regno = 0x7A0 then (if v < 4 then { d with tsel := Tbl.set 0 d.tsel c v } else d)
    else if regno = 0x7A1 then { d with trig := Tbl.set (0, 0) d.trig (c * 4 + sel) (v, t.2) }
    else if regno = 0x7A2 then { d with trig := Tbl.set (0, 0) d.trig (c * 4 + sel) (t.1, v) }
    else { d with hregs := Tbl.put d.hregs (c * 65536 + regno) v } }

/-- A word of the Debug Module as stored, by DMI address. -/
def State.dmWord (s : State) (a : Nat) : Nat := (Tbl.val 0 s.dbg.dm a).toNat

/-- Store a word of the Debug Module. -/
def State.setDm (s : State) (a v : Nat) : State :=
  { s with dbg := { s.dbg with dm := Tbl.set 0 s.dbg.dm a (BitVec.ofNat 32 v) } }

/-- abstractcs.cmderr keeps its first error: 2 not supported, 4 wrong halt state, 5 bus. -/
def State.cmdErr (s : State) (code : Nat) : State := if s.dmWord 0x16 = 0 then s.setDm 0x16 code else s

/-- sbcs.sberror keeps its first error: 2 address, 3 alignment, 4 size. -/
def State.sbErr (s : State) (code : Nat) : State := if s.dmWord 0x100 = 0 then s.setDm 0x100 code else s

/-- Registers an Access Register command reaches: CSRs, GPRs and FPRs. -/
def regnoOk (regno : Nat) : Bool := decide (regno < 0x1040)

/-- ACCESS_REGISTER (R525): an abstract command on a register of a halted core; a read is answered. -/
def accessRegister (s : State) (c regno : Nat) (write : Bool) (v : Nat) : State :=
  if s.portOpen = false then s
  else if regnoOk regno = false then s.cmdErr 2
  else if s.dbg.halted.contains c = false then s.cmdErr 4
  else if write then s.setCoreReg c regno v
  else
    let r := s.coreReg c regno
    r.2.answer r.1

/-- An LPDDR range the debugger may reach: every device address (R185, R525). -/
def lpddrOk (a n : Nat) : Bool := decide (a + n ≤ 0x40000000000)

/-- Device addresses from here up are module-reserved (R326); what lies where in them the spec does not give. -/
def reservedBase : Nat := 0x3C000000000

/-- The grammar context record of a request (R221): state, depth, ended, grammar id, and the stack from its oldest entry up. -/
def grmRecord (id : Nat) (c : GrmCtx) : List Byte :=
  leBytes 4 c.state ++ leBytes 1 c.stack.length ++ leBytes 1 (b2n c.ended) ++ leBytes 2 id ++ List.replicate 8 0 ++
    padTo 192 (c.stack.reverse.flatMap (leBytes 3)) ++ List.replicate 48 0

/-- Entry p of a slot's KV page table (R185): an entry that maps nothing has valid 0, and its fields are free. -/
def Slot.kvWord (x : Slot) (p free : Nat) : Nat :=
  match x.kv[p]? with
  | some e => e.word
  | none => free % 16777216 + free / 2 ^ 54 % 512 * 2 ^ 54

/-- The 4 or 8 bytes at `a` of a slot's tables in module-reserved LPDDR (R185, R221); none where `a` lies in none of them, or where
the spec gives the byte no value. -/
def Slot.tableRead (n : Nat) (x : Slot) (a bytes free : Nat) : Option Nat :=
  let kv := Config.kvTableAt n
  let hist := Config.historyAt n
  let grm := Config.grmContextAt n
  if x.state = .free then none
  else if kv ≤ a ∧ a + bytes ≤ kv + 131072 then
    some (x.kvWord ((a - kv) / 8) free / 2 ^ (8 * ((a - kv) % 8)) % 2 ^ (8 * bytes))
  else if hist ≤ a ∧ a + bytes ≤ hist + 4 * x.history.length then
    some (leNat (((x.history.flatMap (fun h => leBytes 4 h.word)).drop (a - hist)).take bytes))
  else if descGrammar x.desc ≠ 0 ∧ grm ≤ a ∧ a + bytes ≤ grm + 256 then
    some (leNat (((grmRecord (descGrammar x.desc) x.grm).drop (a - grm)).take bytes))
  else none

/-- A plan has a region in a 4 GiB span (R331). -/
def Plan.inSpan (p : Plan) (hi : Nat) : Bool :=
  p.regions.any (fun r => decide (r.va < (hi + 1) * 4294967296) && decide (hi * 4294967296 < r.va + tierPage * r.pages))

/-- The word of a job's page in its leaf (R331); the spec gives none for a page outside every region, where `free` stands. -/
def State.leafWord (s : State) (job vpn free : Nat) : Nat := match s.pte job vpn with | some e => e.word | none => free

/-- The 4 or 8 bytes at `a` of a job's page directory or of one of its leaves (R331); none where `a` lies in none of them. -/
def State.pageTableRead (s : State) (job : Nat) (p : Plan) (a bytes free : Nat) : Option Nat :=
  let cut (w i : Nat) : Nat := w / 2 ^ (8 * (i % 8)) % 2 ^ (8 * bytes)
  let d := Config.pageDirAt job
  if d ≤ a ∧ a + bytes ≤ d + 524288 then
    let hi := (a - d) / 8
    some (cut (if p.inSpan hi then Config.pageLeafAt job hi else 0) (a - d))
  else
    let spans := p.regions.flatMap (fun r =>
      (List.range (tierPage * r.pages / 4294967296 + 2)).map (fun i => r.va / 4294967296 + i))
    (spans.find? (fun hi => p.inSpan hi && decide (Config.pageLeafAt job hi ≤ a) &&
        decide (a + bytes ≤ Config.pageLeafAt job hi + 524288))).map (fun hi =>
      let i := a - Config.pageLeafAt job hi
      cut (s.leafWord job (hi * 65536 + i / 8) free) i)

/-- A read of LPDDR by the debugger: of module-reserved memory it answers the tables of request slots and the page tables of staged
plans, and free values elsewhere. -/
def State.debugLoad (s : State) (a n : Nat) : Nat × State :=
  if reservedBase ≤ a then
    let r := s.drawBytes n
    let f := r.2.drawBytes 8
    let v := match s.req.slots.findSome? (fun e => Slot.tableRead e.1 e.2 a n (leNat f.1)) with
      | some v => some v
      | none => s.cis.plans.findSome? (fun (e : Nat × Plan) => s.pageTableRead e.1 e.2 a n (leNat f.1))
    (v.getD (leNat r.1), f.2)
  else (leNat (s.load .lpddr a n), s)

/-- A write of LPDDR by the debugger. -/
def State.debugStore (s : State) (a n v : Nat) : State := s.store .lpddr a (leBytes n v)

/-- ACCESS_MEMORY (R525): an abstract command of 4 or 8 bytes through a halted core; a read is answered. -/
def accessMemory (s : State) (c a n : Nat) (write : Bool) (v : Nat) : State :=
  if s.portOpen = false then s
  else if n ≠ 4 ∧ n ≠ 8 then s.cmdErr 2
  else if s.dbg.halted.contains c = false then s.cmdErr 4
  else if a % n ≠ 0 ∨ lpddrOk a n = false then s.cmdErr 5
  else if write then s.debugStore a n v
  else
    let r := s.debugLoad a n
    r.2.answer r.1

/-- SYSTEM_BUS_ACCESS (R525, R528): one access of 4 or 8 bytes of LPDDR, whether or not a core runs; a read is answered. -/
def systemBusAccess (s : State) (a n : Nat) (write : Bool) (v : Nat) : State :=
  if s.portOpen = false then s
  else if n ≠ 4 ∧ n ≠ 8 then s.sbErr 4
  else if a % n ≠ 0 then s.sbErr 3
  else if lpddrOk a n = false then s.sbErr 2
  else if write then s.debugStore a n v
  else
    let r := s.debugLoad a n
    r.2.answer r.1

/-- NDMRESET (R525): the restart of R507. -/
def ndmreset (s : State) : State := if s.portOpen then s.askRestart else s

/-! ### Meanings -/

/-- DBG_CLAIM_SCAN. -/
def execDbgClaimScan (req : Requester) (v : Word) (s : State) : Host.Outcome State Fault Refusal :=
  .next (dbgClaimScan s req v.toNat)
/-- CLAIM_SCAN_DONE. -/
def execClaimScanDone (s : State) : Host.Outcome State Fault Refusal := .next (claimScanDone s)
/-- DBG_CLAIM_FORCE. -/
def execDbgClaimForce (req : Requester) (s : State) : Host.Outcome State Fault Refusal := .next (dbgClaimForce s req)
/-- HART_HALT. -/
def execHartHalt (c : Nat) (s : State) : Host.Outcome State Fault Refusal := .next (hartHalt s c)
/-- HART_RESUME. -/
def execHartResume (c : Nat) (s : State) : Host.Outcome State Fault Refusal := .next (hartResume s c)
/-- HART_STEP. -/
def execHartStep (c : Nat) (s : State) : Host.Outcome State Fault Refusal := .next (hartStep s c)
/-- TRIGGER_HIT. -/
def execTriggerHit (c trigger access a : Nat) (s : State) : Host.Outcome State Fault Refusal :=
  .next (triggerHit s c trigger access a)
/-- ACCESS_REGISTER. -/
def execAccessRegister (c regno : Nat) (write : Bool) (v : Word64) (s : State) : Host.Outcome State Fault Refusal :=
  .next (accessRegister s c regno write v.toNat)
/-- ACCESS_MEMORY. -/
def execAccessMemory (c a n : Nat) (write : Bool) (v : Word64) (s : State) : Host.Outcome State Fault Refusal :=
  .next (accessMemory s c a n write v.toNat)
/-- SYSTEM_BUS_ACCESS. -/
def execSystemBusAccess (a n : Nat) (write : Bool) (v : Word64) (s : State) : Host.Outcome State Fault Refusal :=
  .next (systemBusAccess s a n write v.toNat)
/-- NDMRESET. -/
def execNdmreset (s : State) : Host.Outcome State Fault Refusal := .next (ndmreset s)

end Sys2Proof.Machine
end

