-- ==== Sys2Proof/Machine/Regs.lean ====
section
/-! DEFINITION. What every register reads: the registers of each page, their PV bits, indirect spaces and wide values (R441 to R448,
R453 to R456, and the register tables of the chapters). -/

namespace Sys2Proof.Machine

/-! ### Which registers exist -/

/-- The key of a page's register table: its block type, or 256 + page for MOD pages. -/
def tableKey (die page : Nat) : Nat := if die = 120 then 256 + page else pageType die page

/-- The registers of a page and their PV bits (R448), by block type or MOD page; a register of WO and PV fields reads 0. -/
def pvTable : Nat → List (Nat × Nat)
  | 2 => [(0x100, 0xFFFF00FC), (0x104, 0x0), (0x108, 0xFFFFFF80), (0x10C, 0x0), (0x110, 0x0), (0x114, 0xE0000000),
      (0x118, 0xFFFFF0)]
  | 3 => [(0x100, 0xFFFF0000), (0x104, 0x0), (0x108, 0xFFFFFFF8), (0x10C, 0x0), (0x180, 0xFFFF00)]
  | 4 => [(0x100, 0xE0000000), (0x104, 0xFFFFF0F0), (0x108, 0x0), (0x10C, 0x0), (0x110, 0x0), (0x114, 0xFFFFFF00),
      (0x118, 0xFFFFF8), (0x11C, 0x0)]
  | 5 => [(0x100, 0xE0000000), (0x104, 0x0), (0x108, 0x0), (0x10C, 0x0), (0x110, 0xE0000000), (0x118, 0xFFFFF8), (0x11C, 0x0)]
  | 6 => [(0x100, 0xFFFE0000), (0x104, 0x0), (0x108, 0x0), (0x118, 0xFFFFFE), (0x11C, 0x0)]
  | 7 => [(0x100, 0xE0000000), (0x104, 0x0), (0x108, 0x0), (0x10C, 0x0), (0x110, 0x0), (0x114, 0xE0000000),
      (0x118, 0xFFFFF0), (0x11C, 0x0), (0x120, 0xFFFE0000), (0x124, 0x0), (0x128, 0x0)]
  | 8 => [(0x100, 0x0), (0x104, 0x0), (0x108, 0x0), (0x10C, 0x0), (0x110, 0x0), (0x114, 0x0), (0x118, 0xFFFFF0), (0x11C, 0x0)]
  | 9 => [(0x100, 0xFFFFC000), (0x104, 0xFFFFF800), (0x108, 0xFFFFC000), (0x10C, 0x0), (0x110, 0x0), (0x114, 0x0),
      (0x118, 0xFFFFF0), (0x11C, 0x0)]
  | 10 => [(0x100, 0x0), (0x104, 0x0), (0x108, 0x0), (0x10C, 0x0), (0x110, 0x0), (0x118, 0xFFFFF0), (0x11C, 0x0)]
  | 11 => [(0x100, 0xFFFE0000), (0x104, 0xFFFFC000), (0x108, 0x0), (0x10C, 0x0), (0x110, 0x0), (0x114, 0x0), (0x118, 0xFFFFF8)]
  | 12 => [(0x100, 0xFFFFC000), (0x104, 0xFFFFC000), (0x108, 0xFFC00000), (0x10C, 0xFFFE0000), (0x110, 0xFFFFF8)]
  | 13 => [(0x100, 0xFFFF0000), (0x104, 0x0), (0x108, 0x0), (0x10C, 0x0), (0x110, 0x0), (0x118, 0xFFFFF8), (0x11C, 0x0)]
  | 14 => [(0x100, 0xFFFE0000), (0x104, 0x0), (0x108, 0x0), (0x10C, 0x0), (0x110, 0x3FFFFFFC), (0x114, 0x0),
      (0x118, 0xFFFFFE), (0x11C, 0x0), (0x120, 0xFFFF8000), (0x124, 0x0)]
  | 15 => [(0x100, 0xFFFFFFFE), (0x104, 0xFFFFFF80), (0x108, 0x0), (0x10C, 0x0), (0x110, 0x0), (0x114, 0xFFFFFFC0),
      (0x118, 0xFFFFF8), (0x11C, 0x0)]
  | 16 => [(0x118, 0x0), (0x11C, 0x0), (0x200, 0xFFFFC80), (0x204, 0x0), (0x208, 0x0), (0x20C, 0x0), (0x210, 0x0),
      (0x214, 0x0), (0x218, 0xFFFF0000), (0x21C, 0x0), (0x220, 0xFFFFFF), (0x224, 0x0)]
  | 17 => [(0x100, 0xFFFF000E), (0x104, 0xFFFFF000), (0x108, 0xFFF0), (0x10C, 0x0), (0x110, 0x0), (0x118, 0xFFFFF0),
      (0x11C, 0x0)]
  | 18 => [(0x100, 0x7FFF0000), (0x104, 0x7FFF0000), (0x108, 0xFFF8), (0x10C, 0xFFF8), (0x110, 0x0), (0x118, 0xFFFFE0),
      (0x11C, 0x0), (0x200, 0xFF8), (0x204, 0xFFFF0000), (0x208, 0xFF00)]
  | 19 => [(0x100, 0x3FFF0000), (0x104, 0xFFFFFFFE), (0x108, 0xFFFFFFF8), (0x10C, 0xFFFFF8E0), (0x110, 0x0),
      (0x114, 0xFFFFFFF8), (0x118, 0xFFFFF0)]
  | 20 => [(0x100, 0xFFFF0000), (0x104, 0xFF000000), (0x108, 0xFFFF0000), (0x10C, 0x0), (0x110, 0xFFFF0000),
      (0x118, 0xFFFFF0), (0x11C, 0x0), (0x120, 0x0), (0x124, 0x0), (0x128, 0x0), (0x12C, 0x0)]
  | 21 => [(0x100, 0xFF000000), (0x104, 0x7FFF0000), (0x108, 0xFFFF00), (0x10C, 0x7FFFFF00), (0x110, 0xFFFF0000),
      (0x118, 0xFFFFF8), (0x11C, 0x0)]
  | 22 => [(0x100, 0x7FFC00FC), (0x104, 0x0), (0x108, 0x0), (0x10C, 0x0), (0x110, 0x0), (0x114, 0xFFFF0000),
      (0x118, 0xFFFFFC), (0x120, 0x0), (0x124, 0xFFFFF), (0x128, 0x0), (0x12C, 0x0)]
  | 23 => [(0x100, 0xFFFFFE0C), (0x104, 0x0), (0x108, 0xFFFF0000), (0x10C, 0xFFFE0000), (0x110, 0x0), (0x114, 0x0),
      (0x118, 0xFFFFF0), (0x120, 0x0), (0x124, 0xFFFFFFFC), (0x128, 0xFFFE00), (0x12C, 0x0)]
  | 24 => [(0x100, 0xFFFF00F8), (0x104, 0x0), (0x108, 0x0), (0x10C, 0x0), (0x110, 0x0), (0x114, 0x0), (0x118, 0xFFFFF0),
      (0x11C, 0x0)]
  | 25 => [(0x100, 0xFFFFFFF8), (0x104, 0xFFFF0000), (0x108, 0x0), (0x10C, 0xFFFF0000), (0x110, 0xFFFF0000), (0x114, 0x0),
      (0x118, 0xFFFFF0), (0x11C, 0x0)]
  | 26 => [(0x100, 0x0), (0x104, 0xFFFFFF00), (0x108, 0xFFFFFF80), (0x10C, 0x0), (0x110, 0x0), (0x118, 0xFFFFF0), (0x11C, 0x0)]
  | 0x100 => [(0x100, 0xFFFFFF0E), (0x104, 0xFFFF0000), (0x108, 0x0), (0x10C, 0x0), (0x118, 0xFFFFFE)]
  | 0x101 => [(0x100, 0x0), (0x104, 0x0), (0x108, 0x0), (0x10C, 0xFFFFFFFC), (0x110, 0x0), (0x118, 0xFFFFFC)]
  | 0x102 => [(0x100, 0xFF0000F8), (0x104, 0xFFFFFC00), (0x108, 0x0), (0x10C, 0xFFFFFFF8), (0x110, 0x0), (0x114, 0xFFFFF0)]
  | 0x103 => [(0x100, 0x0), (0x104, 0x0), (0x108, 0x0), (0x10C, 0x0), (0x110, 0x0), (0x114, 0x0), (0x118, 0xFFFFF0),
      (0x11C, 0x0)]
  | 0x104 => [(0x100, 0x0), (0x104, 0xFFFF0000), (0x108, 0x0), (0x10C, 0xFF000), (0x110, 0xFFFFF000), (0x118, 0xFFFFFC)]
  | 0x105 => [(0x100, 0x0), (0x104, 0xFFFF0000), (0x108, 0x0), (0x10C, 0xFFF00), (0x110, 0xFFFFFF00), (0x118, 0xFFFFFC)]
  | 0x106 => [(0x100, 0x0), (0x104, 0xFFFF0000), (0x108, 0x0), (0x10C, 0xFFFC0), (0x110, 0xFFFFFF80), (0x118, 0xFFFFFC)]
  | 0x107 => [(0x100, 0x0), (0x104, 0xFFFF0000), (0x108, 0x0), (0x10C, 0xFF000), (0x110, 0xFFFFF000), (0x114, 0xFFFF0000),
      (0x118, 0xFFFFF0), (0x11C, 0x0), (0x120, 0x0), (0x124, 0x0)]
  | 0x108 => [(0x100, 0x0), (0x104, 0xFFFF0000), (0x108, 0x0), (0x10C, 0xFFFFC), (0x110, 0x0), (0x118, 0xFFFFF8),
      (0x120, 0x7FF0000), (0x124, 0x7FF0000), (0x128, 0x7FF0000), (0x12C, 0x7FF0000), (0x130, 0x0), (0x134, 0x0),
      (0x138, 0x0), (0x13C, 0x0)]
  | 0x109 => [(0x100, 0x0), (0x104, 0xFFFF0000), (0x108, 0x0), (0x10C, 0xFFC00), (0x110, 0xFFFFF000), (0x118, 0xFFFFFC)]
  | 0x10a => [(0x100, 0x0), (0x104, 0xFFFF0000), (0x108, 0x0), (0x10C, 0xF0000), (0x110, 0x0), (0x118, 0xFFFFFC)]
  | 0x10b => [(0x100, 0x0), (0x104, 0xFFFF0000), (0x108, 0x0), (0x10C, 0xE0000), (0x110, 0xFFFC0000), (0x118, 0xFFFFFC)]
  | 0x10c => [(0x100, 0x0)]
  | 0x10d => [(0x100, 0x0)]
  | _ => []

/-- The register of a repeated group: offset as the tables give it, and the group's number. -/
def regGroup (key off : Nat) : Nat × Nat :=
  if key = 3 ∧ 0x100 ≤ off ∧ off < 0x180 then (0x100 + (off - 0x100) % 16, (off - 0x100) / 16)
  else if (key = 0x102 ∨ key = 0x103) ∧ 0x100 ≤ off ∧ off < 0x300 then (0x100 + (off - 0x100) % 32, (off - 0x100) / 32)
  else if key = 16 ∧ 0x200 ≤ off ∧ off < 0x300 then (0x200 + (off - 0x200) % 64, (off - 0x200) / 64)
  else if key = 18 ∧ 0x200 ≤ off ∧ off < 0x2C0 then (0x200 + (off - 0x200) % 16, (off - 0x200) / 16)
  else (off, 0)

/-- The PV bits of a register; none where the page has no register there. -/
def pvBits (key off : Nat) : Option Nat := Tbl.look (pvTable key) (regGroup key off).1

/-- The register holds SQ fields. -/
def isStat (key off : Nat) : Bool :=
  let o := (regGroup key off).1
  if key = 12 then o == 0x110
  else if key = 3 then o == 0x180
  else if key = 0x102 then o == 0x114
  else if key = 0x10C ∨ key = 0x10D ∨ key = 0 then false
  else o == 0x118

/-- Bits of named fields whose value the spec leaves to a sensor, a monitor or the medium. -/
def sensorBits (s : State) (die key off : Nat) : Nat :=
  match key, off with
  | 19, 0x100 => if (Tbl.val ({} : ClkDie) s.clk die).src = 1 ∨ (Tbl.val ({} : ClkDie) s.clk die).src = 2 then 0xFFFF else 0
  | 20, 0x100 => 0xFFFF
  | 20, 0x108 => 0xFFFF
  | 20, 0x10C => if die = s.capDie then 0xFFFF0000 else 0
  | 21, 0x100 => 0xFFFFF
  | 24, 0x100 => 0xFF00
  | 0x100, 0x108 => if s.boot.runImage = [] then 0xFFFFFFFF else 0
  | _, _ => 0

/-! ### Fields computed from the state -/

/-- Slots of a Wellhead in a state. -/
def State.slotsIn (s : State) (w : Nat) (st : SlotState) : Nat :=
  (s.req.slots.filter (fun e => decide (slotWh e.1 = w) && decide (e.2.state = st))).length

/-- The role code of R137. -/
def Role.code : Role → Nat
  | .unknown => 0
  | .inService => 1
  | .spare => 2
  | .retired => 3

/-- An entry of MAT_BYPASS (R140). -/
def bypassByte (x : MatArray) (i : Nat) : Nat := match x.bypass[i]? with | none => 0 | some c => 128 + c % 64

/-- The state code of a paddock (R68). -/
def PadState.code : PadState → Nat
  | .empty => 0
  | .running => 1
  | .drained => 2
  | .halted => 3

/-- The state code of a generation slot (R320). -/
def GenState.code : GenState → Nat
  | .free => 0
  | .loading => 1
  | .sealed => 2
  | .active => 3
  | .retiring => 4
  | .freeing => 5

/-- Requests that pin a generation slot (R43). -/
def State.pins (s : State) (g : Nat) : Nat := (s.req.slots.filter (fun e => e.2.live && decide (e.2.genSlot = some g))).length

/-- Searches of a Wellhead in one of two states. -/
def State.searchesIn (s : State) (w : Nat) (a b : SearchState) : Nat :=
  (s.idx.searches.filter (fun e => decide (s.searchWh e.1 = w) && (decide (e.2.state = a) || decide (e.2.state = b)))).length

/-- A router's links have trained: its die runs from a locked PLL (R179). -/
def State.linkTrained (s : State) (site : Nat) : Bool := (Tbl.val ({} : ClkDie) s.clk (siteDie site)).locked

/-- The link state of a port of a router (R175, R179): absent, also before both ends have trained; down, towards a powered-down
router too; retrying while a flit is sent again; up. -/
def State.linkState (s : State) (site port : Nat) : Nat :=
  match neighbour site port with
  | none => 0
  | some y =>
    let k := site * 4 + port
    if s.rhz.down.contains k || s.dieDown (siteDie y) then 2
    else if !s.linkTrained site || !s.linkTrained y then 0
    else if s.rhz.retrying.contains k then 3 else 1

/-- The route table entry of a site for a destination (R176, R179). -/
def State.routeEntry (s : State) (site d : Nat) : Nat := if d < 72 then routeWord s.rhz.dead site d else 0

/-- UNREACHABLE entries of a route table. -/
def State.unreachable (s : State) (site : Nat) : Nat :=
  ((List.range 72).filter (fun d => bitsOf (s.routeEntry site d) 30 29 = 3)).length

/-- Open parity groups of a mode on a Wellhead's Wells (R355): the die numbers with open blocks. -/
def State.openGroups (s : State) (w : Nat) (tlc : Bool) : Nat :=
  ((s.wdl.blocks.filter (fun e => decide (e.2.state = .opened) && e.2.tlc == tlc && decide (s.wellWh (blkWell e.1) = w))).foldl
    (fun l e => insNat (blkWell e.1 * 4 + blkDie e.1 % 4) l) []).length

/-- WEL_LIFE in thousandths of the rated erases (R358, R368). -/
def State.wear (s : State) (n : Nat) (tlc : Bool) : Nat :=
  let t := 32 * (s.partBlocks 2 n + s.partBlocks 4 n)
  let p := 32 * ([0, 1, 3, 5, 6].foldl (fun a k => a + s.partBlocks k n) 0)
  min 65535 (if tlc then (s.well n).tlcErases * 1000 / max 1 (t * 3000) else (s.well n).slcErases * 1000 / max 1 (p * 30000))

/-- The port of a ZIO page's local port (R439). -/
def zioPortOf (w j : Nat) : Nat := if j < 4 then 4 * w + j else 16 + 8 * w + (j - 4)

/-- Paddock points or any other nibbles of 8 paddocks as a word. -/
def nibbles (f : Nat → Nat) : Nat := (List.range 8).foldl (fun a i => a + f i % 16 * 16 ^ i) 0

/-- The fw_version shown for a boot slot: 0 if its image is not accepted (R530). -/
def State.slotVersion (s : State) (b : List Byte) : Nat := if fwCheck s.fusesNow b = 0 then fwVersion b else 0

/-- CLK registers of a die (R478). -/
def State.clkWord (s : State) (d off : Nat) : Nat :=
  let x := s.clkDie d
  match off with
  | 0x100 => x.src % 4 * 0x40000000 + x.trim % 65536
  | 0x104 => b2n x.locked
  | 0x108 => x.sel % 8
  | 0x10C => x.pend % 8 * 256 + x.cur % 8 * 4 + b2n x.pllAlive * 2 + b2n x.oscAlive
  | 0x114 => if 8 ≤ d ∧ d < 76 then x.op % 8 else 0
  | _ => 0

/-- PWR registers of a die (R479); those of the controller read 0 on other dies. -/
def State.pwrWord (s : State) (d off : Nat) : Nat :=
  match off with
  | 0x104 => (s.clkDie d).offset % 256 * 65536 + (s.clkDie d).mv % 65536
  | 0x10C => if d = s.capDie then min 65535 s.inputWatts else 0
  | 0x110 => if d = s.capDie then s.capWatts else 0
  | 0x120 => if d = s.capDie then (s.reg d 35 0x120).toNat else 0
  | 0x124 => if d = s.capDie then (s.reg d 35 0x124).toNat else 0
  | 0x128 => if d = s.capDie then nibbles s.padPoint else 0
  | 0x12C => if d = s.capDie then nibbles (fun p => s.padPoint (8 + p)) else 0
  | _ => 0

/-- AGE registers of a Tiller (R505, R506); AGE_RETIRE, AGE_LIFE and the offset come from the boot partition at mount. -/
def State.ageWord (s : State) (t off : Nat) : Nat :=
  let p := s.planner t
  if s.wdl.mounted = false ∧ (off = 0x10C ∨ off = 0x110) then 0
  else match off with
  | 0x104 => match p.lastRunNs with | none => 0 | some n => min 65535 ((s.nowNs - n) / 3600000000000)
  | 0x108 => (if p.running then 1 else if p.done then 3 else 0) * 0x10000000 + p.outcome % 16 * 0x1000000 + b2n s.wdl.mounted * (p.offset % 256)
  | 0x10C => b2n (s.flt.permanent.contains t) * 0x80000000 + min 255 (s.recentFaults t)
  | 0x110 => min 65535 (p.duty * 1000 / 2209032000000)
  | _ => 0

/-- DBG registers (R529). -/
def State.dbgWord (s : State) (off : Nat) : Nat :=
  match off with
  | 0x100 => b2n s.dbg.unlocked * 256 + s.dbg.failures % 16 * 16 + s.boot.lock % 4
  | 0x108 => s.dbg.halted.foldl (fun a c => a ||| 2 ^ c) 0 % 65536
  | 0x124 => s.boot.resetState
  | 0x128 => min 256 s.dbg.claims.length
  | 0x110 => (s.reg 0 16 0x110).toNat
  | 0x10C => (s.reg 0 16 0x10C).toNat
  | 0x12C => (s.reg 0 16 0x12C).toNat
  | _ => 0

/-- FUS registers (R530). -/
def State.fusWord (s : State) (off : Nat) : Nat :=
  let f := s.boot.fuses
  match off with
  | 0x100 => b2n f.provisioned * 0x80000000 + f.lock % 4 * 65536 + f.secMin % 256 * 256 + s.boot.running % 4
  | 0x104 => f.permit 0 % 4294967296
  | 0x108 => f.permit 1 % 4294967296
  | 0x128 => s.slotVersion s.boot.slotA
  | 0x12C => s.slotVersion s.boot.slotB
  | 0x120 => 0
  | _ => (s.reg 0 15 off).toNat

/-- ZIO registers of a Wellhead (R439). -/
def State.zioWord (s : State) (w off i : Nat) : Nat :=
  let pair (k : Nat) : Nat :=
    let x := s.zpair (2 * w + k)
    x.authority % 256 * 0x1000000 + x.hops % 256 * 65536 + x.state % 8
  let x := s.zport (zioPortOf w i)
  match off with
  | 0x108 => pair 0
  | 0x10C => pair 1
  | 0x200 => x.peer % 256 * 0x1000000 + x.good % 256 * 65536 + x.width % 16 * 4096 + x.state % 8
  | 0x204 => x.delay % 65536
  | 0x208 =>
    let v := (s.reg w 33 (0x208 + 16 * i)).toNat
    if v = 0 then 0x01010001 else v
  | _ => (s.reg w 33 off).toNat

/-- Registers of MOD pages (R460 and the chapters it names). -/
def State.modWord (s : State) (page off i : Nat) : Nat :=
  let stored := (s.reg 120 page (if page = 2 ∨ page = 3 then off + 32 * i else off)).toNat
  match page, off with
  | 0, 0x100 => s.boot.phase % 16 * 16 + b2n s.boot.ready
  | 0, 0x104 => s.wellCount * 256 + s.boot.fuses.variant % 256
  | 0, 0x108 => fwVersion s.boot.runImage
  | 1, 0x10C => b2n s.time.staged.isSome * 2 + b2n s.time.timeSet
  | 2, 0x100 => (s.paddock i).jobs.length * 65536 + (s.paddock i).tillers.length * 256 + (s.paddock i).state.code
  | 2, 0x104 => (s.paddock i).sprintPub % 1024
  | 4, 0x110 => if s.boot.phase < 4 then 0 else (s.cat.grm.filter (fun e => !e.2.closed)).length
  | 5, 0x110 => if s.boot.phase < 4 then 0 else s.cat.tok.length
  | 6, 0x110 => s.shf.tables.length
  | 7, 0x110 => if s.boot.phase < 4 then 0 else (s.cat.rcp.filter (fun e => !e.2.closed)).length
  | 7, 0x114 => min 65535 (s.req.slots.filter (fun e => decide (e.2.state = .front))).length
  | 9, 0x110 => s.cis.hostGib
  | 10, 0x110 => (s.wdl.images.filter (fun e => e.2.single)).length * 65536 + (s.wdl.images.filter (fun e => e.2.ready)).length
  | 11, 0x110 => s.nor.rings.length
  | 13, 0x100 =>
    let t := s.zio.timing
    let x := match t with | none => ({} : ZioPair) | some k => s.zpair k
    x.authority % 256 * 0x1000000 + x.hops % 256 * 65536 + (t.getD 255) % 256 * 256 + s.node
  | 8, o =>
    if 0x120 ≤ o ∧ o < 0x130 then
      let x := s.gen ((o - 0x120) / 4)
      x.state.code * 0x20000000 + b2n x.extents * 0x10000000 + b2n (!x.stale.isEmpty) * 0x8000000 +
        (if x.state = .free then 0 else genNum x.hdr)
    else if 0x130 ≤ o ∧ o < 0x140 then s.pins ((o - 0x130) / 4)
    else stored
  | _, _ => stored

/-- Registers of Wellhead pages that are not stored (R49, R175, R251, R268, R322, R343, R369, R391, R402, R403, R417, R489). -/
def State.whWord (s : State) (req : Requester) (w key page off i : Nat) : Nat :=
  let stored := (s.reg w page off).toNat
  match key, off with
  | 12, 0x100 => if s.boot.ready then s.freeSlots w else 0
  | 12, 0x104 => if s.boot.ready then s.slotsIn w .replay else 0
  | 12, 0x108 => if s.boot.ready then s.dedupFill w else 0
  | 12, 0x10C => if s.boot.ready then min 65536 (ceilDiv (s.staging w) 1024) else 0
  | 26, 0x100 => s.rhz.gen % 4294967296
  | 26, 0x104 => (List.range 4).foldl (fun a p => a + s.linkState (dieSite w) p * 4 ^ p) 0
  | 26, 0x108 => s.unreachable (dieSite w)
  | 10, 0x100 => (List.range 4).foldl (fun a l => a + (s.lane (4 * w + l)).length % 256 * 256 ^ l) 0
  | 7, 0x120 => s.mergeFill w
  | 9, 0x100 => (s.idx.searches.filter (fun e => decide (s.searchWh e.1 = w))).length
  | 9, 0x104 => s.searchesIn w .walk .walk
  | 9, 0x108 => s.searchesIn w .queued .queued
  | 8, 0x100 => (s.cis.moves.filter (fun m => decide (s.whOf (m.job % 4) = w))).length
  | 25, 0x100 => b2n s.wdl.writeThrough * 4 + b2n s.wdl.readOnly * 2 + b2n s.wdl.mounted
  | 25, 0x10C => s.openGroups w true % 256 * 256 + s.openGroups w false % 256
  | 25, 0x110 => if s.wdl.mounted then s.streamWell w 1 * 256 + s.streamWell w 0 else 0
  | 14, 0x100 => (s.syc w req).id
  | 14, 0x104 => (s.syc w req).a.toNat
  | 14, 0x108 => (s.syc w req).b.toNat
  | 14, 0x110 => (s.syc w req).state * 0x40000000 + (s.syc w req).status
  | 14, 0x114 => (s.syc w req).old.toNat
  | 14, 0x120 => min 32767 (s.nor.parked.filter (fun p => decide (s.ctrWh p.ctr = w))).length
  | 15, 0x100 => b2n (!s.boot.ready)
  | 15, 0x104 => (s.sip.filter (fun e => decide (e.1 / 64 = w) && e.2.moved.isSome)).length
  | 13, 0x100 => (s.nor.rings.filter (fun e => decide (e.1 / 32768 = w))).length + Config.internalRings w
  | 17, 0x100 =>
    let h := s.hp w
    if h.linkUp then h.width % 256 * 256 + h.speed % 16 * 16 + b2n h.flit else 0
  | 17, 0x104 => (s.hp w).win
  | 17, 0x108 => if w = 0 then s.boot.perm0 else s.boot.perm1
  | 16, 0x200 => (s.chkUnit (4 * w + i)).cfg
  | 16, 0x214 => (s.reg w 14 (0x214 + 64 * i)).toNat
  | 16, 0x218 => (s.reg w 14 (0x218 + 64 * i)).toNat
  | 16, 0x220 => (s.chkUnit (4 * w + i)).result
  | 18, o => s.zioWord w o i
  | 19, o => s.clkWord w o
  | 20, o => s.pwrWord w o
  | 22, o => s.fusWord o
  | 23, o => s.dbgWord o
  | _, _ => stored

/-- Registers of Tiller pages that are not stored (R139, R140, R159, R175, R233, R343, R402). -/
def State.tilWord (s : State) (t key page off i : Nat) : Nat :=
  let r := s.tiller t
  let stored := (s.reg (8 + t) page off).toNat
  match key, off with
  | 2, 0x100 => (match r.pad with | none => 255 | some p => p % 256) * 256 + (if s.boot.phase = 0 then 0 else r.role.code)
  | 2, 0x104 => s.til.capGen
  | 2, 0x108 => if s.boot.phase = 0 then 0 else r.live
  | 3, 0x100 =>
    let x := r.array ((page - 1) * 8 + i)
    (x.pending.length + (x.settled.1.length - x.bypass.length)) % 256 * 256 + x.width
  | 3, 0x104 => [0, 1, 2, 3].foldl (fun a k => a + bypassByte (r.array ((page - 1) * 8 + i)) k * 256 ^ k) 0
  | 3, 0x108 => (r.array ((page - 1) * 8 + i)).state
  | 4, 0x104 =>
    let c := Tbl.val {} r.chains (page - 13)
    c.tags.length * 256 + (c.deferred.length + c.finishes.length)
  | 6, 0x100 => (s.win t).cache.length
  | 26, 0x100 => s.rhz.gen % 4294967296
  | 26, 0x104 => (List.range 4).foldl (fun a p => a + s.linkState (tillerSite t) p * 4 ^ p) 0
  | 26, 0x108 => s.unreachable (tillerSite t)
  | 8, 0x100 => (s.cis.hbmUsed.filter (fun k => k / 16777216 = t)).length
  | 15, 0x100 => b2n (!s.boot.ready || s.pad.quars.any (fun q => decide (q.tiller = t)))
  | 15, 0x104 => (s.sip.filter (fun e => decide (e.1 / 64 = 8 + t) && e.2.moved.isSome)).length
  | 19, o => s.clkWord (8 + t) o
  | 20, o => s.pwrWord (8 + t) o
  | 21, o => s.ageWord t o
  | _, _ => stored

/-- Registers of Well pages that are not stored (R368). -/
def State.wellWord (s : State) (n key page off : Nat) : Nat :=
  let x := s.well n
  match key, off with
  | 24, 0x100 => x.state
  | 24, 0x104 => x.spare
  | 24, 0x108 => x.retired
  | 24, 0x10C => s.wear n true * 65536 + s.wear n false
  | 19, o => s.clkWord (80 + n) o
  | 20, o => s.pwrWord (80 + n) o
  | _, _ => (s.reg (80 + n) page off).toNat

/-- The named fields of a block register, those of sensors and PV bits apart. -/
def State.fieldWord (s : State) (req : Requester) (die page off : Nat) : Nat :=
  let key := tableKey die page
  let g := regGroup key off
  if isStat key off then
    (if key = 12 ∧ s.boot.ready = false then 0 else (s.page die page).seq * 0x1000000 + (s.page die page).sqWord off)
  else if die = 120 then s.modWord page g.1 g.2
  else if die < 8 then s.whWord req die key page g.1 g.2
  else if die < 80 then s.tilWord (die - 8) key page g.1 g.2
  else s.wellWord (die - 80) key page off

/-! ### Indirect spaces (R81, R137, R176, R343, R402, R453, R489, R506, R529) -/

/-- Words of a page's indirect space (PG_CAPS). -/
def indWords (die page : Nat) : Nat :=
  match pageType die page with
  | 2 => 32
  | 11 => 425984
  | 26 => 72
  | 8 => if die < 8 then 1024 else 0
  | 15 => if die < 8 then 128 else 32
  | 16 => 32
  | 21 => 16
  | 23 => 256
  | _ => 0

/-- A word of a Tiller's capability record (R137). -/
def State.capWord (s : State) (t a : Nat) : Nat :=
  let r := s.tiller t
  match a with
  | 0 => t * 0x1000000 + (match r.pad with | none => 255 | some p => p) * 65536 + s.tillerPoint t * 256 + r.role.code
  | 1 => s.til.capGen
  | 2 => (List.range 96).foldl (fun n i => n + 64 * (r.array i).pubWidth) 0
  | 3 => r.live
  | n =>
    if n < 28 then [0, 1, 2, 3].foldl (fun v k => v + (r.array (4 * (n - 4) + k)).pubWidth * 256 ^ k) 0 else 0

/-- What a word of a TMG page's indirect space names: a meter (0) or shaper (1), its key, word, and subscriber. -/
def tmgEntry (a : Nat) : Nat × Nat × Nat × Nat :=
  if a < 131072 then (0, a / 8, a % 8, a / 32)
  else if a < 163840 then (0, aggKey ((a - 131072) / 8), a % 8, (a - 131072) / 8)
  else (1, (a - 163840) / 4, a % 4, (a - 163840) / 64)

/-- A word as last written, staged or in force (R81, R82). -/
def stagedWord (w : List Word) (staged : Tbl Word) (i : Nat) : Nat :=
  match Tbl.look staged i with
  | some v => v.toNat
  | none => entryWord w i

/-- A TMG page's indirect word. -/
def State.tmgWord (s : State) (w a : Nat) : Nat :=
  let e := tmgEntry a
  if s.sliceWh e.2.2.2 ≠ w then 0
  else if e.1 = 0 then stagedWord (s.meter e.2.1).w (s.meter e.2.1).staged e.2.2.1
  else stagedWord (s.shaper e.2.1).w (s.shaper e.2.1).staged e.2.2.1

/-- The indirect word of a page at a word address, and the state after the read: an ageing monitor's slack is a free value. -/
def State.indWord (s : State) (die page a : Nat) : Nat × State :=
  match pageType die page with
  | 2 => (s.capWord (die - 8) a, s)
  | 11 => (s.tmgWord die a, s)
  | 26 => (s.routeEntry (dieSite die) a, s)
  | 8 => (if s.whOf (a % 4) = die ∧ (s.plan a).isSome then (match Tbl.look s.cis.thrStaged a with
      | some v => v.toNat
      | none => s.thr a) else 0, s)
  | 15 =>
    let c := Tbl.val {} s.sip (die * 64 + a / 2)
    (if a % 2 = 1 then c.prio else if die < 8 then 0 else c.base, s)
  | 16 => ((s.chkUnit (4 * die + a / 8)).paramWord (a % 8), s)
  | 21 =>
    let r := s.drawWord
    (r.1.toNat % 65536, r.2)
  | 23 => (s.dbg.claims.getD a 0, s)
  | _ => (0, s)

/-! ### Wide values (R454 to R456) -/

/-- Index bits that the kinds of a page name, and the number of their values (R454). -/
def mboxRange (key kind : Nat) : Nat :=
  match key, kind with
  | 3, k => if k ≤ 3 then 8 else 0
  | 4, k => if k ≤ 3 then 1 else 0
  | 26, k => if k ≤ 3 then 5 else 0
  | 0x103, k => if k ≤ 5 then 16 else 0
  | 5, k => if k ≤ 4 then 1 else 0
  | 6, k => if k ≤ 3 then 1 else 0
  | 10, k => if k ≤ 5 then 4 else 0
  | 7, k => if k ≤ 4 then 1 else 0
  | 9, k => if k ≤ 5 then 1 else if k ≤ 7 then 32 else 0
  | 8, k => if k ≤ 4 then 1 else 0
  | 24, k => if k ≤ 5 then 1 else 0
  | 25, k => if k ≤ 4 then 1 else 0
  | 14, k => if k ≤ 3 then 1 else 0
  | 13, k => if k ≤ 3 then 1 else 0
  | 17, k => if k ≤ 5 then 1 else 0
  | 18, k => if k ≤ 5 then 12 else 0
  | 20, k => if k ≤ 3 then 1 else 0
  | 16, k => if k ≤ 4 then 4 else 0
  | 21, k => if k ≤ 3 then 1 else 0
  | 23, k => if k = 1 then 1 else 0
  | 22, k => if k ≤ 2 then 3 else 0
  | 0x100, k => if k = 1 then 1 else 0
  | 0x101, k => if k = 1 then 2 else 0
  | 11, 1 => 16384
  | 11, 2 => 4096
  | 11, 3 => 65536
  | _, _ => 0

/-- Values a page counts in cycles or flits, of which the model counts none, and measured energy: free values (R123, R251). -/
def mboxFree (key kind : Nat) : Bool :=
  match key, kind with
  | 3, 1 => true
  | 3, 2 => true
  | 4, 1 => true
  | 4, 2 => true
  | 26, 2 => true
  | 7, 4 => true
  | 15, 3 => true
  | 15, 4 => true
  | 20, 1 => true
  | _, _ => false

end Sys2Proof.Machine
end

