-- ==== Sys2Proof/Machine/Pages.lean ====
section
/-! DEFINITION. Reads and writes of register pages: the header of R445, requester contexts, indirect access, the wide-value mailbox,
acknowledgements, command registers, and register accesses over the fabric (R441 to R459). -/

namespace Sys2Proof.Machine

/-! ### Reads (R443 to R448, R456) -/

/-- A word whose bits in `m` are replaced by those of a live value. -/
def mixPv (w m live : Nat) : Nat := (w &&& (0xFFFFFFFF ^^^ m)) ||| (live &&& m)

/-- PV bits of the header registers (R445); a register of WO and PV fields reads 0. -/
def headerPv (off : Nat) : Nat :=
  match off with
  | 0x000 => 0x7F000000
  | 0x004 => 0xFFFF0000
  | 0x008 => 0xFF000000
  | 0x00C => 0xFFFFFFFE
  | 0x010 => 0x00FFFFF8
  | 0x018 => 0x0000FF00
  | 0x020 => 0xFC000000
  | 0x02C => 0x3FFFFFFE
  | 0x040 => 0x7FFFFC00
  | _ => 0

/-- PG_ID without its PV bits (R445 to R447). -/
def pgId (off : Bool) (die page : Nat) : Nat :=
  b2n off * 0x80000000 + die * 65536 + pageType die page * 256 + pageInstance die page

/-- The requester's context of a page. -/
def State.ctxOf (s : State) (req : Requester) (die page : Nat) : Ctx := (s.page die page).ctx req

/-- Replace the requester's context of a page. -/
def State.setCtx (s : State) (req : Requester) (die page : Nat) (c : Ctx) : State :=
  s.setPage die page ((s.page die page).setCtx req c)

/-- A header register without its PV bits; PG_IND_DATA apart. -/
def State.headerWord (s : State) (req : Requester) (die page off : Nat) : Nat :=
  let p := s.page die page
  let c := p.ctx req
  match off with
  | 0x000 => pgId false die page
  | 0x004 => 0x0100
  | 0x008 => indWords die page
  | 0x00C => b2n p.errFreeze
  | 0x010 => p.statWord
  | 0x018 => p.errWord
  | 0x020 => c.indAddr * 4
  | 0x028 => c.mboxSel.toNat
  | 0x02C => b2n c.valid * 0x80000000 + b2n c.badSel * 0x40000000
  | 0x030 => c.d0.toNat
  | 0x034 => c.d1.toNat
  | 0x038 => c.d2.toNat
  | 0x03C => c.d3.toNat
  | _ => 0

/-- The word after the one at an indirect address (R453). -/
def nextInd (n a : Nat) : Nat := if a + 1 < n then a + 1 else 0

/-- A read of PG_IND_DATA (R453); `act` says that the read has its side effects (R458). -/
def State.indRead (s : State) (req : Requester) (die page : Nat) (act : Bool) : Nat × State :=
  let n := indWords die page
  if n = 0 then (0, if act then s.err die page 0xFD else s)
  else
    let c := s.ctxOf req die page
    let r := s.indWord die page c.indAddr
    let t := r.2
    (r.1 % 4294967296, if act then t.setCtx req die page { t.ctxOf req die page with indAddr := nextInd n c.indAddr } else t)

/-- A read of PG_MBOX_DATA3 clears valid (R454). -/
def State.data3Read (s : State) (req : Requester) (die page : Nat) (act : Bool) : Nat × State :=
  let c := s.ctxOf req die page
  (c.d3.toNat, if act then s.setCtx req die page { c with valid := false } else s)

/-- PG_GATE: whether the block's clock runs in this cycle, and its duty of the last sample, are free values. -/
def State.gateRead (s : State) : Nat × State :=
  let r := s.drawWord
  let v := r.1.toNat
  (v / 0x80000000 * 0x80000000 + v / 1024 % 0x200000 * 1024 + v % 1001, r.2)

/-- A requester's accesses are not served at all: a host port before 60 ms reads 0, and in the safe states all ones (R410, R474). -/
def State.portBlind (s : State) (req : Requester) : Option Nat :=
  match requesterPort req with
  | none => none
  | some p => if s.flt.safe then some 0xFFFFFFFF else if (s.hp p).bars && (s.hp p).pagesReady then none else some 0

/-- A read of the 32-bit register at an offset of a page (R443 to R448); `act` says that it has its side effects. PV bits and
sensor fields are free values. -/
def State.readReg (s : State) (req : Requester) (die page off : Nat) (act : Bool) : Nat × State :=
  let off := off / 4 * 4
  match s.portBlind req with
  | some v => (v, s)
  | none =>
    if !s.pageThere die page then (0, s)
    else if s.pageOff req die page && decide (8 < off) then (0, s)
    else if off = 0x024 then s.indRead req die page act
    else if off = 0x03C then s.data3Read req die page act
    else if off = 0x040 then s.gateRead
    else
      let w := if off = 0 then pgId (s.pageOff req die page) die page
        else if off < 0x100 then s.headerWord req die page off else s.fieldWord req die page off
      let m := if off < 0x100 then some (headerPv off) else (pvBits (tableKey die page) off).map (fun m =>
        m ||| sensorBits s die (tableKey die page) off)
      match m with
      | none => (0, s)
      | some 0 => (w % 4294967296, s)
      | some m =>
        let r := s.drawWord
        (mixPv (w % 4294967296) m r.1.toNat, r.2)

/-! ### The mailbox (R454 to R456) -/

/-- The 64-bit word of a signed value. -/
def signed64 (v : Int) : Nat := unsigned 64 v

/-- TMG_BUCKET (R93): none for a subscriber the slice does not own. -/
def State.bucketValue (s : State) (w kind i : Nat) : Option (Nat × Nat) :=
  if kind = 3 then
    let h := s.shaper i
    if s.sliceWh (i / 16) ≠ w then none
    else some (signed64 h.bucket, match h.due with
      | none => signed64 (-1)
      | some t => signed64 ((s.nowNs / 1000 + t : Nat) - (s.calUs w : Int)))
  else
    let sub := if kind = 1 then i / 4 else i
    let m := s.meter (if kind = 1 then i else aggKey i)
    if s.sliceWh sub ≠ w then none else some (m.tc, m.tp)

/-- Number of index values that a kind of a page takes (R454). -/
def mboxCount (die page kind : Nat) : Nat :=
  if tableKey die page = 15 then (if 4 < kind then 0 else if die < 8 then 64 else 16) else mboxRange (tableKey die page) kind

/-- The value a selector names, DATA1:DATA0 and DATA3:DATA2 (R454, R455); none where it names none. -/
def State.mboxValue (s : State) (die page kind i : Nat) : Option (Nat × Nat) × State :=
  let key := tableKey die page
  if kind = 0 then (if i = 0 then some (s.strokeN, s.nowNs) else none, s)
  else if mboxCount die page kind ≤ i then (none, s)
  else match key, kind with
    | 11, k => (s.bucketValue die k i, s)
    | 4, 3 => (some (s.wide die 13 3 i, 0), s)
    | 16, 1 => (some ((s.chkUnit (4 * die + i)).value, (s.chkUnit (4 * die + i)).payload), s)
    | 21, 3 => (some (min ((s.planner (die - 8)).duty / 20000) 0xFFFFFFFF, 0), s)
    | 20, 2 => (some (if die = s.capDie then s.pwr.energyUj / 1000 else 0, 0), s)
    | 22, k =>
      let h := if k = 1 then s.boot.fuses.fwKeyHash else s.boot.fuses.dbgKeyHash
      (some (h / 2 ^ (128 * i) % 2 ^ 64, h / 2 ^ (128 * i + 64) % 2 ^ 64), s)
    | 23, _ => (some (s.dbg.nonce.toNat % 2 ^ 64, s.dbg.nonce.toNat / 2 ^ 64), s)
    | 0x100, _ => (some (s.boot.fuses.serial, 0), s)
    | 0x101, _ => (if i = 0 then some (s.strokeN, s.time.boundNs.toNat)
        else some (match s.time.staged with | none => 0 | some v => v.toNat, 0), s)
    | 9, 7 =>
      if s.wellWh i = die ∧ 0 < s.boot.phase then
        let r := s.drawBytes 8
        (some (leNat r.1, 0), r.2)
      else (some (0, 0), s)
    | 17, 1 =>
      if (s.hp die).released then
        let r := s.drawBytes 4
        (some (min (s.wide die page 1 i + leNat r.1) 0xFFFFFFFF, 0), r.2)
      else (some (0, 0), s)
    | 18, k =>
      if (k = 1 ∨ k = 2) ∧ 0 < s.boot.phase then
        let r := s.drawBytes 4
        (some (min (s.wide die page k i + leNat r.1) 0xFFFFFFFF, 0), r.2)
      else (some (s.wide die page k i, 0), s)
    | 24, k =>
      if (k = 1 ∨ k = 2 ∨ k = 4) ∧ 0 < s.boot.phase then
        let r := s.drawBytes 4
        (some (min (s.wide die page k i + leNat r.1) 0xFFFFFFFF, 0), r.2)
      else if k = 5 ∧ 0 < s.boot.phase then
        let r := s.drawBytes 4
        (some (leNat r.1, 0), r.2)
      else (some (s.wide die page k i, 0), s)
    | _, _ =>
      if mboxFree key kind && (decide (0 < s.boot.phase) || key == 20) then
        let r := s.drawBytes 8
        (some (leNat r.1, 0), r.2)
      else (some (s.wide die page kind i, 0), s)

/-- MBOX_SNAPSHOT (R454): the value asked for is captured and valid is set; a selector that names none sets bad_sel as well, reads 0 and
is logged BAD_SELECT. -/
def mboxSnapshot (s : State) (req : Requester) (die page : Nat) : State :=
  match (s.ctxOf req die page).req with
  | none => s
  | some sel =>
    if !s.pageLive req die page then s
    else
      let r := s.mboxValue die page (sel.toNat / 0x10000000) (sel.toNat % 0x10000000)
      let c := r.2.ctxOf req die page
      match r.1 with
      | none => (r.2.setCtx req die page { c with
          valid := true, badSel := true, req := none, d0 := 0, d1 := 0, d2 := 0, d3 := 0 }).err die page 0xFB
      | some v => r.2.setCtx req die page { c with
          valid := true, badSel := false, req := none
          d0 := BitVec.ofNat 32 v.1, d1 := BitVec.ofNat 32 (v.1 / 4294967296)
          d2 := BitVec.ofNat 32 v.2, d3 := BitVec.ofNat 32 (v.2 / 4294967296) }

/-! ### Writes (R448 to R453, R457) -/

/-- A write of an indirect word (R81 to R83, R343, R402, R489). -/
def State.indWrite (s : State) (req : Requester) (die page a v : Nat) : State :=
  let w := BitVec.ofNat 32 v
  match pageType die page with
  | 11 =>
    let e := tmgEntry a
    if s.sliceWh e.2.2.2 ≠ die then s.err die page 1
    else if e.1 = 0 then
      let m := s.meter e.2.1
      s.setMeter e.2.1 { m with staged := Tbl.put m.staged e.2.2.1 w }
    else
      let h := s.shaper e.2.1
      s.setShaper e.2.1 { h with staged := Tbl.put h.staged e.2.2.1 w }
  | 8 =>
    if s.whOf (a % 4) ≠ die then s.err die page 1
    else if (s.plan a).isNone then s
    else if badThr v then s.err die page 2
    else { s with cis := { s.cis with thrStaged := Tbl.put s.cis.thrStaged a w } }
  | 15 =>
    let k := die * 64 + a / 2
    let c := Tbl.val {} s.sip k
    if requesterNum req ≠ 0 then s
    else if a % 2 = 1 then { s with sip := Tbl.set {} s.sip k { c with prio := v % 8 } }
    else if die < 8 then s
    else { s with sip := Tbl.set {} s.sip k { c with base := v } }
  | 16 => s.chkParam (4 * die + a / 8) (a % 8) v
  | _ => s

/-- A write of PG_IND_DATA (R453). -/
def State.indDataWrite (s : State) (req : Requester) (die page v : Nat) : State :=
  let n := indWords die page
  if n = 0 then s.err die page 0xFD
  else
    let a := (s.ctxOf req die page).indAddr
    let t := s.indWrite req die page a v
    t.setCtx req die page { t.ctxOf req die page with indAddr := nextInd n a }

/-- A write of a header register that reached its page. -/
def State.headerWrite (s : State) (req : Requester) (die page off v : Nat) : State :=
  let p := s.page die page
  let c := p.ctx req
  match off with
  | 0x00C => s.setPage die page { p with errFreeze := bitAt v 0 }
  | 0x010 => s.setPage die page (p.pgStatWrite (BitVec.ofNat 32 v))
  | 0x014 => s.setPage die page (p.statAck (bitsOf v 31 24))
  | 0x01C => s.setPage die page (p.errAck (bitsOf v 31 24))
  | 0x020 => s.setCtx req die page { c with indAddr := if indWords die page = 0 then 0 else bitsOf v 25 2 % indWords die page }
  | 0x024 => s.indDataWrite req die page v
  | 0x028 => s.setCtx req die page { c with mboxSel := BitVec.ofNat 32 v }
  | 0x02C => s.setCtx req die page { c with valid := false, req := if bitAt v 0 then some c.mboxSel else c.req }
  | _ => s

/-- Bits of the RW registers that are only stored: page type or MOD page, offset. -/
def rwMask (key off : Nat) : Nat :=
  match key, off with
  | 11, 0x100 => 0x1FFFF
  | 11, 0x104 => 0x3FFF
  | 4, 0x100 => 0x1FFFFFFF
  | 5, 0x100 => 0x1FFFFFFF
  | 7, 0x100 => 0x1FFFFFFF
  | 22, 0x110 => 0xFFFFFFFF
  | 22, 0x114 => 0xFFFF
  | 23, 0x10C => 0x1FFFF
  | 23, 0x110 => 0xFFFFFFFF
  | 0x101, 0x100 => 0xFFFFFFFF
  | 0x101, 0x104 => 0xFFFFFFFF
  | k, 0x100 => if 0x104 ≤ k ∧ k ≤ 0x10B then 0xFFFFFFFF else 0
  | k, 0x104 => if 0x104 ≤ k ∧ k ≤ 0x10B then 0xFFFF else 0
  | _, _ => 0

/-- A write of a command register whose op names no command (R219). -/
def State.badCommand (s : State) (req : Requester) (die page cls : Nat) : State :=
  s.gated req die page cls (fun s => s.err die page 0xFA)

/-- A write of the command register of a MOD page (R219 and the op tables it names). -/
def State.modCmd (s : State) (req : Requester) (page v : Nat) : State :=
  let bad := s.badCommand req 120 page 1
  let op2 := bitsOf v 31 30
  let op4 := bitsOf v 31 28
  match page with
  | 4 => if op2 = 1 then grammarRegister s req (v % 4096) else if op2 = 2 then grammarUnregister s req (v % 4096) else bad
  | 5 => if op2 = 1 then tokenizerRegister s req (v % 256) else if op2 = 2 then tokenizerUnregister s req (v % 256) else bad
  | 6 =>
    if op2 = 1 then sheafTableSet s req (v % 64) else if op2 = 2 then sheafTableClear s req (v % 64)
    else if op2 = 3 then sheafTableAmend s req (v % 64) else bad
  | 7 => if op2 = 1 then recipeRegister s req (v % 4096) else if op2 = 2 then recipeUnregister s req (v % 4096) else bad
  | 8 =>
    (match op4 with
     | 1 => indexOpen s req (v % 4)
     | 2 => indexWrite s req (v % 4)
     | 3 => indexSeal s req (v % 4)
     | 4 => indexActivate s req (v % 4)
     | 5 => indexLoad s req (v % 4)
     | 6 => indexDiscard s req (v % 4)
     | _ => bad)
  | 9 =>
    if op2 = 1 then planStage s req (v % 1024) else if op2 = 2 then planUnstage s req (v % 1024)
    else if op2 = 3 then planFlush s req (v % 1024) else bad
  | 10 =>
    (match op4 with
     | 1 => imageCreate s req (v % 65536)
     | 2 => imageWrite s req (v % 65536)
     | 3 => imageSeal s req (v % 65536)
     | 4 => imageDelete s req (v % 65536)
     | 5 => layout s req
     | _ => bad)
  | 11 => if op2 = 1 then ringCreate s req (v % 131072) else if op2 = 2 then ringDestroy s req (v % 131072) else bad
  | _ => s

/-- A write of MOD_TIME_CMD (R219, R519). -/
def State.timeCmd (s : State) (req : Requester) (v : Nat) : State :=
  match v % 4 with
  | 1 => timeStage s req
  | 2 => timeCancel s req
  | _ => s.badCommand req 120 1 3

/-- A write of FUS_CMD (R219, R516). -/
def State.fusCmd (s : State) (req : Requester) (v : Nat) : State :=
  match bitsOf v 31 28 with
  | 1 => provision s req
  | 2 => raiseLock s req (v % 256)
  | 3 => raiseSec s req (v % 256)
  | 4 => storeFw s req
  | _ => s.badCommand req 0 15 3

/-- The op of the descriptor that a unit's scan address registers name. -/
def State.scanOp (s : State) (u : Nat) : Nat :=
  let r := 0x200 + 0x40 * (u % 4)
  let a := (s.reg (u / 4) 14 (r + 0x14)).toNat / 32 * 32 + (s.reg (u / 4) 14 (r + 0x18)).toNat % 65536 * 4294967296
  fld (s.load .lpddr a 32) 5 1

/-- A write of a register of a check value unit's group (R484, R489). -/
def State.chkReg (s : State) (req : Requester) (u off v : Nat) : State :=
  let plain := s.gated req (u / 4) 14 3
  match off with
  | 0x200 => chkCfgWrite s req u v
  | 0x204 => s.chkFeed req u 1 (v % 256)
  | 0x208 => s.chkFeed req u 2 (v % 65536)
  | 0x20C => s.chkFeed req u 4 v
  | 0x210 => if bitAt v 0 then chkRestart s req u else plain (fun s => s)
  | 0x214 => plain (fun s => s.setRegN (u / 4) 14 (0x214 + 64 * (u % 4)) v)
  | 0x218 => plain (fun s => s.setRegN (u / 4) 14 (0x218 + 64 * (u % 4)) (v % 65536))
  | 0x21C => if bitAt v 0 then s.scanGo req u (s.scanOp u) else plain (fun s => s)
  | _ => plain (fun s => s)

/-- A write of a SYC page register (R391). -/
def State.sycReg (s : State) (req : Requester) (w off v : Nat) : State :=
  match off with
  | 0x100 => s.gated req w 32 3 (fun s => s.setSyc w req { s.syc w req with id := v % 131072 })
  | 0x104 => s.gated req w 32 3 (fun s => s.setSyc w req { s.syc w req with a := BitVec.ofNat 32 v })
  | 0x108 => s.gated req w 32 3 (fun s => s.setSyc w req { s.syc w req with b := BitVec.ofNat 32 v })
  | 0x10C => sycGo s req w (v % 8) 0
  | _ => s

/-- A write of a port's weights (R439): a weight of 0 is dropped and logged BAD_NODE. -/
def State.weightWrite (s : State) (w off v : Nat) : State :=
  if bitsOf v 31 24 = 0 ∨ bitsOf v 23 16 = 0 ∨ v % 256 = 0 then s.err w 33 1
  else s.setRegN w 33 off (v / 65536 * 65536 + v % 256)

/-- A write of AGE_PLAN (R506). -/
def State.agePlan (s : State) (t v : Nat) : State :=
  if bitAt v 31 = false then s
  else
    let p := s.planner t
    if p.running then s.err (8 + t) 36 1 else s.setPlanner t { p with running := true, done := false }

/-- A write of a block register other than an SQ field (R414, R415, R443, R457, R459). -/
def State.blockWrite (s : State) (req : Requester) (die page off v : Nat) : State :=
  let key := tableKey die page
  let cls := writeClass die page off false req
  let plain := s.gated req die page cls
  match key, off with
  | 0x101, 0x108 => s.timeCmd req v
  | 17, 0x104 => hptWinWrite s req die v
  | 18, o =>
    if o = 0x100 ∨ o = 0x104 then plain (fun s => s.pairCtlWrite (2 * die + (o - 0x100) / 4) v)
    else if (regGroup 18 o).1 = 0x208 then plain (fun s => s.weightWrite die o v)
    else plain (fun s => s)
  | 19, 0x108 => clkMuxSwitch s req die v
  | 19, 0x110 => clkDomReset s req die v
  | 20, o => plain (fun s => s.pwrWrite die o v)
  | 16, o => s.chkReg req (4 * die + (regGroup 16 o).2) (regGroup 16 o).1 v
  | 14, o => s.sycReg req die o v
  | 21, 0x104 => plain (fun s => s.agePlan (die - 8) v)
  | 22, 0x120 => s.fusCmd req v
  | 5, 0x100 => plain (fun s => s.winListWrite (die - 8) (v % 0x20000000))
  | 7, 0x100 => plain (fun s => s.sheafListWrite die (v % 0x20000000))
  | 23, 0x114 => if bitAt v 0 then dbgClaimForce s req else plain (fun s => s)
  | 23, 0x120 => if v % 4 = 1 then dbgReset s req else if v % 4 = 2 then shutdown s req else s.badCommand req 0 16 3
  | 23, 0x128 => dbgClaimScan s req v
  | 0x109, 0x110 => cisHostWrite s req v
  | 0x10D, 0x100 => Sys2Proof.Machine.nodeWrite s req v
  | k, o =>
    if 0x104 ≤ k ∧ k ≤ 0x10B ∧ o = 0x108 then s.modCmd req page v
    else
      let m := rwMask k o
      plain (fun s => if m = 0 then s else s.setRegN die page o (v &&& m))

/-- A page has a register at a word offset: one of its header, or one of its block (R443, R445). -/
def regThere (die page off : Nat) : Bool :=
  decide (off / 4 * 4 < 0x44) || (decide (0x100 ≤ off) && (pvBits (tableKey die page) (off / 4 * 4)).isSome)

/-- A write of the 32-bit register at an offset of a page; one where no register stands is dropped, and nothing is logged (R443). -/
def State.writeReg (s : State) (req : Requester) (die page off v : Nat) : State :=
  let off := off / 4 * 4
  let v := v % 4294967296
  if regThere die page off = false then s
  else if off < 0x100 then s.gated req die page (writeClass die page off false req) (fun s => s.headerWrite req die page off v)
  else if isStat (tableKey die page) off then
    s.gated req die page 0 (fun s => s.setPage die page ((s.page die page).sqWrite off (BitVec.ofNat 32 v)))
  else s.blockWrite req die page off v

/-- A write whose byte enables do not cover the whole word is dropped and logged BAD_WIDTH (R444). -/
def State.writeBytesOf (s : State) (req : Requester) (die page off be v : Nat) : State :=
  if be % 16 = 15 then s.writeReg req die page off v
  else if regThere die page off then s.gated req die page 0 (fun s => s.err die page 0xFC)
  else s

/-! ### The page rows: a page operand is its key, die × 256 + page -/

/-- PG_STAT_ACK (R450). -/
def pgStatAck (s : State) (req : Requester) (pk v : Nat) : State := s.writeReg req (pk / 256) (pk % 256) 0x014 v

/-- SQ_FIELD_WRITE (R450): PG_STAT or a block register that holds SQ fields. -/
def sqFieldWrite (s : State) (req : Requester) (pk off v : Nat) : State :=
  if off = 0x010 ∨ isStat (tableKey (pk / 256) (pk % 256)) off = true then s.writeReg req (pk / 256) (pk % 256) off v else s

/-- PG_ERR_ACK (R451). -/
def pgErrAck (s : State) (req : Requester) (pk v : Nat) : State := s.writeReg req (pk / 256) (pk % 256) 0x01C v

/-- PG_IND_ADDR_WRITE (R453). -/
def pgIndAddrWrite (s : State) (req : Requester) (pk v : Nat) : State := s.writeReg req (pk / 256) (pk % 256) 0x020 v

/-- A read answered to its reader. -/
def State.answerReg (s : State) (req : Requester) (die page off : Nat) (act : Bool) : State :=
  let r := s.readReg req die page off act
  r.2.answer r.1

/-- PG_IND_DATA_READ (R453). -/
def pgIndDataRead (s : State) (req : Requester) (pk : Nat) : State := s.answerReg req (pk / 256) (pk % 256) 0x024 true

/-- PG_IND_DATA_WRITE (R453). -/
def pgIndDataWrite (s : State) (req : Requester) (pk v : Nat) : State := s.writeReg req (pk / 256) (pk % 256) 0x024 v

/-- PG_MBOX_REQ (R454): a write of PG_MBOX_CTL. -/
def pgMboxReq (s : State) (req : Requester) (pk v : Nat) : State := s.writeReg req (pk / 256) (pk % 256) 0x02C v

/-- PG_MBOX_DATA3_READ (R454). -/
def pgMboxData3Read (s : State) (req : Requester) (pk : Nat) : State := s.answerReg req (pk / 256) (pk % 256) 0x03C true

/-- REGISTER_WRITE (R444, R457). -/
def registerWrite (s : State) (req : Requester) (pk off be v : Nat) : State :=
  if 4096 ≤ off then s else s.writeBytesOf req (pk / 256) (pk % 256) off be v

/-! ### Register accesses over the fabric (R164, R165, R444) -/

/-- REG_REQ (R444): the access reaches the page its address names, and the answer leaves on vc 1. -/
def regReq (s : State) (p : Packet) (req : Requester) (write : Bool) (v : Nat) : State :=
  s.arrive p 6 (fun s =>
    let a := p.addr + p.headSkip
    let die := a / 0x100000
    let page := a / 0x1000 % 256
    let r := if write then (0, s.writeReg req die page (a % 0x1000) v) else s.readReg req die page (a % 0x1000) true
    r.2.inject (responseOf p 7 (leBytes 4 r.1 ++ leBytes 12 0)))

/-- REG_RESP (R444): the answer reaches the requester. -/
def regResp (s : State) (p : Packet) : State := s.arrive p 7 (fun s => s.answer (fld p.payload 0 4))

/-! ### Meanings -/

/-- REG_REQ. -/
def execRegReq (p : Packet) (req : Requester) (write : Bool) (v : Word) (s : State) : Host.Outcome State Fault Refusal :=
  .next (regReq s p req write v.toNat)
/-- REG_RESP. -/
def execRegResp (p : Packet) (s : State) : Host.Outcome State Fault Refusal := .next (regResp s p)
/-- PG_STAT_ACK. -/
def execPgStatAck (req : Requester) (pk : Nat) (v : Word) (s : State) : Host.Outcome State Fault Refusal :=
  .next (pgStatAck s req pk v.toNat)
/-- SQ_FIELD_WRITE. -/
def execSqFieldWrite (req : Requester) (pk off : Nat) (v : Word) (s : State) : Host.Outcome State Fault Refusal :=
  .next (sqFieldWrite s req pk off v.toNat)
/-- PG_ERR_ACK. -/
def execPgErrAck (req : Requester) (pk : Nat) (v : Word) (s : State) : Host.Outcome State Fault Refusal :=
  .next (pgErrAck s req pk v.toNat)
/-- PG_IND_ADDR_WRITE. -/
def execPgIndAddrWrite (req : Requester) (pk : Nat) (v : Word) (s : State) : Host.Outcome State Fault Refusal :=
  .next (pgIndAddrWrite s req pk v.toNat)
/-- PG_IND_DATA_READ. -/
def execPgIndDataRead (req : Requester) (pk : Nat) (s : State) : Host.Outcome State Fault Refusal :=
  .next (pgIndDataRead s req pk)
/-- PG_IND_DATA_WRITE. -/
def execPgIndDataWrite (req : Requester) (pk : Nat) (v : Word) (s : State) : Host.Outcome State Fault Refusal :=
  .next (pgIndDataWrite s req pk v.toNat)
/-- PG_MBOX_REQ. -/
def execPgMboxReq (req : Requester) (pk : Nat) (v : Word) (s : State) : Host.Outcome State Fault Refusal :=
  .next (pgMboxReq s req pk v.toNat)
/-- MBOX_SNAPSHOT. -/
def execMboxSnapshot (req : Requester) (pk : Nat) (s : State) : Host.Outcome State Fault Refusal :=
  .next (mboxSnapshot s req (pk / 256) (pk % 256))
/-- PG_MBOX_DATA3_READ. -/
def execPgMboxData3Read (req : Requester) (pk : Nat) (s : State) : Host.Outcome State Fault Refusal :=
  .next (pgMboxData3Read s req pk)
/-- REGISTER_WRITE. -/
def execRegisterWrite (req : Requester) (pk off be : Nat) (v : Word) (s : State) : Host.Outcome State Fault Refusal :=
  .next (registerWrite s req pk off be v.toNat)

end Sys2Proof.Machine
end

