-- ==== Sys2Proof/Machine/Siphon.lean ====
section
/-! DEFINITION. Siphon DMA: descriptors, their checks, the transfer of lines and its completion (R393 to R402). -/

namespace Sys2Proof.Machine

/-! ### The descriptor (R394) -/

/-- done_kind: 0 COUNTER, 1 START, 2 BOTH. -/
def sipKind (d : List Byte) : Nat := fld d 5 1 / 64
/-- src_space; 15 is END. -/
def sipSrcSpace (d : List Byte) : Nat := fld d 6 1
/-- dst_space. -/
def sipDstSpace (d : List Byte) : Nat := fld d 7 1
/-- The array a START names. -/
def sipArray (d : List Byte) : Nat := fld d 0x32 1
/-- The Tiller a START names. -/
def sipTiller (d : List Byte) : Nat := fld d 0x33 1
/-- wait_ctr. -/
def sipWait (d : List Byte) : Nat := fld d 0x34 4
/-- done_ctr. -/
def sipDone (d : List Byte) : Nat := fld d 0x3C 4

/-- One side's space code; the source is side false, the destination side true. -/
def sideSpace (dst : Bool) (d : List Byte) : Nat := if dst then sipDstSpace d else sipSrcSpace d
/-- One side's address. -/
def sideAddr (dst : Bool) (d : List Byte) : Nat := fld d (if dst then 0x10 else 8) 6
/-- One side's Tiller. -/
def sideTiller (dst : Bool) (d : List Byte) : Nat := fld d (if dst then 0x16 else 0xE) 1
/-- One side's bytes per line. -/
def sideLine (dst : Bool) (d : List Byte) : Nat := fld d (if dst then 0x24 else 0x18) 4
/-- One side's signed stride. -/
def sideStride (dst : Bool) (d : List Byte) : Int := signed 32 (fld d (if dst then 0x28 else 0x1C) 4)
/-- One side's line count. -/
def sideLines (dst : Bool) (d : List Byte) : Nat := fld d (if dst then 0x2C else 0x20) 4
/-- log2 of one side's width. -/
def sideLog (dst : Bool) (d : List Byte) : Nat := if dst then fld d 0x30 1 / 16 else fld d 0x30 1 % 16

/-- Address of one side's line `i` (R396). -/
def sideAt (dst : Bool) (d : List Byte) (i : Nat) : Int := (sideAddr dst d : Int) + sideStride dst d * (i : Int)

/-- The addresses of one side's lines. -/
def sideAts (dst : Bool) (d : List Byte) : List Nat := (List.range (sideLines dst d)).map (fun i => (sideAt dst d i).toNat)

/-! ### Checks (R395 to R398) -/

/-- A space that the engine of a die may name (R395). -/
def sipSpaceOk (die sp : Nat) : Bool :=
  if 8 ≤ die then decide (sp ≤ 2) else sp == 1 || sp == 3 || sp == 4 || sp == 5 || sp == 6

/-- Bytes of a space with a bound; none for job and host addresses. -/
def sipSpaceSize (sp : Nat) : Option Nat :=
  match sp with
  | 0 => some sramBytes
  | 1 => some sramBytes
  | 3 => some 4398046511104
  | 6 => some 0x8000000
  | _ => none

/-- A side's lines lie in its space, and its Tiller is in service (R398 code 0x06). A line's addresses rise or fall by one stride, so
that its first and last lines bound them all. -/
def State.sideAddrOk (s : State) (dst : Bool) (d : List Byte) : Bool :=
  let a := sideAt dst d 0
  let b := sideAt dst d (sideLines dst d - 1)
  (sideSpace dst d ≠ 1 || (decide (sideTiller dst d < 68) && decide ((s.tiller (sideTiller dst d)).role = .inService))) &&
  decide (0 ≤ min a b) &&
  (match sipSpaceSize (sideSpace dst d) with
   | none => true
   | some n => decide (max a b + (sideLine dst d : Int) ≤ (n : Int)))

/-- A side obeys strict mode (R397). -/
def sideAligned (dst : Bool) (d : List Byte) : Bool :=
  let w := 2 ^ sideLog dst d
  decide (sideAddr dst d % w = 0) && decide (sideStride dst d % (w : Int) = 0) && decide (sideLine dst d % w = 0)

/-- The shape of a side alone (R394, R396). -/
def sideShapeOk (dst : Bool) (d : List Byte) : Bool :=
  let n := sideLine dst d
  let l := sideLines dst d
  decide (1 ≤ n ∧ n ≤ 16777216) && decide (1 ≤ l ∧ l ≤ 16777216) && decide (n % 2 ^ sideLog dst d = 0)

/-- A START names its own Tiller's SRAM as the destination (R399). -/
def startSpaceOk (die : Nat) (d : List Byte) : Bool :=
  sipKind d == 0 || (if sipDstSpace d = 0 then decide (die = 8 + sipTiller d)
    else decide (sipDstSpace d = 1) && decide (sideTiller true d = sipTiller d))

/-- A channel of a die is in strict mode (R397). -/
def State.sipStrict (s : State) (die : Nat) : Bool :=
  !s.boot.ready || (decide (8 ≤ die) && s.pad.quars.any (fun q => decide (q.tiller = die - 8)))

/-- The checks of R398 up to BAD_ADDR: 0 when all pass. -/
def State.sipCheck (s : State) (die : Nat) (d : List Byte) : Nat :=
  if !crcOk d then 1
  else if fld d 4 1 ≠ 1 ∨ sipKind d = 3 ∨ fld d 5 1 % 64 ≠ 0 ∨ fld d 0x31 1 ≠ 0 ∨ fld d 0xF 1 ≠ 0 ∨ fld d 0x17 1 ≠ 0 ∨
      ctrFieldOk (sipWait d) = false ∨ ctrFieldOk (sipDone d) = false ∨ 6 < sideLog false d ∨ 6 < sideLog true d then 2
  else if !(sipSpaceOk die (sipSrcSpace d) && sipSpaceOk die (sipDstSpace d)) || !startSpaceOk die d ||
      (decide (sipSrcSpace d = 6) && decide (sideLog false d ≠ 2)) ||
      (decide (sipDstSpace d = 6) && decide (sideLog true d ≠ 2)) then 3
  else if !(sideShapeOk false d && sideShapeOk true d) ||
      decide (sideLine false d * sideLines false d ≠ sideLine true d * sideLines true d) ||
      decide (2 ^ 40 < sideLine false d * sideLines false d) then 4
  else if s.sipStrict die && !(sideAligned false d && sideAligned true d) then 5
  else if !(s.sideAddrOk false d && s.sideAddrOk true d) then 6
  else 0

/-- A START may be given: the array is IDLE, or retired with its list run by another, and its Tiller is of the paddock of the running
job (R134, R136, R398 code 0x07). -/
def State.startOk (s : State) (die : Nat) (d : List Byte) : Bool :=
  sipKind d == 0 ||
    (let t := sipTiller d
     decide (sipArray d < 96) && decide (t < 68) && !(s.ranksOf t).isEmpty &&
       (decide (die < 8) || decide ((s.tiller t).pad = (s.tiller (die - 8)).pad)) &&
       (let x := (s.tiller t).array (sipArray d)
        x.state == 0 || (x.retired && ((s.tiller t).runner (sipArray d)).isSome)))

/-! ### Moving lines (R396) -/

/-- The number of a line of register words. -/
def regWords (a n : Nat) : List Nat := (List.range ((n + 3) / 4)).map (fun i => a + 4 * i)

/-- Read one line of a side. -/
def State.sideRead (s : State) (die job : Nat) (d : List Byte) (a : Nat) : List Byte × State :=
  let n := sideLine false d
  match sipSrcSpace d with
  | 0 => (s.sram (die - 8) a n, s)
  | 1 => (s.sram (sideTiller false d) a n, s)
  | 2 => (s.vaRead job a n, s.touchRange die job a n false)
  | 3 => (s.load .lpddr a n, s)
  | 6 => (regWords a n).foldl (fun (r : List Byte × State) w =>
      let v := r.2.readReg .pumphouse (w / 0x100000) (w / 0x1000 % 256) (w % 0x1000) true
      (r.1 ++ leBytes 4 v.1, v.2)) ([], s)
  | sp => (s.load (.host (sp - 4)) a n, s.bumpWide (sp - 4) 13 3 0 n)

/-- Write one line of a side that is not another Tiller's SRAM. -/
def State.sideWrite (s : State) (die job : Nat) (d : List Byte) (a : Nat) (bs : List Byte) : State :=
  match sipDstSpace d with
  | 0 => s.sramWrite (die - 8) a bs
  | 2 => s.vaWrite die job a bs
  | 3 => s.store .lpddr a bs
  | 6 => ((regWords a bs.length).foldl (fun (r : List Byte × State) w =>
      (r.1.drop 4, r.2.writeReg .pumphouse (w / 0x100000) (w / 0x1000 % 256) (w % 0x1000) (leNat (r.1.take 4)))) (bs, s)).2
  | sp => s.hostWrite (sp - 4) a bs

/-- Both sides name one memory and some source line meets some destination line: what the buffer has read by the time a byte is
overwritten the spec does not say. -/
def sidesMeet (d : List Byte) : Bool :=
  decide (sipSrcSpace d = sipDstSpace d) && (decide (sipSrcSpace d ≠ 1) || decide (sideTiller false d = sideTiller true d)) &&
    (sideAts false d).any (fun a => (sideAts true d).any (fun b =>
      decide (a < b + sideLine true d) && decide (b < a + sideLine false d)))

/-- The fabric carries read requests and data between two dies now: neither way is UNREACHABLE, nor stopped by a link that is down
(R169, R174). -/
def State.fabricOpen (s : State) (a b : Nat) : Bool :=
  let x := dieSite a
  let y := dieSite b
  !s.unreach x y && !s.unreach y x && (s.stuckAt (s.routed (packetHead a b 1 0 0))).isNone &&
    (s.stuckAt (s.routed (packetHead b a 2 1 0))).isNone

/-- Every line of the source can be read now: host memory (R412), another Tiller's SRAM over the fabric. -/
def State.sideReady (s : State) (die : Nat) (d : List Byte) : Bool :=
  if sipSrcSpace d = 4 ∨ sipSrcSpace d = 5 then (sideAts false d).all (fun a => (s.hp (sipSrcSpace d - 4)).readOk a)
  else sipSrcSpace d != 1 || s.fabricOpen die (8 + sideTiller false d)

/-- The stream of the source side, and the state after the reads; what the engine wrote earlier to the Tiller it reads is there
first (R170). -/
def State.sipStream (s : State) (die job : Nat) (d : List Byte) : List Byte × State :=
  let s := if sipSrcSpace d = 1 then s.commitFlow (dieSite die) (dieSite (8 + sideTiller false d)) 0 else s
  let r := (sideAts false d).foldl (fun (r : List Byte × State) a =>
    let x := r.2.sideRead die job d a
    (r.1 ++ x.1, x.2)) ([], s)
  if sidesMeet d then r.2.drawBytes r.1.length else r

/-- The lines of the destination side with their bytes of a stream, in order. -/
def sideRuns (d : List Byte) (bs : List Byte) : List (Nat × List Byte) :=
  (sideAts true d).zipIdx.map (fun e => (e.1, (bs.drop (e.2 * sideLine true d)).take (sideLine true d)))

/-- Lay a stream into the lines of the destination side, in order; for another Tiller they leave as one transfer (R165). -/
def State.sipLay (s : State) (die job : Nat) (d : List Byte) (bs : List Byte) : State :=
  if sipDstSpace d = 1 then s.sendRuns (packetHead die (8 + sideTiller true d) 0 0 0) 0 (sideRuns d bs)
  else (sideRuns d bs).foldl (fun s r => s.sideWrite die job d r.1 r.2) s

/-! ### Channels (R393, R398 to R402) -/

/-- The key of a channel. -/
def sipKey (die chan : Nat) : Nat := die * 64 + chan

/-- A channel. -/
def State.sipChan (s : State) (die chan : Nat) : SipChan := Tbl.val {} s.sip (sipKey die chan)

/-- Replace a channel. -/
def State.setSip (s : State) (die chan : Nat) (c : SipChan) : State :=
  { s with sip := Tbl.set {} s.sip (sipKey die chan) c }

/-- The engine of a die has the channel and runs (R393). -/
def State.sipThere (s : State) (die chan : Nat) : Bool :=
  if die < 4 then decide (chan < 64) && !s.flt.failedWh.contains die
  else decide (8 ≤ die) && decide (die < 76) && decide (chan < 16) && decide ((s.tiller (die - 8)).role ≠ .retired)

/-- The next descriptor of a channel that runs none: of a Tiller from its list, of a Wellhead the one firmware feeds. -/
def State.sipNext (s : State) (die chan : Nat) (fed : List Byte) : Option (Nat × List Byte) :=
  let c := s.sipChan die chan
  if !s.sipThere die chan || c.moved.isSome then none
  else if die < 4 then (if fed.length = 64 then some (0, fed) else none)
  else c.at_.map (fun a => (a, s.sram (die - 8) a 64))

/-- The channel goes past a descriptor of its list. -/
def State.sipTook (s : State) (die chan a : Nat) : State :=
  if die < 4 then s else s.setSip die chan { s.sipChan die chan with at_ := some (a + 64) }

/-- The log of a refusal (R398); a fed descriptor has no list address: a free value. -/
def State.sipLog (s : State) (die chan a code : Nat) (bits : List Nat) : State :=
  let r := s.drawWord
  let s := if die < 4 then r.2 else s
  ((s.setRegN die 30 0x110 (if die < 4 then r.1.toNat else a)).setRegN die 30 0x114 chan).event die 30 bits [code]

/-- A refused descriptor (R398): logged, and done_ctr advances all the same. -/
def State.sipRefuse (s : State) (die chan a code : Nat) (d : List Byte) : State :=
  let s := ((s.sipTook die chan a).bump die 30 0x10C 1).sipLog die chan a code
    (sqBit 0x118 0 :: ((if code = 5 then [sqBit 0x118 1] else []) ++ (if code = 7 then [sqBit 0x118 2] else [])))
  s.advanceFld (sipDone d) 1

/-- An END (R394). -/
def sipIsEnd (d : List Byte) : Bool := crcOk d && sipSrcSpace d == 15

/-- SIPHON_TRANSFER (R396 to R398). -/
def siphonTransfer (s : State) (die chan : Nat) (fed : List Byte) : State :=
  match s.sipNext die chan fed with
  | none => s
  | some (a, d) =>
    if sipIsEnd d then s
    else
      let code := s.sipCheck die d
      let p : Park := { unit := .siphon die chan, ctr := sipWait d % 0x20000, thr := fld d 0x38 4 }
      if code ≠ 0 then s.sipRefuse die chan a code d
      else if !s.startOk die d then s.sipRefuse die chan a 7 d
      else if bitAt (sipWait d) 31 && !s.waitMet p then s
      else if !s.sideReady die d then s
      else
        let job := if die < 4 then 0 else s.jobOn (die - 8)
        let s := (s.waitUsed (sipWait d) p).sipTook die chan a
        let s := s.setSip die chan { s.sipChan die chan with job := job, moved := some d, addr := a }
        let r := s.sipStream die job d
        let s := r.2.sipLay die job d r.1
        (s.bumpWide die 30 1 chan r.1.length).bumpWide die 30 2 chan r.1.length

/-- SIPHON_END (R394): the channel stops until its next list. -/
def siphonEnd (s : State) (die chan : Nat) (fed : List Byte) : State :=
  match s.sipNext die chan fed with
  | none => s
  | some (_, d) => if sipIsEnd d then s.setSip die chan { s.sipChan die chan with at_ := none } else s

/-- Every byte a transfer sent to another Tiller has been committed. -/
def State.sipLanded (s : State) (die : Nat) (d : List Byte) : Bool :=
  decide (sipDstSpace d ≠ 1) || s.rhz.flight.all (fun p => !(decide (p.kind = 0) && decide (p.vc = 0) &&
    decide (p.src = dieSite die) && decide (p.dst = dieSite (8 + sideTiller true d))))

/-- The START of a completed transfer hands its array the list at the destination; one whose array is no longer IDLE is refused (R398,
R399). -/
def State.sipStart (s : State) (die chan : Nat) (d : List Byte) : State :=
  let t := sipTiller d
  if sipKind d = 0 then s
  else if s.startOk die d then s.giveList t (s.jobOn t) ((s.ranksOf t).headD 0) (sipArray d) (sideAddr true d)
  else s.sipLog die chan (s.sipChan die chan).addr 7 [sqBit 0x118 2]

/-- SIPHON_COMPLETE (R399). -/
def siphonComplete (s : State) (die chan : Nat) : State :=
  let c := s.sipChan die chan
  match c.moved with
  | none => s
  | some d =>
    if !s.sipThere die chan || !s.sipLanded die d then s
    else
      let s := (s.setSip die chan { c with moved := none }).bump die 30 0x108 1
      let s := s.sipStart die chan d
      if sipKind d = 1 then s else s.advanceFld (sipDone d) 1

/-! ### Meanings -/

/-- SIPHON_TRANSFER. -/
def execSiphonTransfer (die chan : Nat) (fed : List Byte) (s : State) : Host.Outcome State Fault Refusal :=
  .next (siphonTransfer s die chan fed)
/-- SIPHON_END. -/
def execSiphonEnd (die chan : Nat) (fed : List Byte) (s : State) : Host.Outcome State Fault Refusal :=
  .next (siphonEnd s die chan fed)
/-- SIPHON_COMPLETE. -/
def execSiphonComplete (die chan : Nat) (s : State) : Host.Outcome State Fault Refusal := .next (siphonComplete s die chan)

end Sys2Proof.Machine
end

