-- ==== Sys2Proof/Machine/Probe.lean ====
section
/-! DEFINITION. The debug port's TAP and its lock levels, the Debug Module behind DMI, and the management endpoint (R522 to R525, R531,
R532). The DTMCS and DMI layouts are those of RISC-V Debug Specification 1.0 (PRESUMED). -/

namespace Sys2Proof.Machine

/-! ### Lock levels (R523) -/

/-- BYPASS, and an instruction the lock level denies: the 1-bit register captures 0. -/
def State.tapBypassed (s : State) : State := if s.tapLive then s.answer 0 else s

/-- Run a TAP instruction that the lock level permits; else it acts as BYPASS (R522). -/
def State.tapIf (s : State) (ok : Bool) (f : State → State) : State := if s.tapLive && ok then f s else s.tapBypassed

/-- UNLOCK is reached: at OPEN and CHALLENGE. -/
def State.unlockReached (s : State) : Bool := decide (s.boot.lock ≤ 1)

/-- REGACC reaches a page at the lock level (R523). -/
def State.regReached (s : State) (die page : Nat) : Bool :=
  s.portOpen || pageType die page == 0x13 || pageType die page == 0x14 || (pageType die page == 0x17 && decide (s.boot.lock = 1))

/-! ### TAP instructions (R522) -/

/-- IDCODE: silicon revision and manufacturer code are the part's own. -/
def tapIdcode (s : State) : State :=
  if s.tapLive then
    let v := Config.idcode.toNat
    s.answer (v / 0x10000000 * 0x10000000 + 0x0640 * 4096 + v / 2 % 2048 * 2 + 1)
  else s

/-- SAMPLE/PRELOAD: the pins are captured, free values, and the update stage is loaded. -/
def tapSamplePreload (s : State) (pins : List Bool) : State :=
  if s.tapLive then
    let r := s.drawBytes (ceilDiv pins.length 8)
    ({ r.2 with dbg := { r.2.dbg with cells := pins } } : State).answer (leNat r.1 % 2 ^ pins.length)
  else s

/-- EXTEST: allowed only while DBG_RESET_STATE reads SHUT; leaving it starts a restart. -/
def tapExtest (s : State) (pins : List Bool) (leave : Bool) : State :=
  if leave then
    (if s.dbg.extest then ({ s with dbg := { s.dbg with extest := false } } : State).askRestart else s)
  else s.tapIf (s.portOpen && decide (s.boot.resetState = 2)) (fun s =>
    { s with dbg := { s.dbg with extest := true, cells := pins } })

/-- DTMCS: version 1, 7 address bits, no error, no idle cycle needed. Its resets leave nothing to reset here. -/
def tapDtmcs (s : State) : State := s.tapIf s.portOpen (fun s => s.answer 0x71)

/-- REGACC (R458, R522): the scan returns what the previous access left, data above its status; a denied access changes no register. -/
def tapRegacc (s : State) (act write : Bool) (off v : Nat) : State :=
  if s.tapLive = false then s
  else
    let s := s.answer (s.dbg.regData.toNat * 4 + s.dbg.regStat)
    let die := off / 0x100000
    let page := off / 0x1000 % 256
    if s.regReached die page = false then { s with dbg := { s.dbg with regStat := 2 } }
    else if write then
      let t := s.writeReg .debug die page (off % 0x1000) v
      { t with dbg := { t.dbg with regStat := 0 } }
    else
      let r := s.readReg .debug die page (off % 0x1000) act
      { r.2 with dbg := { r.2.dbg with regStat := 0, regData := BitVec.ofNat 32 r.1 } }

/-- UNLOCK succeeds (R524). -/
def State.unlockOk (s : State) (key signature : List Byte) : Bool :=
  decide (hashNum key = s.boot.fuses.dbgKeyHash) &&
    ecdsaVerify key (sha384 (leBytes 16 s.dbg.nonce.toNat ++ leBytes 8 s.boot.fuses.serial)) signature

/-- UNLOCK (R524): a failure draws a fresh nonce, and the eighth bars further attempts until power-on. -/
def tapUnlock (s : State) (key signature : List Byte) : State :=
  s.tapIf s.unlockReached (fun s =>
    if s.dbg.barred then s
    else if s.unlockOk key signature then
      ({ s with dbg := { s.dbg with unlocked := true } } : State).event 0 16 [sqBit 0x118 0] []
    else
      { s with
        freeCount := s.freeCount + 1
        dbg := { s.dbg with failures := s.dbg.failures + 1, barred := decide (8 ≤ s.dbg.failures + 1)
                            nonce := Config.freeNonce s.freeCount } })

/-! ### The Debug Module behind DMI (R525) -/

/-- The harts that dmcontrol selects: hartsello, and with hasel those of the hart array mask. -/
def State.dmSelected (s : State) : List Nat :=
  let c := s.dmWord 0x10
  let one := bitsOf c 25 16 + bitsOf c 15 6 * 1024
  (List.range 16).filter (fun h => h == one || (bitAt c 26 && bitAt (s.dmWord 0x15) h))

/-- A hart's bits of dmstatus: running, halted, unavailable, resumed, reset seen. -/
def State.dmstatus (s : State) : Nat :=
  let c := s.dmWord 0x10
  let one := bitsOf c 25 16 + bitsOf c 15 6 * 1024
  let hs := s.dmSelected
  let halted := fun (h : Nat) => s.dbg.halted.contains h
  let gone := fun (h : Nat) => !s.coreThere h
  let runs := fun (h : Nat) => s.coreThere h && !s.dbg.halted.contains h
  let reset := fun (h : Nat) => !bitAt (s.dmWord 0x101) h
  let two (f : Nat → Bool) (b : Nat) : Nat := b2n (hs.any f) * 2 ^ b + b2n (hs.all f && !hs.isEmpty) * 2 ^ (b + 1)
  3 + 0x20 + 0x80 + two halted 8 + two runs 10 + two gone 12 + b2n (decide (16 ≤ one)) * 2 ^ 14 + b2n (hs.isEmpty) * 2 ^ 15 +
    two runs 16 + two reset 18 + 2 ^ 22

/-- sbcs: version 1, 48 address bits, accesses of 32 and 64 bits. -/
def State.sbcs (s : State) : Nat := 0x20000000 + s.dmWord 0x38 % 0x200000 / 0x8000 * 0x8000 + s.dmWord 0x100 * 4096 + 48 * 32 + 12

/-- A Debug Module register as read. -/
def State.dmRead (s : State) (a : Nat) : Nat :=
  match a with
  | 0x10 => s.dmWord 0x10 % 0x8000000 / 0x40 * 0x40 + s.dmWord 0x10 % 4
  | 0x11 => s.dmstatus
  | 0x16 => 8 * 0x1000000 + s.dmWord 0x16 * 256 + 12
  | 0x38 => s.sbcs
  | 0x40 => s.dbg.halted.foldl (fun n c => n ||| 2 ^ c) 0
  | _ =>
    if (0x04 ≤ a ∧ a ≤ 0x0F) ∨ a = 0x15 ∨ (0x20 ≤ a ∧ a ≤ 0x27) ∨ a = 0x39 ∨ a = 0x3A ∨ a = 0x3C ∨ a = 0x3D then s.dmWord a else 0

/-- Two data words as one number. -/
def State.dmPair (s : State) (a : Nat) : Nat := s.dmWord a + s.dmWord (a + 1) * 4294967296

/-- Store a number in two data words. -/
def State.setDmPair (s : State) (a v : Nat) : State := (s.setDm a v).setDm (a + 1) (v / 4294967296)

/-- Put a value a read answered into data words, unless the command failed. -/
def State.dmTake (before : State) (s : State) (a n : Nat) : State :=
  if s.dmWord 0x16 ≠ before.dmWord 0x16 then s
  else match s.reply with
    | none => s
    | some v => if n = 8 then s.setDmPair a v else s.setDm a v

/-- A write of the command register: Access Register and Access Memory; with postexec the program buffer runs on the core, which leaves
its registers free. -/
def State.dmCommand (s : State) (v : Nat) : State :=
  let core := bitsOf (s.dmWord 0x10) 25 16
  let size := bitsOf v 22 20
  let n := 2 ^ size
  let s := s.setDm 0x17 v
  if s.dmWord 0x16 ≠ 0 then s
  else if size ≠ 2 ∧ size ≠ 3 then s.cmdErr 2
  else if bitsOf v 31 24 = 0 then
    let t := if bitAt v 17 = false then s
      else if bitAt v 16 then accessRegister s core (v % 65536) true (if n = 8 then s.dmPair 4 else s.dmWord 4)
      else State.dmTake s (accessRegister s core (v % 65536) false 0) 4 n
    if bitAt v 18 && decide (t.dmWord 0x16 = 0) then t.coreRan core else t
  else if bitsOf v 31 24 = 2 then
    let a := s.dmPair 6
    let t := if bitAt v 16 then accessMemory s core a n true (if n = 8 then s.dmPair 4 else s.dmWord 4)
      else State.dmTake s (accessMemory s core a n false 0) 4 n
    if bitAt v 19 && decide (t.dmWord 0x16 = 0) then t.setDmPair 6 (a + n) else t
  else s.cmdErr 2

/-- A system bus access through sbaddress and sbdata, of the size sbcs gives. -/
def State.sbAccess (s : State) (write : Bool) : State :=
  let size := bitsOf (s.dmWord 0x38) 19 17
  let n := 2 ^ size
  let a := s.dmPair 0x39 % 281474976710656
  if s.dmWord 0x100 ≠ 0 then s
  else
    let t := systemBusAccess s a n write (if n = 8 then s.dmPair 0x3C else s.dmWord 0x3C)
    if t.dmWord 0x100 ≠ 0 then t
    else
      let t := if write then t else match t.reply with
        | none => t
        | some v => if n = 8 then t.setDmPair 0x3C v else t.setDm 0x3C v
      if bitAt (s.dmWord 0x38) 16 then t.setDmPair 0x39 (a + n) else t

/-- A request to resume: a core whose dcsr.step is set steps instead (R525). -/
def State.resumeReq (s : State) (c : Nat) : State :=
  if bitAt (Tbl.val 0 s.dbg.hregs (c * 65536 + 0x7B0)) 2 then hartStep s c else hartResume s c

/-- A write of dmcontrol: halt and resume requests, halt on reset, ndmreset; with dmactive 0 the Debug Module is as after reset. -/
def State.dmControl (s : State) (v : Nat) : State :=
  if bitAt v 0 = false then { s with dbg := { s.dbg with dm := [] } }
  else
    let s := s.setDm 0x10 v
    let hs := s.dmSelected
    let s := if bitAt v 31 then hs.foldl hartHalt s else if bitAt v 30 then hs.foldl State.resumeReq s else s
    let d := s.dbg
    let r := if bitAt v 3 then hs.foldl (fun l h => insNat h l) d.haltOnReset
      else if bitAt v 2 then d.haltOnReset.filter (fun h => !hs.contains h) else d.haltOnReset
    let s : State := { s with dbg := { d with haltOnReset := r } }
    let s := if bitAt v 28 then s.setDm 0x101 (hs.foldl (fun n h => n ||| 2 ^ h) (s.dmWord 0x101)) else s
    if bitAt v 1 then ndmreset s else s

/-- A Debug Module register is written. -/
def State.dmWrite (s : State) (a v : Nat) : State :=
  if a = 0x10 then s.dmControl v
  else if bitAt (s.dmWord 0x10) 0 = false then s
  else match a with
    | 0x16 => s.setDm 0x16 (s.dmWord 0x16 - (s.dmWord 0x16 &&& bitsOf v 10 8))
    | 0x17 => s.dmCommand v
    | 0x38 => (s.setDm 0x38 v).setDm 0x100 (s.dmWord 0x100 - (s.dmWord 0x100 &&& bitsOf v 14 12))
    | 0x39 =>
      let s := s.setDm 0x39 v
      if bitAt (s.dmWord 0x38) 20 then s.sbAccess false else s
    | 0x3C => (s.setDm 0x3C v).sbAccess true
    | _ =>
      if (0x04 ≤ a ∧ a ≤ 0x0F) ∨ a = 0x15 ∨ (0x20 ≤ a ∧ a ≤ 0x27) ∨ a = 0x3A ∨ a = 0x3D then s.setDm a v else s

/-- DMI: op 1 reads, op 2 writes; a read of sbdata0 may start the next access. -/
def tapDmi (s : State) (op a v : Nat) : State :=
  s.tapIf s.portOpen (fun s =>
    if op = 1 then
      let r := s.dmRead a
      (if a = 0x3C ∧ bitAt (s.dmWord 0x38) 15 = true then s.sbAccess false else s).answer r
    else if op = 2 then (s.dmWrite a v).answer 0
    else s)

/-! ### The management endpoint (R531, R532) -/

/-- The endpoint's 7-bit address: 0x58 plus the carrier's straps (R531). -/
def smbAddress : Nat := 0x58 + Config.smbStraps.toNat

/-- The Packet Error Code of a read (R531): CRC-8 with polynomial 0x07 (preset 10 of R483) over the address with the write bit, the
command code, the address with the read bit, and the bytes read. -/
def smbPec (code : Nat) (data : List Byte) : Nat :=
  ((({} : ChkUnit).load 10).restart.feeds ([2 * smbAddress, code, 2 * smbAddress + 1].map (BitVec.ofNat 8) ++ data)).value

/-- What a read of `n` bytes sends: the bytes of `v`, the least significant first, and then the Packet Error Code. -/
def smbSent (code n v : Nat) : Nat := v + 2 ^ (8 * n) * smbPec code (leBytes n v)

/-- Answer a command that is available after `n` strokes; before then it may or may not be: the model's strokes begin only after the
clocks phase. A command that is not available is NACKed: no answer. -/
def State.smb (s : State) (n v : Nat) : State :=
  if s.tapLive = false then { s with reply := none }
  else if n ≤ s.boot.upStrokes then s.answer v
  else
    let t : State := { s with freeCount := s.freeCount + 1 }
    if Config.freeBool s.freeCount then t.answer v else { t with reply := none }

/-- A measured word, read by command `code`. -/
def State.smbSensor (s : State) (n code : Nat) : State :=
  let r := s.drawWord
  r.2.smb n (smbSent code 2 (r.1.toNat % 65536))

/-- SMB_PRESENCE. -/
def smbPresence (s : State) : State := s.smb 200 (smbSent 1 1 (1 + 2 * b2n (decide (s.boot.fuses.variant = 1))))

/-- SMB_HOTSPOT: 0x8000 until FUSE_LOAD ends. -/
def smbHotspot (s : State) : State := if s.boot.phase = 0 then s.smb 200 (smbSent 4 2 0x8000) else s.smbSensor 200 4

/-- SMB_INPUT_POWER: the 1 ms average, measured before the first stroke boundary has given one. -/
def smbInputPower (s : State) : State :=
  if s.pwr.watts = [] then s.smbSensor 1200 5 else s.smb 1200 (smbSent 5 2 (min 65535 s.inputWatts))

/-- SMB_PHASE. -/
def smbPhase (s : State) : State := s.smb 1200 (smbSent 6 1 (s.boot.phase % 16 * 16 + b2n s.boot.ready))

/-- SMB_SERIAL: a Block Read, so the byte count 8 goes first. -/
def smbSerial (s : State) : State := s.smb 1200 (smbSent 7 9 (8 + 256 * (s.boot.fuses.serial % 2 ^ 64)))

/-! ### Meanings -/

/-- TAP_IDCODE. -/
def execTapIdcode (s : State) : Host.Outcome State Fault Refusal := .next (tapIdcode s)
/-- TAP_SAMPLE_PRELOAD. -/
def execTapSamplePreload (pins : List Bool) (s : State) : Host.Outcome State Fault Refusal := .next (tapSamplePreload s pins)
/-- TAP_EXTEST. -/
def execTapExtest (pins : List Bool) (leave : Bool) (s : State) : Host.Outcome State Fault Refusal :=
  .next (tapExtest s pins leave)
/-- TAP_DTMCS. -/
def execTapDtmcs (_ : Bool) (_ : Word) (s : State) : Host.Outcome State Fault Refusal := .next (tapDtmcs s)
/-- TAP_DMI. -/
def execTapDmi (op a : Nat) (v : Word) (s : State) : Host.Outcome State Fault Refusal := .next (tapDmi s op a v.toNat)
/-- TAP_REGACC. -/
def execTapRegacc (act write : Bool) (off : Nat) (v : Word) (s : State) : Host.Outcome State Fault Refusal :=
  .next (tapRegacc s act write off v.toNat)
/-- TAP_UNLOCK. -/
def execTapUnlock (key signature : List Byte) (s : State) : Host.Outcome State Fault Refusal := .next (tapUnlock s key signature)
/-- TAP_BYPASS: the bit shifted in comes out a cycle later; the capture comes first. -/
def execTapBypass (_ : Bool) (s : State) : Host.Outcome State Fault Refusal := .next s.tapBypassed
/-- SMB_PRESENCE. -/
def execSmbPresence (s : State) : Host.Outcome State Fault Refusal := .next (smbPresence s)
/-- SMB_INLET_TEMP. -/
def execSmbInletTemp (s : State) : Host.Outcome State Fault Refusal := .next (s.smbSensor 200 2)
/-- SMB_OUTLET_TEMP. -/
def execSmbOutletTemp (s : State) : Host.Outcome State Fault Refusal := .next (s.smbSensor 200 3)
/-- SMB_HOTSPOT. -/
def execSmbHotspot (s : State) : Host.Outcome State Fault Refusal := .next (smbHotspot s)
/-- SMB_INPUT_POWER. -/
def execSmbInputPower (s : State) : Host.Outcome State Fault Refusal := .next (smbInputPower s)
/-- SMB_PHASE. -/
def execSmbPhase (s : State) : Host.Outcome State Fault Refusal := .next (smbPhase s)
/-- SMB_SERIAL. -/
def execSmbSerial (s : State) : Host.Outcome State Fault Refusal := .next (smbSerial s)

end Sys2Proof.Machine
end

