-- ==== Sys2Proof/Machine/Dispatch.lean ====
section
/-! DEFINITION. The dispatch of a command to its meaning: one arm per constructor of `Instr`. -/

namespace Sys2Proof.Machine

/-- The effect of a command on everything but the queue. -/
def exec (i : Instr) (s : State) : Host.Outcome State Fault Refusal :=
  match i with
  | .doorbellWrite a b c d => Sys2Proof.Machine.execDoorbellWrite a b c d s
  | .submit a => Sys2Proof.Machine.execSubmit a s
  | .cancel a => Sys2Proof.Machine.execCancel a s
  | .admitDurable a => Sys2Proof.Machine.execAdmitDurable a s
  | .frontDurable a => Sys2Proof.Machine.execFrontDurable a s
  | .citationMapPost a => Sys2Proof.Machine.execCitationMapPost a s
  | .prefillComplete a => Sys2Proof.Machine.execPrefillComplete a s
  | .doneDurable a => Sys2Proof.Machine.execDoneDurable a s
  | .journalProgrammed a b => Sys2Proof.Machine.execJournalProgrammed a b s
  | .dedupExpiry a b => Sys2Proof.Machine.execDedupExpiry a b s
  | .journalRetentionExpiry a => Sys2Proof.Machine.execJournalRetentionExpiry a s
  | .deadlineExpiry a => Sys2Proof.Machine.execDeadlineExpiry a s
  | .strokeBoundary a b c => Sys2Proof.Machine.execStrokeBoundary a b c s
  | .compositionCut => Sys2Proof.Machine.execCompositionCut s
  | .batchListWrite => Sys2Proof.Machine.execBatchListWrite s
  | .decodeStepEnd a b c d => Sys2Proof.Machine.execDecodeStepEnd a b c d s
  | .shareLookup a => Sys2Proof.Machine.execShareLookup a s
  | .pageWaitPark a => Sys2Proof.Machine.execPageWaitPark a s
  | .park a => Sys2Proof.Machine.execPark a s
  | .replayCatchUp a b c d => Sys2Proof.Machine.execReplayCatchUp a b c d s
  | .egressGrant a b => Sys2Proof.Machine.execEgressGrant a b s
  | .calendarPass a => Sys2Proof.Machine.execCalendarPass a s
  | .telemetrySample a => Sys2Proof.Machine.execTelemetrySample a s
  | .heatHalving => Sys2Proof.Machine.execHeatHalving s
  | .loadJob a => Sys2Proof.Machine.execLoadJob a s
  | .removeJob a => Sys2Proof.Machine.execRemoveJob a s
  | .setWheel a => Sys2Proof.Machine.execSetWheel a s
  | .drain a => Sys2Proof.Machine.execDrain a s
  | .resume a => Sys2Proof.Machine.execResume a s
  | .resize a => Sys2Proof.Machine.execResize a s
  | .retireTiller a => Sys2Proof.Machine.execRetireTiller a s
  | .readmitTiller a => Sys2Proof.Machine.execReadmitTiller a s
  | .replanBoundary a => Sys2Proof.Machine.execReplanBoundary a s
  | .tillerFault a b => Sys2Proof.Machine.execTillerFault a b s
  | .sparePromotion a => Sys2Proof.Machine.execSparePromotion a s
  | .quarantineEnd a b => Sys2Proof.Machine.execQuarantineEnd a b s
  | .tileProduct a b => Sys2Proof.Machine.execTileProduct a b s
  | .tilePrepass a b => Sys2Proof.Machine.execTilePrepass a b s
  | .tileEnd a b => Sys2Proof.Machine.execTileEnd a b s
  | .splitSecondPass a b => Sys2Proof.Machine.execSplitSecondPass a b s
  | .tileDrain a b => Sys2Proof.Machine.execTileDrain a b s
  | .epilogueDrain a b => Sys2Proof.Machine.execEpilogueDrain a b s
  | .deferredDrain a b => Sys2Proof.Machine.execDeferredDrain a b s
  | .partialApply a => Sys2Proof.Machine.execPartialApply a s
  | .addFinish a b => Sys2Proof.Machine.execAddFinish a b s
  | .fabricWrite a => Sys2Proof.Machine.execFabricWrite a s
  | .fabricReadReq a => Sys2Proof.Machine.execFabricReadReq a s
  | .fabricReadResp a => Sys2Proof.Machine.execFabricReadResp a s
  | .fabricPartial a => Sys2Proof.Machine.execFabricPartial a s
  | .ctrOp a => Sys2Proof.Machine.execCtrOp a s
  | .ctrResp a => Sys2Proof.Machine.execCtrResp a s
  | .regReq a b c d => Sys2Proof.Machine.execRegReq a b c d s
  | .regResp a => Sys2Proof.Machine.execRegResp a s
  | .linkRetry a b c => Sys2Proof.Machine.execLinkRetry a b c s
  | .routeSwitch a => Sys2Proof.Machine.execRouteSwitch a s
  | .routerFailure a => Sys2Proof.Machine.execRouterFailure a s
  | .select a => Sys2Proof.Machine.execSelect a s
  | .sample a b => Sys2Proof.Machine.execSample a b s
  | .winnowEnd a => Sys2Proof.Machine.execWinnowEnd a s
  | .maskFetch a => Sys2Proof.Machine.execMaskFetch a s
  | .grammarRegister a b => Sys2Proof.Machine.execGrammarRegister a b s
  | .grammarUnregister a b => Sys2Proof.Machine.execGrammarUnregister a b s
  | .catalogueFreed a b => Sys2Proof.Machine.execCatalogueFreed a b s
  | .catalogueGraceExpiry a => Sys2Proof.Machine.execCatalogueGraceExpiry a s
  | .tokenizerRegister a b => Sys2Proof.Machine.execTokenizerRegister a b s
  | .tokenizerUnregister a b => Sys2Proof.Machine.execTokenizerUnregister a b s
  | .tokenise a => Sys2Proof.Machine.execTokenise a s
  | .detokenise a b => Sys2Proof.Machine.execDetokenise a b s
  | .sheafTableSet a b => Sys2Proof.Machine.execSheafTableSet a b s
  | .sheafTableClear a b => Sys2Proof.Machine.execSheafTableClear a b s
  | .sheafTableAmend a b => Sys2Proof.Machine.execSheafTableAmend a b s
  | .gather a b => Sys2Proof.Machine.execGather a b s
  | .gatherSum a b => Sys2Proof.Machine.execGatherSum a b s
  | .scatter a b => Sys2Proof.Machine.execScatter a b s
  | .prefetch a b => Sys2Proof.Machine.execPrefetch a b s
  | .sheafEnd a b => Sys2Proof.Machine.execSheafEnd a b s
  | .feedbackEvent a => Sys2Proof.Machine.execFeedbackEvent a s
  | .sheafUpdateApply a => Sys2Proof.Machine.execSheafUpdateApply a s
  | .forcedApply a => Sys2Proof.Machine.execForcedApply a s
  | .recipeRegister a b => Sys2Proof.Machine.execRecipeRegister a b s
  | .recipeUnregister a b => Sys2Proof.Machine.execRecipeUnregister a b s
  | .frontEncode a b => Sys2Proof.Machine.execFrontEncode a b s
  | .searchCall a => Sys2Proof.Machine.execSearchCall a s
  | .frontCandidates a b => Sys2Proof.Machine.execFrontCandidates a b s
  | .frontRerank a b => Sys2Proof.Machine.execFrontRerank a b s
  | .frontPack a => Sys2Proof.Machine.execFrontPack a s
  | .searchBuild a => Sys2Proof.Machine.execSearchBuild a s
  | .searchRound a => Sys2Proof.Machine.execSearchRound a s
  | .nodeRead a b c => Sys2Proof.Machine.execNodeRead a b c s
  | .hubWindowClose a b c => Sys2Proof.Machine.execHubWindowClose a b c s
  | .searchAbort a => Sys2Proof.Machine.execSearchAbort a s
  | .indexOpen a b => Sys2Proof.Machine.execIndexOpen a b s
  | .indexWrite a b => Sys2Proof.Machine.execIndexWrite a b s
  | .indexSeal a b => Sys2Proof.Machine.execIndexSeal a b s
  | .indexActivate a b => Sys2Proof.Machine.execIndexActivate a b s
  | .activationApply a => Sys2Proof.Machine.execActivationApply a s
  | .indexLoad a b => Sys2Proof.Machine.execIndexLoad a b s
  | .indexDiscard a b => Sys2Proof.Machine.execIndexDiscard a b s
  | .indexSlotFreed a => Sys2Proof.Machine.execIndexSlotFreed a s
  | .planStage a b => Sys2Proof.Machine.execPlanStage a b s
  | .planUnstage a b => Sys2Proof.Machine.execPlanUnstage a b s
  | .planFlush a b => Sys2Proof.Machine.execPlanFlush a b s
  | .cisHostWrite a b => Sys2Proof.Machine.execCisHostWrite a b s
  | .moveComplete a => Sys2Proof.Machine.execMoveComplete a s
  | .flashPageRead a b c d => Sys2Proof.Machine.execFlashPageRead a b c d s
  | .eraseIntent a b => Sys2Proof.Machine.execEraseIntent a b s
  | .eraseIssue a => Sys2Proof.Machine.execEraseIssue a s
  | .eraseComplete a b => Sys2Proof.Machine.execEraseComplete a b s
  | .blockVerify a b => Sys2Proof.Machine.execBlockVerify a b s
  | .reclaim a b => Sys2Proof.Machine.execReclaim a b s
  | .programFail a b => Sys2Proof.Machine.execProgramFail a b s
  | .readOnlyEntry a => Sys2Proof.Machine.execReadOnlyEntry a s
  | .holdupFlush a => Sys2Proof.Machine.execHoldupFlush a s
  | .holdupMeasure a => Sys2Proof.Machine.execHoldupMeasure a s
  | .mapCheckpoint => Sys2Proof.Machine.execMapCheckpoint s
  | .wellFailure a => Sys2Proof.Machine.execWellFailure a s
  | .wellReturn a => Sys2Proof.Machine.execWellReturn a s
  | .imageCreate a b => Sys2Proof.Machine.execImageCreate a b s
  | .imageWrite a b => Sys2Proof.Machine.execImageWrite a b s
  | .imageSeal a b => Sys2Proof.Machine.execImageSeal a b s
  | .imageDelete a b => Sys2Proof.Machine.execImageDelete a b s
  | .layout a => Sys2Proof.Machine.execLayout a s
  | .ringCreate a b => Sys2Proof.Machine.execRingCreate a b s
  | .ringDestroy a b => Sys2Proof.Machine.execRingDestroy a b s
  | .consumerIndexPost a => Sys2Proof.Machine.execConsumerIndexPost a s
  | .consumerIndexRead a b => Sys2Proof.Machine.execConsumerIndexRead a b s
  | .crossPortFence a b => Sys2Proof.Machine.execCrossPortFence a b s
  | .counterWindowRead a b c => Sys2Proof.Machine.execCounterWindowRead a b c s
  | .counterWindowAdd a b c d => Sys2Proof.Machine.execCounterWindowAdd a b c d s
  | .sycRead a b => Sys2Proof.Machine.execSycRead a b s
  | .sycAdd a b => Sys2Proof.Machine.execSycAdd a b s
  | .sycWait a b => Sys2Proof.Machine.execSycWait a b s
  | .sycCas a b => Sys2Proof.Machine.execSycCas a b s
  | .sycClaim a b c => Sys2Proof.Machine.execSycClaim a b c s
  | .sycRelease a b c => Sys2Proof.Machine.execSycRelease a b c s
  | .waitPark a b c => Sys2Proof.Machine.execWaitPark a b c s
  | .waitSatisfied a => Sys2Proof.Machine.execWaitSatisfied a s
  | .waitReissue a => Sys2Proof.Machine.execWaitReissue a s
  | .siphonTransfer a b c => Sys2Proof.Machine.execSiphonTransfer a b c s
  | .siphonEnd a b c => Sys2Proof.Machine.execSiphonEnd a b c s
  | .siphonComplete a b => Sys2Proof.Machine.execSiphonComplete a b s
  | .perstRelease a => Sys2Proof.Machine.execPerstRelease a s
  | .configRequest a b c d e => Sys2Proof.Machine.execConfigRequest a b c d e s
  | .bar2Access a b c d e f => Sys2Proof.Machine.execBar2Access a b c d e f s
  | .hptWinWrite a b c => Sys2Proof.Machine.execHptWinWrite a b c s
  | .portReset a => Sys2Proof.Machine.execPortReset a s
  | .hostReadFail a b c => Sys2Proof.Machine.execHostReadFail a b c s
  | .zioWrite a => Sys2Proof.Machine.execZioWrite a s
  | .zioPartial a => Sys2Proof.Machine.execZioPartial a s
  | .zioCtrAdd a => Sys2Proof.Machine.execZioCtrAdd a s
  | .zioCommand a => Sys2Proof.Machine.execZioCommand a s
  | .zioRecord a => Sys2Proof.Machine.execZioRecord a s
  | .zioCtrl a b c d e f g h => Sys2Proof.Machine.execZioCtrl a b c d e f g h s
  | .headerCrcNak a => Sys2Proof.Machine.execHeaderCrcNak a s
  | .e2eResend a => Sys2Proof.Machine.execE2eResend a s
  | .streamTeardown a b c => Sys2Proof.Machine.execStreamTeardown a b c s
  | .frameMarkSend a b => Sys2Proof.Machine.execFrameMarkSend a b s
  | .frameMarkReceive a => Sys2Proof.Machine.execFrameMarkReceive a s
  | .pairJoin a b => Sys2Proof.Machine.execPairJoin a b s
  | .joinClear a b => Sys2Proof.Machine.execJoinClear a b s
  | .pairLeave a => Sys2Proof.Machine.execPairLeave a s
  | .timingLeave => Sys2Proof.Machine.execTimingLeave s
  | .laneDrop a b => Sys2Proof.Machine.execLaneDrop a b s
  | .portTrainRetry a b => Sys2Proof.Machine.execPortTrainRetry a b s
  | .portQuarantineEnd a b => Sys2Proof.Machine.execPortQuarantineEnd a b s
  | .nodeWrite a b => Sys2Proof.Machine.execNodeWrite a b s
  | .pgStatAck a b c => Sys2Proof.Machine.execPgStatAck a b c s
  | .sqFieldWrite a b c d => Sys2Proof.Machine.execSqFieldWrite a b c d s
  | .pgErrAck a b c => Sys2Proof.Machine.execPgErrAck a b c s
  | .pgIndAddrWrite a b c => Sys2Proof.Machine.execPgIndAddrWrite a b c s
  | .pgIndDataRead a b => Sys2Proof.Machine.execPgIndDataRead a b s
  | .pgIndDataWrite a b c => Sys2Proof.Machine.execPgIndDataWrite a b c s
  | .pgMboxReq a b c => Sys2Proof.Machine.execPgMboxReq a b c s
  | .mboxSnapshot a b => Sys2Proof.Machine.execMboxSnapshot a b s
  | .pgMboxData3Read a b => Sys2Proof.Machine.execPgMboxData3Read a b s
  | .registerWrite a b c d e => Sys2Proof.Machine.execRegisterWrite a b c d e s
  | .clkMuxSwitch a b c => Sys2Proof.Machine.execClkMuxSwitch a b c s
  | .muxSwitchComplete a b => Sys2Proof.Machine.execMuxSwitchComplete a b s
  | .muxHang a b => Sys2Proof.Machine.execMuxHang a b s
  | .clkDomReset a b c => Sys2Proof.Machine.execClkDomReset a b c s
  | .oscStable a => Sys2Proof.Machine.execOscStable a s
  | .pllLockConfirm a => Sys2Proof.Machine.execPllLockConfirm a s
  | .trimSourceSwitch a b c => Sys2Proof.Machine.execTrimSourceSwitch a b c s
  | .rootLoss a => Sys2Proof.Machine.execRootLoss a s
  | .restartWait a => Sys2Proof.Machine.execRestartWait a s
  | .sequencerChange a => Sys2Proof.Machine.execSequencerChange a s
  | .inputLow a => Sys2Proof.Machine.execInputLow a s
  | .inputOvervoltage => Sys2Proof.Machine.execInputOvervoltage s
  | .pwrCapWrite a b c => Sys2Proof.Machine.execPwrCapWrite a b c s
  | .hotspotHigh a b => Sys2Proof.Machine.execHotspotHigh a b s
  | .hotspotTrip a => Sys2Proof.Machine.execHotspotTrip a s
  | .chkFeed8 a b c => Sys2Proof.Machine.execChkFeed8 a b c s
  | .chkFeed16 a b c => Sys2Proof.Machine.execChkFeed16 a b c s
  | .chkFeed32 a b c => Sys2Proof.Machine.execChkFeed32 a b c s
  | .chkRestart a b => Sys2Proof.Machine.execChkRestart a b s
  | .chkCfgWrite a b c => Sys2Proof.Machine.execChkCfgWrite a b c s
  | .chkScanCompute a b => Sys2Proof.Machine.execChkScanCompute a b s
  | .chkScanAppend a b => Sys2Proof.Machine.execChkScanAppend a b s
  | .chkScanVerify a b => Sys2Proof.Machine.execChkScanVerify a b s
  | .chkScanDone a => Sys2Proof.Machine.execChkScanDone a s
  | .hbmFrameRetire a b => Sys2Proof.Machine.execHbmFrameRetire a b s
  | .hbmStackFail a => Sys2Proof.Machine.execHbmStackFail a s
  | .flashDieFail a b c => Sys2Proof.Machine.execFlashDieFail a b c s
  | .flashChannelFail a b => Sys2Proof.Machine.execFlashChannelFail a b s
  | .wellheadFailure a => Sys2Proof.Machine.execWellheadFailure a s
  | .coreFailure a => Sys2Proof.Machine.execCoreFailure a s
  | .marginPlannerRun a b c d => Sys2Proof.Machine.execMarginPlannerRun a b c d s
  | .powerOn => Sys2Proof.Machine.execPowerOn s
  | .restart => Sys2Proof.Machine.execRestart s
  | .fuseLoad a => Sys2Proof.Machine.execFuseLoad a s
  | .firmwareLoad => Sys2Proof.Machine.execFirmwareLoad s
  | .mount a b => Sys2Proof.Machine.execMount a b s
  | .rebuild => Sys2Proof.Machine.execRebuild s
  | .recovery => Sys2Proof.Machine.execRecovery s
  | .serviceEntry => Sys2Proof.Machine.execServiceEntry s
  | .shutdown a => Sys2Proof.Machine.execShutdown a s
  | .dbgReset a => Sys2Proof.Machine.execDbgReset a s
  | .provision a => Sys2Proof.Machine.execProvision a s
  | .raiseLock a b => Sys2Proof.Machine.execRaiseLock a b s
  | .raiseSec a b => Sys2Proof.Machine.execRaiseSec a b s
  | .storeFw a => Sys2Proof.Machine.execStoreFw a s
  | .firmwarePersist => Sys2Proof.Machine.execFirmwarePersist s
  | .timeStage a => Sys2Proof.Machine.execTimeStage a s
  | .timeCancel a => Sys2Proof.Machine.execTimeCancel a s
  | .tapIdcode => Sys2Proof.Machine.execTapIdcode s
  | .tapSamplePreload a => Sys2Proof.Machine.execTapSamplePreload a s
  | .tapExtest a b => Sys2Proof.Machine.execTapExtest a b s
  | .tapDtmcs a b => Sys2Proof.Machine.execTapDtmcs a b s
  | .tapDmi a b c => Sys2Proof.Machine.execTapDmi a b c s
  | .tapRegacc a b c d => Sys2Proof.Machine.execTapRegacc a b c d s
  | .tapUnlock a b => Sys2Proof.Machine.execTapUnlock a b s
  | .tapBypass a => Sys2Proof.Machine.execTapBypass a s
  | .hartHalt a => Sys2Proof.Machine.execHartHalt a s
  | .hartResume a => Sys2Proof.Machine.execHartResume a s
  | .hartStep a => Sys2Proof.Machine.execHartStep a s
  | .triggerHit a b c d => Sys2Proof.Machine.execTriggerHit a b c d s
  | .accessRegister a b c d => Sys2Proof.Machine.execAccessRegister a b c d s
  | .accessMemory a b c d e => Sys2Proof.Machine.execAccessMemory a b c d e s
  | .systemBusAccess a b c d => Sys2Proof.Machine.execSystemBusAccess a b c d s
  | .ndmreset => Sys2Proof.Machine.execNdmreset s
  | .dbgClaimScan a b => Sys2Proof.Machine.execDbgClaimScan a b s
  | .claimScanDone => Sys2Proof.Machine.execClaimScanDone s
  | .dbgClaimForce a => Sys2Proof.Machine.execDbgClaimForce a s
  | .smbPresence => Sys2Proof.Machine.execSmbPresence s
  | .smbInletTemp => Sys2Proof.Machine.execSmbInletTemp s
  | .smbOutletTemp => Sys2Proof.Machine.execSmbOutletTemp s
  | .smbHotspot => Sys2Proof.Machine.execSmbHotspot s
  | .smbInputPower => Sys2Proof.Machine.execSmbInputPower s
  | .smbPhase => Sys2Proof.Machine.execSmbPhase s
  | .smbSerial => Sys2Proof.Machine.execSmbSerial s
  | .hostReadReissue a b => Sys2Proof.Machine.execHostReadReissue a b s
  | .hostPortReturn a b c => Sys2Proof.Machine.execHostPortReturn a b c s
  | .zioriPortTrained a b c d => Sys2Proof.Machine.execZioriPortTrained a b c d s
  | .spareFailure a => Sys2Proof.Machine.execSpareFailure a s

end Sys2Proof.Machine
end

