-- ==== Sys2Proof/Machine/Panel.lean ====
section
/-! DEFINITION. The indicators of the faceplate (R542), which the module drives from its own state and nobody can set. -/

namespace Sys2Proof.Machine

/-- What an indicator shows. -/
inductive Lamp where
  | off
  | blinking
  | on
  deriving DecidableEq, Repr

/-- POWER, green (R542): off without input; blinking while the bank charges, or in SHUT. Whether the bank has charged yet is a free value
until MOUNT, which waits for it (R537). -/
def State.powerLamp (s : State) : Lamp :=
  if s.boot.powered = false ∨ s.pwr.cut = true then .off
  else if s.boot.resetState = 2 then .blinking
  else if s.boot.bankCharged || Config.freeBool s.freeCount then .on else .blinking

/-- SERVICE, green (R542): off below REPLAY, blinking in it, on when MOD_READY.ready reads 1. -/
def State.serviceLamp (s : State) : Lamp := if s.boot.ready then .on else if s.boot.phase = 4 then .blinking else .off

/-- The module holds in a start phase (R508): FUSE_LOAD or FIRMWARE cannot complete, or REPLAY waits for a port. -/
def State.phaseHeld (s : State) : Bool :=
  s.boot.fuseHold || s.boot.fwHold || (decide (s.boot.phase = 4) && !s.boot.phaseDone && s.readBackWaits)

/-- A Tiller is retired beyond the spares: a paddock runs narrowed, or waits halted because no Tiller can host its rank (R493). -/
def State.beyondSpares (s : State) : Bool := s.pad.pads.any (fun e => decide (e.2.hosted ≠ []) || e.2.noHost)

/-- FAULT, amber (R542): of two conditions that hold, on is shown. -/
def State.faultLamp (s : State) : Lamp :=
  if !s.flt.failedWh.isEmpty || s.phaseHeld then .on
  else if s.beyondSpares || s.wdl.readOnly then .blinking
  else .off

/-- FLUSH, amber (R542): from a hold-up flush until the next start. -/
def State.flushLamp (s : State) : Lamp := if s.boot.flushed then .on else .off

/-- RING 0 to 7, green (R542), by the pair's state (R432). -/
def State.ringLamp (s : State) (pair : Nat) : Lamp :=
  match (s.zpair pair).state with
  | 1 | 3 => .blinking
  | 2 => .on
  | _ => .off

end Sys2Proof.Machine
end

