-- ==== Sys2Proof/Safety.lean ====
section
/-! DEFINITION. What counts as a safe run, in the terms the statements use: a step that neither faults nor refuses, and the state's
invariants. -/

namespace Sys2Proof.Machine

/-- The step answers a next state. -/
def Goes (o : Host.Outcome State Fault Refusal) : Prop := ∃ t, o = .next t

/-- The memory is in its canonical form. -/
def State.memOk (s : State) : Prop := Memory.wf s.mem = true

/-- A run of `k` steps that meets no fault and no refusal. -/
def SafeRun (k : Nat) (s : State) : Prop := ∃ t, Host.Core.run Sys2Proof.core k s = .next t

/-- A command of kind `cmd` is the first that this boundary takes (R62): it was received in an earlier stroke, it passes the checks, and
its paddock does not hold it (R64). -/
def CmdTaken (s : State) (m : CmdMsg) (cmd : Nat) (r : Recvd) : Prop :=
  m.cmd = cmd ∧ s.dueOf m = none ∧ s.firstTaken = some r ∧ r.msg = m ∧ s.atBoundary = true ∧
    (s.untaken r).takeCheck m r.stroke = 0 ∧ (s.untaken r).holds m.paddock = false

/-- A command of kind `cmd` that waits for a re-plan boundary is the first that this boundary applies (R65), and its paddock does not hold
it (R64). -/
def CmdDue (s : State) (m : CmdMsg) (cmd : Nat) (d : Due) : Prop :=
  m.cmd = cmd ∧ s.dueOf m = some d ∧ s.atBoundary = true ∧ s.dueFirst d = true ∧ (s.undue d).holds m.paddock = false

end Sys2Proof.Machine
end

