-- ==== Sys2Proof/Certificates/Slice0/Obligations.lean ====
section
/-! DEFINITION. The statements about the model, for the provers. -/

open Sys2Proof Sys2Proof.Machine

/-- Where a submission ring offers its live core a descriptor other than a checked CANCEL, and its input can be read,
SUBMIT takes that one descriptor: the ring's consumer index is one higher, and the checks are made in the state c in
which it is. If a check from 1 to 8 of R28 fails (code 0x0C raises an event besides), the next state is the one that
posts the REFUSE record with that check's code. If none fails and the meters refuse, the refusal is counted and REFUSE
code 9 posted with the wait of R92. If none fails, the meters pass, a slot is picked and the staging buffer has room,
a service 0 request's slot becomes ADMITTED with the descriptor and its input, not yet accepted, and exactly one
record joins the journal: the slot's ADMIT, not yet durable. (R28, R29, R31, R91, R377) -/
def Obligations.SubmitTakesOneDescriptor : Prop :=
  ∀ (s c : State) (rid : Nat) (r : Ring) (comp : Nat) (d inp : List Byte),
    s.nextDesc rid = some (r, comp, d) → ¬(descOp d = 1 ∧ crcOk d = true) →
    (descInline d = true ∨ (s.hp r.port).readOk (descInAddr d) = true) →
    c = s.consume rid r → inp = s.fetchInput r d →
    (Tbl.look c.nor.rings rid).map Ring.cons = some (r.cons + 1) ∧
    (∀ code aux, c.submitCheck r d inp = some (code, aux) → code ≠ 0xC →
      exec (.submit rid) s = .next (c.postRefuse comp d code aux)) ∧
    (∀ aux, c.submitCheck r d inp = some (0xC, aux) →
      exec (.submit rid) s = .next ((c.event (c.whOf (descSub d % 4)) 0 [sqBit 0x110 1] []).postRefuse comp d 0xC aux)) ∧
    (∀ svc agg, c.submitCheck r d inp = none →
      svc = c.meter (svcKey (descSub d) (descService d)) → agg = c.meter (aggKey (descSub d)) →
      (meterRefuses svc (if c.guardRed (descSub d) (descService d) then 2 else
          (meterBoth svc agg (descMaxPrompt d) (descMaxNew d)).1) = true →
        ∃ q, exec (.submit rid) s = .next (((c.noteActive q).noteRed (descSub d) (descService d)).postRefuse comp d 9
          (redWait svc agg (c.guardRed (descSub d) (descService d)) (descMaxPrompt d) (descMaxNew d)))) ∧
      (∀ n, meterRefuses svc (if c.guardRed (descSub d) (descService d) then 2 else
          (meterBoth svc agg (descMaxPrompt d) (descMaxNew d)).1) = false →
        c.pickSlot (c.coreOf r.core) = some n → descService d = 0 →
        c.staging (r.core / 4) + 320 + (if descInline d then 0 else (pad16 inp).length) ≤ stagingLimit →
        ∃ t, exec (.submit rid) s = .next t ∧ (t.slot n).state = .admitted ∧ (t.slot n).desc = d ∧
          (t.slot n).input = inp ∧ (t.slot n).acceptNs = none ∧
          ∃ j : JRec, t.req.journal = s.req.journal ++ [j] ∧ j.slot = n ∧ j.typ = 1 ∧ j.durable = false))

/-- A checked CANCEL descriptor of version 0x01 with zero reserved bytes and the ring's own subscriber is taken. Where
a live request of the subscriber carries its tag and is not ending, that request is marked cancelled and nothing else
changes but the ring's consumer index and its count; where none carries the tag, REFUSE code 0x0D is posted. (R33,
R34) -/
def Obligations.CancelMarksTheLiveRequest : Prop :=
  ∀ (s : State) (rid : Nat) (r : Ring) (comp : Nat) (d : List Byte),
    s.nextDesc rid = some (r, comp, d) → descOp d = 1 → crcOk d = true → descVersion d = 1 → zeros d 0xD 3 = true →
    descSub d = r.bind →
    (∀ n, s.liveTag (descSub d) (descTag d) = some n → (s.slot n).state ≠ .draining → (s.slot n).state ≠ .done →
      exec (.cancel rid) s = .next ((s.consume rid r).setSlot n { s.slot n with cancel := true })) ∧
    (s.liveTag (descSub d) (descTag d) = none →
      exec (.cancel rid) s = .next ((s.consume rid r).postRefuse comp d 0xD 0))

/-- ADMIT_DURABLE of an ADMITTED request whose pair is new puts the pair into the de-duplication set, makes the slot's
ADMIT durable and hands ACCEPT to the completion ring at the position the journal names; where the pair has been taken
meanwhile it gives the debits back, drops the ADMIT record, leaves the slot in DONE for the next boundary to free, and hands
REFUSE to that position instead. FRONT_DURABLE gives back the prompt tokens not used, once, and takes a service 0 or 1
request from FRONT to PREFILL; one of service 2 or 3 begins DRAINING with reason 6.
DONE_DURABLE of a DRAINING request whose output is written gives back the tokens not made, once, makes the DONE record
durable and hands DONE to the completion ring at its position. (R31, R32, R41, R44) -/
def Obligations.DurableRecordsMoveARequestOn : Prop :=
  (∀ (s : State) (n comp : Nat) (x : Slot), s.slot n = x → x.state = .admitted → x.admitDurable = false →
    s.mayBeDurable n 1 = true → s.compRing (descSub x.desc) = some comp →
    (s.dedupLookup (descSub x.desc) (descTag x.desc) = none →
      ∀ a : State, a = ({ s with req := { s.req with dedup := s.req.dedup ++
          [{ sub := descSub x.desc, tag := descTag x.desc, slot := n, acceptNs := s.nowNs }] } } : State) →
        exec (.admitDurable n) s = .next ((((a.journalDurable n 1).setSlot n { x with admitDurable := true }).fillRing comp
          x.acceptPos (s.acceptRec n x x.acceptPos)).settle)) ∧
    (∀ code aux, s.dedupLookup (descSub x.desc) (descTag x.desc) = some (code, aux) →
      ∀ a : State, a = ((s.restoreDebits x).journalDrop n 1).setSlot n { state := .done, desc := x.desc, refused := true } →
        exec (.admitDurable n) s = .next
          ((a.fillRing comp x.acceptPos (a.refuseRec x.desc code aux x.acceptPos)).settle))) ∧
  (∀ (s : State) (n : Nat) (x : Slot), s.slot n = x → x.state = .front → x.frontJournaled = true → x.frontDurable = false →
    s.mayBeDurable n 2 = true →
    ∀ a : State, a = (if x.promptRefunded then s.journalDurable n 2 else
        (s.journalDurable n 2).refundBoth x (descMaxPrompt x.desc - x.promptTokens.length) 0) →
      (descService x.desc ≤ 1 → exec (.frontDurable n) s = .next (a.setSlot n { x with
        frontDurable := true, promptRefunded := true, mapPending := descMap x.desc, state := .prefill })) ∧
      (1 < descService x.desc → exec (.frontDurable n) s = .next ((a.setSlot n { x with
        frontDurable := true, promptRefunded := true, mapPending := descMap x.desc }).beginDrain n 6))) ∧
  (∀ (s : State) (n comp : Nat) (x : Slot), s.slot n = x → x.state = .draining → x.doneDurable = false →
    s.mayBeDurable n 4 = true → s.compRing (descSub x.desc) = some comp → s.outPending n = false →
    (descService x.desc ≤ 1 ∨ x.mapPending = false) → s.fenceOwed x comp = false →
    ∀ a : State, a = (if x.doneRefunded then s else s.refundBoth x 0 (descMaxNew x.desc - x.tokensOut)) →
      exec (.doneDurable n) s = .next
        ((({ a.journalDurable n 4 with nor := { (a.journalDurable n 4).nor with
            fenced := a.nor.fenced.filter (fun e => e ≠ (descOut x.desc, comp)) } } : State).setSlot n
            { x with doneDurable := true, doneRefunded := true }).fillRing comp x.donePos (s.doneRec n x x.donePos)).settle)

/-- JOURNAL_PROGRAMMED marks the Wellhead's record of that serial number programmed, if it is durable or the journal
is strict, and changes nothing else. JOURNAL_RETENTION_EXPIRY of a slot that carries no live request, 600 s after the
ACCEPT time that the slot or, where it names none, its latest ADMIT record gives, releases every record of the slot and
no other, and before that releases none. DEDUP_EXPIRY of a pair whose request has ended
takes it out of the set once 600 s have passed since its ACCEPT time, and leaves every other pair; before that, or
while the request is live, the set is unchanged. (R45) -/
def Obligations.JournalAndDedupAreKeptAsLongAsTheyMust : Prop :=
  (∀ (s : State) (w serial : Nat), exec (.journalProgrammed w serial) s = .next { s with req := { s.req with
    journal := s.req.journal.map (fun r =>
      if r.wh = w ∧ r.jserial = serial ∧ (r.durable = true ∨ s.strictJournal w = true) then { r with programmed := true } else r) } }) ∧
  (∀ (s : State) (n t : Nat), (s.slot n).live = false → t = (s.slot n).acceptNs.getD (s.admitTime n) →
    (t + 600000000000 ≤ s.nowNs → exec (.journalRetentionExpiry n) s = .next
      { s with req := { s.req with journal := s.req.journal.filter (fun r => r.slot ≠ n) } }) ∧
    (s.nowNs < t + 600000000000 → exec (.journalRetentionExpiry n) s = .next s)) ∧
  (∀ (s : State) (sub : Nat) (tag : Word64) (e : Dedup), s.dedupFind sub tag.toNat = some e →
    (((s.slot e.slot).live = false ∨ descSub (s.slot e.slot).desc ≠ sub ∨ descTag (s.slot e.slot).desc ≠ tag.toNat) →
      e.acceptNs + 600000000000 ≤ s.nowNs →
      ∃ t, exec (.dedupExpiry sub tag) s = .next t ∧ t = { s with req := { s.req with dedup := t.req.dedup } } ∧
        (∀ x, x ∈ t.req.dedup ↔ x ∈ s.req.dedup ∧ ¬(x.sub = sub ∧ x.tag = tag.toNat))) ∧
    (s.nowNs < e.acceptNs + 600000000000 → exec (.dedupExpiry sub tag) s = .next s))

/-- DEADLINE_EXPIRY at a boundary, of an accepted request in FRONT, PREFILL, DECODE, PARKED or REPLAY with no natural
end, deadline_strokes after its acceptance, leaves it DRAINING with end reason 4; before then, or away from a
boundary, it changes nothing. CITATION_MAP_POST of a pending map, once nothing of the ACCEPT record is owed (R37),
takes it whole: with room for every record, each takes the next position of the citation ring and the map is pending
no longer, and the ring then writes what it can; with too little room nothing of it is written, and the wait is
counted once. (R42, R285, R39) -/
def Obligations.DeadlineAndCitationMapTakeEffect : Prop :=
  (∀ (s : State) (n : Nat) (x : Slot), s.slot n = x → descDeadline x.desc ≠ 0 →
    x.state = .front ∨ x.state = .prefill ∨ x.state = .decode ∨ x.state = .parked ∨ x.state = .replay →
    x.acceptNs.isSome = true → x.natural = none →
    (s.time.phaseUs = 0 → x.acceptStroke + descDeadline x.desc ≤ s.strokeN + x.spent →
      ∃ t, exec (.deadlineExpiry n) s = .next t ∧ (t.slot n).state = .draining ∧ (t.slot n).doneCode = some 4) ∧
    (s.time.phaseUs ≠ 0 ∨ s.strokeN + x.spent < x.acceptStroke + descDeadline x.desc →
      exec (.deadlineExpiry n) s = .next s)) ∧
  (∀ (s : State) (n rid : Nat) (x : Slot) (r : Ring), s.slot n = x → x.mapPending = true → x.mapRecs ≠ [] → rid = descCit x.desc →
    s.acceptPast x rid = true → Tbl.look s.nor.rings rid = some r →
    (r.resv - r.cons + x.mapRecs.length ≤ r.entries →
      ∃ f, exec (.citationMapPost n) s = .next (((s.setRing rid
          { r with filled := f, resv := r.resv + x.mapRecs.length }).setSlot n { x with mapPending := false }).drainRing rid) ∧
        ∀ i, (h : i < x.mapRecs.length) → Tbl.look f (r.resv + i) = some (withCrc (x.mapRecs[i] ++ leBytes 8 (r.resv + i)))) ∧
    (r.entries < r.resv - r.cons + x.mapRecs.length →
      exec (.citationMapPost n) s = .next (if r.waiting then s else
        ((s.setRing rid { r with waiting := true }).bump (s.ringWh rid) 31 0x108 1).event (s.ringWh rid) 31 [sqBit 0x118 1] [])))

/-- A command that is the first its boundary takes, passes the checks of R62 and is not held for a halted paddock: DRAIN
takes a RUNNING or DRAINED paddock to DRAINED, RESUME takes one of these to RUNNING, and SET_WHEEL with entries in the
host area that name Tiller-using jobs of the paddock makes them the wheel, at entry 0. Each posts result 0, and beside
that, and the command's own receipt, changes nothing else of the state. A command of the Pumphouse that is not known
yet is received. (R57, R61, R62, R63, R64) -/
def Obligations.PaddockStateAndWheelCommandsApply : Prop :=
  (∀ (s u : State) (m : CmdMsg) (r : Recvd), u = s.untaken r →
    (CmdTaken s m 4 r → (u.paddock m.paddock).state = .running ∨ (u.paddock m.paddock).state = .drained →
      exec (.drain m) s = .next ((u.setPaddock m.paddock { u.paddock m.paddock with state := .drained }).cmdResult m 0 0)) ∧
    (CmdTaken s m 5 r → (u.paddock m.paddock).state = .running ∨ (u.paddock m.paddock).state = .drained →
      exec (.resume m) s = .next ((u.setPaddock m.paddock { u.paddock m.paddock with state := .running }).cmdResult m 0 0)) ∧
    (CmdTaken s m 3 r → u.inHost m.wheelRef (2 * m.wheelLen) = true →
      (∀ j ∈ u.wheelEntries m, (u.paddock m.paddock).jobs.contains j = true ∧ u.usesTillers j = true) →
      exec (.setWheel m) s = .next
        ((u.setPaddock m.paddock { u.paddock m.paddock with wheel := some (u.wheelEntries m), wheelPos := 0 }).cmdResult m 0 0))) ∧
  (∀ (s : State) (m : CmdMsg), m.source = 3 → s.dueOf m = none → (∀ r ∈ s.pad.recvd, r.msg ≠ m) → s.isHeld m = false →
    (m.cmd = 1 → exec (.loadJob m) s = .next (s.receive m)) ∧ (m.cmd = 2 → exec (.removeJob m) s = .next (s.receive m)) ∧
    (m.cmd = 3 → exec (.setWheel m) s = .next (s.receive m)) ∧ (m.cmd = 4 → exec (.drain m) s = .next (s.receive m)) ∧
    (m.cmd = 5 → exec (.resume m) s = .next (s.receive m)) ∧ (m.cmd = 6 → exec (.resize m) s = .next (s.receive m)) ∧
    (m.cmd = 7 → exec (.retireTiller m) s = .next (s.receive m)) ∧ (m.cmd = 8 → exec (.readmitTiller m) s = .next (s.receive m)))

/-- LOAD_JOB and RESIZE, when they are the first their boundary takes and pass the checks of R62, wait from then on for
their re-plan boundary. At it, staged and first in the order, LOAD_JOB of a plan that passes the checks of R55 marks the
plan loaded there with the next load number and puts the job last among the paddock's jobs, then places its pages,
publishes the sprint slots and posts result 0; RESIZE that its checks allow gives the paddock the ranks found for it
and the quotas of the message, Tillers that join and leave change role, and the result carries the published sprint
slot count. REMOVE_JOB of a job loaded there, at the boundary that takes it, clears what the job left, leaves its plan
not loaded and takes it out of the paddock's jobs, ranks again a paddock that a rank without a host keeps halted, and
posts result 0. (R54, R55, R57, R61, R62, R65) -/
def Obligations.JobCommandsApply : Prop :=
  (∀ (s u : State) (m : CmdMsg) (r : Recvd), u = s.untaken r →
    (CmdTaken s m 1 r → exec (.loadJob m) s = .next (u.awaitDue m)) ∧
    (CmdTaken s m 6 r → exec (.resize m) s = .next (u.awaitDue m)) ∧
    (∀ (p p' : Plan) (a b : State), CmdTaken s m 2 r → u.plan m.job = some p → p.loaded = some m.paddock →
      a = u.clearJob m.paddock m.job → a.plan m.job = some p' →
      b = a.putPlan m.job { p' with loaded := none, batch := [], next := [], ran := 0 } →
      exec (.removeJob m) s = .next (((((((b.setPaddock m.paddock ((b.paddock m.paddock).without m.job)).rerank
        m.paddock).publishSlots m.paddock).event 120 2 [padBit m.paddock 3] []).cmdResult m 0 0)).unhalt m.paddock))) ∧
  (∀ (q : Paddock) (j : Nat), (q.without j).jobs = q.jobs.filter (fun i => i ≠ j) ∧
    ((q.without j).jobs = [] → (q.without j).wheel = none) ∧ (q.occupant = j → (q.without j).stepOpen = none)) ∧
  (∀ (s u : State) (m : CmdMsg) (d : Due), u = s.undue d →
    (∀ (p : Plan) (a : State) (q : Paddock), CmdDue s m 1 d → u.loadCheck m true = 0 → u.plan m.job = some p →
      a = ({ u.putPlan m.job { p with loaded := some m.paddock, order := u.cis.loadSeq, batch := [], next := [], ran := 0 } with
        cis := { (u.putPlan m.job { p with
          loaded := some m.paddock, order := u.cis.loadSeq, batch := [], next := [], ran := 0 }).cis with
            loadSeq := u.cis.loadSeq + 1 } } : State) →
      q = u.paddock m.paddock →
      exec (.loadJob m) s = .next ((((((a.setPaddock m.paddock (Paddock.rewheel { q with
        state := if q.state = .empty then .running else q.state, jobs := q.jobs ++ [m.job] })).placeJob m.job).publishSlots
          m.paddock).event 120 2 [padBit m.paddock 3] []).cmdResult m 0 0).bumpCap u)) ∧
    (CmdDue s m 6 d → (u.doResize m true).2.1 = 0 →
      ∃ (q' : Paddock) (b : State), u.rankPad m.paddock (maskTillers m.tillers) = some q' ∧
        b = (maskTillers m.tillers).foldl (fun b t =>
            if (u.paddock m.paddock).tillers.contains t then b else b.setRole t .inService (some m.paddock))
          (u.setPaddock m.paddock { q' with
            state := if maskTillers m.tillers = [] ∧ (u.paddock m.paddock).jobs = [] then .empty
              else if (u.paddock m.paddock).state = .empty then .running else (u.paddock m.paddock).state
            lpddrGib := m.lpddrGib, sounder := m.sounderSlots, sprintS := m.sprintSlots }) ∧
        ∃ c : State, c = ((((u.paddock m.paddock).tillers.filter (fun t => !(maskTillers m.tillers).contains t)).foldl
            (fun c t => (c.idleUnits t).setRole t .inService none)
            (State.placePad (((u.paddock m.paddock).tillers.filter (fun t => !(maskTillers m.tillers).contains t)).foldl
              (fun c t => c.evacuate t) b) m.paddock)).publishSlots m.paddock).event 120 2 [padBit m.paddock 3] [] ∧
          exec (.resize m) s = .next (((c.unhalt m.paddock).setPoints.cmdResult m 0
            ((c.unhalt m.paddock).paddock m.paddock).sprintPub).bumpCap u)))

/-- RETIRE_TILLER, when it is the first its boundary takes and passes the checks of R62, waits from then on for its
re-plan boundary. At it, staged and first in the order, of a Tiller in service in that paddock, where a spare stands
ready, it moves the spare to the Tiller's place and rank, takes its pages away, places the paddock's pages, powers the
Tiller off (its role becomes RETIRED) and posts result 0; of a spare it powers it off, and promotions that named it name
another spare or none. READMIT_TILLER of a retired Tiller that is neither returning nor barred, at the boundary that
takes it, puts the Tiller into quarantine from this stroke with the command, and changes nothing else beside the
command's own receipt. (R61, R62, R65, R66, R67) -/
def Obligations.TillerCommandsApply : Prop :=
  (∀ (s u : State) (m : CmdMsg) (r : Recvd) (x : Nat), u = s.untaken r → maskTillers m.tillers = [x] →
    (CmdTaken s m 7 r → exec (.retireTiller m) s = .next (u.awaitDue m)) ∧
    (CmdTaken s m 8 r → (u.tiller x).role = .retired → u.returning x = false → u.flt.permanent.contains x = false →
      exec (.readmitTiller m) s = .next { u with pad := { u.pad with
        quars := u.pad.quars ++ [{ tiller := x, since := u.strokeN, cmd := some m }] } })) ∧
  (∀ (s u : State) (m : CmdMsg) (d : Due) (x : Nat), u = s.undue d → maskTillers m.tillers = [x] →
    (∀ (sp : Nat) (q : Paddock) (b : State), CmdDue s m 7 d → (u.tiller x).role = .inService → (u.tiller x).pad = some m.paddock →
      u.nextSpare = some sp → q = u.paddock m.paddock →
      b = State.placePad (((u.setPaddock m.paddock { q with
            tillers := insNat sp (q.tillers.filter (fun y => y ≠ x))
            ranks := q.ranks.map (fun y => if y = some x then some sp else y)
            hosted := q.hosted.map (fun e => if e.2 = x then (e.1, sp) else e) }).setRole sp .inService
          (some m.paddock)).evacuate x) m.paddock →
      exec (.retireTiller m) s = .next (((((b.powerOff x).event 120 2 [padBit m.paddock 3] []).setPoints).cmdResult m 0 0).bumpCap u)) ∧
    (CmdDue s m 7 d → (u.tiller x).role = .spare → u.pad.promos = [] →
      exec (.retireTiller m) s = .next ((({ (u.powerOff x).setPoints with
        pad := { (u.powerOff x).setPoints.pad with promos := [] } } : State).cmdResult m 0 0).bumpCap u))) ∧
  (∀ (a : State) (t : Nat), ((a.powerOff t).tiller t).role = .retired)

/-- TILLER_FAULT of a Tiller in service in a paddock, not failed already, posts FAULT 0x01 for its die, halts that paddock
and adds a promotion, in order of the failed Tillers, that names the lowest spare of the moment and this stroke. A halted
paddock stands HALTED, whatever its slots and Tillers held. SPARE_PROMOTION at a boundary, of a paddock all of whose
failures were detected in earlier strokes, completes every promotion of it, places the jobs again, publishes the sprint
slots, frees the commands held for it, and starts the stroke with what its wheel gave this stroke; the paddock stands
in the state it held. QUARANTINE_END 20,000 strokes after the start takes the Tiller out of quarantine: with a pass it is
listed to rejoin, without one it is retired for good and its command is refused with code 8; before that it changes
nothing. SPARE_FAILURE of a spare lists it to leave and posts FAULT 0x01. REPLAN_BOUNDARY at a boundary takes pending
columns, leaving Tillers, promotions, commands due, returning Tillers, restored paddocks, operating points and held
commands in that order, and raises cap_gen where the capability table changed; away from a boundary it changes
nothing. (R64, R65, R66, R67, R473, R492, R500) -/
def Obligations.TillerFailureAndReturnRunTheirCourse : Prop :=
  (∀ (s : State) (x pad : Nat) (c : TillerCause), x < 68 → (s.tiller x).role = .inService → (s.tiller x).pad = some pad →
    (∀ p ∈ s.pad.promos, p.failed ≠ x) →
    ∃ (a b h : State) (perm : Bool) (p : Promo), b = (a.postFault 1 (8 + x) (b2n perm)).dropPlanned x ∧ b.pad = s.pad ∧
      b.time = s.time ∧ h = (b.haltPad pad).tierLoss x ∧ (h.paddock pad).state = .halted ∧
      p.failed = x ∧ p.paddock = pad ∧ p.spare = h.nextSpare ∧ p.detect = s.strokeN ∧
      exec (.tillerFault x c) s = .next { h with pad := { h.pad with promos := sortBy Promo.failed (h.pad.promos ++ [p]) } }) ∧
  (∀ (s : State) (pad : Nat), ((s.haltPad pad).paddock pad).state = .halted) ∧
  (∀ (s : State) (pad : Nat), pad < 16 → s.time.phaseUs = 0 → (∃ p ∈ s.pad.promos, p.paddock = pad) →
    (∀ p ∈ s.pad.promos, p.paddock = pad → p.detect < s.strokeN) →
    ∃ u t : State, u = ((s.pad.promos.filter (fun p => p.paddock = pad)).foldl State.promoteOne s) ∧
      t = ((((((u.placePad pad).publishSlots pad).event 120 2 [padBit pad 3] []).unhalt pad).setPoints.freeHeld pad).setPoints).bumpCap s ∧
      exec (.sparePromotion pad) s = .next ((t.occupy pad
        (t.turnFrom pad ((t.paddock pad).wheelPos + (t.wheelOf pad).length - 1))).armSwitch true [])) ∧
  (∀ (s : State) (pad : Nat), (s.paddock pad).state = .halted → (s.paddock pad).noHost = false →
    (∀ p ∈ s.pad.promos, p.paddock ≠ pad) → ((s.unhalt pad).paddock pad).state = (s.paddock pad).heldState) ∧
  (∀ (s : State) (x : Nat) (q : Quar), s.pad.quars.find? (fun y => decide (y.tiller = x)) = some q →
    (q.since + 20000 ≤ s.strokeN →
      exec (.quarantineEnd x true) s = .next { s with pad := { s.pad with
        quars := s.pad.quars.filter (fun y => y.tiller ≠ x), rejoin := s.pad.rejoin ++ [(x, q.cmd)] } } ∧
      exec (.quarantineEnd x false) s = .next (s.quarFail x)) ∧
    (s.strokeN < q.since + 20000 → ∀ pass, exec (.quarantineEnd x pass) s = .next s)) ∧
  (∀ (s : State) (x : Nat), ∃ t : State, t.pad.quars = s.pad.quars.filter (fun y => y.tiller ≠ x) ∧
    t.flt.permanent = insNat x s.flt.permanent ∧
    s.quarFail x = ((s.pad.quars.filter (fun y => y.tiller = x)).filterMap Quar.cmd).foldl (fun t m => t.cmdResult m 8 0) t) ∧
  (∀ (s : State) (x : Nat), x < 68 → (s.tiller x).role = .spare → s.til.leaving.contains x = false →
    ∃ t, exec (.spareFailure x) s = .next t ∧ t.til.leaving = s.til.leaving ++ [x] ∧
      ∃ a : State, a.pad = s.pad ∧ t.mem = (a.postFault 1 (8 + x) 0).mem) ∧
  (∀ (s : State) (ready : List Nat), s.time.phaseUs = 0 →
    ∃ a b c d : State, a = s.bypassColumns.leaveNow ∧
      b = (List.range 16).foldl (fun t p => if t.promosDue ready p then t.promotePad p else t) a ∧
      c = (List.range 16).foldl State.restorePad ((b.applyDue ready).rejoins ready) ∧
      d = ((List.range 16).foldl State.freeHeld c.setPoints).setPoints ∧
      exec (.replanBoundary ready) s = .next ((d.bumpCap s).armSwitch true ready)) ∧
  (∀ (s : State) (ready : List Nat), s.time.phaseUs ≠ 0 → exec (.replanBoundary ready) s = .next s)

/-- PREFILL_COMPLETE of a request in PREFILL whose prompt is there, where the job keeps no KV or the pool has the pages its
rows need, leaves it in DECODE; where the pool lacks them it changes nothing. PARK of a request in DECODE outside
read-only marks it alone, and so does PAGE_WAIT_PARK of a bulk or front job, a request of which has waited 8 strokes and
none of which is marked, for the request in DECODE that its rule puts first; a boundary at which the marked request is
still in DECODE, and neither removed, cancelled nor past its deadline, parks it: it is PARKED, holds no page and waits
for none. SHARE_LOOKUP of a request in PREFILL or REPLAY of a job that shares looks the prompt's pages up from page 0,
and changes nothing for a request that holds pages or whose job shares none. CATALOGUE_GRACE_EXPIRY of a replayed
request in REPLAY or FRONT that is not restored ends it with reason 7 once 20,000 strokes of service have passed, and
not before. (R41, R47, R197, R199, R200, R235) -/
def Obligations.RequestsMoveThroughPrefillDecodeAndParking : Prop :=
  (∀ (s : State) (n : Nat), (s.slot n).state = .prefill → descRecipe (s.slot n).desc ≠ 0 ∨ (s.slot n).tokDone = true →
    ((s.kvd (descJob (s.slot n).desc)).isEmpty = true ∨ s.kvFits n ((s.slot n).promptTokens.length - (s.slot n).rows) = true →
      ∃ t, exec (.prefillComplete n) s = .next t ∧ (t.slot n).state = .decode) ∧
    ((s.kvd (descJob (s.slot n).desc)).isEmpty = false → s.kvFits n ((s.slot n).promptTokens.length - (s.slot n).rows) = false →
      exec (.prefillComplete n) s = .next s)) ∧
  (∀ (s : State) (n : Nat), (s.slot n).state = .decode → s.wdl.readOnly = false →
    exec (.park n) s = .next (s.setSlot n { s.slot n with parkDue := true })) ∧
  (∀ (s : State) (job n : Nat) (p : Plan), s.plan job = some p → p.sprint = false → s.wdl.readOnly = false →
    (∃ i ∈ s.slotsOf job, 8 ≤ (s.slot i).waitStrokes) → (∀ i ∈ s.slotsOf job, (s.slot i).parkDue = false) →
    minBy (fun n => (16384 - s.ownPages (s.slot n)) * 32768 + (32767 - n))
      ((s.slotsOf job).filter (fun n => decide ((s.slot n).state = .decode))) = some n →
    exec (.pageWaitPark job) s = .next (s.setSlot n { s.slot n with parkDue := true })) ∧
  (∀ (s : State) (n : Nat), (s.slot n).parkDue = true → (s.slot n).state = .decode → (s.slot n).natural = none →
    (s.slot n).removed = false → (s.slot n).cancel = false → s.deadlineDue (s.slot n) = false → s.wdl.readOnly = false →
    ((s.boundarySlot n).slot n).state = .parked ∧ ((s.boundarySlot n).slot n).kv = [] ∧ ((s.boundarySlot n).slot n).waitStrokes = 0) ∧
  (∀ (s : State) (n : Nat), (s.slot n).state = .prefill ∨ (s.slot n).state = .replay →
    (kvShare (s.kvd (descJob (s.slot n).desc)) = true → (s.slot n).kv = [] →
      exec (.shareLookup n) s = .next (State.kvLookup ((s.slot n).promptTokens.length / 64 + 1) s n 0)) ∧
    (kvShare (s.kvd (descJob (s.slot n).desc)) = false ∨ (s.slot n).kv ≠ [] → exec (.shareLookup n) s = .next s)) ∧
  (∀ (s : State) (n : Nat), s.boot.ready = true → (s.slot n).state = .replay ∨ ((s.slot n).state = .front ∧ 0 < (s.slot n).replays) →
    s.restored (s.slot n) = false →
    (s.boot.firstStroke + 20000 ≤ s.strokeN → exec (.catalogueGraceExpiry n) s = .next (s.endRequest n 7)) ∧
    (s.strokeN < s.boot.firstStroke + 20000 → exec (.catalogueGraceExpiry n) s = .next s))

/-- DECODE_STEP_END of a loaded job whose paddock is not halted delivers the tokens chosen for each of its requests
that ran, in slot order, with the step's KV work of each, then begins DRAINING of each that reached a natural end,
empties the job's batch, and closes an open sprint step, which past 40 us of its own stroke, to the nanosecond, counts
as late; a halted paddock's step is lost. Before that, pages of the requests' KV on flash whose read failed in the step
are lost (the model's reading, log entry 101). BATCH_LIST_WRITE writes, for each loaded model-service job in turn, its list at its index list
address, notes the stroke, and advances its batch counter by 1. REPLAY_CATCH_UP of a request in REPLAY whose prompt is
there: one of service 2 or 3 has nothing to regenerate and drains with reason 6; where its job runs, one whose history
survives, or of which nothing is to be suppressed, continues from that history, and a regenerated token that differs
from it ends the request with reason 8; one whose history is lost regenerates from seq 0. (R41, R47, R59, R191, R262,
R283) -/
def Obligations.StepsEndAndReplayCatchesUp : Prop :=
  (∀ (s l a b c : State) (job us ns pad : Nat) (p : Plan) (ran bad : List Nat),
    s.job job = some p → pad = p.loaded.getD 0 →
    ran = (s.slotsOf job).filter (fun n => decide ((s.slot n).state = .decode) &&
      (p.batch.contains n || !(s.slot n).opened.isEmpty)) →
    l = s.losePages job (bad.filter (fun v => ran.any (fun n => (s.kvVpns (s.slot n)).contains v))) →
    a = ran.foldl (fun s n => (s.commitOpen n).kvStep n) l →
    b = ran.foldl (fun s n => match (s.slot n).natural with
      | some c => s.beginDrain n c
      | none => s) a →
    c = b.putPlan job { p with batch := [], ran := 0 } →
    ((s.paddock pad).state = .halted → exec (.decodeStepEnd job us ns bad) s = .next s) ∧
    ((s.paddock pad).state ≠ .halted →
      ((c.paddock pad).stepOpen = none ∨ p.sprint = false → exec (.decodeStepEnd job us ns bad) s = .next c) ∧
      (∀ o, (c.paddock pad).stepOpen = some o → p.sprint = true →
        exec (.decodeStepEnd job us ns bad) s = .next
          ((if o = c.strokeN ∧ 40000 < 1000 * us + ns then c.bump 120 2 (0x110 + 0x20 * pad) 1 else c).setPaddock pad
            { c.paddock pad with stepOpen := none })))) ∧
  (∀ one : State → Nat → Plan → State,
    (∀ (t v : State) (job : Nat) (p : Plan),
      v = t.vaWrite (t.whOf (job % 4)) job (Config.planIndexList p.image) (t.batchList p) →
      one t job p = ({ v with shf := { v.shf with batch := Tbl.put v.shf.batch job v.strokeN } } : State).advanceFld
        (Config.planBatchCtr p.image) 1) →
    ∀ s : State, exec .batchListWrite s = .next
      ((s.cis.plans.filter (fun e => e.2.loaded.isSome && planKind e.2.hdr == 0)).foldl (fun t e => one t e.1 e.2) s)) ∧
  (∀ (s t : State) (n : Nat) (steps : List (List Nat)) (unreadable : List Nat) (tiller : Nat),
    (s.slot n).state = .replay → s.replayPrompt n = some t →
    (1 < descService (s.slot n).desc →
      exec (.replayCatchUp n steps unreadable tiller) s = .next (t.beginDrain n 6)) ∧
    (descService (s.slot n).desc ≤ 1 → s.jobRuns (descJob (s.slot n).desc) = true →
      ((s.slot n).history ≠ [] ∨ (s.slot n).suppress = 0 →
        exec (.replayCatchUp n steps unreadable tiller) s = .next (t.replayKept n steps unreadable tiller) ∧
        (¬ steps.flatten.take (s.slot n).history.length <+: (s.slot n).history.map Hist.token → (s.slot n).opened = [] →
          (s.slot n).natural = none →
          ∃ u, exec (.replayCatchUp n steps unreadable tiller) s = .next u ∧
            (u.slot n).state = .draining ∧ (u.slot n).doneCode = some 8)) ∧
      ((s.slot n).history = [] → 0 < (s.slot n).suppress →
        exec (.replayCatchUp n steps unreadable tiller) s = .next (t.replayFresh n steps))) ∧
    (descService (s.slot n).desc ≤ 1 → s.jobRuns (descJob (s.slot n).desc) = false →
      exec (.replayCatchUp n steps unreadable tiller) s = .next s))

/-- Once the strokes have started, outside the safe state and past a route switch, STROKE_BOUNDARY counts the stroke that
closes, advances the counter and time, then ports, meters, tiers, cooling, the power cap and the staged changes act in
that order: re-plan, commands taken, service without commands, activations, a staged time, the slots, search calls, the
batches, and the route switch. Advancing adds 1 to the stroke number, or takes the ring's number where a lengthened
stroke ends, adds 50,000 ns to module time, or takes a greater saved value, and starts the new stroke at its
microsecond 0; nothing else but the ring's two one-stroke adjustments and the strokes of service changes with it.
Before the strokes start, in the safe state, and while the routers pause, it changes nothing. COMPOSITION_CUT in service
cuts every paddock in the state whose stroke is marked cut and whose time is at or past 35 us, and counts the stroke
for each request that waits for a page; in a stroke that is marked already, out of service, or in a shutdown, it
changes nothing. (R50, R51, R52, R53, R199, R520) -/
def Obligations.StrokeBoundaryAdvancesTime : Prop :=
  (∀ (s : State) (watts : Nat) (draw ready : List Nat), s.boot.started = true → s.flt.safe = false → s.rhz.pausing = false →
    ∃ u v w : State, u = s.noteMissed.noteDuty.advanceTime ∧ v = ((u.portTick 0).portTick 1).refillAll ∧
      w = ({ v with
            tmg := { v.tmg with passes := [] }
            wdl := { v.wdl with sinceCkpt := if v.wdl.mounted then v.wdl.sinceCkpt + 1 else 0 } } : State) ∧
      exec (.strokeBoundary watts draw ready) s = .next
        (((((w.tiersBoundary.coolAll.capControl watts draw).boundaryItems ready).setPoints).keepTmg.writeConfig).shutStep)) ∧
  (∀ (s : State) (watts : Nat) (draw ready : List Nat), s.boot.started = false ∨ s.flt.safe = true ∨ s.rhz.pausing = true →
    exec (.strokeBoundary watts draw ready) s = .next s) ∧
  (∀ (s : State) (ready : List Nat), ∃ a b c d : State, a = (if s.replanDue ready then s.replan ready else s) ∧
    b = a.takeCommands.serviceBoundary ∧ c = (b.activations ready).timeApply ∧ d = c.boundarySlots.callsGo.startBatches ∧
    s.boundaryItems ready = d.armSwitch (s.replanDue ready) ready) ∧
  (∀ s : State, s.zio.takeStroke = none → s.advanceTime.time.stroke = s.time.stroke + 1) ∧
  (∀ (s : State) (v : Nat), s.zio.takeStroke = some v → v < 2 ^ 64 → s.advanceTime.strokeN = v ∧ s.advanceTime.zio.takeStroke = none) ∧
  (∀ s : State, s.time.resume = none → s.advanceTime.time.boundNs = s.time.boundNs + 50000) ∧
  (∀ (s : State) (v : Word64), s.time.resume = some v → s.time.boundNs.toNat + 50000 ≤ v.toNat → s.advanceTime.time.boundNs = v) ∧
  (∀ s : State, s.advanceTime.time.phaseUs = 0 ∧ s.advanceTime.boot.upStrokes = s.boot.upStrokes + 1 ∧
    s.advanceTime.req = s.req ∧ s.advanceTime.mem = s.mem ∧ s.advanceTime.pg = s.pg ∧ s.advanceTime.pad = s.pad) ∧
  (∀ (s u : State), s.boot.ready = true → s.boot.shutting = false → s.time.cut ≠ some s.strokeN →
    u = ({ s with time := { s.time with cut := some s.strokeN, phaseUs := max s.time.phaseUs 35 } } : State) →
    exec .compositionCut s = .next ((List.range 16).foldl State.cutPad u).countWaits) ∧
  (∀ s : State, s.boot.ready = false ∨ s.boot.shutting = true ∨ s.time.cut = some s.strokeN →
    exec .compositionCut s = .next s)

/-- For a Winnow whose next descriptor may start: a SELECT, or a descriptor of no op, moves the list on by 64 bytes and
runs the selection if its checks pass, or is counted, logged with its address and code, and answered as R213 says if
they do not. A SAMPLE whose checks pass and whose mask is in the cache moves the list on, chooses a token from the row and
the mask, scans, counts, records the token and ends; one whose mask is not there asks for it once and waits, once however
often it is tried. A SAMPLE refused with code 6 chooses nothing and ends; one refused with another code records the
degenerate token for the request that holds its slot, and token 0, dropped, where none of the running job does. END stops
the unit, one that is refused after it is logged. MASK_FETCH puts the oldest mask on its way into the cache and counts
its bytes; where a SAMPLE waits for that very mask, free cycles of its wait are counted as well. (R206, R210, R211, R213,
R224, R225, R226, R232) -/
def Obligations.WinnowCommandsTakeEffect : Prop :=
  (∀ (s : State) (t a : Nat) (d : List Byte), s.winNext t = some (a, d) → wdOp d ≠ 1 → wdOp d ≠ 2 →
    (s.wdCheck t d = 0 → exec (.select t) s = .next ((s.winTook t a d).runSelect t d)) ∧
    (∀ code, code ≠ 0 → s.wdCheck t d = code →
      exec (.select t) s = .next (((s.winTook t a d).winRefuse t a code).refusedSelect t d))) ∧
  (∀ (s u : State) (t a : Nat) (d : List Byte) (ds : List Nat) (x : Slot) (key : Option (Nat × Nat)),
    s.winNext t = some (a, d) → wdOp d = 1 → s.wdCheck t d = 0 → x = s.slot (wdSlot d) → key = s.maskKey x (wdPos d) →
    u = (s.winTook t a d).maskAsk t key →
    (key = none ∨ (∃ k, key = some k ∧ (s.win t).cache.contains k = true) →
      ∀ c v, c = u.chooseToken t d x (grmMaskOf (s.grmImage x) (x.ctxAt (wdPos d))) (x.seqAt (wdPos d)) →
        v = (((c.1.winScan t (wdN d) c.2.2.2.2.2.2.2.2.1).bumpWide (8 + t) 26 4 0 1).bumpWide (8 + t) 26 3 0 (sampleCycles d x)) →
        exec (.sample t ds) s = .next ((v.recordToken t d ds c.2).winDone t d)) ∧
    (∀ k, key = some k → (s.win t).cache.contains k = false →
      ((s.win t).waiting = none → ∀ v, v = s.maskAsk t key →
        exec (.sample t ds) s = .next
          (((v.setWin t { v.win t with waiting := key }).bump (8 + t) 27 0x108 1).event (8 + t) 27 [sqBit 0x118 0] [])) ∧
      ((s.win t).waiting ≠ none → exec (.sample t ds) s = .next s))) ∧
  (∀ (s u : State) (t a code : Nat) (d : List Byte) (ds : List Nat), s.winNext t = some (a, d) → wdOp d = 1 →
    s.wdCheck t d = code → code ≠ 0 → u = (s.winTook t a d).winRefuse t a code →
    (code = 6 → exec (.sample t ds) s = .next (u.winDone t d)) ∧
    (code ≠ 6 → ∃ (f : State) (c : Nat × Nat × Nat × Nat × Nat × Nat × Nat × Nat × Bool × Bool),
      f = { u with freeCount := f.freeCount } ∧ c.2.1 = 0 ∧ c.2.2.2.2.2.2.2.2.2 = true ∧
      c.1 = (if u.wdSlotOk t d then
        degenerateTok (grmMaskOf (u.grmImage (s.slot (wdSlot d))) ((s.slot (wdSlot d)).ctxAt (wdPos d))) (u.vocabOn t) else 0) ∧
      exec (.sample t ds) s = .next ((f.recordToken t d ds c).winDone t d))) ∧
  (∀ (s v : State) (t a : Nat) (d : List Byte), s.winNext t = some (a, d) → wdOp d = 2 →
    v = (if s.wdCheck t d = 0 then s else s.winRefuse t a (s.wdCheck t d)) →
    exec (.winnowEnd t) s = .next (v.setWin t { v.win t with at_ := none })) ∧
  (∀ (s u : State) (t : Nat) (k : Nat × Nat) (rest : List (Nat × Nat)), (s.win t).fetching = k :: rest →
    u = (((s.setWin t { s.win t with fetching := rest }).cacheIn t k)) →
    ((s.win t).waiting ≠ some k → exec (.maskFetch t) s = .next (u.bumpWide (8 + t) 27 2 0 (u.keyBytes k))) ∧
    ((s.win t).waiting = some k → ∃ (f : State) (n : Nat), f = { u.bumpWide (8 + t) 27 2 0 (u.keyBytes k) with freeCount := f.freeCount } ∧
      exec (.maskFetch t) s = .next (f.bumpWide (8 + t) 27 1 0 n)))

/-- Ranking the included entries of a row loses none and repeats none of them; of two entries of the ranking the
earlier never ranks after the later: its value, with NaN as minus infinity, is not smaller, and where the values are
equal (+0 and -0 included) its index is not larger. The selected entries are the first min(k, included) of the
ranking. An entry that is excluded, by its mask in a SAMPLE or by its index, is not among the included ones. (R206) -/
def Obligations.RankingKeepsTheRowInOrder : Prop :=
  (∀ l : List (Nat × Nat), (rankSort l).Perm l ∧
    (rankSort l).Pairwise (fun a b => fLt (nanLow a.1) (nanLow b.1) = false ∧
      (fLt (nanLow b.1) (nanLow a.1) = false → a.2 ≤ b.2)) ∧
    ∀ k, ((rankSort l).take k).length = min k l.length) ∧
  (∀ (row : List (Nat × Nat × Bool)) (mask : Option (List Byte)) (tok : Nat), tokenAllowed mask tok = false →
    ∀ e ∈ winIncluded (row.map (fun e => (e.1, e.2.1, e.2.2 && tokenAllowed mask e.2.1))), e.2 ≠ tok) ∧
  (∀ (row : List (Nat × Nat × Bool)) (v i : Nat), (v, i) ∈ winIncluded row ↔ (v, i, true) ∈ row)

/-- For a command on its MOD page that passes the gate while none is under way there: REGISTER of a grammar, tokenizer
table or recipe that passes every check enters the image under its id and reads DONE with code 0; one that fails a
check changes nothing but the result, which carries the code, and the refused bit. UNREGISTER of an id no live request
(no loaded job, for a tokenizer table) names takes it out; a grammar or recipe in use is closed and its result reads
PENDING until CATALOGUE_FREED, which takes it out once nothing names it and until then changes nothing; a tokenizer
table in use is refused, and so is an id that is 0 or not registered, with its own codes. A command written while one is
under way is dropped with error 0x01. (R219, R220, R240, R270) -/
def Obligations.CatalogueCommandsTakeEffect : Prop :=
  (∀ (s : State) (req : Requester) (id : Nat) (img : List Byte), id < 4096 → s.gate req 120 4 1 = (s, true) →
    s.cmdBusy 120 4 0x10C = false →
    (∀ c, s.grmRegister id (s.cmdAddr 4) = (c, img) → exec (.grammarRegister req id) s = .next ((if c = 0 then
      ({ s with cat := { s.cat with grm := Tbl.put s.cat.grm id { bytes := img } } } : State) else s).cmdDone 4 c id)) ∧
    (s.grammar id = none → exec (.grammarUnregister req id) s = .next (s.cmdDone 4 (if id = 0 then 2 else 8) id)) ∧
    (∀ g, s.grammar id = some g → s.grmUsed id = false →
      exec (.grammarUnregister req id) s = .next ((s.grmFree id).cmdDone 4 0 id)) ∧
    (∀ g, s.grammar id = some g → s.grmUsed id = true → exec (.grammarUnregister req id) s = .next
      (({ s with cat := { s.cat with grm := Tbl.put s.cat.grm id { g with closed := true } } } : State).setResult 120 4 0x10C 2 0 id))) ∧
  (∀ (s : State) (req : Requester) (id : Nat) (img : List Byte), id < 256 → s.gate req 120 5 1 = (s, true) →
    s.cmdBusy 120 5 0x10C = false →
    (∀ c, s.tokRegister id (s.cmdAddr 5) = (c, img) → exec (.tokenizerRegister req id) s = .next ((if c = 0 then
      ({ s with cat := { s.cat with tok := Tbl.put s.cat.tok id { bytes := img } } } : State) else s).cmdDone 5 c id)) ∧
    (Tbl.look s.cat.tok id = none → exec (.tokenizerUnregister req id) s = .next (s.cmdDone 5 (if id = 0 then 2 else 7) id)) ∧
    (∀ g, Tbl.look s.cat.tok id = some g → s.tokUsed id = false → exec (.tokenizerUnregister req id) s = .next
      (({ s with cat := { s.cat with tok := Tbl.del s.cat.tok id } } : State).cmdDone 5 0 id)) ∧
    (∀ g, Tbl.look s.cat.tok id = some g → s.tokUsed id = true →
      exec (.tokenizerUnregister req id) s = .next (s.cmdDone 5 8 id))) ∧
  (∀ (s : State) (req : Requester) (id : Nat) (img : List Byte), id < 4096 → s.gate req 120 7 1 = (s, true) →
    s.cmdBusy 120 7 0x10C = false →
    (∀ c, s.rcpRegister id (s.cmdAddr 7) = (c, img) → exec (.recipeRegister req id) s = .next ((if c = 0 then
      ({ s with cat := { s.cat with rcp := Tbl.put s.cat.rcp id { bytes := img } } } : State) else s).cmdDone 7 c id)) ∧
    (s.recipe id = none → exec (.recipeUnregister req id) s = .next (s.cmdDone 7 (if id = 0 then 2 else 6) id)) ∧
    (∀ g, s.recipe id = some g → s.rcpUsed id = false → exec (.recipeUnregister req id) s = .next
      (({ s with cat := { s.cat with rcp := Tbl.del s.cat.rcp id } } : State).cmdDone 7 0 id)) ∧
    (∀ g, s.recipe id = some g → s.rcpUsed id = true → exec (.recipeUnregister req id) s = .next
      (({ s with cat := { s.cat with rcp := Tbl.put s.cat.rcp id { g with closed := true } } } : State).setResult 120 7 0x10C 2 0 id))) ∧
  (∀ (s : State) (id : Nat) (g : CatImg), g.closed = true →
    (Tbl.look s.cat.grm id = some g →
      (s.grmUsed id = false → exec (.catalogueFreed false id) s = .next ((s.grmFree id).cmdDone 4 0 id)) ∧
      (s.grmUsed id = true → exec (.catalogueFreed false id) s = .next s)) ∧
    (Tbl.look s.cat.rcp id = some g →
      (s.rcpUsed id = false → exec (.catalogueFreed true id) s = .next
        (({ s with cat := { s.cat with rcp := Tbl.del s.cat.rcp id } } : State).cmdDone 7 0 id)) ∧
      (s.rcpUsed id = true → exec (.catalogueFreed true id) s = .next s))) ∧
  (∀ (s : State) (req : Requester) (id : Nat),
    (s.gate req 120 4 1 = (s, true) → s.cmdBusy 120 4 0x10C = true →
      exec (.grammarRegister req id) s = .next (s.err 120 4 1) ∧ exec (.grammarUnregister req id) s = .next (s.err 120 4 1)) ∧
    (s.gate req 120 5 1 = (s, true) → s.cmdBusy 120 5 0x10C = true →
      exec (.tokenizerRegister req id) s = .next (s.err 120 5 1) ∧ exec (.tokenizerUnregister req id) s = .next (s.err 120 5 1)) ∧
    (s.gate req 120 7 1 = (s, true) → s.cmdBusy 120 7 0x10C = true →
      exec (.recipeRegister req id) s = .next (s.err 120 7 1) ∧ exec (.recipeUnregister req id) s = .next (s.err 120 7 1)))

/-- Under a disabled service meter every request is coloured red, is refused, debits nothing and its refusal carries
aux0 0xFFFF_FFFF, whatever the aggregate meter holds. Under an enabled service meter and a disabled aggregate meter
the colour is the one the service meter gives, and the aggregate entry is unchanged; so a request is admitted for a
subscriber, by any meter state, only if its service meter is enabled. (R75) -/
def Obligations.DisabledMetersColourAsStated : Prop :=
  (∀ (svc agg : Meter) (mp mn : Nat) (guard : Bool), svc.enable = false →
    meterBoth svc agg mp mn = (2, svc, agg) ∧ meterRefuses svc (meterBoth svc agg mp mn).1 = true ∧
      redWait svc agg guard mp mn = 0xFFFFFFFF) ∧
  (∀ (svc agg : Meter) (mp mn : Nat), svc.enable = true → agg.enable = false →
    (meterBoth svc agg mp mn).1 = (meterColour svc.mode false 0 svc.tc svc.tp (svc.cost mp mn)).1 ∧
      (meterBoth svc agg mp mn).2.2 = agg) ∧
  (∀ (svc agg : Meter) (mp mn : Nat), meterRefuses svc (meterBoth svc agg mp mn).1 = false → svc.enable = true)

/-- For a bucket at or below its size whose accumulator is below 20,000, the contents after n refills of R76, made one
after another, are the least of the size and the old contents plus (acc + n x 256 x rate) // 20,000, which is what the
model computes in one step. A refill leaves an enabled entry's buckets at or below their sizes and the accumulators
below 20,000; a disabled entry is left as it is. Colouring never raises a bucket, and leaves both buckets as they were
when the colour is red. (R76, R79) -/
def Obligations.RefillIsExactOverManyStrokes : Prop :=
  (∀ (n r z x a : Nat), x ≤ z → a < 20000 →
    ((fun e : Nat × Nat => refill1 r z e.1 e.2)^[n] (x, a)).1 = refillN n r z x a) ∧
  (∀ m : Meter, m.enable = true → m.refill.tc ≤ m.zc ∧ m.refill.tp ≤ m.zp ∧ m.refill.accC < 20000 ∧ m.refill.accP < 20000) ∧
  (∀ m : Meter, m.enable = false → m.refill = m) ∧
  (∀ (mode aware : Bool) (pre tc tp b : Nat), (meterColour mode aware pre tc tp b).2.1 ≤ tc ∧
    (meterColour mode aware pre tc tp b).2.2 ≤ tp ∧
    ((meterColour mode aware pre tc tp b).1 = 2 → (meterColour mode aware pre tc tp b).2 = (tc, tp)))

/-- Where the guard is not red, the service meter is enabled, and a request that is refused now would pass after 2^48
strokes of refill, the model's wait is such that it passes after that many strokes (where the wait fits 32 bits) and
after no smaller number of strokes. Where no number up to 2^48 lets it pass, or the guard is red, the wait is
0xFFFF_FFFF. (R76, R79) -/
def Obligations.RedWaitIsTheFewestStrokes : Prop :=
  (∀ (svc agg : Meter) (mp mn w : Nat), svc.enable = true → passesAfter svc agg mp mn 0 = false →
    passesAfter svc agg mp mn (2 ^ 48) = true → w = redWait svc agg false mp mn →
    (w < 0xFFFFFFFF → passesAfter svc agg mp mn w = true) ∧ ∀ k < w, passesAfter svc agg mp mn k = false) ∧
  (∀ (svc agg : Meter) (mp mn : Nat) (guard : Bool), guard = true ∨ passesAfter svc agg mp mn (2 ^ 48) = false →
    redWait svc agg guard mp mn = 0xFFFFFFFF)

/-- EGRESS_GRANT at a slice and port takes the staged weights of the slice's waiting queues, and then, where a queue is
ready, grants one burst to a queue of the first service in the order sprint, front, search, bulk that has one ready, the
queue the deficit round robin picks, and moves the round on; with none ready it grants nothing. The round robin over
queues of weight 1 or more with bursts of at most 512 bytes always picks one of them, with a deficit that its burst does
not exceed. CALENDAR_PASS takes the weights, moves the slice's microsecond on by one, empties a due overflow slot into
the calendar, and empties that microsecond's slot, each entry becoming due. TELEMETRY_SAMPLE in a stroke that is a
multiple of 1,024 notes each queue's head delay, posts or drops a record of each active queue of the slice, keeps active
the queues that still hold records, and starts the slice's refusal counts anew; in another stroke it changes nothing.
HEAT_HALVING at the boundary of such a stroke, once, halves every page's heat, rounding down, before the scan; else it
changes nothing. (R84, R85, R86, R87, R91, R333, R336) -/
def Obligations.TrafficCommandsTakeEffect : Prop :=
  (∀ (s u : State) (w p v q : Nat) (d : Tbl Nat), w < 4 → p < 4 → u = s.takeWeights w →
    [0, 2, 3, 1].find? (fun v => !(u.readyQueues w p v).isEmpty) = some v → u.egressPick w p v = some (q, d) →
    exec (.egressGrant w p) s = .next ((({ u with tmg := { u.tmg with deficit := d } } : State).grantQueue w q).roundAt
      ((w * 4 + p) * 4 + v) q)) ∧
  (∀ (s : State) (w p : Nat), w < 4 → p < 4 → (∀ v < 4, (s.takeWeights w).readyQueues w p v = []) →
    exec (.egressGrant w p) s = .next (s.takeWeights w)) ∧
  (∀ (weight need : Nat → Nat) (pos : Nat) (qs : List Nat) (def_ : Tbl Nat), qs ≠ [] →
    (∀ q ∈ qs, 1 ≤ weight q ∧ need q ≤ 512) →
    ∃ q d, drrGo weight need pos qs def_ = some (q, d) ∧ q ∈ qs ∧ need q ≤ Tbl.val 0 d q) ∧
  (∀ (s u v : State) (w now n : Nat), w < 4 → now = s.calUs w + 1 → n = Tbl.val 0 s.tmg.passes w + 1 →
    (∀ t : State, t = s.takeWeights w → u = ({ t with
      tmg := { t.tmg with calUs := Tbl.set 0 t.tmg.calUs w now, passes := Tbl.set 0 t.tmg.passes w n }
      time := { t.time with phaseUs := max t.time.phaseUs (min n (t.time.strokeNs / 1000 - 1)) } } : State)) →
    (now % 4096 ≠ 0 → v = u) →
    (now % 4096 = 0 → v = (u.calTake w (4096 + now / 4096 % 4096)).1.foldl (fun s e => s.calEnter w e.1 e.2)
      (u.calTake w (4096 + now / 4096 % 4096)).2) →
    exec (.calendarPass w) s = .next ((v.calTake w (now % 4096)).1.foldl (fun s e => s.calDue w e)
      (v.calTake w (now % 4096)).2)) ∧
  (∀ (s u v : State) (w : Nat) (act : List Nat), w < 4 → s.strokeN % 1024 = 0 →
    u = ({ s with tmg := { s.tmg with
      headDelay := (s.sampleQueues w).foldl (fun t q => Tbl.set 0 t q (s.headDelayNow q)) s.tmg.headDelay } } : State) →
    act = s.tmg.active.filter (fun q => q / 16 % 4 = w) → v = act.foldl (fun s q => s.telemPost w q) u →
    ∃ keep : List Nat, (∀ q, q ∈ keep ↔ q ∈ v.tmg.active ∧ (q / 16 % 4 = w → q ∈ act ∧ v.queue q ≠ [])) ∧
      exec (.telemetrySample w) s = .next { v with tmg := { v.tmg with
        active := keep, refusedSince := v.tmg.refusedSince.filter (fun e => e.1 / 4 % 4 ≠ w) } }) ∧
  (∀ (s : State) (w q ring : Nat), ring = (s.reg w 11 0x100).toNat →
    (ring = 0 → s.telemPost w q = s) ∧
    (ring ≠ 0 → (∀ r, Tbl.look s.nor.rings ring = some r → r.kind = 7 → r.bind = w → r.hasRoom = true →
        s.telemPost w q = s.postRing ring (fun _ => s.telemRec q)) ∧
      (∀ r, Tbl.look s.nor.rings ring = some r → r.hasRoom = false →
        s.telemPost w q = (s.bump w 11 0x110 1).event w 11 [sqBit 0x118 2] []))) ∧
  (∀ (s : State) (w : Nat), s.strokeN % 1024 ≠ 0 → exec (.telemetrySample w) s = .next s ∧ exec .heatHalving s = .next s) ∧
  (∀ (s u v : State), s.strokeN % 1024 = 0 → s.time.phaseUs = 0 →
    u = s.mapPtes (fun _ e => { e with heat := e.heat / 2 }) →
    v = u.cis.ptes.foldl (fun s e => s.scanPage (e.1 / 4294967296) (e.1 % 4294967296)) u →
    (s.cis.halvedAt ≠ s.strokeN + 1 → exec .heatHalving s = .next { v with cis := { v.cis with halvedAt := v.strokeN + 1 } }) ∧
    (s.cis.halvedAt = s.strokeN + 1 → exec .heatHalving s = .next s))

/-- TOKENISE of a lane with a waiting descriptor takes it off the work ring, runs it with the registered table it
names if it passes the checks of R247 and else answers it with the code of the first that fails; either way the
counter it names advances by 1 and cores that waited for room go on. A refusal is charged to the core that issued it,
which fails where it is live, and the request's TOKENISE is issued again where it still wants its tokens. With an empty
ring it changes nothing. DETOKENISE of a slot's next delivered token takes it off, counts it at a lane of the slot's
Wellhead, keeps the bytes the detokenizer holds back, and queues the records its bytes make; of any other token it
changes nothing. (R241, R245, R247, R249, R251, R499) -/
def Obligations.QuernCommandsTakeEffect : Prop :=
  (∀ (s u : State) (l : Nat) (d : List Byte) (rest : List (List Byte)), s.lane l = d :: rest →
    u = ({ s with qrn := { s.qrn with lanes := Tbl.set [] s.qrn.lanes l rest } } : State) →
    (∀ tab, u.qrnCheck d = 0 → Tbl.look s.cat.tok (fld d 6 1) = some tab →
      exec (.tokenise l) s = .next (((u.runTokenise l d tab.bytes).advanceFld (fld d 0x24 4) 1).qrnWaiters)) ∧
    (∀ (c n core : Nat) (v w : State), c ≠ 0 → u.qrnCheck d = c →
      v = ((u.refuseTokenise l d c).advanceFld (fld d 0x24 4) 1).qrnWaiters → n = fld d 8 4 → core = v.coreOf (v.slot n).core →
      w = (if (v.slot n).live && v.coreLive core then v.coreFail core else v) →
      exec (.tokenise l) s = .next (if (w.slot n).live && !(w.slot n).tokDone && decide ((w.slot n).state ≠ .admitted) then
        w.qrnIssue n else w))) ∧
  (∀ (s : State) (l : Nat), s.lane l = [] → exec (.tokenise l) s = .next s) ∧
  (∀ (s : State) (n seq tok : Nat) (last : Bool) (rest : List (Nat × Nat × Bool)), (s.slot n).detok = (seq, tok, last) :: rest →
    (∀ (r : List Byte × List Byte × Nat) (fin : Bool), fin = (last || ((s.slot n).doneCode.isSome && rest.isEmpty)) →
      r = detokStep (s.tokOf (s.slot n)) (s.slot n).heldBytes tok fin →
      ∃ (w lane : Nat) (u : State), w = s.whOf (slotWh n) ∧ lane < 4 ∧ u.req = s.req ∧ u.mem = s.mem ∧
        u = (((s.drawWord.2.bumpWide w 10 3 lane
          (max 1 (ceilDiv (renderTok (s.tokOf (s.slot n)) tok).length 16))).bumpWide w 10 4 lane 1).bumpWide w 10 5 lane r.2.2) ∧
        exec (.detokenise n tok) s = .next ((tokRecords seq tok fin r.1).foldl (fun s rec => s.pushRec n rec)
          (u.setSlot n { s.slot n with
            detok := rest, heldBytes := r.2.1, lastTok := some (seq, tok, (tokRecords seq tok fin r.1).length) }))) ∧
    (∀ tok', tok' ≠ tok → exec (.detokenise n tok') s = .next s))

/-- The accumulator after any list of products is the same for every order of the list, whatever it held before. Two
accumulators of one anchor, each started empty and given a part of a list of products, merge into the accumulator of a
single pass over both parts. An accumulator whose sum fits 112 bits and whose anchor fits 10 is read back from its
exact partial word, which never has the empty bit set. A list of contributions of one anchor leaves the same word in
an empty buffer word, or in one that holds a partial of that anchor, in whatever order they are applied, and no
mismatch of anchors is reported. (R108, R111, R119, R153) -/
def Obligations.ExactSumsDoNotDependOnOrder : Prop :=
  (∀ (a : Acc) (l l' : List (Val × Val × Int × Bool)), l.Perm l' →
    l.foldl (fun a p => a.addProduct p.1 p.2.1 p.2.2.1 p.2.2.2) a =
      l'.foldl (fun a p => a.addProduct p.1 p.2.1 p.2.2.1 p.2.2.2) a) ∧
  (∀ (anchor : Int) (l r : List (Val × Val × Int × Bool)),
    (l.foldl (fun a p => a.addProduct p.1 p.2.1 p.2.2.1 p.2.2.2) ({ anchor := anchor } : Acc)).merge
        (r.foldl (fun a p => a.addProduct p.1 p.2.1 p.2.2.1 p.2.2.2) ({ anchor := anchor } : Acc)) =
      (l ++ r).foldl (fun a p => a.addProduct p.1 p.2.1 p.2.2.1 p.2.2.2) ({ anchor := anchor } : Acc)) ∧
  (∀ a : Acc, -2 ^ 111 ≤ a.acc → a.acc < 2 ^ 111 → -512 ≤ a.anchor → a.anchor < 512 →
    Acc.ofWord a.word = a ∧ bitAt a.word 127 = false) ∧
  (∀ (anchor : Int) (l l' : List Acc) (old : Nat), -512 ≤ anchor → anchor < 512 →
    (∀ a ∈ l, a.anchor = anchor ∧ -2 ^ 111 ≤ a.acc ∧ a.acc < 2 ^ 111) →
    (old = 2 ^ 127 ∨ ∃ a : Acc, old = a.word ∧ a.anchor = anchor ∧ -2 ^ 111 ≤ a.acc ∧ a.acc < 2 ^ 111) → l.Perm l' →
    l.foldl (fun w a => (partialMerge w a.word).1) old = l'.foldl (fun w a => (partialMerge w a.word).1) old ∧
    (∀ a ∈ l, (partialMerge old a.word).2 = false))

/-- Where an array may fetch, its next descriptor is taken off its list, which moves on by 64 bytes, and its epilogue
entry is copied and checked. A PRODUCT whose descriptor passes its checks runs its tile, or parks on its counter while
that is not met; a descriptor or entry that fails is logged, and the tile is a NaN tile. A refused descriptor does not
wait. A NaN tile of an array with free shadow registers stands there with every output NaN. A PREPASS that passes its
checks computes its anchors, or waits likewise; a refused one drains as a NaN tile. END stops the array and its list,
one that is refused after it is logged. SPLIT_SECOND_PASS of the tile whose first pass the array's job has run, the array
holding it or a pre-emption having left it over, computes the remaining columns once the shadow registers are free, and
the whole tile goes there. (R58, R128, R131, R132, R133, R136, R148, R157, R158) -/
def Obligations.ArrayCommandsRunTheirDescriptor : Prop :=
  (∀ (s u v w : State) (t a rank list idx addr c k : Nat) (d e : List Byte) (x : Tile), s.mayFetch t a = true →
    s.nextDescOf t a = some (rank, list, idx, addr, d) → c = tdCheck d list (((s.tiller t).runner a).isNone) →
    e = s.epiEntry t (a / 8) (tdEpi d) → k = (if c = 1 then 0 else edCheck e d) →
    u = s.tookDesc t a rank list idx addr → v = (if c = 0 then u else u.tileRefuse t addr c) →
    w = (if k = 0 then v else v.epiRefuse t (a / 8) (tdEpi d) k) →
    (tdOp d ≠ 1 → tdOp d ≠ 2 →
      x = { addr := addr, desc := d, epi := e, nan := decide (c ≠ 0 ∨ k ≠ 0), silent := decide (c = 1), job := w.jobOn t } →
      (c = 0 → w.mustWait (tdWait d) (tdWaitV d) = true → exec (.tileProduct t a) s = .next (w.arrayWaits t a x)) ∧
      (c = 0 → w.mustWait (tdWait d) (tdWaitV d) = false →
        exec (.tileProduct t a) s = .next ((w.noteWait (tdWait d)).runTile t a x)) ∧
      (c ≠ 0 → exec (.tileProduct t a) s = .next (w.runTile t a x))) ∧
    (tdOp d = 1 →
      x = { addr := addr, desc := d, epi := e, nan := decide (c ≠ 0), silent := decide (c = 1), job := w.jobOn t } →
      (c = 0 → w.mustWait (tdWait d) (tdWaitV d) = true → exec (.tilePrepass t a) s = .next (w.arrayWaits t a x)) ∧
      (c = 0 → w.mustWait (tdWait d) (tdWaitV d) = false →
        exec (.tilePrepass t a) s = .next ((w.noteWait (tdWait d)).runPrepass t a x)) ∧
      (c ≠ 0 → exec (.tilePrepass t a) s = .next (w.runTile t a x)))) ∧
  (∀ (s : State) (t a : Nat) (x : Tile), x.nan = true → ((s.tiller t).array a).shadow = none →
    (((s.runTile t a x).tiller t).array a).shadow = some { x with
      cols := List.replicate (min (tdN x.desc) 64) (List.replicate (min (tdM x.desc) 64) (if tdExact x.desc then nanPartial else f32NaN)) }) ∧
  (∀ (s v : State) (t a rank list idx addr : Nat) (d : List Byte), s.mayFetch t a = true →
    s.nextDescOf t a = some (rank, list, idx, addr, d) → tdOp d = 2 →
    v = (if tdCheck d list false = 0 then s else s.tileRefuse t addr (tdCheck d list false)) →
    exec (.tileEnd t a) s = .next (v.setTiller t { v.tiller t with
      lists := Tbl.del (v.tiller t).lists (listKey (v.jobOn t) rank list)
      arrays := Tbl.set {} (v.tiller t).arrays a { ((v.tiller t).array a).to 0 with turn := idx + 1 } })) ∧
  (∀ (s v : State) (t a b : Nat) (x : Tile),
    (((s.tiller t).array a).tile = some x ∧ ((s.tiller t).array a).state = 4 ∧ x.full = false ∧ x.job = s.jobOn t ∧ b = a) ∨
      (((s.tiller t).array a).tile = none ∧ ((s.tiller t).array a).state ≤ 1 ∧ s.restOf t a = some (b, x)) →
    ((s.tiller t).array a).shadow = none →
    v = s.setTiller t { s.tiller t with rests := Tbl.del (s.tiller t).rests (listKey (s.jobOn t) 0 b) } →
    ∀ p, p = v.tilePass t a x.desc x.cols.length (tdN x.desc - x.cols.length) →
      ∃ n, exec (.splitSecondPass t a) s = .next ((p.1.bumpWide (8 + t) (1 + a / 8) 1 (a % 8) n).toShadow t a
        { x with cols := x.cols ++ p.2 }))

/-- TILE_DRAIN of the array whose drain is first, in order of readiness, among those its chain can take leaves that order:
one that must be deferred, other than an ADD, joins the deferred items; any other takes its gate where it runs its stages
at once, leaves the shadow registers, into which a stalled tile follows, and stands last among the chain's ready drains.
A drain that must be deferred cannot be taken while the chain holds 4 items. EPILOGUE_DRAIN runs the drain the chain took
first; DEFERRED_DRAIN the first deferred one whose condition holds. PARTIAL_APPLY takes the adder's oldest contribution,
combines each of its words in turn with the buffer word of its output, logging a mismatch of anchors, and then advances
its counter, by a CTR_OP of the die where it came over the Rhizome. ADD_FINISH of the first finish that may run reads the
accumulated buffer out, as NaN where its tile is, passes its wait and its gate, empties the buffer, and runs the stages on
those rows. (R124, R127, R143, R151, R152, R153, R154, R171) -/
def Obligations.ChainCommandsDrainTiles : Prop :=
  (∀ (s u v : State) (t a g : Nat) (x : Tile), g = a / 8 →
    ((s.tiller t).chain g).order.find? (fun b => s.drainable t g b) = some a → ((s.tiller t).array a).shadow = some x →
    u = s.modChain t g (fun c => { c with order := c.order.erase a }) →
    v = (if edPartial x.epi = 0 ∨ edPartial x.epi = 3 then u.useTag t g x else u) →
    (s.mustDefer t g x = true → edPartial x.epi ≠ 2 →
      exec (.tileDrain t a) s = .next (u.modChain t g (fun c => { c with deferred := c.deferred ++ [a] }))) ∧
    (s.mustDefer t g x = false ∨ edPartial x.epi = 2 →
      exec (.tileDrain t a) s = .next ((v.freeShadow t a).modChain t g (fun c => { c with ready := c.ready ++ [x] })))) ∧
  (∀ (s : State) (t a : Nat), ((s.tiller t).chain (a / 8)).order.find? (fun b => s.drainable t (a / 8) b) ≠ some a →
    exec (.tileDrain t a) s = .next s) ∧
  (∀ (s : State) (t g a : Nat) (x : Tile), ((s.tiller t).array a).shadow = some x → s.mustDefer t g x = true →
    4 ≤ s.heldItems t g → s.drainable t g a = false) ∧
  (∀ (s : State) (t g : Nat) (x : Tile) (rest : List Tile), ((s.tiller t).chain g).ready = x :: rest →
    exec (.epilogueDrain t g) s = .next ((s.setChain t g { (s.tiller t).chain g with ready := rest }).runDrain t g x)) ∧
  (∀ (s : State) (t g a : Nat) (x : Tile) (c : Chain) (before after : List Nat), c = (s.tiller t).chain g →
    c.deferred = before ++ a :: after → (∀ b ∈ before, ∀ y, ((s.tiller t).array b).shadow = some y → s.mustDefer t g y = true) →
    ((s.tiller t).array a).shadow = some x → s.mustDefer t g x = false →
    exec (.deferredDrain t g) s = .next
      ((((s.setChain t g { c with deferred := before ++ after }).useTag t g x).freeShadow t a).runDrain t g x)) ∧
  (∀ (s u : State) (t : Nat) (c : Contrib) (rest : List Contrib), (s.tiller t).adder = c :: rest →
    u = (c.words.foldl (fun u w =>
        if (partialMerge (leNat (u.sram t (c.addr + 16 * w.1) 16)) w.2).2 then
          (u.sramWrite t (c.addr + 16 * w.1) (leBytes 16 (partialMerge (leNat (u.sram t (c.addr + 16 * w.1) 16)) w.2).1)).event
            (8 + t) (13 + (s.tiller t).partialGroup c.addr) [sqBit 0x118 1] [4]
        else u.sramWrite t (c.addr + 16 * w.1) (leBytes 16 (partialMerge (leNat (u.sram t (c.addr + 16 * w.1) 16)) w.2).1))
      (s.setTiller t { s.tiller t with adder := rest })).bumpWide (8 + t) 13 3 0 c.words.length →
    (c.remote = false → exec (.partialApply t) s = .next (u.advanceFld c.ctr 1)) ∧
    (c.remote = true → bitAt c.ctr 31 = true →
      exec (.partialApply t) s = .next (u.sendAdvance (8 + t) (c.ctr % 0x20000))) ∧
    (c.remote = true → bitAt c.ctr 31 = false → exec (.partialApply t) s = .next u)) ∧
  (∀ (s u : State) (t g : Nat) (x : Tile) (c : Chain) (rows : List (List Nat)), c = (s.tiller t).chain g →
    (c.prompt ++ c.finishes).find? (s.finishReady t g) = some x →
    u = (if c.prompt.contains x then s.setChain t g { c with prompt := c.prompt.erase x }
      else s.setChain t g { c with finishes := c.finishes.erase x }) →
    rows = (List.range (min (tdM x.desc) 64)).map (fun i => (List.range (min (tdN x.desc) 64)).map (fun j =>
      if x.nan then f32NaN else (Acc.ofWord (leNat (u.sram t (fld x.epi 0x48 4 + 16 * (64 * i + j)) 16))).readout)) →
    exec (.addFinish t g) s = .next
      ((((u.noteWait (fld x.epi 0x4C 4)).useTag t g x).emptyBuffer t (fld x.epi 0x48 4)).stagesTile t g x rows))

/-- A packet with a good header that is taken in the order of its flow is counted, and then: FABRIC_WRITE commits its
bytes, and a tail with an advance sends that advance after them; FABRIC_READ_REQ sends the data it names back on vc 1;
FABRIC_READ_RESP and CTR_RESP answer their payload to the requester; FABRIC_PARTIAL stands last at the destination
Tiller's adder with its words and its tail's advance; CTR_OP applies its operation to the counter, parking a WAIT that
is not met, and all but a posted ADD are answered with the operation's tag; REG_REQ reads or writes the register at its
address plus the bytes skipped and sends the answer; REG_RESP answers the word read. A packet of any kind with a bad
header is logged at the receiving router with PG_ERR 0x04 and does nothing else; one that no unit with a command sent,
towards a dead or UNREACHABLE destination, is discarded at its source; one whose flow has an earlier packet in flight, or
whose path is down, changes nothing yet. (R164, R165, R169, R170, R171, R174, R178, R385, R389, R444) -/
def Obligations.FabricPacketsTakeEffectOnArrival : Prop :=
  (∀ (s u v : State) (p : Packet), packetHeaderOk p = true → s.neverLeaves p = false → s.takePacket p = some u →
    v = u.countFlits p →
    (p.kind = 0 → (p.tail && p.advEn) = true →
      exec (.fabricWrite p) s = .next ((v.commit p).sendAdvance (siteDie p.dst) p.advCtr)) ∧
    (p.kind = 0 → (p.tail && p.advEn) = false → exec (.fabricWrite p) s = .next (v.commit p)) ∧
    (∀ sp n, p.kind = 1 → packetTarget p = some (sp, n) →
      exec (.fabricReadReq p) s = .next (v.inject (responseOf p 2 (v.load sp p.addr (16 * p.units))))) ∧
    (p.kind = 2 → exec (.fabricReadResp p) s = .next (v.answer (leNat p.payload))) ∧
    (p.kind = 3 → ∀ words, words = (List.range p.units).foldl (fun m i => Tbl.put m i (fld p.payload (16 * i) 16)) [] →
      exec (.fabricPartial p) s = .next (v.setTiller (siteDie p.dst - 8) { v.tiller (siteDie p.dst - 8) with
        adder := (v.tiller (siteDie p.dst - 8)).adder ++ [{
          addr := p.addr, words := words, ctr := if p.tail && p.advEn then 0x80000000 + p.advCtr else 0, remote := true }] })) ∧
    (∀ r op, p.kind = 4 → op = fld p.payload 0 4 →
      r = v.ctrOp op p.advCtr (fld p.payload 4 4) (fld p.payload 8 4) (fld p.payload 12 4) →
      (op = 1 → exec (.ctrOp p) s = .next r.1) ∧
      (op = 2 → v.ctrMet p.advCtr (fld p.payload 4 4) = false →
        exec (.ctrOp p) s = .next (v.park { unit := .packet p.src p.tag, ctr := p.advCtr, thr := fld p.payload 4 4 })) ∧
      (op ≠ 1 → (op = 2 → v.ctrMet p.advCtr (fld p.payload 4 4) = true) →
        exec (.ctrOp p) s = .next (r.1.inject (ctrAnswer (siteDie p.dst) p.src p.tag r.2.1 r.2.2)))) ∧
    (p.kind = 5 → exec (.ctrResp p) s = .next (v.answer (fld p.payload 0 8))) ∧
    (∀ (req : Requester) (w : Word) (a : Nat), p.kind = 6 → a = p.addr + p.headSkip →
      (∀ r, r = v.readReg req (a / 0x100000) (a / 0x1000 % 256) (a % 0x1000) true →
        exec (.regReq p req false w) s = .next (r.2.inject (responseOf p 7 (leBytes 4 r.1 ++ leBytes 12 0)))) ∧
      exec (.regReq p req true w) s = .next ((v.writeReg req (a / 0x100000) (a / 0x1000 % 256) (a % 0x1000) w.toNat).inject
        (responseOf p 7 (leBytes 4 0 ++ leBytes 12 0)))) ∧
    (p.kind = 7 → exec (.regResp p) s = .next (v.answer (fld p.payload 0 4)))) ∧
  (∀ (s t : State) (p : Packet) (req : Requester) (wr : Bool) (v : Word),
    (s.neverLeaves p = true ∧ t = s.rhzDrop (siteDie (p.src % 72)) 2) ∨
      (s.neverLeaves p = false ∧ packetHeaderOk p = false ∧ t = s.event (siteDie (p.dst % 72)) 25 [sqBit 0x118 0] [4]) →
    exec (.fabricWrite p) s = .next t ∧ exec (.fabricReadReq p) s = .next t ∧ exec (.fabricReadResp p) s = .next t ∧
      exec (.fabricPartial p) s = .next t ∧ exec (.ctrOp p) s = .next t ∧ exec (.ctrResp p) s = .next t ∧
      exec (.regReq p req wr v) s = .next t ∧ exec (.regResp p) s = .next t) ∧
  (∀ (s : State) (p : Packet) (req : Requester) (wr : Bool) (v : Word),
    s.neverLeaves p = false → packetHeaderOk p = true → s.takePacket p = none →
    (p.kind = 0 → exec (.fabricWrite p) s = .next s) ∧ (p.kind = 1 → exec (.fabricReadReq p) s = .next s) ∧
      (p.kind = 2 → exec (.fabricReadResp p) s = .next s) ∧ (p.kind = 3 → exec (.fabricPartial p) s = .next s) ∧
      (p.kind = 4 → exec (.ctrOp p) s = .next s) ∧ (p.kind = 5 → exec (.ctrResp p) s = .next s) ∧
      (p.kind = 6 → exec (.regReq p req wr v) s = .next s) ∧ (p.kind = 7 → exec (.regResp p) s = .next s))

/-- LINK_RETRY of a live link end counts the retries, at most 8, raises the retry event, and marks the end as one that is
sending again; after more than 8 retries of one flit both ends of the link are down. ROUTE_SWITCH once the routers have
stopped injecting, and hold no packet but those that wait for a link that is down, discards these where they stand, takes
the set of dead sites in force, adds 1 to the generation, notes the pause at every live router, and injects again what
waited; before that it changes nothing. ROUTER_FAILURE of a live router not found dead already marks its neighbours' links
down and the site found dead, and fails the Tiller of the site as one in service, as a spare, or, where it has no role
yet, not at all; of another router it changes nothing. (R163, R173, R174, R175, R177, R178) -/
def Obligations.LinksAndRoutesFollowTheirFaults : Prop :=
  (∀ (s u : State) (site port retries y k : Nat), neighbour site port = some y → s.routerLive site = true → retries ≠ 0 →
    k = site * 4 + port → s.rhz.down.contains k = false →
    u = (s.bumpWide (siteDie site) 25 3 port (min retries 8)).event (siteDie site) 25 [sqBit 0x118 1] [] →
    (retries ≤ 8 → exec (.linkRetry site port retries) s = .next { u with rhz := { u.rhz with retrying := insNat k u.rhz.retrying } }) ∧
    (8 < retries → ∃ v w : State, v = { u with rhz := { u.rhz with retrying := u.rhz.retrying.filter (fun e => e ≠ k) } } ∧
      w = v.linkEndDown site port ∧ exec (.linkRetry site port retries) s = .next (w.linkEndDown y ((port + 2) % 4)) ∧
      k ∈ w.rhz.down ∧ y * 4 + (port + 2) % 4 ∈ (w.linkEndDown y ((port + 2) % 4)).rhz.down)) ∧
  (∀ (s w : State) (ns : Nat), s.rhz.pausing = true → (∀ p ∈ s.rhz.flight, s.stuckAt p ≠ none) →
    w = s.rhz.flight.foldl (fun s p => match s.stuckAt p with
      | none => s
      | some x => s.switchDiscard x p) s →
    ∃ v : State, v.rhz.gen = w.rhz.gen + 1 ∧ v.rhz.dead = s.nextDead ∧ v.rhz.detect = none ∧ v.rhz.pausing = false ∧
      v.rhz.held = [] ∧ v.mem = w.mem ∧ v.req = w.req ∧ v.pad = w.pad ∧
      exec (.routeSwitch ns) s = .next (w.rhz.held.foldl State.inject
        (((List.range 72).filter (fun x => v.routerLive x)).foldl (fun s x =>
          (s.setRegN (siteDie x) 25 0x110 (ns % 4294967296)).event (siteDie x) 25 [sqBit 0x118 3] []) v))) ∧
  (∀ (s : State) (ns : Nat), s.rhz.pausing = false ∨ (∃ p ∈ s.rhz.flight, s.stuckAt p = none) →
    exec (.routeSwitch ns) s = .next s) ∧
  (∀ (s : State) (site : Nat), s.routerLive site = true → s.rhz.found.contains site = false →
    (siteDie site < 8 → exec (.routerFailure site) s = .next (s.routerDown site)) ∧
    (8 ≤ siteDie site → (s.tiller (siteDie site - 8)).role = .inService →
      exec (.routerFailure site) s = .next (s.tillerFail (siteDie site - 8) false true)) ∧
    (8 ≤ siteDie site → (s.tiller (siteDie site - 8)).role = .spare →
      exec (.routerFailure site) s = .next ((s.routerDown site).spareFail (siteDie site - 8) false)) ∧
    (8 ≤ siteDie site → (s.tiller (siteDie site - 8)).role = .unknown →
      exec (.routerFailure site) s = .next (s.routerDown site))) ∧
  (∀ (s : State) (site : Nat), s.routerLive site = false ∨ s.rhz.found.contains site = true → exec (.routerFailure site) s = .next s)

/-- On MOD page 6, past the gate and with no command under way: SET of a checked descriptor under a free id enters the
table; CLEAR of a table no other loaded job's plan names drops it; AMEND of a checked descriptor that changes only
what it may takes effect at once for a read-only table and at the next apply boundary else. FEEDBACK_EVENT takes the
next event of the table's ring: a good one whose row has an entry, or for which the merge buffer has room, is merged into
its row's entry, one that needs a new entry of a full buffer waits, and a bad one is counted as dropped.
SHEAF_UPDATE_APPLY applies a table once at a boundary whose stroke is a multiple of its period. FORCED_APPLY of a
Wellhead whose merge buffer is full applies every table of it that holds entries and counts that; below full it
changes nothing. (R219, R253, R255, R263, R264, R265, R266) -/
def Obligations.SheafTableCommandsTakeEffect : Prop :=
  (∀ (s : State) (req : Requester) (t : Nat) (d : List Byte), t < 64 → s.gate req 120 6 1 = (s, true) →
    s.cmdBusy 120 6 0x10C = false →
    (∀ c, s.tableDesc (s.cmdAddr 6) = (c, d) →
      (c ≠ 0 → exec (.sheafTableSet req t) s = .next (s.cmdDone 6 c t)) ∧
      (c = 0 → s.table t ≠ none → exec (.sheafTableSet req t) s = .next (s.cmdDone 6 3 t)) ∧
      (c = 0 → s.table t = none → exec (.sheafTableSet req t) s = .next ((s.setTable t { desc := d }).cmdDone 6 0 t))) ∧
    (s.table t = none → exec (.sheafTableClear req t) s = .next (s.cmdDone 6 4 t) ∧
      exec (.sheafTableAmend req t) s = .next (s.cmdDone 6 4 t)) ∧
    (∀ x named, s.table t = some x →
      named = s.cis.plans.any (fun e => e.2.loaded.isSome && decide (e.1 ≠ stJob x.desc) && Config.planNamesTable e.2.image t) →
      (named = false → exec (.sheafTableClear req t) s = .next ((s.tableDrop t).cmdDone 6 0 t)) ∧
      (named = true → exec (.sheafTableClear req t) s = .next (s.cmdDone 6 5 t))) ∧
    (∀ x, s.table t = some x → s.tableDesc (s.cmdAddr 6) = (0, d) →
      (amendSame x.desc d = false → exec (.sheafTableAmend req t) s = .next (s.cmdDone 6 2 t)) ∧
      (amendSame x.desc d = true → stRule x.desc = 0 →
        exec (.sheafTableAmend req t) s = .next ((s.setTable t { x with desc := d }).cmdDone 6 0 t)) ∧
      (amendSame x.desc d = true → stRule x.desc ≠ 0 →
        exec (.sheafTableAmend req t) s = .next ((s.setTable t { x with amended := some d }).cmdDone 6 0 t)))) ∧
  (∀ (s u : State) (t rid : Nat) (x : ShfTable) (r : Ring) (e : List Byte), s.table t = some x →
    rid = fld x.desc 0x38 4 % 0x20000 → Tbl.look s.nor.rings rid = some r → bitAt (fld x.desc 0x38 4) 31 = true →
    r.kind = 8 → r.bind = t → r.cons < r.prod → e = s.load .lpddr (r.addr r.cons) 64 →
    u = (s.consume rid r).bumpWide (s.tableWh t) 28 2 0 1 →
    (s.eventOk t x e = true → s.mergeFill (s.tableWh t) < 65536 ∨ Tbl.look s.shf.entries (entryKey t (fld e 0x10 8)) ≠ none →
      exec (.feedbackEvent t) s = .next (u.mergeEvent t x e)) ∧
    (s.eventOk t x e = true → 65536 ≤ s.mergeFill (s.tableWh t) → Tbl.look s.shf.entries (entryKey t (fld e 0x10 8)) = none →
      exec (.feedbackEvent t) s = .next s) ∧
    (s.eventOk t x e = false → exec (.feedbackEvent t) s = .next (u.fbDrop (s.tableWh t) [7]))) ∧
  (∀ (s : State) (t : Nat) (x : ShfTable), s.table t = some x → stRule x.desc ≠ 0 →
    (s.strokeN % stPeriod x.desc = 0 → x.applied ≠ some s.strokeN → exec (.sheafUpdateApply t) s = .next (s.applyTable t)) ∧
    (s.strokeN % stPeriod x.desc ≠ 0 ∨ x.applied = some s.strokeN → exec (.sheafUpdateApply t) s = .next s)) ∧
  (∀ (s : State) (t : Nat) (x : ShfTable), s.table t = some x → ∃ u : State,
    u = s.setTable t { x with desc := x.amended.getD x.desc, amended := none, applied := some s.strokeN } ∧
    s.applyTable t = (u.tableEntries t).foldl (fun s e => s.applyEntry t (x.amended.getD x.desc) e.1 e.2) u) ∧
  (∀ (s : State) (w : Nat), (s.mergeFill w < 65536 → exec (.forcedApply w) s = .next s) ∧
    (65536 ≤ s.mergeFill w → exec (.forcedApply w) s = .next
      (((((List.range 64).filter (fun t => decide (s.tableWh t = w) && !(s.tableEntries t).isEmpty)).foldl
        (fun s t => s.applyTable t) s).bump w 28 0x128 1).event w 28 [sqBit 0x118 3] [])))

/-- For a Sheaf whose next descriptor's wait is met, the list moves on past the descriptor, which is checked for the job
that holds the Tiller, or on a Wellhead for the job that queued it. A descriptor that passes its checks with a registered
table runs its own operation: GATHER, GATHER_SUM and SCATTER theirs, PREFETCH that of GATHER, counted late when the
boundary after the batch list has passed; one that fails its checks, or that has no op of R256, is refused with its code.
END stops the list, one that is refused after its refusal. (R256, R257, R258, R260, R262) -/
def Obligations.SheafDescriptorsRun : Prop :=
  ∀ (s u : State) (die a sent job : Nat) (fed d : List Byte) (bad : List Nat), s.sheafNext die fed = some (a, d) →
    job = (if 8 ≤ die then s.jobOn (die - 8) else sent) → u = s.sheafTook die a d →
    (∀ x : ShfTable, s.sdCheck job d = 0 → u.table (sdTable d) = some x →
      (sdOp d = 0 → exec (.gather die ⟨⟨fed, sent⟩, bad⟩) s = .next (u.runGather die job bad d x.desc)) ∧
      (sdOp d = 1 → exec (.gatherSum die ⟨⟨fed, sent⟩, bad⟩) s = .next (u.runGatherSum die job bad d x.desc)) ∧
      (sdOp d = 2 → exec (.scatter die ⟨fed, sent⟩) s = .next (u.runScatter die job d x.desc)) ∧
      (sdOp d = 3 → (∀ n, Tbl.look u.shf.batch job = some n → u.strokeN ≤ n) →
        exec (.prefetch die ⟨⟨fed, sent⟩, bad⟩) s = .next (u.runGather die job bad d x.desc)) ∧
      (∀ n, sdOp d = 3 → Tbl.look u.shf.batch job = some n → n < u.strokeN →
        exec (.prefetch die ⟨⟨fed, sent⟩, bad⟩) s = .next
          (((u.runGather die job bad d x.desc).bump die 28 0x10C 1).event die 28 [sqBit 0x118 1] []))) ∧
    (∀ c, c ≠ 0 → s.sdCheck job d = c →
      (sdOp d = 0 ∨ 4 < sdOp d → exec (.gather die ⟨⟨fed, sent⟩, bad⟩) s = .next (u.refuseSheaf die job a d c)) ∧
      (sdOp d = 1 → exec (.gatherSum die ⟨⟨fed, sent⟩, bad⟩) s = .next (u.refuseSheaf die job a d c)) ∧
      (sdOp d = 2 → exec (.scatter die ⟨fed, sent⟩) s = .next (u.refuseSheaf die job a d c)) ∧
      (sdOp d = 3 → exec (.prefetch die ⟨⟨fed, sent⟩, bad⟩) s = .next (u.refuseSheaf die job a d c))) ∧
    (sdOp d = 4 → ∀ v, v = (if s.sdCheck 0 d = 0 then u else u.refuseSheaf die 0 a d (s.sdCheck 0 d)) →
      exec (.sheafEnd die fed) s = .next { v with shf := { v.shf with lists := Tbl.del v.shf.lists die } })

/-- For a request in FRONT: FRONT_ENCODE of one whose question is ready, in the encoder's batch, takes the query
vector of the pinned dimension; a pixel tensor that fails its checks goes on with no passage. SEARCH_CALL of one with its
query vector, which for service 3 is its input, and a pinned generation with its tables waits in order of issue, and every
waiting call that finds its place is made; the only one that waits is made where its slice has a search slot and the
paddock's Sounder quota is not used up. FRONT_CANDIDATES of one whose search is done takes the results, the readable
ones without those of equal content, each with its fused score, counts those lost as skipped, and frees the search.
FRONT_RERANK gives the leading candidates the scores the re-ranker's plan gives their sequences, sorts them again and
drops those whose whole record does not read, as skipped (the model's reading, log entry 101).
FRONT_PACK packs the passages into the prompt and journals the FRONT record with their ids; of service 3 it takes the
first 64 results. (R275, R277, R278, R279, R280, R281, R282, R283, R305) -/
def Obligations.FrontStagesFollowOneAnother : Prop :=
  ∀ (s : State) (n : Nat) (x : Slot) (r : List Byte), s.slot n = x → x.state = .front → s.rcpOf x = r →
    (∀ vec : List Byte, x.frontStage = 0 → x.tokDone = true → descService x.desc ≤ 2 →
      (descKind x.desc ≠ 3 ∨ s.imageOk x r = true → s.inBatch (encJob x r) n = true → vec.length = s.pinDim x →
        exec (.frontEncode n vec) s = .next (s.setSlot n { x with queryVec := vec, frontStage := 2 })) ∧
      (descKind x.desc = 3 → s.imageOk x r = false → exec (.frontEncode n vec) s = .next
        ((s.setSlot n { x with frontStage := 5, cands := [], returned := 0 }).event 120 7 [sqBit 0x118 2] [2]))) ∧
    (∀ (y : Slot) (g : Nat) (u : State), y = (if descService x.desc = 3 ∧ x.frontStage = 0 then
        { x with queryVec := x.input, frontStage := 2 } else x) → y.frontStage = 2 → y.genSlot = some g → (s.gen g).extents = true →
      s.idx.waiting.contains n = false → u = s.setSlot n y →
      exec (.searchCall n) s = .next ({ u with idx := { u.idx with waiting := u.idx.waiting ++ [n] } } : State).callsGo ∧
      (∀ pad, s.idx.waiting = [] → s.genPad g = some pad →
        (∃ i < s.searchSlots, s.search (8192 * slotWh n + i) = none) → s.sounderUse pad < (s.paddock pad).sounder →
        ∃ (t : State) (k : Nat) (q : Search), exec (.searchCall n) s = .next t ∧ t.idx.waiting = [] ∧
          (t.slot n).search = some k ∧ (t.slot n).frontStage = 3 ∧ t.search k = some q ∧ q.slot = n ∧ q.gen = g ∧ q.vec = y.queryVec)) ∧
    (∀ (unreadable : List Nat) (i : Nat) (q : Search) (got : List (Option (Nat × Cand))) (cs : List Cand) (lost : Nat),
      x.frontStage = 3 → descService x.desc ≤ 2 → s.searchDone x = some (i, q) →
      got = q.res.zipIdx.map (fun e => if unreadable.contains e.2 then none else s.candOf (s.gen q.gen).hdr e.1) →
      lost = (got.filter Option.isNone).length →
      cs = (dedupCands [] (got.filterMap id)).map (fun c => { c with fused := s.fuse r x.question c }) →
      exec (.frontCandidates n unreadable) s = .next
        (((s.frontGathers (s.whOf (slotWh n)) r x.question cs).setSlot n { x with
          cands := cs, returned := q.res.length, frontStage := if cs.isEmpty then 5 else 4, search := none, skipped := q.skipped + lost
          degraded := x.degraded || decide (0 < q.skipped + lost) }).freeSearch i)) ∧
    (∀ (top order kept : List Cand) (image : List Byte) (unreadable : List Nat), x.frontStage = 4 → rcpReranker r ≠ 0 → s.inBatch (rcpReranker r) n = true →
      top = (finalOrder x.cands).take (rcpRerankN r) → image = s.planImageOf (rcpReranker r) →
      order = finalOrder (giveScores (finalOrder x.cands) (top.map (fun c => Config.planScore image (rerankSeq r x.question c)))) →
      kept = (order.zipIdx.filter (fun e => !unreadable.contains e.2)).map Prod.fst →
      exec (.frontRerank n unreadable) s = .next (s.setSlot n { x with
        cands := kept, reranked := top.map Cand.pid, frontStage := 5, skipped := x.skipped + (order.length - kept.length)
        degraded := x.degraded || decide (kept.length < order.length) })) ∧
    (∀ sel ps prompt y, x.frontJournaled = false → descService x.desc ≠ 3 → x.frontStage = 5 ∨ (x.frontStage = 4 ∧ rcpReranker r = 0) →
      sel = packGo r (finalOrder x.cands) [] (packAvail r x.desc x.question.length) → ps = promptOrder r sel.1 sel.2 →
      prompt = assemble r x.question (ps.map (fun e => e.1.tokens.take e.2)) →
      y = { x with
        promptTokens := prompt, frontIds := ps.map (fun e => e.1.pid), frontJournaled := true
        mapRecs := mapOf n x r ps sel.2 prompt.length } →
      exec (.frontPack n) s = .next
        (((s.setSlot n y).frontRecord n prompt.length (ps.map (fun e => e.1.pid))).frontCounts y sel.2)) ∧
    (∀ (i : Nat) (q : Search), x.frontJournaled = false → descService x.desc = 3 → x.frontStage = 3 → s.searchDone x = some (i, q) →
      ∃ (y : Slot) (f : State), y.frontIds = (q.res.take 64).map SRes.pid ∧ y.frontJournaled = true ∧ y.search = none ∧
        y.skipped = q.skipped ∧ y.returned = q.res.length ∧ y.desc = x.desc ∧ y.state = .front ∧
        f = { s with freeCount := f.freeCount } ∧
        exec (.frontPack n) s = .next ((((f.setSlot n y).frontRecord n 0 y.frontIds).frontCounts y false).freeSearch i))

/-- Whatever the recipe and the candidates, the packer's selection keeps the candidates' order, takes at most
max_passages of them, and, where per_doc_max is not 0, at most that many of one document; the tokens packed, with the
overhead of each passage, fit the budget; every passage but a cut last one is packed whole, and no passage has more
tokens packed than it holds. No candidate whose key is below min_score or NaN is selected. (R272, R282) -/
def Obligations.PackerStaysWithinItsBudget : Prop :=
  ∀ (r : List Byte) (cs : List Cand) (avail : Nat) (sel : List (Cand × Nat)) (cut : Bool), packGo r cs [] avail = (sel, cut) →
    (sel.map Prod.fst).Sublist cs ∧ sel.length ≤ fld r 0x13 1 ∧
    (0 < fld r 0x1C 1 → ∀ doc, (sel.filter (fun e => e.1.doc = doc)).length ≤ fld r 0x1C 1) ∧
    (sel.map (fun e => e.2 + (rcpPass r - 1))).sum ≤ avail ∧
    (∀ e ∈ sel, e.2 ≤ e.1.tokens.length ∧ fLt e.1.key (fld r 0x2C 4) = false ∧ fIsNaN e.1.key = false) ∧
    (∀ e ∈ (if cut then sel.dropLast else sel), e.2 = e.1.tokens.length)

/-- SEARCH_BUILD of the earliest queued search of its Sounder slice, with table memory free, scores the entry points,
counts them and picks the first round. SEARCH_ROUND of a walk all of whose reads have been answered applies their
results, ranks the unseen neighbours, cuts the queue to l entries and picks the next round; while a read is out it
changes nothing. NODE_READ of the read that is first at its plane, where no erase is in progress, reads the page and
answers it; of any other read it changes nothing. HUB_WINDOW_CLOSE of a page at a plane that serves its class now reads the
page once and answers the reads that wait for it, at most 256 in order of arrival; with none waiting, or at a plane that
serves others first, it changes nothing. SEARCH_ABORT of a search whose request still waits for it changes nothing; a
queued or done one is freed, a walk ends as aborted. (R300, R303, R304, R306, R307, R308, R309, R310, R349) -/
def Obligations.SearchCommandsWalkTheGraph : Prop :=
  (∀ (s : State) (i : Nat) (x : Search) (h : List Byte), s.search i = some x → x.state = .queued → h = (s.gen x.gen).hdr →
    (∀ e ∈ s.idx.searches, s.searchWh e.1 = s.searchWh i → e.2.state = .queued → x.order ≤ e.2.order) →
    s.tableFree (s.searchWh i) (genM h) = true →
    ∃ (es : List Nat) (y : Search), es = (List.range (fld h 0xF 1)).map (fun j => fld h (0x40 + 8 * j) 8) ∧
      y = es.foldl (fun (x : Search) e =>
        { x with seen := if x.seen.contains (nbNode e) then x.seen else nbNode e :: x.seen
                 q := insEnt { node := nbNode e, hub := nbHub e, score := s.pq h x.vec (nbNode e), read := false } x.q }) x ∧
      exec (.searchBuild i) s = .next ((s.sndCount i 3 es.length).pickRound i { y with state := .walk })) ∧
  (∀ (s : State) (i : Nat) (x : Search) (r : Search × Nat), s.search i = some x → x.state = .walk →
    (x.picks.all (fun p => p.answered) = true →
      r = (x.picks.flatMap (fun p => if p.absent then [] else p.nbr)).foldl
        (seeNeighbour (s.pq (s.gen x.gen).hdr (x.picks.foldl applyPick x).vec)) (x.picks.foldl applyPick x, 0) →
      exec (.searchRound i) s = .next ((s.sndCount i 3 r.2).pickRound i { r.1 with q := r.1.q.take (x.picks.foldl applyPick x).l })) ∧
    (x.picks.all (fun p => p.answered) = false → exec (.searchRound i) s = .next s)) ∧
  (∀ (s : State) (i j : Nat) (rd : NRead) (unc : Bool),
    s.idx.nreads.find? (fun r => decide (r.search = i) && decide (r.pick = j)) = some rd →
    ((s.planeReads rd.plane).head? = some rd → (s.plane rd.plane).held = false →
      ∀ r, r = s.walkerPage rd unc → exec (.nodeRead i j unc) s = .next (r.1.answerRead rd r.2).settlePlanes) ∧
    ((s.planeReads rd.plane).head? ≠ some rd ∨ (s.plane rd.plane).held = true → exec (.nodeRead i j unc) s = .next s)) ∧
  (∀ (s : State) (well page : Nat) (unc : Bool) (l : List NRead),
    l = (s.idx.nreads.filter (fun r => decide (r.well = well) && decide (r.hubPage = some page))).take 256 →
    (∀ rd t r, l = rd :: t → s.planeServes rd.plane = true → r = s.walkerPage rd unc →
      exec (.hubWindowClose well page unc) s = .next (l.foldl (fun s e => s.answerRead e r.2) r.1).settlePlanes) ∧
    (l = [] ∨ (∃ rd t, l = rd :: t ∧ s.planeServes rd.plane = false) → exec (.hubWindowClose well page unc) s = .next s)) ∧
  (∀ (s : State) (i : Nat) (x : Search), s.search i = some x →
    ((s.slot x.slot).state = .front → (s.slot x.slot).search = some i → exec (.searchAbort i) s = .next s) ∧
    ((s.slot x.slot).state ≠ .front ∨ (s.slot x.slot).search ≠ some i →
      (x.state = .queued ∨ x.state = .done → exec (.searchAbort i) s = .next (s.freeSearch i)) ∧
      (x.state = .walk → exec (.searchAbort i) s = .next ((s.setSearch i { x with state := .abort }).abortDone i)) ∧
      (x.state = .abort → exec (.searchAbort i) s = .next (s.abortDone i))))

/-- For any search, any answered reads of a round and any neighbours they list: if the seen set holds at most 32,768
nodes without repeats, it still does after the round and has lost none; the reads have risen by the number of reads
answered and the skipped ones by the number answered absent; the results are at most candidates_out if they were; and
the next round picks so few that the reads of a search never pass 4,096. (R302, R303, R304) -/
def Obligations.WalkStaysWithinItsBounds : Prop :=
  ∀ (x y : Search) (picks : List Pick) (nbrs : List Nat) (score : Nat → Nat),
    y = (nbrs.foldl (seeNeighbour score) (picks.foldl applyPick x, 0)).1 →
    (x.seen.length ≤ 32768 → x.seen.Nodup → y.seen.length ≤ 32768 ∧ y.seen.Nodup ∧ ∀ n ∈ x.seen, n ∈ y.seen) ∧
    y.reads = x.reads + picks.length ∧ y.skipped = x.skipped + (picks.filter (fun p => p.absent)).length ∧
    (x.res.length ≤ x.out → y.res.length ≤ y.out) ∧
    (x.reads ≤ 4096 → x.reads + ((x.q.filter (fun e => !e.read)).take (min x.beam (4096 - x.reads))).length ≤ 4096)

/-- On MOD page 8, past the gate and with no command under way: OPEN of a checked header takes the slot to LOADING
with the next serial number, and one that fails a check ends with its code; WRITE runs the write and ends with its code;
SEAL of a slot that is not LOADING, or whose blocks are not complete and good, ends with code 3 or 7 and leaves it, and of
one that is complete takes it to SEALED with the crc of its extent table, which reads in a register; ACTIVATE of a SEALED
or RETIRING slot with its tables, whose job is loaded, waits for the boundary; LOAD of its tables marks them loaded;
DISCARD frees a slot that no search pins, and leaves a RETIRING one that is pinned FREEING. ACTIVATION_APPLY takes a
waiting slot to ACTIVE and the ACTIVE one of its job to RETIRING. INDEX_SLOT_FREED frees a FREEING slot once no search pins
it, and only then, and a DISCARD that waits for it is done. (R219, R311, R314, R315, R52) -/
def Obligations.IndexCommandsMoveGenerationSlots : Prop :=
  (∀ (s : State) (req : Requester) (g : Nat) (x : GenSlot), g < 4 → x = s.gen g → s.gate req 120 8 1 = (s, true) →
    s.cmdBusy 120 8 0x10C = false →
    (s.openCheck g (s.cmdAddr 8) = 0 →
      ∃ u : State, u = { s with idx := { s.idx with openSerial := s.idx.openSerial + 1 } } ∧
        exec (.indexOpen req g) s = .next ((u.setGen g { state := .loading, hdr := s.load .lpddr (s.cmdAddr 8) 256
                                                         serial := s.idx.openSerial + 1 }).idxDone 0 g)) ∧
    (s.openCheck g (s.cmdAddr 8) ≠ 0 → exec (.indexOpen req g) s = .next (s.idxDone (s.openCheck g (s.cmdAddr 8)) g)) ∧
    (∀ r, r = s.indexWriteRun g (s.cmdAddr 8) → exec (.indexWrite req g) s = .next (r.2.idxDone r.1 g)) ∧
    (x.state ≠ .loading → exec (.indexSeal req g) s = .next (s.idxDone 3 g)) ∧
    (x.state = .loading → x.lost = true ∨ x.ordNext ≠ (genGroups x.hdr).1 ∨ x.hubNext ≠ (genGroups x.hdr).2.1 ∨
        x.passNext ≠ (genGroups x.hdr).2.2 ∨ s.groupsGood x.hdr = false →
      exec (.indexSeal req g) s = .next (s.idxDone 7 g)) ∧
    (x.state = .loading → x.lost = false → x.ordNext = (genGroups x.hdr).1 → x.hubNext = (genGroups x.hdr).2.1 →
      x.passNext = (genGroups x.hdr).2.2 → s.groupsGood x.hdr = true →
      ∀ crc, crc = crc32c (extHeader x.hdr g x.serial ++ s.load .lpddr (genExt x.hdr + 64) (extBytes x.hdr - 64)) →
        ∃ t, exec (.indexSeal req g) s = .next t ∧ t.gen g = { x with state := .sealed, extents := true, extCrc := crc } ∧
          t.reg 120 8 0x110 = BitVec.ofNat 32 crc) ∧
    (x.state = .sealed ∨ x.state = .retiring → x.extents = true → s.indexJob (genJob x.hdr) = true → s.pqOk x.hdr = true →
      exec (.indexActivate req g) s = .next ((s.setGen g { x with pend := true }).setResult 120 8 0x10C 2 0 g)) ∧
    (x.state = .sealed ∨ x.state = .active ∨ x.state = .retiring → x.extents = false → s.cmdAddr 8 % 4096 = 0 →
      s.inHost (s.cmdAddr 8) (extBytes x.hdr) = true → s.extOk g x (s.cmdAddr 8) = true → s.pqOk x.hdr = true →
      exec (.indexLoad req g) s = .next ((s.setGen g { x with
        extents := true, hdr := withCrc ((patch x.hdr 0x30 (leBytes 8 (s.cmdAddr 8))).drop 4) }).idxDone 0 g)) ∧
    (x.state = .loading ∨ x.state = .sealed ∨ (x.state = .retiring ∧ s.genPins g = 0) →
      exec (.indexDiscard req g) s = .next ((s.freeGen g).idxDone 0 g)) ∧
    (x.state = .retiring → s.genPins g ≠ 0 →
      exec (.indexDiscard req g) s = .next ((s.setGen g { x with state := .freeing, pend := false }).setResult 120 8 0x10C 2 0 g))) ∧
  (∀ (s u : State) (g : Nat), g < 4 → (s.gen g).pend = true →
    u = (List.range 4).foldl (fun u i => if (u.gen i).state = .active ∧ genJob (u.gen i).hdr = genJob (s.gen g).hdr then
      u.setGen i { u.gen i with state := .retiring } else u) s →
    exec (.activationApply g) s = .next
      (((u.setGen g { s.gen g with state := .active, pend := false }).idxDone 0 g).event 120 8 [sqBit 0x118 2] [])) ∧
  (∀ (s : State) (g : Nat), g < 4 →
    ((s.gen g).state = .freeing → s.genPins g = 0 →
      ((s.freeGen g).cmdState 120 8 0x10C ≠ 2 ∨ ((s.freeGen g).reg 120 8 0x10C).toNat % 4 ≠ g →
        exec (.indexSlotFreed g) s = .next (s.freeGen g)) ∧
      ((s.freeGen g).cmdState 120 8 0x10C = 2 → ((s.freeGen g).reg 120 8 0x10C).toNat % 4 = g →
        exec (.indexSlotFreed g) s = .next ((s.freeGen g).idxDone 0 g))) ∧
    ((s.gen g).state ≠ .freeing ∨ s.genPins g ≠ 0 → exec (.indexSlotFreed g) s = .next s))

/-- Where a generation slot waits for activation, ACTIVATION_APPLY leaves it ACTIVE and no longer waiting, with its
header, and leaves no other slot that is ACTIVE for the same job; slots of other jobs are as they were. (R314, R315)
-/
def Obligations.ActivationLeavesOneActiveSlotPerJob : Prop :=
  ∀ (s : State) (g : Nat), g < 4 → (s.gen g).pend = true →
    ∃ t, exec (.activationApply g) s = .next t ∧ (t.gen g).state = .active ∧ (t.gen g).pend = false ∧
      (t.gen g).hdr = (s.gen g).hdr ∧
      (∀ i < 4, i ≠ g → (t.gen i).state = .active → genJob (t.gen i).hdr ≠ genJob (s.gen g).hdr) ∧
      (∀ i, i ≠ g → genJob (s.gen i).hdr ≠ genJob (s.gen g).hdr → t.gen i = s.gen i)

/-- On MOD page 9, past the gate and with no command under way: STAGE of a plan that passes its checks stages it and
fills its STORE pages; one that fails ends with the code of its first failing check; UNSTAGE drops a plan that is not
loaded, and refuses a loaded one with code 5; FLUSH writes the job's dirty pages back, or ends with code 8 in
read-only; with no plan staged both end with code 6. A write of the host size from 16 to 3,840 GiB while no job is loaded
takes effect; any other is dropped with error 0x02. MOVE_COMPLETE of a move that waits on the Windlass, or of the most
urgent of its Wellhead's others, fewer than 512 having ended in the stroke, takes it off the queue, counts it, and runs it
if its page is still moving; any other waits. FLASH_PAGE_READ of a page on flash whose planes serve it touches it and
reads its logical pages; where a copy of each reads, it answers the bytes; else a STORE or SCRATCH page is lost and reads
0, and an IMAGE page answers free bytes. (R219, R326, R330, R338, R339, R341, R349, R351) -/
def Obligations.PlanAndTierCommandsTakeEffect : Prop :=
  (∀ (s : State) (req : Requester) (job : Nat), job < 1024 → s.gate req 120 9 1 = (s, true) → s.cmdBusy 120 9 0x10C = false →
    (∀ c p, s.stageCheck job (s.cmdAddr 9) = (c, p) → exec (.planStage req job) s = .next
      ((if c = 0 then (s.putPlan job p).fillStore job p else s).cmdDone 9 c job)) ∧
    (s.plan job = none → exec (.planUnstage req job) s = .next (s.cmdDone 9 6 job) ∧
      exec (.planFlush req job) s = .next (s.cmdDone 9 6 job)) ∧
    (∀ p, s.plan job = some p →
      (p.loaded = none → exec (.planUnstage req job) s = .next ((s.dropPlan job).cmdDone 9 0 job)) ∧
      (p.loaded.isSome = true → exec (.planUnstage req job) s = .next (s.cmdDone 9 5 job)) ∧
      (s.wdl.readOnly = false → exec (.planFlush req job) s = .next ((s.flushJob job).cmdDone 9 0 job)) ∧
      (s.wdl.readOnly = true → exec (.planFlush req job) s = .next (s.cmdDone 9 8 job)))) ∧
  (∀ (s : State) (req : Requester) (v : Word), s.gate req 120 9 1 = (s, true) →
    (s.noJobs = true → 16 ≤ v.toNat % 4096 → v.toNat % 4096 ≤ 3840 →
      exec (.cisHostWrite req v) s = .next { s with cis := { s.cis with hostGib := v.toNat % 4096 } }) ∧
    (s.noJobs = false ∨ v.toNat % 4096 < 16 ∨ 3840 < v.toNat % 4096 →
      exec (.cisHostWrite req v) s = .next (s.err 120 9 2))) ∧
  (∀ (s u : State) (job vpn w ran : Nat) (m : Move), s.moveOf job vpn = some m → w = job % 4 → ran = Tbl.val 0 s.cis.ranMoves w →
    u = ({ s with cis := { s.cis with
      moves := s.cis.moves.filter (fun x => !(decide (x.job = job) && decide (x.vpn = vpn)))
      ranMoves := Tbl.set 0 s.cis.ranMoves w (ran + 1) } } : State) →
    (ran < 512 → s.fromFlash m = true ∨
        minBy (fun m => m.kind) (s.cis.moves.filter (fun x => decide (x.job % 4 = w) && !s.fromFlash x)) = some m →
      (∀ e, s.pte job vpn = some e → e.moving = true → exec (.moveComplete ⟨job, vpn⟩) s = .next (u.runMove m)) ∧
      ((∀ e, s.pte job vpn = some e → e.moving = false) → exec (.moveComplete ⟨job, vpn⟩) s = .next u)) ∧
    (512 ≤ ran ∨ (s.fromFlash m = false ∧
        minBy (fun m => m.kind) (s.cis.moves.filter (fun x => decide (x.job % 4 = w) && !s.fromFlash x)) ≠ some m) →
      exec (.moveComplete ⟨job, vpn⟩) s = .next s)) ∧
  (∀ (s u v : State) (job va len n : Nat) (bad : List Nat) (e : Pte) (ls : List (Nat × Nat)) (good : Bool),
    s.pte job (va / tierPage) = some e → e.tier = 3 → e.valid = true → n = min len (tierPage - va % tierPage) →
    ls = s.flashLps job (va / tierPage) (va % tierPage) n →
    v = s.touch (8 + ((s.homeOf job (va / tierPage)).getD 0)) job (va / tierPage) false →
    good = ls.zipIdx.all (fun l => v.lpReads l.1.1 l.1.2 (badCopies bad l.2)) →
    u = ls.zipIdx.foldl (fun u l => u.readLogical (s.whOf (job % 4)) l.1.1 l.1.2 (badCopies bad l.2)) v →
    (s.planesServe ls = false → exec (.flashPageRead job va len bad) s = .next s) ∧
    (s.planesServe ls = true →
      (good = true → exec (.flashPageRead job va len bad) s = .next (u.answer (leNat (u.vaRead job va n)))) ∧
      (good = false → e.backing = 0 → exec (.flashPageRead job va len bad) s = .next
        ((u.drawBytes n).2.answer (leNat (u.drawBytes n).1))) ∧
      (∀ f, good = false → e.backing ≠ 0 → u.pte job (va / tierPage) = some f → exec (.flashPageRead job va len bad) s = .next
        (((u.setPte job (va / tierPage) { f with lost := true, dirty := 0 }).bump (s.whOf (job % 4)) 29 0x110 1).answer 0))))

/-- ERASE_INTENT of a released or half-erased block of the Wellhead, with no intent outstanding, adds exactly one
record to the journal, of type 6, not durable, and gives the block its serial number; the block's state stays.
ERASE_ISSUE of such a block with an intent, its die up, and the record programmed where its journal is strict, makes that
record durable, takes the block to ERASING and puts its erase last at its plane. ERASE_COMPLETE of the erase in progress at
its plane takes it from the plane and that intent record out of the journal, and no other; a good erase clears the block's
bytes and leaves it ERASED with the serial in its stamp and one erase more; a failed one counts the erase too and retires
the block. An erase that waits or is suspended does not complete. A block with no intent is neither issued nor completed.
(R349, R354, R358, R360) -/
def Obligations.EraseGoesThroughItsIntentRecord : Prop :=
  (∀ (s : State) (w loc : Nat), ((s.block (locBlk loc)).state = .released ∨ (s.block (locBlk loc)).state = .halfErased) →
    (s.block (locBlk loc)).intent = none → s.wellWh (blkWell (locBlk loc)) = s.whOf w →
    ∃ (t : State) (j : JRec) (n : Nat), exec (.eraseIntent w loc) s = .next t ∧ t.req.journal = s.req.journal ++ [j] ∧ j.typ = 6 ∧
      j.durable = false ∧ n = blkWell (locBlk loc) % 4 * 72057594037927936 + Tbl.val 0 s.req.jserial (blkWell (locBlk loc) % 4) ∧
      t.block (locBlk loc) = { s.block (locBlk loc) with intent := some n } ∧ t.mem = s.mem) ∧
  (∀ (s : State) (loc n p : Nat), (s.block (locBlk loc)).intent = some n → p = blkPlane (locBlk loc) →
    ((s.block (locBlk loc)).state = .released ∨ (s.block (locBlk loc)).state = .halfErased) →
    s.strictJournal (n / 72057594037927936) = false ∨ (∀ r ∈ s.req.journal, r.isIntent n = true → r.programmed = true) →
    s.dieUp (blkDie (locBlk loc)) = true →
    ∃ t, exec (.eraseIssue loc) s = .next t ∧ t.block (locBlk loc) = { s.block (locBlk loc) with state := .erasing } ∧
      (∀ r ∈ t.req.journal, r.isIntent n = true → r.durable = true) ∧
      (t.plane p).erases = (s.plane p).erases ++ [locBlk loc] ∧ t.mem = s.mem) ∧
  (∀ (s : State) (loc n p : Nat), (s.block (locBlk loc)).intent = some n → (s.block (locBlk loc)).state = .erasing →
    p = blkPlane (locBlk loc) → s.dieUp (blkDie (locBlk loc)) = true →
    ((s.plane p).erases.head? = some (locBlk loc) → (s.plane p).running = true → (s.plane p).suspended = false →
      (∃ t, exec (.eraseComplete loc true) s = .next t ∧
        t.block (locBlk loc) = { state := .erased, erases := (s.block (locBlk loc)).erases + 1, stamp := n } ∧
        t.req.journal = s.req.journal.filter (fun r => !r.isIntent n) ∧ (t.plane p).erases = (s.plane p).erases.tail ∧
        t.mem = Memory.clear s.mem (Space.key (.flash (locBlk loc)) 0) 25165824) ∧
      (∃ u : State, u.req.journal = s.req.journal.filter (fun r => !r.isIntent n) ∧ u.mem = s.mem ∧
        (u.plane p).erases = (s.plane p).erases.tail ∧
        exec (.eraseComplete loc false) s = .next (((u.setBlock (locBlk loc) { s.block (locBlk loc) with
          erases := (s.block (locBlk loc)).erases + 1 }).event (80 + blkWell (locBlk loc)) 0 [] [2]).retireBlock (locBlk loc)))) ∧
    ((s.plane p).erases.head? ≠ some (locBlk loc) ∨ (s.plane p).running = false ∨ (s.plane p).suspended = true →
      ∀ ok, exec (.eraseComplete loc ok) s = .next s)) ∧
  (∀ (s : State) (loc : Nat) (ok : Bool), (s.block (locBlk loc)).intent = none →
    exec (.eraseIssue loc) s = .next s ∧ exec (.eraseComplete loc ok) s = .next s)

/-- BLOCK_VERIFY of a closed block takes it to SEALED, counting the used pages that fail; failing pages of an index or
passage block move it whole and release it, and those of another block are programmed elsewhere. RECLAIM of a partition with
2 % or more of its blocks free, or of any but the store and spill partitions, changes nothing; below 2 % it copies the
valid pages of the sealed block with the fewest, counts them and releases the block unless something still maps it.
PROGRAM_FAIL of an open block logs the failure, rebuilds what it holds and retires it; of the erase in progress at a plane
it ends the erase, lets its intent go, counts it and retires the block. READ_ONLY_ENTRY of a Well whose spare blocks have
run out takes the module read-only, once, with the event of every Wellhead. HOLDUP_FLUSH of a mounted module within 30 ms
marks every durable journal record programmed, writes the map checkpoint, module time and the marker, then loses what is
volatile and turns the rails off; a longer one has written none of it; before mount it writes nothing and turns them off.
HOLDUP_MEASURE takes the measured energy into the register of each Wellhead, and the module runs in write-through
exactly while it is below 90 J. MAP_CHECKPOINT of a mounted module, 20,000 boundaries after the last, writes the map
and the boundary's time; sooner it changes nothing. (R349, R352, R354, R355, R357, R358, R360, R362, R363, R520) -/
def Obligations.BlocksAreKeptAndStateIsSaved : Prop :=
  ((∀ (s u : State) (loc k : Nat) (failing bad : List Nat), k = locBlk loc → (s.block k).state = .verify →
    bad = failing.filter (fun p => p < (s.block k).used) →
    u = (s.noteRebuilt k bad.length).setBlock k { s.block k with state := .sealed } →
    (bad = [] → exec (.blockVerify loc failing) s = .next u) ∧
    (bad ≠ [] → (s.block k).part = 3 ∨ (s.block k).part = 4 → exec (.blockVerify loc failing) s = .next
      ((u.moveGroup k (blkWell k)).setBlock k { (u.moveGroup k (blkWell k)).block k with state := .released })) ∧
    (bad ≠ [] → (s.block k).part ≠ 3 → (s.block k).part ≠ 4 → exec (.blockVerify loc failing) s = .next
      (u.moveKeys ((u.keysIn k).filter (fun key => match Tbl.look u.wdl.map key with
        | none => false
        | some e => bad.contains (entryPage e))) (blkWell k)))) ∧
  (∀ (s : State) (well part : Nat), (part ≠ 2 ∧ part ≠ 5) ∨ s.wellUp well = false ∨
      32 * s.partBlocks part well ≤ 50 * (32 * s.partBlocks part well - s.partTaken part well) →
    exec (.reclaim well part) s = .next s) ∧
  (∀ (s u : State) (well part k : Nat), part = 2 ∨ part = 5 → s.wellUp well = true →
    50 * (32 * s.partBlocks part well - s.partTaken part well) < 32 * s.partBlocks part well →
    minBy (fun k => (s.keysIn k).length) ((s.wdl.blocks.filter (fun e => decide (blkWell e.1 = well) &&
      decide (e.2.part = part) && decide (e.2.state = .sealed))).map Prod.fst) = some k →
    u = (s.moveKeys (s.keysIn k) well).bumpWide (s.wellWh well) 12 4 0 (s.keysIn k).length →
    (u.mapped k = false → exec (.reclaim well part) s = .next (u.setBlock k { u.block k with state := .released })) ∧
    (u.mapped k = true → exec (.reclaim well part) s = .next u)) ∧
  (∀ (s u : State) (loc k : Nat), k = locBlk loc → (s.block k).state = .opened → s.dieUp (blkDie k) = true →
    u = ((s.event (80 + blkWell k) 0 [] [1]).noteRebuilt k (s.block k).used).setBlock k { s.block k with state := .retired } →
    ((s.block k).part ≠ 3 → (s.block k).part ≠ 4 →
      exec (.programFail loc false) s = .next ((u.moveKeys (u.keysIn k) (blkWell k)).retireBlock k)) ∧
    ((s.block k).part = 3 ∨ (s.block k).part = 4 →
      exec (.programFail loc false) s = .next ((u.moveGroup k (blkWell k)).retireBlock k))) ∧
  (∀ (s u : State) (loc k n : Nat), k = locBlk loc → (s.block k).state = .erasing → s.eraseRuns k = true → s.dieUp (blkDie k) = true →
    (s.block k).intent = some n → u = (s.eraseLeaves k).event (80 + blkWell k) 0 [] [2] →
    exec (.programFail loc true) s = .next
      (((({ u with req := { u.req with journal := u.req.journal.filter (fun r => !r.isIntent n) } } : State).countErase k
        (s.block k).tlc).setBlock k { s.block k with erases := (s.block k).erases + 1 }).retireBlock k)) ∧
  (∀ (s : State) (n : Nat), (s.wdl.roDue = true → (s.well n).spare = 0 → s.wdl.readOnly = false →
    exec (.readOnlyEntry n) s = .next ([0, 1, 2, 3].foldl (fun s w => s.event w 12 [sqBit 0x118 3] [])
      { s with wdl := { s.wdl with readOnly := true, roDue := false } })) ∧
    (s.wdl.roDue = false ∨ (s.well n).spare ≠ 0 ∨ s.wdl.readOnly = true → exec (.readOnlyEntry n) s = .next s))) ∧
  ((∀ (s : State) (us : Nat), s.boot.powered = true → s.wdl.mounted = true →
    (us ≤ 30000 → ∀ u : State, u = ({ s with
        req := { s.req with journal := s.req.journal.map (fun r => if r.durable then { r with programmed := true } else r) }
        wdl := { s.wdl with ckpt := s.wdl.map }
        time := { s.time with bootNs := BitVec.ofNat 64 s.nowNs }
        boot := { s.boot with flushDone := true, flushUs := us, clean := false } } : State).lose false →
      exec (.holdupFlush us) s = .next { u with boot := { u.boot with powered := false, flushed := true } }) ∧
    (30000 < us → ∀ u : State, u = ({ s with
        boot := { s.boot with flushDone := false, flushUs := us % 4294967296, clean := false } } : State).lose false →
      exec (.holdupFlush us) s = .next { u with boot := { u.boot with powered := false, flushed := true } })) ∧
  (∀ (s : State) (us : Nat), s.boot.powered = true → s.wdl.mounted = false →
    exec (.holdupFlush us) s = .next { s.lose false with boot := { (s.lose false).boot with powered := false, flushed := false } }) ∧
  (∀ (s : State) (dj : Nat), ∃ t, exec (.holdupMeasure dj) s = .next t ∧ (t.wdl.writeThrough = true ↔ dj < 900) ∧
    (∀ w < 4, (t.reg w 12 0x104).toNat = dj % 65536) ∧
    t.wdl = { s.wdl with writeThrough := decide (dj < 900) } ∧ t.req = s.req ∧ t.mem = s.mem) ∧
  (∀ (s : State), s.wdl.mounted = true → 20000 ≤ s.wdl.sinceCkpt →
    exec .mapCheckpoint s = .next { s with wdl := { s.wdl with ckpt := s.wdl.map, sinceCkpt := 0 }
                                           time := { s.time with bootNs := s.time.boundNs } }) ∧
  (∀ (s : State), s.wdl.mounted = false ∨ s.wdl.sinceCkpt < 20000 → exec .mapCheckpoint s = .next s))

/-- WELL_FAILURE of a Well that is up marks it absent, posts FAULT 0x04 for it, and moves or loses what it held; of
one that is not up it changes nothing. WELL_RETURN of a failed or absent Well begins its quarantine at this stroke; of
one in quarantine, less than 20,000 strokes later, it changes nothing, and then it brings the Well back: its journal and
spill blocks are released, its spill pages forgotten, and the stale groups of each generation are found. On MOD page 10,
past the gate and with no command under way, a descriptor that fails its checks ends a command with its code; with a
checked one CREATE of a free image with room enters it with its length; WRITE of a range within an image that is not ready
copies the bytes and records the range; SEAL of an image all of whose ranges are written makes it ready; DELETE of an image
nothing uses discards its pages and takes it out; LAYOUT with fields in range and nothing using the partitions replaces the
record, its generation one higher, and releases what the partitions held. An image that is not there ends WRITE, SEAL
and DELETE with code 3. (R67, R219, R353, R359, R365, R366, R367) -/
def Obligations.WellsAndImagesFollowTheirCommands : Prop :=
  (∀ (s : State) (n : Nat), s.wellUp n = true → exec (.wellFailure n) s = .next
    ((((((((s.setWell n { s.well n with state := 4 }).postFault 4 (80 + n) 0).moveStreams n).markSingle n).searchWellLost
      n).settlePlanes).loseBacking).loseSpilled)) ∧
  (∀ (s : State) (n : Nat), s.wellUp n = false → exec (.wellFailure n) s = .next s) ∧
  (∀ (s : State) (n : Nat), n < s.wellCount →
    ((s.well n).state = 0 ∨ (s.well n).state = 4 →
      exec (.wellReturn n) s = .next (s.setWell n { s.well n with state := 3, since := s.strokeN })) ∧
    ((s.well n).state = 3 → s.strokeN < (s.well n).since + 20000 → exec (.wellReturn n) s = .next s) ∧
    ((s.well n).state = 3 → (s.well n).since + 20000 ≤ s.strokeN →
      ∃ u : State, (u.well n) = { s.well n with state := 2 } ∧ u.mem = s.mem ∧
        u.wdl.map = s.wdl.map.filter (fun e => !(decide (e.1 / 36893488147419103232 = 5) && decide (blkWell (entryBlk e.2) = n))) ∧
        u.wdl.blocks = s.wdl.blocks.map (fun e => if blkWell e.1 = n ∧ (e.2.part = 5 ∨ e.2.part = 1) ∧
          (e.2.state = .opened ∨ e.2.state = .verify ∨ e.2.state = .sealed) then (e.1, { e.2 with state := BlkState.released }) else e) ∧
        exec (.wellReturn n) s = .next ((List.range 4).foldl (fun s g => s.staleOn n g) u))) ∧
  (∀ (s : State) (req : Requester) (id : Nat) (d : List Byte), id < 65536 → s.gate req 120 10 1 = (s, true) →
    s.cmdBusy 120 10 0x10C = false →
    (∀ c, s.imgDesc = (c, d) → c ≠ 0 → s.wdl.readOnly = false →
      exec (.imageCreate req id) s = .next (s.cmdDone 10 c id) ∧ exec (.imageWrite req id) s = .next (s.cmdDone 10 c id) ∧
      exec (.imageSeal req id) s = .next (s.cmdDone 10 c id) ∧ exec (.imageDelete req id) s = .next (s.cmdDone 10 c id) ∧
      exec (.layout req) s = .next (s.cmdDone 10 c 0)) ∧
    (s.imgDesc = (0, d) → id ≠ 0 → s.wdl.readOnly = false → fld d 4 4 = 1 → 0 < fld d 8 8 → fld d 8 8 % 16384 = 0 →
      fld d 8 8 ≤ 8796093022208 → zeros d 0x10 16 = true → s.image id = none → fld d 8 8 ≤ s.storeRoom →
      exec (.imageCreate req id) s = .next ((s.setImage id { bytes := fld d 8 8 }).cmdDone 10 0 id)) ∧
    (∀ (off src len : Nat), s.imgDesc = (0, d) → s.wdl.readOnly = false → fld d 4 4 = 1 → off = fld d 8 8 → src = fld d 0x10 8 →
      len = fld d 0x18 4 → off % 16384 = 0 → src % 4096 = 0 → 0 < len → len % 16384 = 0 → len ≤ 1073741824 →
      s.inHost src len = true → zeros d 0x1C 4 = true →
      (s.image id = none → exec (.imageWrite req id) s = .next (s.cmdDone 10 3 id)) ∧
      (∀ x : ModelImage, s.image id = some x → x.ready = false → off + len ≤ x.bytes →
        ∃ (u : State) (single : Bool), u = (List.range (len / 16384)).foldl (fun s i => s.writeLogical 2 (lpImage id (off / 16384 + i)))
            { s with mem := Memory.copy s.mem (Space.key .lpddr src) (Space.key (.image id) off) len } ∧
          single = (x.single || !(List.range (len / 16384)).all (fun i => (u.copies 2 (lpImage id (off / 16384 + i))).length == 2)) ∧
          exec (.imageWrite req id) s = .next
            ((u.setImage id { x with written := x.written ++ [(off, off + len)], single := single }).cmdDone 10 0 id))) ∧
    (∀ x, s.imgDesc = (0, d) → s.image id = some x → x.ready = false → x.bytes ≤ reach x.written (x.written.length + 1) 0 →
      exec (.imageSeal req id) s = .next ((s.setImage id { x with ready := true }).cmdDone 10 0 id)) ∧
    (∀ x, s.imgDesc = (0, d) → s.image id = some x → s.imageUsed id = false →
      ∃ u : State, u = s.discard 2 (fun lp => decide (lp / 4294967296 = id)) ∧ exec (.imageDelete req id) s = .next
        (({ u with wdl := { u.wdl with images := Tbl.del u.wdl.images id } } : State).cmdDone 10 0 id)) ∧
    (s.imgDesc = (0, d) → s.image id = none → exec (.imageSeal req id) s = .next (s.cmdDone 10 3 id) ∧
      exec (.imageDelete req id) s = .next (s.cmdDone 10 3 id))) ∧
  (∀ (s : State) (req : Requester) (d : List Byte), s.gate req 120 10 1 = (s, true) → s.cmdBusy 120 10 0x10C = false →
    s.imgDesc = (0, d) → s.wdl.readOnly = false → fld d 4 4 = 1 → 16 ≤ fld d 8 2 → 16 ≤ fld d 0xA 2 → 16 ≤ fld d 0xC 2 →
    fld d 8 2 + fld d 0xA 2 + fld d 0xC 2 + 586 ≤ 9557 → zeros d 0xE 18 = true → s.layoutBusy = false →
    ∃ (u : State) (bl : Tbl Block), u = ({ s with wdl := { s.wdl with
        layout := { index := fld d 8 2, passage := fld d 0xA 2, spill := fld d 0xC 2, gen := s.wdl.layout.gen + 1 }
        blocks := bl, map := [] } } : State) ∧
      bl = s.wdl.blocks.map (fun e => if 2 ≤ e.2.part ∧ (e.2.state = .opened ∨ e.2.state = .verify ∨ e.2.state = .sealed) then
        (e.1, { e.2 with state := BlkState.released }) else e) ∧
      exec (.layout req) s = .next (u.cmdDone 10 0 0))

/-- In service, a doorbell of a device ring through its own port, which serves its BARs, with an aligned index from the
producer index to the consumer index plus the entries becomes the producer index, the commands of a command ring being
received; any other index is counted, logged and changes no ring; a ring that is not there, is of a host kind or of the
other port is logged with its code. Before service a doorbell is discarded and counted for its port, and through a port
that serves no BARs it changes nothing. RING_CREATE of a checked descriptor makes the ring, in the boot partition too, and
RING_DESTROY that its checks allow takes it out of both; one that fails a check ends with its code. CONSUMER_INDEX_POST
writes the consumer index of a device ring to its index block once for each new value. CONSUMER_INDEX_READ of a host ring
that wants room takes a value from the cached index to the producer index and writes what then fits, and ignores and counts
any other; of a ring that wants none it changes nothing. CROSS_PORT_FENCE of two rings on different ports counts the read,
puts the ACCEPTs issued into the first ahead of what follows in the second, and notes it once. (R37, R376, R377, R378,
R380, R382, R410, R411, R418) -/
def Obligations.RingCommandsMoveTheirIndices : Prop :=
  (∀ (s : State) (port rid : Nat) (v : Word64) (al : Bool), port < 2 → rid < 131072 →
    ((s.hp port).bars = false ∨ s.flt.safe = true → exec (.doorbellWrite port rid v al) s = .next s) ∧
    ((s.hp port).bars = true → s.flt.safe = false → s.boot.ready = false →
      exec (.doorbellWrite port rid v al) s = .next (s.earlyDoorbell port)) ∧
    ((s.hp port).bars = true → s.flt.safe = false → s.boot.ready = true →
      (Tbl.look s.nor.rings rid = none → exec (.doorbellWrite port rid v al) s = .next (s.err (s.ringWh rid) 31 2)) ∧
      (∀ r : Ring, Tbl.look s.nor.rings rid = some r →
        (deviceKind r.kind = false → exec (.doorbellWrite port rid v al) s = .next (s.err (s.ringWh rid) 31 2)) ∧
        (deviceKind r.kind = true → r.port ≠ port → exec (.doorbellWrite port rid v al) s = .next (s.err (s.ringWh rid) 31 3)) ∧
        (deviceKind r.kind = true → r.port = port →
          (al = true → r.prod ≤ v.toNat → v.toNat ≤ r.cons + r.entries →
            (r.kind ≠ 4 → exec (.doorbellWrite port rid v al) s = .next (s.setRing rid { r with prod := v.toNat })) ∧
            (r.kind = 4 → exec (.doorbellWrite port rid v al) s = .next
              ((s.handCommands r (v.toNat - r.prod)).setRing rid { r with prod := v.toNat }))) ∧
          (al = false ∨ v.toNat < r.prod ∨ r.cons + r.entries < v.toNat →
            exec (.doorbellWrite port rid v al) s = .next (s.badIndex (s.ringWh rid) [1])))))) ∧
  (∀ (s : State) (req : Requester) (rid : Nat), rid < 131072 → s.gate req 120 11 1 = (s, true) → s.cmdBusy 120 11 0x10C = false →
    (∀ c r, s.createCheck rid (s.cmdAddr 11) = (c, r) →
      (c = 0 → exec (.ringCreate req rid) s = .next
        (({ s.setRing rid r with boot := { s.boot with rings := Tbl.put s.boot.rings rid r } } : State).cmdDone 11 0 rid)) ∧
      (c ≠ 0 → exec (.ringCreate req rid) s = .next (s.cmdDone 11 c rid))) ∧
    (s.destroyCheck rid = 0 → exec (.ringDestroy req rid) s = .next
      (({ s with nor := { s.nor with rings := Tbl.del s.nor.rings rid }
                 boot := { s.boot with rings := Tbl.del s.boot.rings rid } } : State).cmdDone 11 0 rid)) ∧
    (s.destroyCheck rid ≠ 0 → exec (.ringDestroy req rid) s = .next (s.cmdDone 11 (s.destroyCheck rid) rid))) ∧
  (∀ (s : State) (rid : Nat) (r : Ring), Tbl.look s.nor.rings rid = some r → deviceKind r.kind = true →
    (r.postedCi ≠ r.cons → exec (.consumerIndexPost rid) s = .next
      (((s.setRing rid { r with postedCi := r.cons }).hostWrite r.port (r.idx + 8) (leBytes 8 r.cons)).bumpWide (s.ringWh rid) 31 3 0
        1)) ∧
    (r.postedCi = r.cons → exec (.consumerIndexPost rid) s = .next s)) ∧
  (∀ (s u : State) (rid : Nat) (v : Word64) (r : Ring), Tbl.look s.nor.rings rid = some r → deviceKind r.kind = false →
    (s.hp r.port).readOk (r.idx + 8) = true →
    u = ((s.store (.host r.port) (r.idx + 8) (leBytes 8 v.toNat)).bump (s.ringWh rid) 31 0x110 1).bumpWide r.port 13 3 0 8 →
    (s.ringWants rid r = true → r.cons ≤ v.toNat → v.toNat ≤ r.prod →
      exec (.consumerIndexRead rid v) s = .next (((u.setRing rid { r with cons := v.toNat }).drainRing rid).settle)) ∧
    (s.ringWants rid r = true → v.toNat < r.cons ∨ r.prod < v.toNat →
      exec (.consumerIndexRead rid v) s = .next (u.badIndex (s.ringWh rid) [])) ∧
    (s.ringWants rid r = false → exec (.consumerIndexRead rid v) s = .next s)) ∧
  (∀ (s u : State) (a b : Nat) (x y : Ring), Tbl.look s.nor.rings a = some x → Tbl.look s.nor.rings b = some y →
    (x.port ≠ y.port → (s.hp x.port).readOk x.idx = true → u = (s.bumpWide x.port 13 3 0 16).fenceAccepts a b →
      (u.nor.fenced.contains (a, b) = false →
        exec (.crossPortFence a b) s = .next { u with nor := { u.nor with fenced := u.nor.fenced ++ [(a, b)] } }) ∧
      (u.nor.fenced.contains (a, b) = true → exec (.crossPortFence a b) s = .next u)) ∧
    (x.port = y.port → exec (.crossPortFence a b) s = .next s))

/-- Draining a ring moves its producer index on over positions all of whose records were there, leaves its consumer
index, and stops only at a position whose record is not there yet or when the ring is full: the producer index is
never more than the entries ahead of the consumer index if it was not before. Every other ring is as it was. A record
handed to a position stays the ring's, and no record is written before those of the positions ahead of it. (R374,
R379, R381, R44) -/
def Obligations.RingsWriteInPositionOrderWithinTheirRoom : Prop :=
  ∀ (s : State) (rid : Nat) (r : Ring), Tbl.look s.nor.rings rid = some r →
    ∃ r', Tbl.look (s.drainRing rid).nor.rings rid = some r' ∧ r.prod ≤ r'.prod ∧ r'.cons = r.cons ∧ r'.resv = r.resv ∧
      r'.log2 = r.log2 ∧ (r.prod - r.cons ≤ r.entries → r'.prod - r'.cons ≤ r'.entries) ∧
      (∀ p, r.prod ≤ p → p < r'.prod → (Tbl.look r.filled p).isSome = true) ∧
      (∀ p, r'.prod ≤ p → Tbl.look r'.filled p = Tbl.look r.filled p) ∧
      (Tbl.look r'.filled r'.prod = none ∨ r'.hasRoom = false) ∧
      (∀ k, k ≠ rid → Tbl.look (s.drainRing rid).nor.rings k = Tbl.look s.nor.rings k)

/-- With no operation under way in the requester's context and past the gate, SYC_READ, ADD, CAS, CLAIM and RELEASE
apply their operation to the counter the context names and leave its value before and its status; SYC_WAIT is answered
BAD_OP with the value. READ and WAIT leave a counter as it is, ADD adds modulo 2^32, CAS replaces it only where it
equals the expected value, CLAIM takes it only from 0 and RELEASE clears it only for its owner, so that while one
owner holds it no CLAIM succeeds and no other owner's RELEASE does. In service, an aligned 4-byte access of the
counter window reads or adds likewise; any other is logged with code 2. An operation written while one is under way is
logged with code 1. While the port serves no BAR a window access does nothing; in the safe states a read answers all
ones and an add is dropped; before service a read answers 0 and an add is counted as dropped. (R385, R386, R387, R390, R391, R410) -/
def Obligations.CounterOperationsAreAtomic : Prop :=
  (∀ (s : State) (req : Requester) (wh core : Nat) (x : SycOp), wh < 4 → core < 16 → s.gate req wh 32 3 = (s, true) →
    x = s.syc wh req → x.state ≠ 1 →
    (∀ r, r = s.ctrOp 0 x.id x.a.toNat x.b.toNat (requesterOwner req 0 (x.b.toNat % 0x1000000)) →
      exec (.sycRead req wh) s = .next (r.1.setSyc wh req { x with state := 2, status := r.2.2, old := BitVec.ofNat 32 r.2.1 })) ∧
    (∀ r, r = s.ctrOp 1 x.id x.a.toNat x.b.toNat (requesterOwner req 0 (x.b.toNat % 0x1000000)) →
      exec (.sycAdd req wh) s = .next (r.1.setSyc wh req { x with state := 2, status := r.2.2, old := BitVec.ofNat 32 r.2.1 })) ∧
    (exec (.sycWait req wh) s = .next (s.setSyc wh req { x with state := 2, status := 2, old := s.ctr x.id })) ∧
    (∀ r, r = s.ctrOp 3 x.id x.a.toNat x.b.toNat (requesterOwner req 0 (x.b.toNat % 0x1000000)) →
      exec (.sycCas req wh) s = .next (r.1.setSyc wh req { x with state := 2, status := r.2.2, old := BitVec.ofNat 32 r.2.1 })) ∧
    (∀ r, r = s.ctrOp 4 x.id x.a.toNat x.b.toNat (requesterOwner req core (x.b.toNat % 0x1000000)) →
      exec (.sycClaim req wh core) s = .next
        (r.1.setSyc wh req { x with state := 2, status := r.2.2, old := BitVec.ofNat 32 r.2.1 })) ∧
    (∀ r, r = s.ctrOp 5 x.id x.a.toNat x.b.toNat (requesterOwner req core (x.b.toNat % 0x1000000)) →
      exec (.sycRelease req wh core) s = .next
        (r.1.setSyc wh req { x with state := 2, status := r.2.2, old := BitVec.ofNat 32 r.2.1 }))) ∧
  (∀ (s : State) (op c a b owner : Nat), b < 2 ^ 32 → owner < 2 ^ 32 →
    (s.ctrOp op c a b owner).2.1 = (s.ctr c).toNat ∧
    ((s.ctrOp op c a b owner).1.ctr c).toNat = (ctrApply op (s.ctr c).toNat a b owner).1 % 2 ^ 32 ∧
    (∀ k, k ≠ c → (s.ctrOp op c a b owner).1.ctr k = s.ctr k) ∧
    (op = 1 → (s.ctrOp op c a b owner).1.ctr c = s.ctr c + BitVec.ofNat 32 a) ∧
    (op = 4 → ((s.ctrOp op c a b owner).2.2 = 0 ↔ s.ctr c = 0)) ∧
    (op = 5 → s.ctr c ≠ BitVec.ofNat 32 owner → (s.ctrOp op c a b owner).2.2 = 1 ∧ (s.ctrOp op c a b owner).1.ctr c = s.ctr c)) ∧
  (∀ (s : State) (port off : Nat) (v : Word), port < 2 → (s.hp port).bars = true → s.flt.safe = false → s.boot.ready = true →
    (off % 4 = 0 → exec (.counterWindowRead port off 4) s = .next
      ((s.ctrOp 0 (off / 4 % 131072) 0 0 0).1.answer (s.ctr (off / 4 % 131072)).toNat)) ∧
    (off % 4 = 0 → exec (.counterWindowAdd port off 4 v) s = .next (s.advance (off / 4 % 131072) v.toNat)) ∧
    (∀ width, off % 4 ≠ 0 ∨ width ≠ 4 →
      exec (.counterWindowRead port off width) s = .next (s.err (s.ctrWh (off / 4 % 131072)) 32 2) ∧
      exec (.counterWindowAdd port off width v) s = .next (s.err (s.ctrWh (off / 4 % 131072)) 32 2))) ∧
  (∀ (s : State) (req : Requester) (wh core : Nat), wh < 4 → core < 16 → s.gate req wh 32 3 = (s, true) →
    (s.syc wh req).state = 1 →
    exec (.sycRead req wh) s = .next (s.err wh 32 1) ∧ exec (.sycAdd req wh) s = .next (s.err wh 32 1) ∧
    exec (.sycWait req wh) s = .next (s.err wh 32 1) ∧ exec (.sycCas req wh) s = .next (s.err wh 32 1) ∧
    exec (.sycClaim req wh core) s = .next (s.err wh 32 1) ∧ exec (.sycRelease req wh core) s = .next (s.err wh 32 1)) ∧
  (∀ (s : State) (port off width : Nat) (v : Word), port < 2 →
    ((s.hp port).bars = false →
      exec (.counterWindowRead port off width) s = .next s ∧ exec (.counterWindowAdd port off width v) s = .next s) ∧
    ((s.hp port).bars = true → s.flt.safe = true → exec (.counterWindowRead port off width) s = .next (s.answer 0xFFFFFFFF) ∧
      exec (.counterWindowAdd port off width v) s = .next s) ∧
    ((s.hp port).bars = true → s.flt.safe = false → s.boot.ready = false →
      exec (.counterWindowRead port off width) s = .next (s.answer 0) ∧
      exec (.counterWindowAdd port off width v) s = .next (s.hptDrop port)))

/-- WAIT_PARK of a unit with no WAIT outstanding on a counter below its threshold parks it while the Wellhead parks
fewer than 16,384, and answers RETRY beyond; on a counter that meets the threshold, and for a unit whose WAIT is outstanding, it
changes nothing. WAIT_SATISFIED
takes the first parked WAIT of the Wellhead whose counter has reached its threshold and lets its unit go on; with none
it changes nothing. WAIT_REISSUE issues the first WAIT answered RETRY again: its unit goes on if the counter is there,
and it is parked or answered RETRY if not. (R385, R389) -/
def Obligations.WaitsParkAndResume : Prop :=
  (∀ (s : State) (u : WaitUnit) (c thr : Nat), (∀ p ∈ s.nor.parked ++ s.nor.retry, p.unit ≠ u) →
    (s.ctrMet c thr = false → (s.nor.parked.filter (fun q => s.ctrWh q.ctr = s.ctrWh c)).length < 16384 →
      exec (.waitPark u c thr) s = .next (({ s with nor := { s.nor with
        parked := s.nor.parked ++ [{ unit := u, ctr := c, thr := thr }] } } : State).bumpWide (s.ctrWh c) 32 2 0 1)) ∧
    (s.ctrMet c thr = false → 16384 ≤ (s.nor.parked.filter (fun q => s.ctrWh q.ctr = s.ctrWh c)).length →
      exec (.waitPark u c thr) s = .next ((({ s with nor := { s.nor with
        retry := s.nor.retry ++ [{ unit := u, ctr := c, thr := thr }] } } : State).bump (s.ctrWh c) 32 0x124 1).event (s.ctrWh c) 32
          [sqBit 0x118 0] [])) ∧
    (s.ctrMet c thr = true → exec (.waitPark u c thr) s = .next s)) ∧
  (∀ (s : State) (u : WaitUnit) (c thr : Nat) (p : Park), p ∈ s.nor.parked ++ s.nor.retry → p.unit = u →
    exec (.waitPark u c thr) s = .next s) ∧
  (∀ (s : State) (w : Nat),
    (∀ p, s.nor.parked.find? (fun p => decide (s.ctrWh p.ctr = w) && s.ctrMet p.ctr p.thr) = some p →
      exec (.waitSatisfied w) s = .next (({ s with nor := { s.nor with parked := s.nor.parked.erase p } } : State).waitGo p)) ∧
    ((∀ p ∈ s.nor.parked, s.ctrWh p.ctr = w → s.ctrMet p.ctr p.thr = false) → exec (.waitSatisfied w) s = .next s)) ∧
  (∀ (s u : State) (w : Nat) (p : Park), s.nor.retry.find? (fun p => decide (s.ctrWh p.ctr = w)) = some p →
    u = ({ s with nor := { s.nor with retry := s.nor.retry.erase p } } : State) →
    (u.ctrMet p.ctr p.thr = true → exec (.waitReissue w) s = .next (u.waitGo p)) ∧
    (u.ctrMet p.ctr p.thr = false → exec (.waitReissue w) s = .next (u.park p)))

/-- PERST_RELEASE of a port held in reset releases it and starts its timeline; of a released port it changes nothing.
PORT_RESET takes the port back into reset with no link, and an up link's loss raises its event; the writes held and
the reads failed stay. HOST_PORT_RETURN counts the return, brings the link up at its width and speed, serves the BARs
at once in service, and issues the held writes. HOST_READ_FAIL counts and reports the read and keeps it;
HOST_READ_REISSUE of an up port takes the oldest kept read, which ends if it succeeds and goes to the back if it fails
again; a port that is down keeps it. (R410, R412, R413) -/
def Obligations.HostPortsComeUpAndGoDown : Prop :=
  ∀ (s : State) (p : Nat), p < 2 →
    ((s.hp p).released = false → exec (.perstRelease p) s = .next (s.setHp p { s.hp p with released := true, strokes := 0 })) ∧
    ((s.hp p).released = true → exec (.perstRelease p) s = .next s) ∧
    (∃ u, u = s.setHp p { s.hp p with
        released := false, cfgReady := false, linkUp := false, width := 0, speed := 0, flit := false, d3hot := false } ∧
      exec (.portReset p) s = .next (if (s.hp p).linkUp then u.event p 13 [sqBit 0x118 3] [] else u) ∧
      (u.hp p).held = (s.hp p).held ∧ (u.hp p).failed = (s.hp p).failed) ∧
    (∀ lanes speed, exec (.hostPortReturn p lanes speed) s = .next (((s.bumpWide p 13 5 0 1).setHp p { s.hp p with
      released := true, cfgReady := (s.hp p).cfgReady || s.boot.ready, pagesReady := (s.hp p).pagesReady || s.boot.ready
      linkUp := true, width := lanes, speed := speed, flit := decide (speed = 6), d3hot := false }).issueHeld p)) ∧
    (∀ addr len, exec (.hostReadFail p addr len) s = .next (((s.bumpWide p 13 4 0 1).event p 13 [sqBit 0x118 2] []).setHp p
      { s.hp p with failed := (s.hp p).failed ++ [(addr, len)] })) ∧
    (∀ a n t, (s.hp p).failed = (a, n) :: t →
      ((s.hp p).up = true → exec (.hostReadReissue p true) s = .next ((s.setHp p { s.hp p with failed := t }).bumpWide p 13 3 0 n)) ∧
      ((s.hp p).up = true → exec (.hostReadReissue p false) s = .next (((s.bumpWide p 13 4 0 1).event p 13 [sqBit 0x118 2] []).setHp p
        { s.hp p with failed := t ++ [(a, n)] })) ∧
      (∀ ok, (s.hp p).up = false → exec (.hostReadReissue p ok) s = .next s))

/-- A configuration request to a port held in reset is not answered; before its configuration space is ready a Vendor
ID read with Software Visibility answers 0x0001 and any other request changes nothing; after that it reads or writes
the register. A BAR2 access in service is counted; one below the doorbells is a window access: within the 3,840 GiB
host area a write stores its bytes at the window's address and nowhere else, and a read answers the bytes there; past
the host area, or above the counters, it is a window miss; the former changes no byte of memory. A write of the doorbell
range is a doorbell of the ring at its offset and a read answers for that ring, an access of the counter range is that
of the counter window, and a poisoned write does nothing but count.
HPT_WIN_WRITE past the gate sets the port's window to the value's low 12 bits. (R405, R408, R409, R410, R411) -/
def Obligations.HostAccessesReachWhatTheirAddressNames : Prop :=
  (∀ (s : State) (p reg : Nat) (w rrs : Bool) (v : Word), p < 2 →
    ((s.hp p).released = false → exec (.configRequest p reg w rrs v) s = .next s) ∧
    ((s.hp p).released = true → (s.hp p).cfgReady = false →
      exec (.configRequest p 0 false true v) s = .next (s.answer 1) ∧
      (w = true ∨ rrs = false ∨ reg ≠ 0 → exec (.configRequest p reg w rrs v) s = .next s)) ∧
    ((s.hp p).released = true → (s.hp p).cfgReady = true →
      exec (.configRequest p reg true rrs v) s = .next (s.configWrite p reg v.toNat) ∧
      exec (.configRequest p reg false rrs v) s = .next (s.configRead reg))) ∧
  (∀ (s u : State) (p off len a : Nat) (data : List Byte), p < 2 → (s.hp p).bars = true → (s.hp p).pagesReady = true →
    s.flt.safe = false → off < doorbellBase → u = s.bumpWide p 13 1 0 1 → a = s.windowAddr p off →
    (a + data.length ≤ 3840 * 1073741824 →
      exec (.bar2Access p off len true false data) s = .next (u.store .lpddr a data) ∧
      ∀ k, (k < Space.key .lpddr a ∨ Space.key .lpddr a + data.length ≤ k) →
        Memory.read (u.store .lpddr a data).mem k = Memory.read s.mem k) ∧
    (a + len ≤ 3840 * 1073741824 →
      exec (.bar2Access p off len false false data) s = .next (u.answer (leNat (s.load .lpddr a len)))) ∧
    (3840 * 1073741824 < a + data.length →
      ∃ t, exec (.bar2Access p off len true false data) s = .next t ∧ t = u.windowMiss p 1 ∧ t.mem = s.mem) ∧
    exec (.bar2Access p off len true true data) s = .next u) ∧
  (∀ (s u : State) (p o len : Nat) (data : List Byte), p < 2 → (s.hp p).bars = true → s.flt.safe = false →
    u = s.bumpWide p 13 1 0 1 →
    (doorbellBase + o < counterBase → exec (.bar2Access p (doorbellBase + o) len true false data) s = .next
      (doorbellWrite u p (o / 8) (leNat data) (decide (o % 8 = 0) && decide (data.length = 8)))) ∧
    (counterBase + o < bar2Reserved → exec (.bar2Access p (counterBase + o) len true false data) s = .next
      (counterWindowAdd u p o data.length (leNat data)) ∧
      exec (.bar2Access p (counterBase + o) len false false data) s = .next (counterWindowRead u p o len)) ∧
    ((s.hp p).pagesReady = true → s.boot.ready = true → doorbellBase + o < counterBase →
      exec (.bar2Access p (doorbellBase + o) len false false data) s = .next (u.answer (u.doorbellRead (o / 8)))) ∧
    ((s.hp p).pagesReady = true →
      exec (.bar2Access p (bar2Reserved + o) len true false data) s = .next (u.windowMiss p 2) ∧
      exec (.bar2Access p (bar2Reserved + o) len false false data) s = .next (u.windowMiss p 2))) ∧
  (∀ (s : State) (req : Requester) (p : Nat) (v : Word), p < 2 → s.gate req p 13 (writeClass p 13 0x104 false req) = (s, true) →
    exec (.hptWinWrite req p v) s = .next (s.setHp p { s.hp p with win := v.toNat % 4096 }))

/-- SIPHON_TRANSFER of a channel's next descriptor, checked, its wait met and its sides ready, moves the list on,
notes the descriptor as moved and lays its stream at the destination, its bytes counted as read and as written; one
that fails its checks is refused with its code, and a START whose array cannot take a list with code 7; one whose wait
is not met, or whose sides are not ready, changes nothing. SIPHON_END of an END descriptor stops the channel.
SIPHON_COMPLETE of a moved transfer whose bytes have all landed counts it; a plain transfer then advances its done
counter, and a START starts its array's list, or is logged with code 7 if the array is no longer idle. (R393, R394,
R396, R397, R398, R399, R402) -/
def Obligations.SiphonsMoveBytesInTheirOrder : Prop :=
  (∀ (s : State) (die chan a : Nat) (fed d : List Byte) (w : Park), s.sipNext die chan fed = some (a, d) → sipIsEnd d = false →
    w = { unit := .siphon die chan, ctr := sipWait d % 0x20000, thr := fld d 0x38 4 } →
    (s.sipCheck die d ≠ 0 → exec (.siphonTransfer die chan fed) s = .next (s.sipRefuse die chan a (s.sipCheck die d) d)) ∧
    (s.sipCheck die d = 0 → s.startOk die d = false →
      exec (.siphonTransfer die chan fed) s = .next (s.sipRefuse die chan a 7 d)) ∧
    (s.sipCheck die d = 0 → s.startOk die d = true → (bitAt (sipWait d) 31 = true ∧ s.waitMet w = false) ∨ s.sideReady die d = false →
      exec (.siphonTransfer die chan fed) s = .next s) ∧
    (∀ u j r v, s.sipCheck die d = 0 → bitAt (sipWait d) 31 = false ∨ s.waitMet w = true → s.startOk die d = true →
      s.sideReady die d = true → u = (s.waitUsed (sipWait d) w).sipTook die chan a →
      j = (if die < 4 then 0 else s.jobOn (die - 8)) →
      r = (u.setSip die chan { u.sipChan die chan with job := j, moved := some d, addr := a }).sipStream die j d →
      v = r.2.sipLay die j d r.1 →
      exec (.siphonTransfer die chan fed) s = .next ((v.bumpWide die 30 1 chan r.1.length).bumpWide die 30 2 chan r.1.length))) ∧
  (∀ (s : State) (die chan a : Nat) (fed d : List Byte), s.sipNext die chan fed = some (a, d) → sipIsEnd d = true →
    exec (.siphonEnd die chan fed) s = .next (s.setSip die chan { s.sipChan die chan with at_ := none })) ∧
  (∀ (s u : State) (die chan : Nat) (d : List Byte), (s.sipChan die chan).moved = some d →
    u = (s.setSip die chan { s.sipChan die chan with moved := none }).bump die 30 0x108 1 →
    (s.sipThere die chan = true → s.sipLanded die d = true → sipKind d = 0 →
      exec (.siphonComplete die chan) s = .next (u.advanceFld (sipDone d) 1)) ∧
    (s.sipThere die chan = true → s.sipLanded die d = true → sipKind d = 1 → u.startOk die d = true →
      exec (.siphonComplete die chan) s = .next (u.giveList (sipTiller d) (u.jobOn (sipTiller d)) ((u.ranksOf (sipTiller d)).headD 0)
        (sipArray d) (sideAddr true d))) ∧
    (s.sipThere die chan = true → s.sipLanded die d = true → sipKind d = 1 → u.startOk die d = false →
      exec (.siphonComplete die chan) s = .next (u.sipLog die chan (u.sipChan die chan).addr 7 [sqBit 0x118 2])) ∧
    (s.sipLanded die d = false → exec (.siphonComplete die chan) s = .next s))

/-- A message for this module that is the next of its stream on a port that takes DATA is counted as arrived, moves
the stream's expected sequence past its flits, and has its effect: a write lays its bytes in the host area, or goes by
the Rhizome to the SRAM it names, and then makes its advance; a partial goes by the Rhizome to its Tiller's adder; a
counter add advances by the model's free amount (log entry 24), a command is received from source 2, a record is kept.
Of another op or space than the row's, or a Tiller there is none of, it is unreachable; one that is not the next of its
stream only arrives; one for another module on a ring whose pair forwards leaves on the pair's other port. A leg whose
packets may all pass counts them before its effect. ZIO_CTRL returns credits to its channel up to the channel's buffer
(none to channel 1), drops the acknowledged flits from the replay buffer, moves the acknowledged sequence, counts a
NAK's resends, releases what the end-to-end acknowledgement covers and lets the waiting messages leave. HEADER_CRC_NAK
of a port that is up starts dropping and is counted and reported. E2E_RESEND of a port in service marks every message
of the port unsent, counts them and lets them leave again. STREAM_TEARDOWN drops the stream's messages of a Wellhead
once 100 ms have passed with no acknowledgement, counts them in ZIO_UNREACH and records the error; earlier it changes
nothing. (R422, R423, R426, R427, R424, R425) -/
def Obligations.MessagesAreTakenInTheirOrderAndResent : Prop :=
  (∀ (s : State) (m : ZioMsg), m.dst = s.node → s.zioTakes m.port = true →
    ∃ a u, a = s.zioArrived m.port (zioFlits (16 * m.length)) ∧
      u = { a with zio := { a.zio with
        rxNext := Tbl.set 0 a.zio.rxNext (m.src * 4 + m.vc) ((m.eseq + zioFlits (16 * m.length)) % 4294967296) } } ∧
      (m.eseq % 4294967296 ≠ Tbl.val 0 a.zio.rxNext (m.src * 4 + m.vc) →
        exec (.zioWrite m) s = .next a ∧ exec (.zioPartial m) s = .next a ∧ exec (.zioCtrAdd m) s = .next a ∧
        exec (.zioCommand m) s = .next a ∧ exec (.zioRecord m) s = .next a) ∧
      (m.eseq % 4294967296 = Tbl.val 0 a.zio.rxNext (m.src * 4 + m.vc) →
        (m.op ≠ 0 ∨ (m.space ≠ 0 ∧ m.space ≠ 2) → exec (.zioWrite m) s = .next (u.zioUnreach m.port 1)) ∧
        (m.op ≠ 1 ∨ m.space ≠ 0 → exec (.zioPartial m) s = .next (u.zioUnreach m.port 1)) ∧
        (m.op ≠ 2 ∨ m.space ≠ 0 → exec (.zioCtrAdd m) s = .next (u.zioUnreach m.port 1)) ∧
        (m.op ≠ 3 ∨ m.space ≠ 0 → exec (.zioCommand m) s = .next (u.zioUnreach m.port 1)) ∧
        (m.op ≠ 4 ∨ m.space ≠ 0 → exec (.zioRecord m) s = .next (u.zioUnreach m.port 1)) ∧
        (m.op = 0 → m.space = 2 → (u.inHost m.addr (m.payload.take (16 * m.length)).length = true →
          exec (.zioWrite m) s = .next ((u.store .lpddr m.addr (m.payload.take (16 * m.length))).zioAdvance m)) ∧
          (u.inHost m.addr (m.payload.take (16 * m.length)).length = false →
            exec (.zioWrite m) s = .next (u.zioUnreach m.port 1))) ∧
        (m.space = 0 → 68 ≤ m.tiller →
          (m.op = 0 → exec (.zioWrite m) s = .next (u.zioUnreach m.port 1)) ∧
          (m.op = 1 → exec (.zioPartial m) s = .next (u.zioUnreach m.port 1))) ∧
        (m.space = 0 → m.tiller < 68 →
          (m.op = 0 → exec (.zioWrite m) s = .next (u.leg (legPackets m 0 2)
            (fun v => (v.sramWrite m.tiller m.addr (m.payload.take (16 * m.length))).zioAdvance m))) ∧
          (m.op = 1 → ∃ c : Contrib, exec (.zioPartial m) s = .next (u.leg (legPackets m 3 3) (fun v => v.setTiller m.tiller
              { v.tiller m.tiller with adder := (v.tiller m.tiller).adder ++ [c] })) ∧
            c.addr = m.addr ∧ c.ctr = (if m.advEn then 0x80000000 + m.advCtr else 0) ∧
            c.words = (List.range m.length).foldl (fun w i => Tbl.put w i (fld m.payload (16 * i) 16)) [])) ∧
        (m.space = 0 →
          (m.op = 2 → exec (.zioCtrAdd m) s = .next (u.drawWord.2.advance m.advCtr u.drawWord.1.toNat)) ∧
          (m.op = 3 → exec (.zioCommand m) s = .next ((u.receive (decodeCmd 2 (m.payload.take 64))).zioAdvance m)) ∧
          (m.op = 4 → exec (.zioRecord m) s = .next (State.zioAdvance { u with zio := { u.zio with
            records := u.zio.records ++ [m.payload.take (16 * m.length)] } } m))))) ∧
  (∀ (s t : State) (m : ZioMsg), m.dst ≠ s.node → m.port < 16 → m.port % 2 = 0 → s.zioForwards (m.port / 2) = true →
    t = (s.zioArrived m.port (zioFlits (16 * m.length))).zioForward m →
    exec (.zioWrite m) s = .next t ∧ exec (.zioPartial m) s = .next t ∧ exec (.zioCtrAdd m) s = .next t ∧
      exec (.zioCommand m) s = .next t ∧ exec (.zioRecord m) s = .next t) ∧
  (∀ (s : State) (ps : List Packet) (f : State → State), (∀ p ∈ ps, s.unreach p.src p.dst = false) →
    (∀ p ∈ ps, s.stuckAt (s.routed p) = none) → s.leg ps f = f (ps.foldl (fun s p => s.countFlits (s.routed p)) s)) ∧
  ((∀ (s u v : State) (port vc credits lseq src dst eack again : Nat) (nak : Bool) (x : ZioPort), s.zioCtrlTaken port = true →
    again = ((s.zport port).txSeq + 4096 - lseq % 4096) % 4096 →
    x = { s.zport port with store := (s.zport port).store.drop ((s.zport port).store.length - again) } →
    u = s.setZport port { (if vc = 1 then x else x.setCredits vc (min (x.credits vc + credits) (zioBuffer vc))) with
      txAck := lseq % 4096 } →
    v = (if nak then (u.bumpWide (portWh port) 33 3 (portLocal port) again).bumpWide (portWh port) 33 1 (portLocal port) again
      else u) →
    (src = v.node → exec (.zioCtrl port vc credits nak lseq src dst eack) s = .next (v.zioAck dst vc eack).zioPump) ∧
    (src ≠ v.node → exec (.zioCtrl port vc credits nak lseq src dst eack) s = .next v.zioPump)) ∧
  (∀ (s u : State) (p : Nat), p < 48 → (s.zport p).state = 3 → u = s.setZport p { s.zport p with dropping := true } →
    (s.zport p).dropping = false →
    exec (.headerCrcNak p) s =
      .next ((u.bumpWide (portWh p) 33 4 (portLocal p) 1).event (portWh p) 33 [sqBit 0x118 1] [])) ∧
  (∀ (s u : State) (p : Nat), s.zioUp p = true →
    u = s.bumpWide (portWh p) 33 5 (portLocal p) (s.zio.out.filter (fun o => decide (o.msg.port = p) && o.sent)).length →
    exec (.e2eResend p) s = .next (State.zioPump { u with zio := { u.zio with
      out := u.zio.out.map (fun o => if o.msg.port = p then { o with sent := false } else o) } })) ∧
  (∀ (s : State) (dst vc w t : Nat) (mine : ZioOut → Bool), Tbl.look s.zio.ackNs (dst * 4 + vc) = some t →
    mine = (fun o => decide (o.msg.dst = dst) && decide (o.msg.vc = vc)) →
    (s.nowNs < t + 100000000 → exec (.streamTeardown dst vc w) s = .next s) ∧
    (t + 100000000 ≤ s.nowNs → ∀ gone kept ack u,
      gone = s.zio.out.filter (fun o => mine o && decide (portWh o.msg.port = w)) → gone ≠ [] →
      kept = s.zio.out.filter (fun o => !(mine o && decide (portWh o.msg.port = w))) →
      ack = (if kept.any mine then s.zio.ackNs else Tbl.del s.zio.ackNs (dst * 4 + vc)) →
      u = { s with zio := { s.zio with out := kept, ackNs := ack } } →
      exec (.streamTeardown dst vc w) s = .next ((u.bump w 33 0x110 gone.length).err w 33 4).zioPump)))

/-- A port that is up sends its frame mark and keeps the flit, but none leaves the joining pair's ring-out port in the
lengthened stroke. A mark of the timing pair corrects the phase by at most 4 ns, by nothing when the module itself is
the authority, and one more than 100 ns off is counted. At a boundary a pair in LOOPBACK that may join opens its bypass
and trains; a JOINING pair with both ports up checks the mark it is given, and joins at a later boundary once it is
checked. Clearing join past the gate is a write of its register; at a boundary a pair told to leave begins to leave; a
LEAVING one closes once it has left long enough. 16 marks in a row off make the module leave its joined rings. A lane
drops once and the port retrains on a clean half or fails; a failed port that trains is quarantined for 20,000 strokes
and then returns at a boundary, a ring port to joining, or fails again; a port that trains comes up at its lanes.
(R428, R429, R430, R431, R432, R433, R434, R435, R436, R437, R51) -/
def Obligations.RingsAreJoinedTimedAndLeft : Prop :=
  (∀ (s : State) (p ph : Nat) (f : List Byte), p < 48 → ph ≤ 4 → (s.zport p).state = 3 →
    f = zioFlit (zioHeader 3 0 true true 1 (s.zport p).txSeq s.node 255 (s.zport p).rxSeq 0) (s.markBytes p ph) →
    (s.lengthened = false ∨ s.zio.timing ≠ some (p / 2) ∨ 16 ≤ p ∨ p % 2 = 0 → exec (.frameMarkSend p ph) s =
      .next (((s.setZport p ((s.zport p).keep [f])).bumpWide (portWh p) 33 1 (portLocal p) 1).answer (leNat f))) ∧
    (s.lengthened = true → s.zio.timing = some (p / 2) → p < 16 → p % 2 = 1 → exec (.frameMarkSend p ph) s = .next s)) ∧
  (∀ (s u v : State) (m : FrameMark) (i : Nat), i < 8 → m.port = 2 * i → (s.zport m.port).state = 3 →
    u = s.zioArrived m.port 1 → (u.zpair i).state = 2 →
    v = u.setZpair i { u.zpair i with authority := (u.markAuthority m).1, hops := (u.markAuthority m).2 } →
    (v.zio.timing ≠ some i → exec (.frameMarkReceive m) s = .next v) ∧
    (v.zio.timing = some i → v.lengthened = false → ∃ t, exec (.frameMarkReceive m) s = .next t ∧
      t.zio.trimNs.natAbs ≤ 4 ∧ ((u.markAuthority m).1 = v.node → t.zio.trimNs = 0) ∧ ((v.markError m).natAbs ≤ 100 → t.zio.badMarks = 0) ∧
      (100 < (v.markError m).natAbs → t.zio.badMarks = v.zio.badMarks + 1) ∧
      { t with zio := { t.zio with trimNs := v.zio.trimNs, badMarks := v.zio.badMarks } } = v)) ∧
  (∀ (s : State) (i : Nat), i < 8 →
    (∀ k, (s.zpair i).state = 0 → s.mayJoin i = true → s.atBoundary = true →
      exec (.pairJoin i k) s = .next (s.beginJoin i)) ∧
    (∀ k, (s.zpair i).state = 0 → s.mayJoin i = false → exec (.pairJoin i k) s = .next s) ∧
    ((s.zpair i).state = 1 → (s.zpair i).leave = false → (s.zport (2 * i)).state = 3 → (s.zport (2 * i + 1)).state = 3 →
      (∀ m, (s.zpair i).checked = none → exec (.pairJoin i (some m)) s = .next (s.checkMarks i m)) ∧
      (∀ m k, (s.zpair i).checked = some m →
        (s.atBoundary = true → (s.zpair i).checkedAt < s.strokeN → exec (.pairJoin i k) s = .next (s.joined i m)) ∧
        (s.atBoundary = false ∨ s.strokeN ≤ (s.zpair i).checkedAt → exec (.pairJoin i k) s = .next s))) ∧
    (∀ req, s.gate req (i / 2) 33 3 = (s, true) →
      exec (.joinClear req i) s = .next (s.pairCtlWrite i (s.pairCtl i % 65536))) ∧
    ((s.zpair i).leave = true → s.atBoundary = true →
      ((s.zpair i).state = 2 → exec (.pairLeave i) s = .next (s.beginLeave i)) ∧
      ((s.zpair i).state = 1 → exec (.pairLeave i) s = .next (s.closePair i))) ∧
    ((s.zpair i).state = 3 → (s.leftLong i = true → exec (.pairLeave i) s = .next (s.closePair i)) ∧
      (s.leftLong i = false → exec (.pairLeave i) s = .next s)) ∧
    (s.zio.timing = some i → s.zio.badMarks < 16 → exec .timingLeave s = .next s) ∧
    (s.zio.timing = some i → 16 ≤ s.zio.badMarks → ∃ u : State, exec .timingLeave s =
        .next ((u.event (i / 2) 33 [sqBit 0x118 4] []).postFault 8 (i / 2) (2 * i)) ∧ u.zio.badMarks = 0 ∧
      ∀ j, j < 8 → (s.zpair j).state = 2 → (u.zpair j).leave = true ∧ (u.zpair j).barred = true)) ∧
  (∀ (s : State) (p : Nat), p < 48 →
    (∀ lane u, lane < 8 → (s.zport p).state ≠ 4 → bitAt (s.zport p).good lane = true →
      u = ((s.setZport p { s.zport p with good := (s.zport p).good - 2 ^ lane }).event (portWh p) 33 [sqBit 0x118 2] []).postFault 7
        (portWh p) (8 * p + lane) →
      (cleanHalf ((s.zport p).good - 2 ^ lane) = true → exec (.laneDrop p lane) s = .next (u.train p)) ∧
      (cleanHalf ((s.zport p).good - 2 ^ lane) = false → exec (.laneDrop p lane) s = .next (u.failPort p))) ∧
    ((s.zport p).state = 4 →
      exec (.portTrainRetry p true) s = .next (s.setZport p { s.zport p with state := 2, since := s.strokeN }) ∧
      exec (.portTrainRetry p false) s = .next s) ∧
    ((s.zport p).state = 2 → (s.strokeN < (s.zport p).since + 20000 → ∀ ok, exec (.portQuarantineEnd p ok) s = .next s) ∧
      ((s.zport p).since + 20000 ≤ s.strokeN →
        exec (.portQuarantineEnd p false) s = .next (s.setZport p { s.zport p with state := 4 }) ∧
        (s.atBoundary = false → exec (.portQuarantineEnd p true) s = .next s) ∧
        (16 ≤ p → s.atBoundary = true → (s.zport p).good = 255 → exec (.portQuarantineEnd p true) s =
          .next (s.setZport p { (s.zport p).fresh with state := 3, width := 8 }).zioPump) ∧
        (p < 16 → s.atBoundary = true → ∀ u, u = s.setZport p { (s.zport p).fresh with state := 1 } →
          ((s.zpair (p / 2)).state = 4 → (s.zport (p / 2 * 2 + (1 - p % 2))).state ≠ 4 →
            (s.zport (p / 2 * 2 + (1 - p % 2))).state ≠ 2 →
            (u.mayJoin (p / 2) = true → exec (.portQuarantineEnd p true) s = .next (u.beginJoin (p / 2))) ∧
            (u.mayJoin (p / 2) = false → exec (.portQuarantineEnd p true) s = .next (u.setZpair (p / 2)
              { u.zpair (p / 2) with state := 0, failed := false, leave := false }))) ∧
          ((s.zpair (p / 2)).state ≠ 4 → exec (.portQuarantineEnd p true) s = .next u)))) ∧
    (∀ lanes peer delay, (s.zport p).state ≠ 2 → (s.zport p).state ≠ 4 →
      (lanes = 8 ∧ (s.zport p).good = 255) ∨ (lanes = 4 ∧ cleanHalf (s.zport p).good = true) →
      exec (.zioriPortTrained p lanes peer delay) s = .next (s.setZport p { (s.zport p).fresh with
        state := 3, width := lanes, peer := peer % 256, delay := delay % 65536 }).zioPump))

/-- Past the gate, PG_STAT_ACK of S leaves exactly the SQ bits of the page whose recorded sequence is not at or before
S, so a bit set after the sequence that was read stays; a write of a register of SQ fields clears a bit exactly when
it is written as 1 and is at or before the value's top byte, and leaves every bit of another register; PG_ERR_ACK
clears code and count exactly when a code stands whose sequence is at or before S. No other page's header changes.
(R449, R450, R451) -/
def Obligations.AcknowledgementsClearWhatWasSeen : Prop :=
  (∀ (a b : Nat), atOrBefore a b = decide ((b + 256 - a % 256) % 256 < 128)) ∧
  ∀ (s : State) (req : Requester) (d g : Nat) (v : Word), g < 256 → s.gate req d g 0 = (s, true) →
    ∃ t1 t2, exec (.pgStatAck req (256 * d + g) v) s = .next t1 ∧ exec (.pgErrAck req (256 * d + g) v) s = .next t2 ∧
      (∀ e, e ∈ (t1.page d g).sq ↔ e ∈ (s.page d g).sq ∧ atOrBefore e.2 (v.toNat / 16777216) = false) ∧
      (t1.page d g).seq = (s.page d g).seq ∧ (t1.page d g).errWord = (s.page d g).errWord ∧
      ((s.page d g).errCode ≠ 0 → atOrBefore (s.page d g).errSeq (v.toNat / 16777216) = true →
        (t2.page d g).errCode = 0 ∧ (t2.page d g).errCount = 0 ∧ (t2.page d g).errSeq = (s.page d g).errSeq) ∧
      (atOrBefore (s.page d g).errSeq (v.toNat / 16777216) = false → (t2.page d g).errWord = (s.page d g).errWord) ∧
      (t2.page d g).sq = (s.page d g).sq ∧
      (∀ d' g', g' < 256 → (d', g') ≠ (d, g) → t1.page d' g' = s.page d' g' ∧ t2.page d' g' = s.page d' g') ∧
      (∀ off t, off % 4 = 0 → 0x100 ≤ off → isStat (tableKey d g) off = true →
        (pvBits (tableKey d g) off).isSome = true → exec (.sqFieldWrite req (256 * d + g) off v) s = .next t →
        ∀ e, e ∈ (t.page d g).sq ↔ e ∈ (s.page d g).sq ∧
          ¬ (e.1 / 32 = off ∧ bitAt v.toNat (e.1 % 32) = true ∧ atOrBefore e.2 (v.toNat / 16777216) = true))

/-- Past the gate: a write of PG_STAT or of an SQ register clears the bits of R450; a write of PG_IND_ADDR sets the requester's own
indirect word address; a write of PG_IND_DATA writes the word there and moves the address on by one, and a read
answers the word and moves it on; where the page has no indirect space both log BAD_INDIRECT. PG_MBOX_CTL with req
clears valid and asks for the selected value; MBOX_SNAPSHOT of a live page captures it and sets valid, or sets bad_sel with zeros and
logs BAD_SELECT; a read of PG_MBOX_DATA3 answers the word and clears valid. A whole-word REGISTER_WRITE is the write
of that register, a narrower one is dropped and logged BAD_WIDTH, and one where the page has no register does nothing.
NODE_WRITE sets a node id below 255 while the module
is on no link. (R435, R440, R443, R444, R450, R452, R453, R454) -/
def Obligations.PageRegistersAreReadAndWritten : Prop :=
  (∀ (s : State) (req : Requester) (d g : Nat) (v : Word), g < 256 → s.gate req d g 0 = (s, true) →
    (∀ off, off % 4 = 0 → 0x100 ≤ off → isStat (tableKey d g) off = true → (pvBits (tableKey d g) off).isSome = true →
      exec (.sqFieldWrite req (256 * d + g) off v) s = .next (s.setPage d g ((s.page d g).sqWrite off v))) ∧
    exec (.sqFieldWrite req (256 * d + g) 0x010 v) s = .next (s.setPage d g ((s.page d g).pgStatWrite v)) ∧
    (0 < indWords d g → exec (.pgIndAddrWrite req (256 * d + g) v) s =
      .next (s.setCtx req d g { s.ctxOf req d g with indAddr := v.toNat / 4 % 16777216 % indWords d g })) ∧
    exec (.pgMboxReq req (256 * d + g) v) s = .next (s.setCtx req d g { s.ctxOf req d g with
      valid := false, req := if bitAt v.toNat 0 then some (s.ctxOf req d g).mboxSel else (s.ctxOf req d g).req })) ∧
  (∀ (s : State) (req : Requester) (d g : Nat) (v : Word), g < 256 →
    s.gate req d g (writeClass d g 0x024 false req) = (s, true) →
    (indWords d g = 0 → exec (.pgIndDataWrite req (256 * d + g) v) s = .next (s.err d g 0xFD)) ∧
    (0 < indWords d g → ∃ t, t = s.indWrite req d g (s.ctxOf req d g).indAddr v.toNat ∧
      exec (.pgIndDataWrite req (256 * d + g) v) s = .next (t.setCtx req d g { t.ctxOf req d g with
        indAddr := nextInd (indWords d g) (s.ctxOf req d g).indAddr }))) ∧
  (∀ (s : State) (req : Requester) (d g : Nat), g < 256 → s.portBlind req = none → s.pageLive req d g = true →
    (∀ r, 0 < indWords d g → r = s.indWord d g (s.ctxOf req d g).indAddr →
      exec (.pgIndDataRead req (256 * d + g)) s = .next ((r.2.setCtx req d g { r.2.ctxOf req d g with
        indAddr := nextInd (indWords d g) (s.ctxOf req d g).indAddr }).answer (r.1 % 4294967296))) ∧
    (indWords d g = 0 → exec (.pgIndDataRead req (256 * d + g)) s = .next ((s.err d g 0xFD).answer 0)) ∧
    exec (.pgMboxData3Read req (256 * d + g)) s =
      .next ((s.setCtx req d g { s.ctxOf req d g with valid := false }).answer (s.ctxOf req d g).d3.toNat)) ∧
  (∀ (s : State) (req : Requester) (d g : Nat) (sel : Word) (r : Option (Nat × Nat) × State) (c : Ctx), g < 256 →
    (s.ctxOf req d g).req = some sel → s.pageLive req d g = true →
    r = s.mboxValue d g (sel.toNat / 0x10000000) (sel.toNat % 0x10000000) → c = r.2.ctxOf req d g →
    (∀ x y, r.1 = some (x, y) → exec (.mboxSnapshot req (256 * d + g)) s = .next (r.2.setCtx req d g { c with
      valid := true, badSel := false, req := none
      d0 := BitVec.ofNat 32 x, d1 := BitVec.ofNat 32 (x / 4294967296)
      d2 := BitVec.ofNat 32 y, d3 := BitVec.ofNat 32 (y / 4294967296) })) ∧
    (r.1 = none → exec (.mboxSnapshot req (256 * d + g)) s = .next ((r.2.setCtx req d g { c with
      valid := true, badSel := true, req := none, d0 := 0, d1 := 0, d2 := 0, d3 := 0 }).err d g 0xFB))) ∧
  (∀ (s : State) (req : Requester) (d g off : Nat) (v : Word), g < 256 → off < 4096 →
    exec (.registerWrite req (256 * d + g) off 15 v) s = .next (s.writeReg req d g off v.toNat) ∧
    (∀ be, be < 15 → regThere d g off = true → s.gate req d g 0 = (s, true) →
      exec (.registerWrite req (256 * d + g) off be v) s = .next (s.err d g 0xFC)) ∧
    (∀ be, regThere d g off = false → exec (.registerWrite req (256 * d + g) off be v) s = .next s) ∧
    (s.gate req d g 0 = (s, true) → exec (.registerWrite req (256 * d + g) 0x00C 15 v) s =
      .next (s.setPage d g { s.page d g with errFreeze := bitAt v.toNat 0 }))) ∧
  (∀ (s : State) (req : Requester) (v : Word), s.gate req 120 13 3 = (s, true) → v.toNat % 256 ≠ 255 →
    (∀ i, i < 8 → (s.zpair i).state = 0) → (∀ p, 16 ≤ p → p < 48 → (s.zport p).state ≠ 3) →
    exec (.nodeWrite req v) s = .next (s.setRegN 120 13 0x100 (v.toNat % 256)))

/-- On every live page and for every requester: a snapshot of kind 0 index 0 sets valid, leaves the stroke counter in
DATA1:DATA0 and module time in nanoseconds in DATA3:DATA2, both of the state the snapshot is taken in; a snapshot of
any other index of kind 0 sets valid and bad_sel, leaves 0 in every data word and logs BAD_SELECT. (R455) -/
def Obligations.CommonMailboxValueIsStrokeAndTime : Prop :=
  ∀ (s : State) (req : Requester) (d g : Nat) (sel : Word), g < 256 → s.pageLive req d g = true → (s.ctxOf req d g).req = some sel →
    sel.toNat / 0x10000000 = 0 →
    ∃ t c, exec (.mboxSnapshot req (256 * d + g)) s = .next t ∧ c = t.ctxOf req d g ∧ c.valid = true ∧ c.req = none ∧
      (sel = 0 → c.badSel = false ∧ c.d0.toNat + 2 ^ 32 * c.d1.toNat = s.strokeN ∧
        c.d2.toNat + 2 ^ 32 * c.d3.toNat = s.nowNs % 2 ^ 64) ∧
      (sel ≠ 0 → c.badSel = true ∧ c.d0 = 0 ∧ c.d1 = 0 ∧ c.d2 = 0 ∧ c.d3 = 0 ∧ ∃ u : State, t = u.err d g 0xFB ∧
        ((s.page d g).errFreeze = false → (t.page d g).errCode = 0xFB))

/-- CLK_MUX_SWITCH, MUX_SWITCH_COMPLETE, MUX_HANG, CLK_DOM_RESET, OSC_STABLE, PLL_LOCK_CONFIRM, TRIM_SOURCE_SWITCH,
ROOT_LOSS, RESTART_WAIT, SEQUENCER_CHANGE, INPUT_LOW, INPUT_OVERVOLTAGE, PWR_CAP_WRITE, HOTSPOT_HIGH and HOTSPOT_TRIP:
a switch write past the gate asks for the new selection; a domain pending with its old clock running changes over, and
one pending 20 strokes is reported once with error 1. Each bit of a domain reset resets its domain, the highest first. A
powered die's oscillator settles once and starts its PLL; the PLL's lock selects it for every domain, puts a Tiller at
P3 and trains a Wellhead's point-to-point ports, and the last live die's lock starts stroke 0. At a boundary a die takes
another available trim source and reports it. A root's loss unlocks the die and reports it; a Wellhead's takes the module
to its safe states, a Tiller's fails the Tiller and a Well's the Well. In the safe states, once
all roots are locked a restart is due, and a Wellhead not locked is failed. A sequencer goes to its latest target. The
input between 46 V and 48 V is reported; overvoltage or a 125 degree hot spot cuts the input. A cap from 2,000 to
16,000 W, or ceilings of at most 4, on the controller's page are taken, others are dropped with error 1. A Tiller at 105
degrees lowers its paddock, if that stands above P4, at most every 20 strokes until it is at 100 degrees. (R464, R466, R468, R469, R471, R472, R473, R474, R475,
R477, R479) -/
def Obligations.ClocksAndPowerFollowTheirRules : Prop :=
  (∀ (s : State) (req : Requester) (d : Nat) (v : Word), s.gate req d 34 3 = (s, true) →
    (∃ (m : Tbl Nat) (h : List Nat) (pend : Nat), pend = (v.toNat % 8) ^^^ (s.clkDie d).cur ∧
      exec (.clkMuxSwitch req d v) s = .next (s.setClk d { s.clkDie d with
        sel := v.toNat % 8, pend := pend, hung := h, since := m }) ∧
      (∀ k, k ∈ h ↔ k ∈ (s.clkDie d).hung ∧ bitAt pend k = true) ∧
      (∀ k, k < 3 → bitAt pend k = true → bitAt (s.clkDie d).pend k = false → Tbl.look m k = some s.strokeN) ∧
      (∀ k, bitAt pend k = false ∨ bitAt (s.clkDie d).pend k = true → Tbl.look m k = Tbl.look (s.clkDie d).since k)) ∧
    (∀ k, k < 3 → v.toNat = 2 ^ k → exec (.clkDomReset req d v) s = .next (s.domReset d k)) ∧
    exec (.clkDomReset req d v) s =
      .next ([2, 1, 0].foldl (fun s dom => if bitAt v.toNat dom then s.domReset d dom else s) s)) ∧
  (∀ (s : State) (d dom : Nat), dom < 3 → bitAt (s.clkDie d).pend dom = true →
    ((if bitAt (s.clkDie d).cur dom then (s.clkDie d).pllAlive else (s.clkDie d).oscAlive) = true →
      exec (.muxSwitchComplete d dom) s = .next (s.setClk d { s.clkDie d with
        cur := putBit (s.clkDie d).cur dom (bitAt (s.clkDie d).sel dom), pend := putBit (s.clkDie d).pend dom false
        hung := (s.clkDie d).hung.filter (fun i => i ≠ dom) })) ∧
    ((if bitAt (s.clkDie d).cur dom then (s.clkDie d).pllAlive else (s.clkDie d).oscAlive) = false →
      exec (.muxSwitchComplete d dom) s = .next s) ∧
    (Tbl.val 0 (s.clkDie d).since dom + 20 ≤ s.strokeN → s.dieThere d = true → dom ∉ (s.clkDie d).hung →
      exec (.muxHang d dom) s = .next ((s.setClk d { s.clkDie d with hung := (s.clkDie d).hung ++ [dom] }).event d 34
        [sqBit 0x118 3] [1])) ∧
    (s.strokeN < Tbl.val 0 (s.clkDie d).since dom + 20 ∨ dom ∈ (s.clkDie d).hung →
      exec (.muxHang d dom) s = .next s)) ∧
  (∀ (s : State) (d : Nat), s.boot.powered = true → s.dieThere d = true →
    ((s.clkDie d).oscOk = false → exec (.oscStable d) s = .next (s.setClk d { s.clkDie d with
      oscOk := true, oscAlive := true, pllAlive := true, lost := false })) ∧
    ((s.clkDie d).oscOk = true → (s.clkDie d).locked = false → (s.clkDie d).pllAlive = true → ∀ u : State,
      (8 ≤ d → d < 76 → u = s.setClk d { s.clkDie d with
        locked := true, sel := 7, cur := 7, pend := 0, op := 3, offset := (s.planner (d - 8)).offset
        mv := nominalMv 3 + 5 * (s.planner (d - 8)).offset }) →
      (76 ≤ d → u = s.setClk d { s.clkDie d with locked := true, sel := 7, cur := 7, pend := 0 }) →
      (d < 4 → u = ((List.range 48).filter (fun p => portWh p = d)).foldl (fun s p => if p < 16 then s else s.train p)
        (s.setClk d { s.clkDie d with locked := true, sel := 7, cur := 7, pend := 0 })) → d < 4 ∨ 8 ≤ d →
      (u.allLocked = false ∨ u.boot.started = true ∨ u.flt.safe = true → exec (.pllLockConfirm d) s = .next u) ∧
      (u.allLocked = true → u.boot.started = false → u.flt.safe = false → exec (.pllLockConfirm d) s = .next
        { u with time := { u.time with stroke := 0, boundNs := 0, phaseUs := 0, strokeNs := 50000 }
                 boot := { u.boot with started := true } })) ∧
    (∀ src trim, s.atBoundary = true → 1 ≤ src → src ≤ 3 → src ≠ (s.clkDie d).src → (src = 2 → s.zio.timing ≠ none) →
      exec (.trimSourceSwitch d src trim) s = .next ((s.setClk d { s.clkDie d with
        src := src, trim := unsigned 16 trim }).event d 34
          (sqBit 0x118 1 :: (if (s.clkDie d).src = 1 then [sqBit 0x118 0] else [])) [])) ∧
    ((s.clkDie d).locked = true → ∃ (u : State) (osc : Bool),
      u = ({ s with freeCount := s.freeCount + 1 } : State).setClk d { s.clkDie d with
        locked := false, oscOk := false, oscAlive := osc, pllAlive := false, lost := true } ∧
      ∀ v, v = u.event d 34 [sqBit 0x118 2] [] →
      (d < 4 → exec (.rootLoss d) s = .next v.safeStates) ∧
      (8 ≤ d → d < 76 → (v.tiller (d - 8)).role = .inService → exec (.rootLoss d) s =
        .next ((v.setClk d { v.clkDie d with mv := 0, want := none }).tillerFail (d - 8) false true)) ∧
      (8 ≤ d → d < 76 → (v.tiller (d - 8)).role = .spare → exec (.rootLoss d) s = .next
        (((v.setClk d { v.clkDie d with mv := 0, want := none }).routerDown (tillerSite (d - 8))).spareFail (d - 8) false)) ∧
      (80 ≤ d → exec (.rootLoss d) s = .next (v.wellFailure (d - 80)))) ∧
    (∀ cv, 4600 ≤ cv → cv < 4800 → exec (.inputLow cv) s = .next (s.event s.capDie 35 [sqBit 0x118 2] [])) ∧
    exec .inputOvervoltage s = .next { s with pwr := { s.pwr with cut := true } } ∧
    exec (.hotspotTrip d) s = .next { s with pwr := { s.pwr with cut := true } }) ∧
  (∀ (s : State), s.flt.safe = true → s.flt.failedWh.length < 2 →
    (s.allLocked = true → exec (.restartWait none) s = .next { s with boot := { s.boot with restartDue := true } }) ∧
    (s.allLocked = false → exec (.restartWait none) s = .next s) ∧
    (∀ w, (s.clkDie w).locked = false → exec (.restartWait (some w)) s = .next (s.wellheadFail w))) ∧
  (∀ (s : State) (t op off : Nat), t < 68 → (s.tiller t).role ≠ .retired → (s.clkDie (8 + t)).want = some (op, off) →
    exec (.sequencerChange t) s = .next (s.setClk (8 + t) { s.clkDie (8 + t) with
      op := op, offset := off, mv := nominalMv op + 5 * off, want := none })) ∧
  (∀ (s : State) (req : Requester) (v : Word), s.gate req s.capDie 35 3 = (s, true) →
    (2000 ≤ v.toNat % 65536 → v.toNat % 65536 ≤ 16000 →
      exec (.pwrCapWrite req 0x110 v) s = .next (s.setRegN s.capDie 35 0x110 (v.toNat % 65536))) ∧
    (v.toNat % 65536 < 2000 ∨ 16000 < v.toNat % 65536 →
      exec (.pwrCapWrite req 0x110 v) s = .next (s.err s.capDie 35 1)) ∧
    (∀ off, off = 0x120 ∨ off = 0x124 →
      (ceilOk v.toNat = true → exec (.pwrCapWrite req off v) s = .next (s.setRegN s.capDie 35 off v.toNat)) ∧
      (ceilOk v.toNat = false → exec (.pwrCapWrite req off v) s = .next (s.err s.capDie 35 1)))) ∧
  (∀ (s u v : State) (t : Nat) (e : Int), t < 68 → u = { s with pwr := { s.pwr with hot := insNat t s.pwr.hot } } →
    (e ≤ 800 → exec (.hotspotHigh t e) s =
      .next { s with pwr := { s.pwr with hot := s.pwr.hot.filter (fun x => x ≠ t) } }) ∧
    (800 < e → e < 840 → t ∉ s.pwr.hot → exec (.hotspotHigh t e) s = .next s) ∧
    (840 ≤ e ∨ (800 < e ∧ t ∈ s.pwr.hot) →
      ((s.tiller t).pad = none → exec (.hotspotHigh t e) s = .next u) ∧
      ∀ p, (s.tiller t).pad = some p →
      (∀ n, Tbl.look s.pwr.heatAt p = some n → s.strokeN < n + 20 → exec (.hotspotHigh t e) s = .next u) ∧
      (4 ≤ max (u.padPoint p) (Tbl.val 0 s.pwr.allow p) → exec (.hotspotHigh t e) s = .next u) ∧
      ((∀ n, Tbl.look s.pwr.heatAt p = some n → n + 20 ≤ s.strokeN) → max (u.padPoint p) (Tbl.val 0 s.pwr.allow p) < 4 →
        v = u.lowerPad p (u.pwr.watts.foldl (· + ·) 0 / max 1 u.pwr.watts.length) →
        exec (.hotspotHigh t e) s = .next (({ v with pwr := { v.pwr with
          heatAt := Tbl.put v.pwr.heatAt p v.strokeN } } : State).event (8 + t) 35 [sqBit 0x118 3] []))))

/-- Past the gate and with no scan busy: a feed of 1, 2 or 4 bytes feeds them low byte first and counts them, a
restart sets c to init, a configuration write of a preset loads it and restarts, and one of a width outside 3 to 64
with no preset or of a preset above 10 is dropped with BAD_CONFIG. While a scan is busy every one of these is dropped
with BUSY. A scan whose descriptor lies outside the host area, or fails its checks, is busy towards that status with
nothing moved; one that passes runs, is busy towards its status and its bytes are counted. The completion writes
status and payload, counts and reports the scan, and advances the descriptor's counter. (R481, R483, R484, R486, R487,
R488, R489) -/
def Obligations.CheckUnitsFeedAndScan : Prop :=
  (∀ (s : State) (req : Requester) (u : Nat) (v : Word), u < 16 → s.gate req (u / 4) 14 3 = (s, true) →
    ((s.chkUnit u).busy.isSome = true →
      exec (.chkFeed8 req u v) s = .next (s.err (u / 4) 14 1) ∧ exec (.chkFeed16 req u v) s = .next (s.err (u / 4) 14 1) ∧
      exec (.chkFeed32 req u v) s = .next (s.err (u / 4) 14 1) ∧ exec (.chkRestart req u) s = .next (s.err (u / 4) 14 1) ∧
      exec (.chkCfgWrite req u v) s = .next (s.err (u / 4) 14 1)) ∧
    ((s.chkUnit u).busy = none →
      exec (.chkFeed8 req u v) s = .next ((s.setChk u ((s.chkUnit u).feeds [v.setWidth 8])).bumpWide (u / 4) 14 2 (u % 4) 1) ∧
      exec (.chkFeed16 req u v) s =
        .next ((s.setChk u ((s.chkUnit u).feeds (leBytes 2 v.toNat))).bumpWide (u / 4) 14 2 (u % 4) 2) ∧
      exec (.chkFeed32 req u v) s =
        .next ((s.setChk u ((s.chkUnit u).feeds (leBytes 4 v.toNat))).bumpWide (u / 4) 14 2 (u % 4) 4) ∧
      exec (.chkRestart req u) s = .next (s.setChk u { s.chkUnit u with c := (s.chkUnit u).init % 2 ^ (s.chkUnit u).width }) ∧
      (∀ n w p i r o, v.toNat / 0x10000000 = n → chkPreset n = some (w, p, i, r, o) →
        exec (.chkCfgWrite req u v) s = .next (s.setChk u { s.chkUnit u with
          preset := n, width := w, poly := p, init := i, refin := r, refout := r, xorout := o, c := i % 2 ^ w })) ∧
      (10 < v.toNat / 0x10000000 ∨ (v.toNat / 0x10000000 = 0 ∧ (v.toNat % 128 < 3 ∨ 64 < v.toNat % 128)) →
        exec (.chkCfgWrite req u v) s = .next (s.err (u / 4) 14 2)))) ∧
  (∀ (s : State) (req : Requester) (u r addr : Nat) (d : List Byte) (x : ChkUnit), u < 16 → s.gate req (u / 4) 14 3 = (s, true) →
    x = s.chkUnit u → x.busy = none → r = 0x200 + 0x40 * (u % 4) →
    addr = (s.reg (u / 4) 14 (r + 0x14)).toNat / 32 * 32 + (s.reg (u / 4) 14 (r + 0x18)).toNat % 65536 * 4294967296 →
    d = s.load .lpddr addr 32 →
    (∀ c, c = .chkScanCompute req u ∨ c = .chkScanAppend req u ∨ c = .chkScanVerify req u →
      (s.inHost addr 32 = false → exec c s = .next (s.setChk u { x.restart with busy := some (4, 0, 0) })) ∧
      (s.inHost addr 32 = true → s.scanCheck d x.checkBytes ≠ 0 →
        exec c s = .next (s.setChk u { x.restart with busy := some (s.scanCheck d x.checkBytes, 0, fld d 0x1C 4) }))) ∧
    (s.inHost addr 32 = true → s.scanCheck d x.checkBytes = 0 → ∀ g, g = s.scanRun x d →
      (fld d 5 1 = 0 → exec (.chkScanCompute req u) s = .next ((g.1.setChk u { g.2.1 with
        busy := some (g.2.2.1, g.2.2.2, fld d 0x1C 4) }).bumpWide (u / 4) 14 2 (u % 4) (fld d 0x18 4))) ∧
      (fld d 5 1 = 1 → exec (.chkScanAppend req u) s = .next ((g.1.setChk u { g.2.1 with
        busy := some (g.2.2.1, g.2.2.2, fld d 0x1C 4) }).bumpWide (u / 4) 14 2 (u % 4) (fld d 0x18 4))) ∧
      (fld d 5 1 = 2 → exec (.chkScanVerify req u) s = .next ((g.1.setChk u { g.2.1 with
        busy := some (g.2.2.1, g.2.2.2, fld d 0x1C 4) }).bumpWide (u / 4) 14 2 (u % 4) (fld d 0x18 4 - x.checkBytes))))) ∧
  (∀ (s : State) (u st n ctr : Nat), (s.chkUnit u).busy = some (st, n, ctr) → ∀ t,
    t = (s.setChk u { s.chkUnit u with busy := none, status := some st, payload := n }).bumpWide (u / 4) 14 3 (u % 4) 1 →
    (st ≠ 1 → exec (.chkScanDone u) s = .next ((t.event (u / 4) 14 [sqBit 0x118 (u % 4)] []).advanceFld ctr 1)) ∧
    (st = 1 → exec (.chkScanDone u) s = .next (((t.bumpWide (u / 4) 14 4 (u % 4) 1).event (u / 4) 14
      [sqBit 0x118 (u % 4), sqBit 0x118 (4 + u % 4)] []).advanceFld ctr 1)))

/-- For every unit whose width is 3 to 64: the check has ceil(width / 8) bytes, read little-endian when refout is 1
and big-endian when it is 0 they give exactly the unit's value, and that value is below 2 to the width, so the unused
high bits are 0. Moreover, where the record does not pass the end of the address space, an APPEND in place leaves
every byte outside the stored check as it was, and a VERIFY of the longer record then matches, with the record's bytes
as its payload. (R482) -/
def Obligations.StoredChecksAreRightAlignedAndVerify : Prop :=
  (∀ x : ChkUnit, 3 ≤ x.width → x.width ≤ 64 →
    x.check.length = (x.width + 7) / 8 ∧ leNat (if x.refout then x.check else x.check.reverse) = x.value ∧
    x.value < 2 ^ x.width) ∧
  (∀ (s : State) (x : ChkUnit) (d e : List Byte), 3 ≤ x.width → x.width ≤ 64 →
    fld d 5 1 = 1 → fld d 0x10 8 = 0 → fld e 5 1 = 2 → fld e 0x10 8 = 0 → fld e 8 8 = fld d 8 8 →
    fld e 0x18 4 = fld d 0x18 4 + x.checkBytes → fld d 8 8 + fld d 0x18 4 < 2 ^ 64 →
    (∀ k, (k < Space.key .lpddr (fld d 8 8 + fld d 0x18 4) ∨ Space.key .lpddr (fld d 8 8 + fld d 0x18 4) + x.checkBytes ≤ k) →
      Memory.read (s.scanRun x d).1.mem k = Memory.read s.mem k) ∧
    ((s.scanRun x d).1.scanRun (s.scanRun x d).2.1 e).2.2 = (0, fld d 0x18 4) ∧
    ((s.scanRun x d).1.scanRun (s.scanRun x d).2.1 e).2.1.value = (s.scanRun x d).2.1.value)

/-- For each of the ten presets of the table, a CHK_CFG write of it past the gate, with no scan busy, loads its width,
polynomial, initial value, both reflections and final XOR and restarts the unit (c becomes the initial value); the
nine bytes "123456789" fed then give the table's check. A CHK_CFG write of preset 0 with a legal width, and a write of
a parameter's word in the indirect space, leave the preset field 0. (R483) -/
def Obligations.PresetsLoadEveryParameterAndGiveTheirCheck : Prop :=
  ∀ (s : State) (req : Requester) (u : Nat) (v : Word), u < 16 → s.gate req (u / 4) 14 3 = (s, true) →
    (s.chkUnit u).busy = none →
    (∀ e ∈ [(1, 32, 0x1EDC6F41, 0xFFFFFFFF, true, 0xFFFFFFFF, 0xE3069283),
        (2, 32, 0x04C11DB7, 0xFFFFFFFF, true, 0xFFFFFFFF, 0xCBF43926), (3, 32, 0x04C11DB7, 0xFFFFFFFF, false, 0, 0x0376E6E7),
        (4, 64, 0x42F0E1EBA9EA3693, 0xFFFFFFFFFFFFFFFF, true, 0xFFFFFFFFFFFFFFFF, 0x995DC9BBDF1939FA),
        (5, 64, 0x42F0E1EBA9EA3693, 0, false, 0, 0x6C40DF5F0B497347), (6, 24, 0x864CFB, 0xB704CE, false, 0, 0x21CF02),
        (7, 16, 0x1021, 0xFFFF, false, 0, 0x29B1), (8, 16, 0x1021, 0, true, 0, 0x2189), (9, 16, 0x8005, 0, true, 0, 0xBB3D),
        (10, 8, 0x07, 0, false, 0, 0xF4)], ∀ n w p i x k : Nat, ∀ r : Bool, e = (n, w, p, i, r, x, k) → v.toNat / 0x10000000 = n →
      ∃ t, exec (.chkCfgWrite req u v) s = .next t ∧ t = s.setChk u { s.chkUnit u with
          preset := n, width := w, poly := p, init := i, refin := r, refout := r, xorout := x, c := i } ∧
        ((t.chkUnit u).feeds [0x31, 0x32, 0x33, 0x34, 0x35, 0x36, 0x37, 0x38, 0x39]).value = k) ∧
    (v.toNat / 0x10000000 = 0 → 3 ≤ v.toNat % 128 → v.toNat % 128 ≤ 64 →
      ∃ t, exec (.chkCfgWrite req u v) s = .next t ∧ (t.chkUnit u).preset = 0 ∧ (t.chkUnit u).width = v.toNat % 128) ∧
    (∀ d word, d < 4 → word < 6 → u / 4 = d → (s.ctxOf req d 14).indAddr = 8 * (u % 4) + word →
      ∃ t, exec (.pgIndDataWrite req (256 * d + 14) v) s = .next t ∧ (t.chkUnit u).preset = 0)

/-- A frame retired of a Tiller in service leaves use with its bytes, and with no page in it and at most 64 retired
nothing more happens. A failed stack posts FAULT 0x03 and fails the Tiller for good; a failed flash die posts 0x05 and
loses the die; a failed channel posts 0x06, loses its four dies, and the third of a Well fails the Well. A Wellhead's
first failure takes its host port down, posts 0x09 and takes the safe states, a second report of it changes nothing. A
live core's failure posts 0x0A. A due planner run of a Tiller in service or spare ends done with its offset, lowered by
at most one, and with its outcome, is counted and reported: 5 with no quiet window, else 3 with a column newly found
failing, which is marked, and 1, 2 or 0 with none; a Tiller that no step suffices for ends with 4 and leaves service. (R496, R497, R498, R499, R503, R504) -/
def Obligations.FailuresArePostedAndHandled : Prop :=
  (∀ (s u : State) (t frame : Nat), t < 68 → frame < 393216 → (s.tiller t).role = .inService →
    t * 16777216 + frame ∉ s.cis.hbmRetired →
    u = { s with
      cis := { s.cis with hbmRetired := insNat (t * 16777216 + frame) s.cis.hbmRetired
                          hbmUsed := s.cis.hbmUsed.filter (fun k => k ≠ t * 16777216 + frame) }
      mem := Memory.clear s.mem (Space.key (.hbm t) (tierPage * frame)) tierPage } →
    (∀ e ∈ s.cis.ptes, ¬ (e.2.valid = true ∧ e.2.tier = 1 ∧ e.2.tiller = t ∧ e.2.loc = frame)) →
    ((u.cis.hbmRetired.filter (fun k => k / 16777216 = t)).length ≤ 64 → exec (.hbmFrameRetire t frame) s = .next u) ∧
    (64 < (u.cis.hbmRetired.filter (fun k => k / 16777216 = t)).length →
      exec (.hbmFrameRetire t frame) s = .next (hbmStackFail u t))) ∧
  (∀ (s : State) (t : Nat), t < 68 → (s.tiller t).role ≠ .retired → (s.tiller t).role ≠ .unknown →
    exec (.hbmStackFail t) s = .next ((s.postFault 3 (8 + t) 0).tillerFail t true false)) ∧
  (∀ (s : State) (w ch : Nat), s.wellUp w = true → ch < 8 →
    (∀ die, die < 4 → w * 32 + ch * 4 + die ∉ s.wdl.deadDies → exec (.flashDieFail w ch die) s =
      .next ((s.postFault 5 (80 + w) (4 * ch + die)).dieLoss (w * 32 + ch * 4 + die))) ∧
    (w * 8 + ch ∉ s.wdl.deadChans → ∀ u v, u = s.postFault 6 (80 + w) ch →
      v = [0, 1, 2, 3].foldl (fun s i =>
        if s.wdl.deadDies.contains ((w * 8 + ch) * 4 + i) then s else s.dieLoss ((w * 8 + ch) * 4 + i))
          ({ u with wdl := { u.wdl with deadChans := insNat (w * 8 + ch) u.wdl.deadChans } } : State) →
      ((v.wdl.deadChans.filter (fun x => x / 8 = w)).length < 3 → exec (.flashChannelFail w ch) s = .next v) ∧
      (3 ≤ (v.wdl.deadChans.filter (fun x => x / 8 = w)).length →
        exec (.flashChannelFail w ch) s = .next (v.wellFailure w)))) ∧
  (∀ (s : State) (w : Nat), w < 4 →
    (w ∉ s.flt.failedWh → ∀ u, u = (if w < 2 then s.setHp w { s.hp w with linkUp := false } else s).postFault 9 w 0 → exec (.wellheadFailure w) s =
      .next ({ u with flt := { u.flt with failedWh := insNat w u.flt.failedWh } } : State).safeStates) ∧
    (w ∈ s.flt.failedWh → exec (.wellheadFailure w) s = .next s)) ∧
  (∀ (s : State) (c : Nat), c < 16 → (s.coreLive c = true → exec (.coreFailure c) s = .next (s.coreFail c)) ∧
    (s.coreLive c = false → exec (.coreFailure c) s = .next s)) ∧
  (∀ (s : State) (t off : Nat) (slack : List Int), t < 68 → (s.tiller t).role = .inService ∨ (s.tiller t).role = .spare →
    s.plannerDue t = true → off = max ((marginStep slack).getD 12) ((s.planner t).offset - 1) → (s.planner t).offset ≤ off + 1 ∧
    ∀ (o : Nat) (v : State), v = s.setPlanner t { s.planner t with
      running := false, done := true, offset := off, lastRunNs := some s.nowNs, outcome := o } →
    ((marginStep slack).isSome = true →
      (o = 5 → ∀ failing, exec (.marginPlannerRun t slack failing false) s = .next ((v.bumpWide (8 + t) 36 1 0 1).event (8 + t) 36
        [sqBit 0x118 0, sqBit 0x118 2] [])) ∧
      (o = (if (s.planner t).offset < off then 1 else if off < (s.planner t).offset then 2 else 0) →
        exec (.marginPlannerRun t slack [] true) s = .next ((v.bumpWide (8 + t) 36 1 0 1).event (8 + t) 36 [sqBit 0x118 0] [])) ∧
      (∀ a c u, a < 96 → c < 64 → ((s.tiller t).array a).retired = false → c ∉ ((s.tiller t).array a).bypass →
        c ∉ ((s.tiller t).array a).pending → u = s.markColumn t a c → ∃ w, w = u.setPlanner t { s.planner t with
          running := false, done := true, offset := off, lastRunNs := some u.nowNs, outcome := 3 } ∧
        exec (.marginPlannerRun t slack [(a, c)] true) s =
          .next ((w.bumpWide (8 + t) 36 1 0 1).event (8 + t) 36 [sqBit 0x118 0] []))) ∧
    ((marginStep slack).isSome = false → t ∉ s.til.leaving → o = 4 → ∀ u,
      u = (v.bumpWide (8 + t) 36 1 0 1).event (8 + t) 36 [sqBit 0x118 0, sqBit 0x118 2] [] →
      exec (.marginPlannerRun t slack [] false) s = .next { u with
        til := { u.til with leaving := u.til.leaving ++ [t] }, flt := { u.flt with permanent := insNat t u.flt.permanent } }))

/-- POWER_ON of an unpowered module loses what is volatile and powers it; of a powered one it changes nothing. RESTART
starts the module again when a restart is due and at most one Wellhead has failed. FUSE_LOAD, in its phase, applies
the rows that pass their ECC and keeps the shadow, and holds and logs 0x10 otherwise; with Wellhead 0 failed it takes a
shadow. FIRMWARE_LOAD runs the accepted image of
the higher version, ties to slot A, or holds and logs 0x11. MOUNT, REBUILD, RECOVERY and SERVICE_ENTRY end in phases
3, 4 and 5, the last in service with the SERVICE indicator on; RECOVERY waits while a port whose rings it reads is down. SHUTDOWN, DBG_RESET, PROVISION, RAISE_LOCK, RAISE_SEC and STORE_FW past the gate have
the effect or end with the code their rules give; FIRMWARE_PERSIST after mount puts the held image in slot A;
TIME_STAGE latches both halves and TIME_CANCEL drops them. (R46, R364, R507, R508, R510, R512, R513, R514, R516, R519,
R529) -/
def Obligations.StartUpRunsThroughItsPhases : Prop :=
  (∀ s : State,
    (s.boot.powered = false → exec .powerOn s =
      .next { s.lose false with boot := { (s.lose false).boot with powered := true } }) ∧
    (s.boot.powered = true → exec .powerOn s = .next s) ∧
    (s.boot.restartDue = true → s.boot.powered = true → s.flt.failedWh.length < 2 → exec .restart s = .next s.startAgain) ∧
    (s.boot.restartDue = false → exec .restart s = .next s) ∧
    (s.boot.started = true → s.boot.phase = 0 → 0 ∉ s.flt.failedWh →
      exec (.fuseLoad false) s = .next (s.holdFuses.err 0 15 0x10) ∧
      exec (.fuseLoad true) s = .next { s.applyFuses s.boot.fuses with
        boot := { (s.applyFuses s.boot.fuses).boot with shadow := some s.boot.fuses } }) ∧
    (s.boot.started = true → s.boot.phase = 0 → 0 ∈ s.flt.failedWh →
      (∀ f, s.boot.shadow = some f → exec (.fuseLoad true) s = .next (s.applyFuses f) ∧
        exec (.fuseLoad false) s = .next s.holdFuses) ∧
      (s.boot.shadow = none → ∀ ok, exec (.fuseLoad ok) s = .next s.holdFuses)) ∧
    (s.boot.phase = 1 → s.boot.applied.isSome = true →
      (fwCheck s.fusesNow s.boot.slotA = 0 → fwVersion s.boot.slotB ≤ fwVersion s.boot.slotA →
        exec .firmwareLoad s = .next { s with boot := { s.boot with
          running := 0, runImage := s.boot.slotA, phase := 2, fwHold := false } }) ∧
      (fwCheck s.fusesNow s.boot.slotB = 0 →
        fwVersion s.boot.slotA < fwVersion s.boot.slotB ∨ fwCheck s.fusesNow s.boot.slotA ≠ 0 →
        exec .firmwareLoad s = .next { s with boot := { s.boot with
          running := 1, runImage := s.boot.slotB, phase := 2, fwHold := false } }) ∧
      (fwCheck s.fusesNow s.boot.slotA ≠ 0 → fwCheck s.fusesNow s.boot.slotB ≠ 0 → s.boot.fwHold = false →
        exec .firmwareLoad s = .next (({ s with boot := { s.boot with fwHold := true } } : State).err 0 15 0x11))) ∧
    (∀ dj wells, s.boot.phase = 2 → s.boot.started = true → ∃ t, exec (.mount dj wells) s = .next t ∧
      t.boot.phase = 3 ∧ t.wdl.mounted = true ∧ t.boot.bankCharged = true ∧ t.time.resume = (if t.time.bootNs = 0 then none else some t.time.bootNs)) ∧
    (s.boot.phase = 3 → ∃ t, exec .rebuild s = .next t ∧ t.boot.phase = 4 ∧ t.rhz.gen = 1) ∧
    (s.boot.phase = 4 → s.boot.phaseDone = false → s.readBackWaits = false →
      ∃ t, exec .recovery s = .next t ∧ t.boot.phaseDone = true) ∧
    (s.boot.phase = 4 → s.boot.phaseDone = false → s.readBackWaits = true → exec .recovery s = .next s) ∧
    (s.boot.phase = 4 → s.boot.phaseDone = true → ∃ t, exec .serviceEntry s = .next t ∧
      t.boot.phase = 5 ∧ t.boot.ready = true ∧ t.til.capGen = 1 ∧ t.boot.firstStroke = s.strokeN ∧ t.serviceLamp = .on) ∧
    (∀ img, s.boot.persist = some img →
      (s.wdl.mounted = true → exec .firmwarePersist s = .next { s with boot := { s.boot with slotA := img, persist := none } }) ∧
      (s.wdl.mounted = false → exec .firmwarePersist s = .next s))) ∧
  (∀ (s : State) (req : Requester), s.gate req 0 16 3 = (s, true) →
    exec (.dbgReset req) s = .next s.askRestart ∧
    (s.boot.resetState = 0 → exec (.shutdown req) s = .next { s with boot := { s.boot with resetState := 1 } }) ∧
    (s.boot.resetState ≠ 0 → exec (.shutdown req) s = .next (s.err 0 16 1))) ∧
  (∀ (s : State) (req : Requester) (f : Fuses), s.gate req 0 15 3 = (s, true) → f = s.boot.fuses →
    (∀ d g, f.provisioned = false → s.fusAddr % 32 = 0 → s.inHost s.fusAddr 32 = true → d = s.load .lpddr s.fusAddr 32 →
      crcOk d = true → fld d 4 1 = 1 → fld d 5 1 ≤ 2 → zeros d 6 2 = true → permitOk (fld d 8 4) = true →
      permitOk (fld d 0xC 4) = true → zeros d 0x10 16 = true →
      g = { f with lock := max f.lock (fld d 5 1), permit0 := fld d 8 4, permit1 := fld d 0xC 4, provisioned := true } →
      exec (.provision req) s =
        .next (({ s with boot := { s.boot with fuses := g, lock := g.level } } : State).fusDone 0)) ∧
    (f.provisioned = true → exec (.provision req) s = .next (s.fusDone 3)) ∧
    (∀ arg, arg < 256 →
      (2 < arg → exec (.raiseLock req arg) s = .next (s.fusDone 2)) ∧
      (arg ≤ 2 → arg ≤ f.lock → exec (.raiseLock req arg) s = .next (s.fusDone 4)) ∧
      (arg ≤ 2 → f.lock < arg → ∀ g, g = { f with lock := arg } → exec (.raiseLock req arg) s = .next (({ s with
        boot := { s.boot with fuses := g, lock := g.level }, dbg := { s.dbg with unlocked := false } } : State).fusDone 0)) ∧
      (arg ≤ f.secMin → exec (.raiseSec req arg) s = .next (s.fusDone 4)) ∧
      (f.secMin < arg → fwSec s.boot.runImage < arg → exec (.raiseSec req arg) s = .next (s.fusDone 5)) ∧
      (f.secMin < arg → arg ≤ fwSec s.boot.runImage → exec (.raiseSec req arg) s =
        .next (({ s with boot := { s.boot with fuses := { f with secMin := arg } } } : State).fusDone 0))) ∧
    (s.fusAddr % 32 ≠ 0 → exec (.storeFw req) s = .next (s.fusDone 2)) ∧
    (∀ b, s.fusAddr % 32 = 0 → s.inHost s.fusAddr 512 = true → fwCode (s.load .lpddr s.fusAddr 512) ≤ 67108864 →
      s.inHost s.fusAddr (512 + fwCode (s.load .lpddr s.fusAddr 512)) = true →
      b = s.load .lpddr s.fusAddr (512 + fwCode (s.load .lpddr s.fusAddr 512)) →
      fwCheck { s.fusesNow with secMin := f.secMin } b = 0 →
      (s.boot.fwHold = true → exec (.storeFw req) s = .next (({ s with boot := { s.boot with
        running := 3, runImage := b, persist := some b, fwHold := false, phase := 2 } } : State).fusDone 0)) ∧
      (s.boot.fwHold = false → s.wdl.readOnly = true → exec (.storeFw req) s = .next (s.fusDone 8)) ∧
      (s.boot.fwHold = false → s.wdl.readOnly = false → s.boot.running = 0 →
        exec (.storeFw req) s = .next (({ s with boot := { s.boot with slotB := b } } : State).fusDone 0)) ∧
      (s.boot.fwHold = false → s.wdl.readOnly = false → s.boot.running ≠ 0 →
        exec (.storeFw req) s = .next (({ s with boot := { s.boot with slotA := b } } : State).fusDone 0)))) ∧
  (∀ (s : State) (req : Requester), s.gate req 120 1 3 = (s, true) →
    exec (.timeStage req) s = .next { s with time := { s.time with
      staged := some (BitVec.ofNat 64 ((s.reg 120 1 0x100).toNat + (s.reg 120 1 0x104).toNat * 4294967296)) } } ∧
    exec (.timeCancel req) s = .next { s with time := { s.time with staged := none } })

/-- While the debug port is open: HART_HALT halts a core that is there, HART_RESUME lets it run on, or fails it when a
claim was forced from it, HART_STEP runs one instruction, TRIGGER_HIT halts a running core whose trigger matches.
ACCESS_REGISTER and ACCESS_MEMORY act on a halted core and record error 4 on a running one, 2 for what they do not
support, 5 for an address that is not LPDDR's; SYSTEM_BUS_ACCESS records its own errors 4, 3 and 2; a legal access
stores or answers. NDMRESET asks for the restart. A claim scan lists the ids its owner holds. DBG_CLAIM_FORCE frees a
counter whose owner is as expected, counts and reports it; otherwise it reports that it did not. While the port is
closed the debug accesses change nothing. (R522, R525, R526, R527, R528) -/
def Obligations.DebugReachesHartsAndClaims : Prop :=
  (∀ (s : State) (c : Nat), s.portOpen = true → c < 16 →
    (s.coreThere c = true → exec (.hartHalt c) s = .next { s with dbg := { s.dbg with halted := insNat c s.dbg.halted } }) ∧
    (c ∈ s.dbg.halted → exec (.hartStep c) s = .next (s.coreRan c) ∧
      (c ∈ s.dbg.forced → exec (.hartResume c) s = .next ((s.coreRan c).coreFail c)) ∧
      (c ∉ s.dbg.forced → ∃ t, exec (.hartResume c) s = .next t ∧ c ∉ t.dbg.halted ∧
        (∀ x, x ≠ c → (x ∈ t.dbg.halted ↔ x ∈ s.dbg.halted))) ∧
      (∀ r v, regnoOk r = true → exec (.accessRegister c r true v) s = .next (s.setCoreReg c r v.toNat) ∧
        exec (.accessRegister c r false v) s = .next ((s.coreReg c r).2.answer (s.coreReg c r).1)) ∧
      (∀ a n v, n = 4 ∨ n = 8 → a % n = 0 → lpddrOk a n = true →
        exec (.accessMemory c a n true v) s = .next (s.debugStore a n v.toNat) ∧
        exec (.accessMemory c a n false v) s = .next ((s.debugLoad a n).2.answer (s.debugLoad a n).1)) ∧
      (∀ a n w v, n = 4 ∨ n = 8 → a % n ≠ 0 ∨ lpddrOk a n = false → exec (.accessMemory c a n w v) s = .next (s.cmdErr 5))) ∧
    (c ∉ s.dbg.halted →
      (∀ r w v, regnoOk r = true → exec (.accessRegister c r w v) s = .next (s.cmdErr 4)) ∧
      (∀ a n w v, n = 4 ∨ n = 8 → exec (.accessMemory c a n w v) s = .next (s.cmdErr 4)) ∧
      (∀ k acc a, s.coreThere c = true → trigMatch (Tbl.val (0, 0) s.dbg.trig (c * 4 + k % 4)).1
          (Tbl.val (0, 0) s.dbg.trig (c * 4 + k % 4)).2 acc a = true →
        exec (.triggerHit c k acc a) s = .next { s with dbg := { s.dbg with halted := insNat c s.dbg.halted } })) ∧
    (∀ r w v, regnoOk r = false → exec (.accessRegister c r w v) s = .next (s.cmdErr 2)) ∧
    (∀ a n w v, n ≠ 4 → n ≠ 8 → exec (.accessMemory c a n w v) s = .next (s.cmdErr 2) ∧
      exec (.systemBusAccess a n w v) s = .next (s.sbErr 4)) ∧
    (∀ a n v, n = 4 ∨ n = 8 → a % n = 0 → lpddrOk a n = true →
      exec (.systemBusAccess a n true v) s = .next (s.debugStore a n v.toNat) ∧
      exec (.systemBusAccess a n false v) s = .next ((s.debugLoad a n).2.answer (s.debugLoad a n).1)) ∧
    (∀ a n w v, n = 4 ∨ n = 8 → (a % n ≠ 0 → exec (.systemBusAccess a n w v) s = .next (s.sbErr 3)) ∧
      (a % n = 0 → lpddrOk a n = false → exec (.systemBusAccess a n w v) s = .next (s.sbErr 2))) ∧
    exec .ndmreset s = .next s.askRestart) ∧
  (∀ (s : State) (c a n : Nat) (w : Bool) (v : Word64), s.portOpen = false →
    exec (.hartHalt c) s = .next s ∧ exec (.hartResume c) s = .next s ∧ exec (.hartStep c) s = .next s ∧
    exec (.accessRegister c a w v) s = .next s ∧ exec (.accessMemory c a n w v) s = .next s ∧
    exec (.systemBusAccess a n w v) s = .next s ∧ exec .ndmreset s = .next s) ∧
  (∀ (s : State) (req : Requester) (v : Word), s.gate req 0 16 3 = (s, true) →
    exec (.dbgClaimScan req v) s = .next { s with dbg := { s.dbg with scan := some (v.toNat / 16777216) } } ∧
    (∀ o r, o = (s.reg 0 16 0x110).toNat → r = s.ctrOp 3 ((s.reg 0 16 0x10C).toNat % 131072) o 0 0 →
      (r.2.2 ≠ 0 → exec (.dbgClaimForce req) s = .next (r.1.event 0 16 [sqBit 0x118 2] [])) ∧
      (r.2.2 = 0 → ∃ f, exec (.dbgClaimForce req) s = .next ((({ r.1 with dbg := { r.1.dbg with forced := f } } : State).bump
          0 16 0x12C 1).event 0 16 [sqBit 0x118 1] []) ∧
        (o / 268435456 = 2 → o / 16777216 % 16 ∈ f) ∧ (∀ x ∈ r.1.dbg.forced, x ∈ f)))) ∧
  (∀ (s : State) (m : Nat), s.dbg.scan = some m → exec .claimScanDone s = .next
    (({ s with dbg := { s.dbg with scan := none, claims := s.claimIds m } } : State).event 0 16 [sqBit 0x118 3] []))

/-- While the TAP runs: IDCODE answers the part code 0x0640 between the silicon's own fields (log entry 28), with bit
0 set; SAMPLE/PRELOAD loads the update stage; EXTEST acts only with the port open in SHUT, and leaving it asks for a
restart; DTMCS and DMI act with the port open, and a TAP instruction that is denied answers 0 as BYPASS does. REGACC
returns the previous access and then writes, reads, or is denied with status 2 and no register changed. A good UNLOCK
unlocks and is reported; a bad one is counted, draws a fresh nonce and bars at the eighth. Once 200 strokes (1,200 for
power, phase and serial) have passed, a management-bus read of a live module answers its bytes with their Packet Error
Code; of one that is not live it answers nothing. (R458, R522, R523, R524, R531, R532) -/
def Obligations.TapAndManagementBusAnswer : Prop :=
  (∀ s : State, s.tapLive = true →
    (∃ v, exec .tapIdcode s = .next (s.answer v) ∧ v % 2 = 1 ∧ v / 4096 % 65536 = 0x0640) ∧
    (∀ pins, ∃ r, r = s.drawBytes ((pins.length + 7) / 8) ∧ exec (.tapSamplePreload pins) s =
      .next (({ r.2 with dbg := { r.2.dbg with cells := pins } } : State).answer (leNat r.1 % 2 ^ pins.length))) ∧
    (∀ pins, s.portOpen = true → s.boot.resetState = 2 →
      exec (.tapExtest pins false) s = .next { s with dbg := { s.dbg with extest := true, cells := pins } }) ∧
    (∀ pins, s.portOpen = false ∨ s.boot.resetState ≠ 2 → exec (.tapExtest pins false) s = .next (s.answer 0)) ∧
    (∀ pins, s.dbg.extest = true →
      exec (.tapExtest pins true) s = .next ({ s with dbg := { s.dbg with extest := false } } : State).askRestart) ∧
    (∀ b v, (s.portOpen = true → exec (.tapDtmcs b v) s = .next (s.answer 0x71)) ∧
      (s.portOpen = false → exec (.tapDtmcs b v) s = .next (s.answer 0) ∧ ∀ op a, exec (.tapDmi op a v) s = .next (s.answer 0))) ∧
    (∀ a v, s.portOpen = true → exec (.tapDmi 2 a v) s = .next ((s.dmWrite a v.toNat).answer 0) ∧
      (a ≠ 0x3C → exec (.tapDmi 1 a v) s = .next (s.answer (s.dmRead a)))) ∧
    (∀ act off v u, u = s.answer (s.dbg.regData.toNat * 4 + s.dbg.regStat) →
      (s.regReached (off / 0x100000) (off / 0x1000 % 256) = false → ∀ w, exec (.tapRegacc act w off v) s =
        .next { u with dbg := { u.dbg with regStat := 2 } }) ∧
      (s.regReached (off / 0x100000) (off / 0x1000 % 256) = true →
        (∃ t, t = u.writeReg .debug (off / 0x100000) (off / 0x1000 % 256) (off % 0x1000) v.toNat ∧
          exec (.tapRegacc act true off v) s = .next { t with dbg := { t.dbg with regStat := 0 } }) ∧
        (∃ r, r = u.readReg .debug (off / 0x100000) (off / 0x1000 % 256) (off % 0x1000) act ∧
          exec (.tapRegacc act false off v) s = .next { r.2 with dbg := { r.2.dbg with
            regStat := 0, regData := BitVec.ofNat 32 r.1 } }))) ∧
    (∀ key sig, s.unlockReached = true → s.dbg.barred = false →
      (s.unlockOk key sig = true → exec (.tapUnlock key sig) s =
        .next (({ s with dbg := { s.dbg with unlocked := true } } : State).event 0 16 [sqBit 0x118 0] [])) ∧
      (s.unlockOk key sig = false → ∃ t, exec (.tapUnlock key sig) s = .next t ∧
        t.dbg.failures = s.dbg.failures + 1 ∧ (t.dbg.barred = true ↔ 8 ≤ s.dbg.failures + 1) ∧
        t.dbg.unlocked = s.dbg.unlocked)) ∧
    (∀ b, exec (.tapBypass b) s = .next (s.answer 0)) ∧
    (200 ≤ s.boot.upStrokes → ∃ r, r = s.drawWord ∧
      exec .smbPresence s = .next (s.answer (smbSent 1 1 (if s.boot.fuses.variant = 1 then 3 else 1))) ∧
      exec .smbInletTemp s = .next (r.2.answer (smbSent 2 2 (r.1.toNat % 65536))) ∧
      exec .smbOutletTemp s = .next (r.2.answer (smbSent 3 2 (r.1.toNat % 65536))) ∧
      (s.boot.phase = 0 → exec .smbHotspot s = .next (s.answer (smbSent 4 2 0x8000))) ∧
      (s.boot.phase ≠ 0 → exec .smbHotspot s = .next (r.2.answer (smbSent 4 2 (r.1.toNat % 65536))))) ∧
    (1200 ≤ s.boot.upStrokes →
      (s.pwr.watts = [] →
        exec .smbInputPower s = .next (s.drawWord.2.answer (smbSent 5 2 (s.drawWord.1.toNat % 65536)))) ∧
      (s.pwr.watts ≠ [] → exec .smbInputPower s = .next (s.answer (smbSent 5 2 (min 65535 s.inputWatts)))) ∧
      exec .smbPhase s = .next (s.answer (smbSent 6 1 (s.boot.phase % 16 * 16 + (if s.boot.ready then 1 else 0)))) ∧
      exec .smbSerial s = .next (s.answer (smbSent 7 9 (8 + 256 * (s.boot.fuses.serial % 2 ^ 64)))))) ∧
  (∀ s : State, s.tapLive = false →
    exec .smbPresence s = .next { s with reply := none } ∧ exec .smbPhase s = .next { s with reply := none } ∧
    exec .smbSerial s = .next { s with reply := none } ∧ exec .tapIdcode s = .next s ∧ (∀ b, exec (.tapBypass b) s = .next s))

/-- For every command c and state s, step of s with c at the front of its queue is exec of c on s with the queue's
rest; on an empty queue the block idles (the model's choice, log entry 3). (R52, R457) -/
def Obligations.AStepRunsTheFrontCommand : Prop :=
  (∀ (c : Instr) (rest : List Instr) (s : State),
    step { s with pending := c :: rest } = exec c { s with pending := rest }) ∧
  (∀ s : State, s.pending = [] → step s = .next s)

/-- State.reset's memory is in its canonical form: its addresses strictly rise and it lists no byte equal to what an
unlisted address reads as (the model's choice, log entry 1). (R326, R507) -/
def Obligations.ResetMemoryIsCanonical : Prop := State.reset.memOk

/-- For every state whose memory is in its canonical form (addresses strictly rising, no byte equal to what an
unlisted address reads as), if a step answers a next state, that state's memory is in its canonical form too, whatever
command was at the front of the queue. (R326, R444) -/
def Obligations.EveryStepKeepsTheMemoryCanonical : Prop :=
  ∀ s t : State, s.memOk → step s = .next t → t.memOk
end

