-- ==== Sys2Proof/Laws/Table.lean ====
section
/-! SUPPORT. Laws of the tables and of the byte memory: what a read gives after a write, and that every operation keeps the
canonical form. -/

namespace Sys2Proof.Machine

variable {α : Type}

/-! ### Reads after writes -/

theorem Tbl.look_put_same (m : Tbl α) (k : Nat) (v : α) : Tbl.look (Tbl.put m k v) k = some v := by
  fun_induction Tbl.put m k v <;> simp_all [Tbl.look]

theorem Tbl.look_put_other (m : Tbl α) {k j : Nat} (v : α) (h : j ≠ k) : Tbl.look (Tbl.put m k v) j = Tbl.look m j := by
  induction m with
  | nil => simp [Tbl.put, Tbl.look, Ne.symm h]
  | cons e t ih =>
    obtain ⟨a, x⟩ := e
    simp only [Tbl.put]
    split
    · simp [Tbl.look, Ne.symm h]
    · split
      · next hk => subst hk; simp [Tbl.look, Ne.symm h]
      · simp [Tbl.look, ih]

theorem Tbl.look_put (m : Tbl α) (k j : Nat) (v : α) :
    Tbl.look (Tbl.put m k v) j = if j = k then some v else Tbl.look m j := by
  split
  · next h => exact h ▸ Tbl.look_put_same m k v
  · next h => exact Tbl.look_put_other m v h

theorem Tbl.look_del_other (m : Tbl α) {k j : Nat} (h : j ≠ k) : Tbl.look (Tbl.del m k) j = Tbl.look m j := by
  induction m with
  | nil => rfl
  | cons e t ih =>
    obtain ⟨a, x⟩ := e
    simp only [Tbl.del]
    split
    · next hk => subst hk; simp [Tbl.look, Ne.symm h, ih]
    · simp [Tbl.look, ih]

theorem Tbl.val_set_other [DecidableEq α] (d : α) (m : Tbl α) {k j : Nat} (v : α) (h : j ≠ k) :
    Tbl.val d (Tbl.set d m k v) j = Tbl.val d m j := by
  unfold Tbl.val Tbl.set
  split
  · rw [Tbl.look_del_other m h]
  · rw [Tbl.look_put_other m v h]

/-- Reading back a stored value that is not the default. -/
theorem Tbl.val_set_same [DecidableEq α] (d : α) (m : Tbl α) (k : Nat) {v : α} (h : v ≠ d) :
    Tbl.val d (Tbl.set d m k v) k = v := by
  simp [Tbl.val, Tbl.set, h, Tbl.look_put_same]

/-! ### The canonical form -/

theorem Tbl.wf_cons_iff (a : Nat) (v : α) (m : Tbl α) :
    Tbl.wf ((a, v) :: m) = true ↔ (∀ e ∈ m, a < e.1) ∧ Tbl.wf m = true := by
  induction m generalizing a v with
  | nil => simp [Tbl.wf]
  | cons e t ih =>
    obtain ⟨b, y⟩ := e
    simp only [Tbl.wf, Bool.and_eq_true, decide_eq_true_eq, List.mem_cons, forall_eq_or_imp]
    constructor
    · rintro ⟨hab, hw⟩
      exact ⟨⟨hab, fun e he => lt_trans hab (((ih b y).1 hw).1 e he)⟩, hw⟩
    · rintro ⟨⟨hab, -⟩, hw⟩
      exact ⟨hab, hw⟩

theorem Tbl.mem_put {m : Tbl α} {k : Nat} {v : α} {e : Nat × α} (h : e ∈ Tbl.put m k v) : e = (k, v) ∨ e ∈ m := by
  fun_induction Tbl.put m k v <;> simp_all <;> tauto

theorem Tbl.mem_del {m : Tbl α} {k : Nat} {e : Nat × α} (h : e ∈ Tbl.del m k) : e ∈ m := by
  fun_induction Tbl.del m k <;> simp_all
  tauto

theorem Tbl.wf_put {m : Tbl α} (k : Nat) (v : α) (h : Tbl.wf m = true) : Tbl.wf (Tbl.put m k v) = true := by
  induction m with
  | nil => rfl
  | cons e t ih =>
    obtain ⟨a, x⟩ := e
    obtain ⟨ha, hw⟩ := (Tbl.wf_cons_iff _ _ _).1 h
    simp only [Tbl.put]
    split
    · next hk =>
      refine (Tbl.wf_cons_iff _ _ _).2 ⟨fun e he => ?_, h⟩
      rcases List.mem_cons.1 he with rfl | he
      · exact hk
      · exact lt_trans hk (ha e he)
    · split
      · next hk => subst hk; exact (Tbl.wf_cons_iff _ _ _).2 ⟨ha, hw⟩
      · refine (Tbl.wf_cons_iff _ _ _).2 ⟨fun e he => ?_, ih hw⟩
        rcases Tbl.mem_put he with rfl | he
        · simp only; omega
        · exact ha e he

theorem Tbl.wf_del {m : Tbl α} (k : Nat) (h : Tbl.wf m = true) : Tbl.wf (Tbl.del m k) = true := by
  induction m with
  | nil => rfl
  | cons e t ih =>
    obtain ⟨a, x⟩ := e
    obtain ⟨ha, hw⟩ := (Tbl.wf_cons_iff _ _ _).1 h
    simp only [Tbl.del]
    split
    · exact ih hw
    · exact (Tbl.wf_cons_iff _ _ _).2 ⟨fun e he => ha e (Tbl.mem_del he), ih hw⟩

theorem Tbl.wf_set [DecidableEq α] (d : α) {m : Tbl α} (k : Nat) (v : α) (h : Tbl.wf m = true) :
    Tbl.wf (Tbl.set d m k v) = true := by
  unfold Tbl.set; split
  · exact Tbl.wf_del k h
  · exact Tbl.wf_put k v h

theorem Tbl.wf_filter {m : Tbl α} (p : Nat × α → Bool) (h : Tbl.wf m = true) : Tbl.wf (m.filter p) = true := by
  induction m with
  | nil => rfl
  | cons e t ih =>
    obtain ⟨ha, hw⟩ := (Tbl.wf_cons_iff e.1 e.2 t).1 h
    rw [List.filter_cons]
    split
    · exact (Tbl.wf_cons_iff e.1 e.2 _).2 ⟨fun x hx => ha x (List.mem_filter.1 hx).1, ih hw⟩
    · exact ih hw

theorem Tbl.look_del_same (m : Tbl α) (k : Nat) : Tbl.look (Tbl.del m k) k = none := by
  induction m with
  | nil => rfl
  | cons e t ih =>
    obtain ⟨a, x⟩ := e
    simp only [Tbl.del]
    split
    · exact ih
    · next hne => simp [Tbl.look, hne, ih]

/-- A table reads back what was set in it. -/
theorem Tbl.val_set [DecidableEq α] (d : α) (m : Tbl α) (k : Nat) (v : α) : Tbl.val d (Tbl.set d m k v) k = v := by
  by_cases hv : v = d
  · simp [Tbl.val, Tbl.set, hv, Tbl.look_del_same m k]
  · exact Tbl.val_set_same d m k hv

/-! ### The byte memory -/

theorem Memory.wf_iff (m : Memory) : Memory.wf m = true ↔ Tbl.wf m = true ∧ ∀ e ∈ m, e.2 ≠ Memory.unlisted := by
  simp [Memory.wf, List.all_eq_true]

theorem Memory.wf_filter {m : Memory} (p : Nat × Byte → Bool) (h : Memory.wf m = true) : Memory.wf (m.filter p) = true := by
  rw [Memory.wf_iff] at *
  exact ⟨Tbl.wf_filter p h.1, fun e he => h.2 e (List.mem_filter.1 he).1⟩

theorem Memory.wf_write {m : Memory} (k : Nat) (b : Byte) (h : Memory.wf m = true) : Memory.wf (Memory.write m k b) = true := by
  rw [Memory.wf_iff] at *
  unfold Memory.write
  split
  · exact ⟨Tbl.wf_del k h.1, fun e he => h.2 e (Tbl.mem_del he)⟩
  · next hb =>
    refine ⟨Tbl.wf_put k b h.1, fun e he => ?_⟩
    rcases Tbl.mem_put he with rfl | he
    · exact hb
    · exact h.2 e he

theorem Memory.wf_writeBytes {m : Memory} (k : Nat) (bs : List Byte) (h : Memory.wf m = true) :
    Memory.wf (Memory.writeBytes m k bs) = true := by
  induction bs generalizing m k with
  | nil => exact h
  | cons b t ih => exact ih (k + 1) (Memory.wf_write k b h)

theorem Memory.wf_clear {m : Memory} (k n : Nat) (h : Memory.wf m = true) : Memory.wf (Memory.clear m k n) = true :=
  Memory.wf_filter _ h

theorem Memory.wf_copy {m : Memory} (src dst n : Nat) (h : Memory.wf m = true) : Memory.wf (Memory.copy m src dst n) = true := by
  unfold Memory.copy
  generalize m.filter (fun c => decide (src ≤ c.1) && decide (c.1 < src + n)) = l
  have h := Memory.wf_clear dst n h
  generalize Memory.clear m dst n = m' at h
  induction l generalizing m' with
  | nil => exact h
  | cons e t ih => exact ih _ (Memory.wf_write _ _ h)

theorem Memory.read_write_other (m : Memory) {k j : Nat} (b : Byte) (h : j ≠ k) :
    Memory.read (Memory.write m k b) j = Memory.read m j := by
  unfold Memory.read Memory.write
  split
  · rw [Tbl.look_del_other m h]
  · rw [Tbl.look_put_other m b h]

theorem Memory.read_write_same (m : Memory) (k : Nat) (b : Byte) : Memory.read (Memory.write m k b) k = b := by
  unfold Memory.read Memory.write
  split
  · next hb => rw [Tbl.look_del_same m k, hb]; rfl
  · rw [Tbl.look_put_same]; rfl

/-- A byte outside the bytes written reads as before. -/
theorem Memory.read_writeBytes_other (m : Memory) (k : Nat) (bs : List Byte) {j : Nat} (h : j < k ∨ k + bs.length ≤ j) :
    Memory.read (Memory.writeBytes m k bs) j = Memory.read m j := by
  induction bs generalizing m k with
  | nil => rfl
  | cons b t ih =>
    simp only [List.length_cons] at h
    rw [Memory.writeBytes, ih _ _ (by omega), Memory.read_write_other _ _ (by omega)]

/-- The bytes written read back. -/
theorem Memory.readBytes_writeBytes (m : Memory) (k : Nat) (bs : List Byte) :
    Memory.readBytes (Memory.writeBytes m k bs) k bs.length = bs := by
  induction bs generalizing m k with
  | nil => rfl
  | cons b t ih =>
    rw [List.length_cons, Memory.readBytes, Memory.writeBytes, Memory.read_writeBytes_other _ _ _ (by omega),
      Memory.read_write_same m k b, ih _ _]

end Sys2Proof.Machine
end

