-- ==== Sys2Proof/Laws/Keeps.lean ====
section
/-! SUPPORT. What keeps the memory in its canonical form: a record around it, a fold, a choice. The lemmas of the Keeps files say
it once for each operation of the machine that answers a state, in the order of the model's files. -/

namespace Sys2Proof.Machine

theorem memOk_mk {x0} {x1} {x2} {m} {x4} {x5} {x6} {x7} {x8} {x9} {x10} {x11} {x12} {x13} {x14} {x15} {x16} {x17} {x18} {x19} {x20} {x21} {x22} {x23} {x24} {x25} {x26} {x27} {x28} {x29} (h : Memory.wf m = true) :
    State.memOk (State.mk x0 x1 x2 m x4 x5 x6 x7 x8 x9 x10 x11 x12 x13 x14 x15 x16 x17 x18 x19 x20 x21 x22 x23 x24 x25 x26 x27 x28 x29) := h
theorem memOk_mem {s : State} (h : s.memOk) : Memory.wf s.mem = true := h
theorem memOk_foldl {α : Type} {f : State → α → State} (l : List α) {s : State} (h : s.memOk)
    (hf : ∀ (t : State) a, t.memOk → (f t a).memOk) : State.memOk (l.foldl f s) := by
  induction l generalizing s with
  | nil => exact h
  | cons a t ih => exact ih (hf _ _ h)
theorem memOk_foldl_fst {α β : Type} {f : State × β → α → State × β} (l : List α) {s : State × β} (h : s.1.memOk)
    (hf : ∀ t a, t.1.memOk → (f t a).1.memOk) : State.memOk (l.foldl f s).1 := by
  induction l generalizing s with
  | nil => exact h
  | cons a t ih => exact ih (hf _ _ h)
theorem memOk_foldl_snd {α β : Type} {f : β × State → α → β × State} (l : List α) {s : β × State} (h : s.2.memOk)
    (hf : ∀ t a, t.2.memOk → (f t a).2.memOk) : State.memOk (l.foldl f s).2 := by
  induction l generalizing s with
  | nil => exact h
  | cons a t ih => exact ih (hf _ _ h)
theorem memOk_ite {c : Prop} [Decidable c] {a b : State} (ha : a.memOk) (hb : b.memOk) :
    State.memOk (if c then a else b) := by split <;> assumption
theorem memOk_ite_fst {β : Type} {c : Prop} [Decidable c] {a b : State × β} (ha : a.1.memOk)
    (hb : b.1.memOk) : State.memOk (if c then a else b).1 := by split <;> assumption
theorem memOk_ite_snd {β : Type} {c : Prop} [Decidable c] {a b : β × State} (ha : a.2.memOk)
    (hb : b.2.memOk) : State.memOk (if c then a else b).2 := by split <;> assumption
theorem wf_foldl {α : Type} {f : Memory → α → Memory} (l : List α) {m : Memory} (h : Memory.wf m = true)
    (hf : ∀ t a, Memory.wf t = true → Memory.wf (f t a) = true) : Memory.wf (l.foldl f m) = true := by
  induction l generalizing m with
  | nil => exact h
  | cons a t ih => exact ih (hf _ _ h)

end Sys2Proof.Machine
end

