-- ==== Sys2Proof/Laws/KeepsOps.lean ====
section
/-! SUPPORT. Every operation of these files keeps the memory in its canonical form: the machine's shared operations, from memory to the queues of a request. -/

namespace Sys2Proof.Machine

/-! ### Ops -/

theorem State.store_memOk (s : State) (sp : Space) (a : Nat) (bs : List Byte) (h0 : State.memOk s) :
    State.memOk (State.store s sp a bs) := by
  unfold State.store
  repeat' first
    | with_reducible assumption
    | with_reducible apply Memory.wf_writeBytes
    | with_reducible apply Memory.wf_write
    | intro _
    | dsimp only
    | with_reducible apply memOk_mem
    | with_reducible apply memOk_mk

theorem State.setReg_memOk (s : State) (die page off : Nat) (w : Word) (h0 : State.memOk s) :
    State.memOk (State.setReg s die page off w) := h0

theorem State.setRegN_memOk (s : State) (die page off v : Nat) (h0 : State.memOk s) :
    State.memOk (State.setRegN s die page off v) := by
  unfold State.setRegN
  repeat' first
    | with_reducible assumption
    | with_reducible apply State.setReg_memOk

theorem State.bump_memOk (s : State) (die page off n : Nat) (h0 : State.memOk s) :
    State.memOk (State.bump s die page off n) := by
  unfold State.bump
  repeat' first
    | with_reducible assumption
    | with_reducible apply State.setReg_memOk

theorem State.setWide_memOk (s : State) (die page kind idx v : Nat) (h0 : State.memOk s) :
    State.memOk (State.setWide s die page kind idx v) := by
  unfold State.setWide
  repeat' first
    | with_reducible assumption
    | intro _
    | with_reducible apply memOk_ite
    | split
    | dsimp only
    | with_reducible apply memOk_mem
    | with_reducible apply memOk_mk

theorem State.bumpWide_memOk (s : State) (die page kind idx n : Nat) (h0 : State.memOk s) :
    State.memOk (State.bumpWide s die page kind idx n) := by
  unfold State.bumpWide
  repeat' first
    | with_reducible assumption
    | with_reducible apply State.setWide_memOk

theorem State.setPage_memOk (s : State) (die page : Nat) (p : Page) (h0 : State.memOk s) :
    State.memOk (State.setPage s die page p) := h0

theorem State.answer_memOk (s : State) (v : Nat) (h0 : State.memOk s) :
    State.memOk (State.answer s v) := h0

theorem State.drawWord_memOk (s : State) (h0 : State.memOk s) :
    State.memOk (State.drawWord s).2 := by
  unfold State.drawWord
  repeat' first
    | with_reducible assumption
    | intro _
    | dsimp only
    | with_reducible apply memOk_mem
    | with_reducible apply memOk_mk

theorem State.drawBytes_memOk (s : State) (n : Nat) (h0 : s.memOk) : State.memOk (s.drawBytes n).2 := by
  induction n generalizing s with
  | zero => exact h0
  | succ n ih => exact ih _ h0

theorem State.setHp_memOk (s : State) (p : Nat) (h : HostPort) (h0 : State.memOk s) :
    State.memOk (State.setHp s p h) := by
  unfold State.setHp
  repeat' first
    | with_reducible assumption
    | intro _
    | with_reducible apply memOk_ite
    | split
    | dsimp only
    | with_reducible apply memOk_mem
    | with_reducible apply memOk_mk

theorem State.pickFree_memOk (s : State) (used : List Nat) (n : Nat) (h0 : State.memOk s) :
    State.memOk (State.pickFree s used n).2 := by
  unfold State.pickFree
  repeat' first
    | with_reducible assumption
    | with_reducible apply State.drawWord_memOk

theorem State.setSlot_memOk (s : State) (n : Nat) (x : Slot) (h0 : State.memOk s) :
    State.memOk (State.setSlot s n x) := h0

theorem State.modSlot_memOk (s : State) (n : Nat) (f : Slot → Slot) (h0 : State.memOk s) :
    State.memOk (State.modSlot s n f) := by
  unfold State.modSlot
  repeat' first
    | with_reducible assumption
    | with_reducible apply State.setSlot_memOk

/-! ### Flags -/

theorem State.event_memOk (s : State) (die page : Nat) (sqs errs : List Nat) (h0 : State.memOk s) :
    State.memOk (State.event s die page sqs errs) := by
  unfold State.event
  repeat' first
    | with_reducible assumption
    | with_reducible apply State.setPage_memOk

theorem State.err_memOk (s : State) (die page code : Nat) (h0 : State.memOk s) :
    State.memOk (State.err s die page code) := by
  unfold State.err
  repeat' first
    | with_reducible assumption
    | with_reducible apply State.event_memOk

/-! ### Rings -/

theorem State.hostWrite_memOk (s : State) (p a : Nat) (bs : List Byte) (h0 : State.memOk s) :
    State.memOk (State.hostWrite s p a bs) := by
  unfold State.hostWrite
  repeat' first
    | with_reducible assumption
    | with_reducible apply State.store_memOk
    | with_reducible apply State.bumpWide_memOk
    | with_reducible apply State.setHp_memOk
    | intro _
    | with_reducible apply memOk_ite

theorem State.setRing_memOk (s : State) (rid : Nat) (r : Ring) (h0 : State.memOk s) :
    State.memOk (State.setRing s rid r) := h0

theorem drainGo_memOk (y0 : Nat) (y1 : State) (y2 y3 : Nat) (h0 : State.memOk y1) :
    State.memOk (drainGo y0 y1 y2 y3).1 := by
  induction y0 generalizing y1 y2 y3 h0 with
  | zero =>
    rw [drainGo]
    repeat' first
      | with_reducible assumption
  | succ n ih =>
    rw [drainGo]
    repeat' first
      | with_reducible assumption
      | with_reducible apply State.hostWrite_memOk
      | with_reducible apply State.setRing_memOk
      | with_reducible apply ih
      | intro _
      | with_reducible apply memOk_ite
      | with_reducible apply memOk_ite_fst
      | with_reducible apply memOk_ite_snd
      | split

theorem State.noteFull_memOk (s : State) (rid : Nat) (h0 : State.memOk s) :
    State.memOk (State.noteFull s rid) := by
  unfold State.noteFull
  repeat' first
    | with_reducible assumption
    | with_reducible apply State.bump_memOk
    | with_reducible apply State.event_memOk
    | with_reducible apply State.setRing_memOk
    | intro _
    | with_reducible apply memOk_ite
    | split

theorem State.noteIssued_memOk (s : State) (rid : Nat) (h0 : State.memOk s) :
    State.memOk (State.noteIssued s rid) := by
  unfold State.noteIssued
  repeat' first
    | with_reducible assumption
    | with_reducible apply State.setRing_memOk
    | intro _
    | with_reducible apply memOk_ite
    | split

theorem State.drainRing_memOk (s : State) (rid : Nat) (h0 : State.memOk s) :
    State.memOk (State.drainRing s rid) := by
  unfold State.drainRing
  repeat' first
    | with_reducible assumption
    | with_reducible apply State.bumpWide_memOk
    | with_reducible apply State.hostWrite_memOk
    | with_reducible apply drainGo_memOk
    | with_reducible apply State.noteFull_memOk
    | with_reducible apply State.noteIssued_memOk
    | intro _
    | with_reducible apply memOk_ite
    | with_reducible apply memOk_ite_fst
    | with_reducible apply memOk_ite_snd
    | split

theorem State.reserve_memOk (s : State) (rid : Nat) (h0 : State.memOk s) :
    State.memOk (State.reserve s rid).2 := by
  unfold State.reserve
  repeat' first
    | with_reducible assumption
    | with_reducible apply State.setRing_memOk
    | intro _
    | split

theorem State.fillRing_memOk (s : State) (rid pos : Nat) (rec : List Byte) (h0 : State.memOk s) :
    State.memOk (State.fillRing s rid pos rec) := by
  unfold State.fillRing
  repeat' first
    | with_reducible assumption
    | with_reducible apply State.setRing_memOk
    | with_reducible apply State.drainRing_memOk
    | intro _
    | split

theorem State.postRing_memOk (s : State) (rid : Nat) (mk : Nat → List Byte) (h0 : State.memOk s) :
    State.memOk (State.postRing s rid mk) := by
  unfold State.postRing
  repeat' first
    | with_reducible assumption
    | with_reducible apply State.reserve_memOk
    | with_reducible apply State.fillRing_memOk

theorem State.faultTo_memOk (s : State) (port code aux0 aux1 flags : Nat) (h0 : State.memOk s) :
    State.memOk (State.faultTo s port code aux0 aux1 flags) := by
  unfold State.faultTo
  repeat' first
    | with_reducible assumption
    | with_reducible apply State.bump_memOk
    | with_reducible apply State.event_memOk
    | with_reducible apply State.postRing_memOk
    | intro _
    | with_reducible apply memOk_ite
    | split

theorem State.postFault_memOk (s : State) (code aux0 aux1 : Nat) (h0 : State.memOk s) :
    State.memOk (State.postFault s code aux0 aux1) := by
  unfold State.postFault
  repeat' first
    | with_reducible assumption
    | with_reducible apply State.faultTo_memOk

theorem State.setCtr_memOk (s : State) (c : Nat) (v : Word) (h0 : State.memOk s) :
    State.memOk (State.setCtr s c v) := h0

theorem State.ctrOp_memOk (s : State) (op c a b owner : Nat) (h0 : State.memOk s) :
    State.memOk (State.ctrOp s op c a b owner).1 := by
  unfold State.ctrOp
  repeat' first
    | with_reducible assumption
    | with_reducible apply State.bumpWide_memOk
    | with_reducible apply State.setCtr_memOk
    | intro _
    | with_reducible apply memOk_ite

theorem State.advance_memOk (s : State) (c n : Nat) (h0 : State.memOk s) :
    State.memOk (State.advance s c n) := by
  unfold State.advance
  repeat' first
    | with_reducible assumption
    | with_reducible apply State.ctrOp_memOk

theorem State.advanceFld_memOk (s : State) (f n : Nat) (h0 : State.memOk s) :
    State.memOk (State.advanceFld s f n) := by
  unfold State.advanceFld
  repeat' first
    | with_reducible assumption
    | with_reducible apply State.advance_memOk
    | intro _
    | with_reducible apply memOk_ite

theorem State.park_memOk (s : State) (p : Park) (h0 : State.memOk s) :
    State.memOk (State.park s p) := by
  unfold State.park
  repeat' first
    | with_reducible assumption
    | with_reducible apply State.bump_memOk
    | with_reducible apply State.bumpWide_memOk
    | with_reducible apply State.event_memOk
    | intro _
    | with_reducible apply memOk_ite
    | split
    | dsimp only
    | with_reducible apply memOk_mem
    | with_reducible apply memOk_mk

theorem State.noteWait_memOk (s : State) (f : Nat) (h0 : State.memOk s) :
    State.memOk (State.noteWait s f) := by
  unfold State.noteWait
  repeat' first
    | with_reducible assumption
    | with_reducible apply State.bumpWide_memOk
    | intro _
    | with_reducible apply memOk_ite

/-! ### Media -/

theorem State.setWell_memOk (s : State) (n : Nat) (w : Well) (h0 : State.memOk s) :
    State.memOk (State.setWell s n w) := h0

theorem State.setBlock_memOk (s : State) (k : Nat) (b : Block) (h0 : State.memOk s) :
    State.memOk (State.setBlock s k b) := h0

theorem State.takeBlock_memOk (s : State) (part well serial : Nat) (h0 : State.memOk s) :
    ∀ w1 w2, (State.takeBlock s part well serial) = some (w1, w2) → State.memOk w2 := by
  unfold State.takeBlock
  intro out out ht
  repeat' first
    | with_reducible assumption
    | with_reducible apply State.drawWord_memOk
    | with_reducible apply State.setBlock_memOk
    | contradiction
    | (simp only [Option.some.injEq, Prod.mk.injEq] at ht)
    | (obtain ⟨rfl, rfl, rfl⟩ := ht)
    | (obtain ⟨rfl, rfl⟩ := ht)
    | subst ht
    | split at ht

theorem State.programmed_memOk (s : State) (k n : Nat) (h0 : State.memOk s) :
    State.memOk (State.programmed s k n) := by
  unfold State.programmed
  repeat' first
    | with_reducible assumption
    | with_reducible apply State.bumpWide_memOk
    | with_reducible apply State.setBlock_memOk

theorem State.releaseIdle_memOk (s : State) (k : Nat) (h0 : State.memOk s) :
    State.memOk (State.releaseIdle s k) := by
  unfold State.releaseIdle
  repeat' first
    | with_reducible assumption
    | with_reducible apply State.setBlock_memOk
    | intro _
    | with_reducible apply memOk_ite

theorem State.setPlane_memOk (s : State) (p : Nat) (q : PlaneQ) (h0 : State.memOk s) :
    State.memOk (State.setPlane s p q) := h0

theorem State.suspendErase_memOk (s : State) (p : Nat) (h0 : State.memOk s) :
    State.memOk (State.suspendErase s p) := by
  unfold State.suspendErase
  repeat' first
    | with_reducible assumption
    | with_reducible apply State.bumpWide_memOk
    | with_reducible apply State.setPlane_memOk

theorem State.settlePlane_memOk (s : State) (p : Nat) (h0 : State.memOk s) :
    State.memOk (State.settlePlane s p) := by
  unfold State.settlePlane
  repeat' first
    | with_reducible assumption
    | with_reducible apply State.setPlane_memOk
    | with_reducible apply State.suspendErase_memOk
    | intro _
    | with_reducible apply memOk_ite

theorem State.settlePlanes_memOk (s : State) (h0 : State.memOk s) :
    State.memOk (State.settlePlanes s) := by
  unfold State.settlePlanes
  repeat' first
    | with_reducible assumption
    | with_reducible apply State.settlePlane_memOk
    | with_reducible apply memOk_foldl
    | with_reducible apply memOk_foldl_fst
    | with_reducible apply memOk_foldl_snd
    | intro _

theorem State.visitPlane_memOk (s : State) (p : Nat) (h0 : State.memOk s) :
    State.memOk (State.visitPlane s p) := by
  unfold State.visitPlane
  repeat' first
    | with_reducible assumption
    | with_reducible apply State.setPlane_memOk
    | with_reducible apply State.suspendErase_memOk
    | intro _
    | with_reducible apply memOk_ite

theorem State.eraseQueue_memOk (s : State) (k : Nat) (h0 : State.memOk s) :
    State.memOk (State.eraseQueue s k) := by
  unfold State.eraseQueue
  repeat' first
    | with_reducible assumption
    | with_reducible apply State.setPlane_memOk
    | with_reducible apply State.settlePlane_memOk

theorem State.eraseLeaves_memOk (s : State) (k : Nat) (h0 : State.memOk s) :
    State.memOk (State.eraseLeaves s k) := by
  unfold State.eraseLeaves
  repeat' first
    | with_reducible assumption
    | with_reducible apply State.setPlane_memOk
    | with_reducible apply State.settlePlane_memOk

theorem State.readPage_memOk (s : State) (k : Nat) (uncorr : Bool) (h0 : State.memOk s) :
    State.memOk (State.readPage s k uncorr) := by
  unfold State.readPage
  repeat' first
    | with_reducible assumption
    | with_reducible apply State.bump_memOk
    | with_reducible apply State.bumpWide_memOk
    | with_reducible apply State.event_memOk
    | with_reducible apply State.visitPlane_memOk
    | intro _
    | with_reducible apply memOk_ite

theorem State.readLogical_memOk (s : State) (w part lp : Nat) (bad : List Nat) (h0 : State.memOk s) :
    State.memOk (State.readLogical s w part lp bad) := by
  unfold State.readLogical
  repeat' first
    | with_reducible assumption
    | with_reducible apply State.bump_memOk
    | with_reducible apply State.bumpWide_memOk
    | with_reducible apply State.readPage_memOk
    | intro _
    | with_reducible apply memOk_ite
    | with_reducible apply memOk_ite_fst
    | with_reducible apply memOk_ite_snd
    | split
    | dsimp only
    | with_reducible apply memOk_mem
    | with_reducible apply memOk_mk

theorem State.dropMap_memOk (s : State) (key : Nat) (h0 : State.memOk s) :
    State.memOk (State.dropMap s key) := by
  unfold State.dropMap
  repeat' first
    | with_reducible assumption
    | with_reducible apply State.releaseIdle_memOk
    | intro _
    | split
    | dsimp only
    | with_reducible apply memOk_mem
    | with_reducible apply memOk_mk

theorem State.setMap_memOk (s : State) (key e : Nat) (h0 : State.memOk s) :
    State.memOk (State.setMap s key e) := by
  unfold State.setMap
  repeat' first
    | with_reducible assumption
    | with_reducible apply State.releaseIdle_memOk
    | intro _
    | split
    | dsimp only
    | with_reducible apply memOk_mem
    | with_reducible apply memOk_mk

theorem State.programOn_memOk (s : State) (part copy lp well : Nat) (h0 : State.memOk s) :
    State.memOk (State.programOn s part copy lp well) := by
  unfold State.programOn
  repeat' first
    | with_reducible assumption
    | (with_reducible refine State.takeBlock_memOk _ _ _ _ ?_ _ _ (by assumption))
    | with_reducible apply State.programmed_memOk
    | with_reducible apply State.setMap_memOk
    | intro _
    | split
    | dsimp only

theorem State.anyWell_memOk (s : State) (h0 : State.memOk s) :
    State.memOk (State.anyWell s).2 := by
  unfold State.anyWell
  repeat' first
    | with_reducible assumption
    | with_reducible apply State.drawWord_memOk

theorem State.writeLogical_memOk (s : State) (part lp : Nat) (h0 : State.memOk s) :
    State.memOk (State.writeLogical s part lp) := by
  unfold State.writeLogical
  repeat' first
    | with_reducible assumption
    | with_reducible apply State.dropMap_memOk
    | with_reducible apply State.programOn_memOk
    | with_reducible apply State.anyWell_memOk
    | intro _
    | with_reducible apply memOk_ite

theorem State.discard_memOk (s : State) (part : Nat) (f : Nat → Bool) (h0 : State.memOk s) :
    State.memOk (State.discard s part f) := by
  unfold State.discard
  repeat' first
    | with_reducible assumption
    | with_reducible apply State.bumpWide_memOk
    | with_reducible apply State.releaseIdle_memOk
    | with_reducible apply memOk_foldl
    | with_reducible apply memOk_foldl_fst
    | with_reducible apply memOk_foldl_snd
    | intro _
    | split
    | dsimp only
    | with_reducible apply memOk_mem
    | with_reducible apply memOk_mk

theorem State.retireBlock_memOk (s : State) (k : Nat) (h0 : State.memOk s) :
    State.memOk (State.retireBlock s k) := by
  unfold State.retireBlock
  repeat' first
    | with_reducible assumption
    | with_reducible apply State.event_memOk
    | with_reducible apply State.setWell_memOk
    | with_reducible apply State.setBlock_memOk
    | intro _
    | with_reducible apply memOk_ite
    | split
    | dsimp only
    | with_reducible apply memOk_mem
    | with_reducible apply memOk_mk

/-! ### Traffic -/

theorem State.setMeter_memOk (s : State) (k : Nat) (m : Meter) (h0 : State.memOk s) :
    State.memOk (State.setMeter s k m) := h0

theorem State.refillMeter_memOk (s : State) (k : Nat) (h0 : State.memOk s) :
    State.memOk (State.refillMeter s k) := by
  unfold State.refillMeter
  repeat' first
    | with_reducible assumption
    | with_reducible apply State.err_memOk
    | with_reducible apply State.setMeter_memOk
    | intro _
    | with_reducible apply memOk_ite

theorem State.refillAll_memOk (s : State) (h0 : State.memOk s) :
    State.memOk (State.refillAll s) := by
  unfold State.refillAll
  repeat' first
    | with_reducible assumption
    | with_reducible apply State.refillMeter_memOk
    | with_reducible apply memOk_foldl

theorem State.refundBoth_memOk (s : State) (x : Slot) (prompt gen : Nat) (h0 : State.memOk s) :
    State.memOk (State.refundBoth s x prompt gen) := by
  unfold State.refundBoth
  repeat' first
    | with_reducible assumption
    | with_reducible apply State.setMeter_memOk

theorem State.setShaper_memOk (s : State) (q : Nat) (h : Shaper) (h0 : State.memOk s) :
    State.memOk (State.setShaper s q h) := h0

theorem State.refillShaper_memOk (s : State) (w q : Nat) (h0 : State.memOk s) :
    State.memOk (State.refillShaper s w q) := by
  unfold State.refillShaper
  repeat' first
    | with_reducible assumption
    | with_reducible apply State.err_memOk
    | with_reducible apply State.setShaper_memOk
    | intro _
    | with_reducible apply memOk_ite

theorem State.takeWeights_memOk (s : State) (w : Nat) (h0 : State.memOk s) :
    State.memOk (State.takeWeights s w) := by
  unfold State.takeWeights
  repeat' first
    | with_reducible assumption
    | with_reducible apply State.setShaper_memOk
    | with_reducible apply memOk_foldl
    | with_reducible apply memOk_foldl_fst
    | with_reducible apply memOk_foldl_snd
    | intro _

theorem State.calEnter_memOk (s : State) (w q t : Nat) (h0 : State.memOk s) :
    State.memOk (State.calEnter s w q t) := by
  unfold State.calEnter
  repeat' first
    | with_reducible assumption
    | with_reducible apply State.event_memOk
    | with_reducible apply State.setShaper_memOk
    | intro _
    | with_reducible apply memOk_ite
    | split
    | dsimp only
    | with_reducible apply memOk_mem
    | with_reducible apply memOk_mk

theorem State.calDue_memOk (s : State) (w : Nat) (e : Nat × Nat) (h0 : State.memOk s) :
    State.memOk (State.calDue s w e) := by
  unfold State.calDue
  repeat' first
    | with_reducible assumption
    | with_reducible apply State.setShaper_memOk
    | with_reducible apply State.refillShaper_memOk
    | with_reducible apply State.calEnter_memOk
    | intro _
    | with_reducible apply memOk_ite

theorem State.calTake_memOk (s : State) (w slot : Nat) (h0 : State.memOk s) :
    State.memOk (State.calTake s w slot).2 := by
  unfold State.calTake
  repeat' first
    | with_reducible assumption
    | intro _
    | dsimp only
    | with_reducible apply memOk_mem
    | with_reducible apply memOk_mk

theorem calendarPass_memOk (s : State) (w : Nat) (h0 : State.memOk s) :
    State.memOk (calendarPass s w) := by
  unfold calendarPass
  repeat' first
    | with_reducible assumption
    | with_reducible apply State.takeWeights_memOk
    | with_reducible apply State.calEnter_memOk
    | with_reducible apply State.calDue_memOk
    | with_reducible apply State.calTake_memOk
    | with_reducible apply memOk_foldl
    | with_reducible apply memOk_foldl_fst
    | with_reducible apply memOk_foldl_snd
    | intro _
    | with_reducible apply memOk_ite
    | with_reducible apply memOk_ite_fst
    | with_reducible apply memOk_ite_snd
    | split
    | dsimp only
    | with_reducible apply memOk_mem
    | with_reducible apply memOk_mk

theorem State.setQueue_memOk (s : State) (q : Nat) (l : List ERec) (h0 : State.memOk s) :
    State.memOk (State.setQueue s q l) := h0

theorem State.noteActive_memOk (s : State) (q : Nat) (h0 : State.memOk s) :
    State.memOk (State.noteActive s q) := h0

theorem State.grantQueue_memOk (s : State) (w q : Nat) (h0 : State.memOk s) :
    State.memOk (State.grantQueue s w q) := by
  unfold State.grantQueue
  repeat' first
    | with_reducible assumption
    | with_reducible apply State.setRing_memOk
    | with_reducible apply State.drainRing_memOk
    | with_reducible apply State.reserve_memOk
    | with_reducible apply State.setShaper_memOk
    | with_reducible apply State.refillShaper_memOk
    | with_reducible apply State.calEnter_memOk
    | with_reducible apply State.setQueue_memOk
    | with_reducible apply memOk_foldl
    | with_reducible apply memOk_foldl_fst
    | with_reducible apply memOk_foldl_snd
    | intro _
    | with_reducible apply memOk_ite
    | with_reducible apply memOk_ite_fst
    | with_reducible apply memOk_ite_snd
    | split
    | dsimp only
    | with_reducible apply memOk_mem
    | with_reducible apply memOk_mk

theorem State.roundAt_memOk (s : State) (rk q : Nat) (h0 : State.memOk s) :
    State.memOk (State.roundAt s rk q) := by
  unfold State.roundAt
  repeat' first
    | with_reducible assumption
    | intro _
    | with_reducible apply memOk_ite
    | split
    | dsimp only
    | with_reducible apply memOk_mem
    | with_reducible apply memOk_mk

theorem egressGrant_memOk (s : State) (w p : Nat) (h0 : State.memOk s) :
    State.memOk (egressGrant s w p) := by
  unfold egressGrant
  repeat' first
    | with_reducible assumption
    | with_reducible apply State.takeWeights_memOk
    | with_reducible apply State.grantQueue_memOk
    | with_reducible apply State.roundAt_memOk
    | intro _
    | split
    | dsimp only
    | with_reducible apply memOk_mem
    | with_reducible apply memOk_mk

theorem State.telemPost_memOk (s : State) (w q : Nat) (h0 : State.memOk s) :
    State.memOk (State.telemPost s w q) := by
  unfold State.telemPost
  repeat' first
    | with_reducible assumption
    | with_reducible apply State.bump_memOk
    | with_reducible apply State.event_memOk
    | with_reducible apply State.postRing_memOk
    | intro _
    | with_reducible apply memOk_ite
    | split

theorem telemetrySample_memOk (s : State) (w : Nat) (h0 : State.memOk s) :
    State.memOk (telemetrySample s w) := by
  unfold telemetrySample
  repeat' first
    | with_reducible assumption
    | with_reducible apply State.telemPost_memOk
    | with_reducible apply memOk_foldl
    | with_reducible apply memOk_foldl_fst
    | with_reducible apply memOk_foldl_snd
    | intro _
    | with_reducible apply memOk_ite
    | with_reducible apply memOk_ite_fst
    | with_reducible apply memOk_ite_snd
    | split
    | dsimp only
    | with_reducible apply memOk_mem
    | with_reducible apply memOk_mk

/-! ### Operands -/

theorem State.setPaddock_memOk (s : State) (p : Nat) (x : Paddock) (h0 : State.memOk s) :
    State.memOk (State.setPaddock s p x) := h0

theorem State.setTiller_memOk (s : State) (t : Nat) (x : Tiller) (h0 : State.memOk s) :
    State.memOk (State.setTiller s t x) := h0

/-! ### Tiers -/

theorem State.setPte_memOk (s : State) (job vpn : Nat) (e : Pte) (h0 : State.memOk s) :
    State.memOk (State.setPte s job vpn e) := h0

theorem State.mapPtes_memOk (s : State) (f : Nat → Pte → Pte) (h0 : State.memOk s) :
    State.memOk (State.mapPtes s f) := h0

theorem State.touch_memOk (s : State) (die job vpn : Nat) (write : Bool) (h0 : State.memOk s) :
    State.memOk (State.touch s die job vpn write) := by
  unfold State.touch
  repeat' first
    | with_reducible assumption
    | with_reducible apply State.bump_memOk
    | with_reducible apply State.bumpWide_memOk
    | with_reducible apply State.event_memOk
    | with_reducible apply State.setPte_memOk
    | intro _
    | with_reducible apply memOk_ite
    | split
    | dsimp only
    | with_reducible apply memOk_mem
    | with_reducible apply memOk_mk

theorem State.touchRange_memOk (s : State) (die job va n : Nat) (write : Bool) (h0 : State.memOk s) :
    State.memOk (State.touchRange s die job va n write) := by
  unfold State.touchRange
  repeat' first
    | with_reducible assumption
    | with_reducible apply State.touch_memOk
    | with_reducible apply memOk_foldl
    | with_reducible apply memOk_foldl_fst
    | with_reducible apply memOk_foldl_snd
    | intro _

theorem State.allocLp_memOk (s : State) (h0 : State.memOk s) :
    State.memOk (State.allocLp s).2 := by
  unfold State.allocLp
  repeat' first
    | with_reducible assumption
    | with_reducible apply State.pickFree_memOk
    | with_reducible apply Memory.wf_clear
    | intro _
    | dsimp only
    | with_reducible apply memOk_mem
    | with_reducible apply memOk_mk

theorem State.allocHbm_memOk (s : State) (t : Nat) (h0 : State.memOk s) :
    State.memOk (State.allocHbm s t).2 := by
  unfold State.allocHbm
  repeat' first
    | with_reducible assumption
    | with_reducible apply State.pickFree_memOk
    | with_reducible apply Memory.wf_clear
    | with_reducible apply memOk_foldl
    | with_reducible apply memOk_foldl_fst
    | with_reducible apply memOk_foldl_snd
    | with_reducible apply wf_foldl
    | intro _
    | split
    | dsimp only
    | with_reducible apply memOk_mem
    | with_reducible apply memOk_mk

theorem State.freeFrame_memOk (s : State) (e : Pte) (h0 : State.memOk s) :
    State.memOk (State.freeFrame s e) := by
  unfold State.freeFrame
  repeat' first
    | with_reducible assumption
    | intro _
    | split
    | dsimp only
    | with_reducible apply memOk_mem
    | with_reducible apply memOk_mk

theorem State.forWrite_memOk (s : State) (job vpn : Nat) (e : Pte) (h0 : State.memOk s) :
    State.memOk (State.forWrite s job vpn e).2 := by
  unfold State.forWrite
  repeat' first
    | with_reducible assumption
    | with_reducible apply State.store_memOk
    | with_reducible apply State.allocLp_memOk
    | with_reducible apply Memory.wf_clear
    | with_reducible apply Memory.wf_copy
    | intro _
    | with_reducible apply memOk_ite
    | with_reducible apply memOk_ite_fst
    | with_reducible apply memOk_ite_snd
    | split
    | dsimp only
    | with_reducible apply memOk_mem
    | with_reducible apply memOk_mk

theorem State.pageWrite_memOk (s : State) (die job vpn off : Nat) (bs : List Byte) (h0 : State.memOk s) :
    State.memOk (State.pageWrite s die job vpn off bs) := by
  unfold State.pageWrite
  repeat' first
    | with_reducible assumption
    | with_reducible apply State.store_memOk
    | with_reducible apply State.setPte_memOk
    | with_reducible apply State.touch_memOk
    | with_reducible apply State.forWrite_memOk
    | intro _
    | with_reducible apply memOk_ite
    | with_reducible apply memOk_ite_fst
    | with_reducible apply memOk_ite_snd
    | split
    | dsimp only

theorem State.vaWrite_memOk (s : State) (die job va : Nat) (bs : List Byte) (h0 : State.memOk s) :
    State.memOk (State.vaWrite s die job va bs) := by
  unfold State.vaWrite
  repeat' first
    | with_reducible assumption
    | with_reducible apply State.pageWrite_memOk
    | with_reducible apply memOk_foldl
    | with_reducible apply memOk_foldl_fst
    | with_reducible apply memOk_foldl_snd
    | intro _

/-! ### KvPages -/

theorem State.setKvPage_memOk (s : State) (job id : Nat) (p : KvPage) (h0 : State.memOk s) :
    State.memOk (State.setKvPage s job id p) := h0

theorem State.setShare_memOk (s : State) (job : Nat) (l : List Nat) (h0 : State.memOk s) :
    State.memOk (State.setShare s job l) := h0

theorem State.kvUnlist_memOk (s : State) (job id : Nat) (h0 : State.memOk s) :
    State.memOk (State.kvUnlist s job id) := by
  unfold State.kvUnlist
  repeat' first
    | with_reducible assumption
    | with_reducible apply State.setKvPage_memOk
    | with_reducible apply State.setShare_memOk

theorem State.kvSync_memOk (s : State) (job id : Nat) (h0 : State.memOk s) :
    State.memOk (State.kvSync s job id) := by
  unfold State.kvSync
  repeat' first
    | with_reducible assumption
    | with_reducible apply State.vaWrite_memOk

theorem State.kvDrop_memOk (s : State) (job id : Nat) (h0 : State.memOk s) :
    State.memOk (State.kvDrop s job id) := by
  unfold State.kvDrop
  repeat' first
    | with_reducible assumption
    | with_reducible apply State.setKvPage_memOk
    | with_reducible apply State.kvUnlist_memOk
    | with_reducible apply State.kvSync_memOk
    | intro _
    | with_reducible apply memOk_ite
    | split
    | dsimp only
    | with_reducible apply memOk_mem
    | with_reducible apply memOk_mk

theorem State.kvRelease_memOk (s : State) (n : Nat) (h0 : State.memOk s) :
    State.memOk (State.kvRelease s n) := by
  unfold State.kvRelease
  repeat' first
    | with_reducible assumption
    | with_reducible apply State.setSlot_memOk
    | with_reducible apply State.discard_memOk
    | with_reducible apply State.kvDrop_memOk
    | with_reducible apply memOk_foldl
    | intro _
    | with_reducible apply memOk_ite

theorem State.kvNote_memOk (s : State) (job off n : Nat) (bit : Option Nat) (h0 : State.memOk s) :
    State.memOk (State.kvNote s job off n bit) := by
  unfold State.kvNote
  repeat' first
    | with_reducible assumption
    | with_reducible apply State.bump_memOk
    | with_reducible apply State.event_memOk
    | intro _
    | split

theorem State.kvCount_memOk (s : State) (job kind n : Nat) (h0 : State.memOk s) :
    State.memOk (State.kvCount s job kind n) := by
  unfold State.kvCount
  repeat' first
    | with_reducible assumption
    | with_reducible apply State.bumpWide_memOk

theorem State.kvTake_memOk (s : State) (n : Nat) (h0 : State.memOk s) :
    State.memOk (State.kvTake s n).2 := by
  unfold State.kvTake
  repeat' first
    | with_reducible assumption
    | with_reducible apply State.pickFree_memOk
    | with_reducible apply State.setSlot_memOk
    | intro _
    | with_reducible apply memOk_ite

/-! ### Request -/

theorem State.journalPut_memOk (s : State) (slot typ : Nat) (body : List Byte) (durable programmed : Bool) (h0 : State.memOk s) :
    State.memOk (State.journalPut s slot typ body durable programmed) := by
  unfold State.journalPut
  repeat' first
    | with_reducible assumption
    | intro _
    | dsimp only
    | with_reducible apply memOk_mem
    | with_reducible apply memOk_mk

theorem State.journalAdd_memOk (s : State) (slot typ : Nat) (body : List Byte) (h0 : State.memOk s) :
    State.memOk (State.journalAdd s slot typ body) := by
  unfold State.journalAdd
  repeat' first
    | with_reducible assumption
    | with_reducible apply State.journalPut_memOk

theorem State.journalNow_memOk (s : State) (slot typ : Nat) (body : List Byte) (h0 : State.memOk s) :
    State.memOk (State.journalNow s slot typ body) := by
  unfold State.journalNow
  repeat' first
    | with_reducible assumption
    | with_reducible apply State.journalPut_memOk

theorem State.journalDurable_memOk (s : State) (slot typ : Nat) (h0 : State.memOk s) :
    State.memOk (State.journalDurable s slot typ) := by
  unfold State.journalDurable
  repeat' first
    | with_reducible assumption
    | intro _
    | with_reducible apply memOk_ite
    | split
    | dsimp only
    | with_reducible apply memOk_mem
    | with_reducible apply memOk_mk

theorem State.journalDrop_memOk (s : State) (slot typ : Nat) (h0 : State.memOk s) :
    State.memOk (State.journalDrop s slot typ) := h0

theorem State.dedupAccepted_memOk (s : State) (sub tag ns : Nat) (h0 : State.memOk s) :
    State.memOk (State.dedupAccepted s sub tag ns) := by
  unfold State.dedupAccepted
  repeat' first
    | with_reducible assumption
    | intro _
    | with_reducible apply memOk_ite
    | split
    | dsimp only
    | with_reducible apply memOk_mem
    | with_reducible apply memOk_mk

theorem State.noteTrunc_memOk (s : State) (cut : Bool) (h0 : State.memOk s) :
    State.memOk (State.noteTrunc s cut) := by
  unfold State.noteTrunc
  repeat' first
    | with_reducible assumption
    | with_reducible apply State.bump_memOk
    | intro _
    | with_reducible apply memOk_ite

theorem State.readyQuestion_memOk (s : State) (n : Nat) (h0 : State.memOk s) :
    State.memOk (State.readyQuestion s n) := by
  unfold State.readyQuestion
  repeat' first
    | with_reducible assumption
    | with_reducible apply State.setSlot_memOk
    | with_reducible apply State.noteTrunc_memOk
    | intro _
    | with_reducible apply memOk_ite
    | split

theorem State.qrnIssue_memOk (s : State) (n : Nat) (h0 : State.memOk s) :
    State.memOk (State.qrnIssue s n) := by
  unfold State.qrnIssue
  repeat' first
    | with_reducible assumption
    | with_reducible apply State.store_memOk
    | with_reducible apply State.setSlot_memOk
    | intro _
    | with_reducible apply memOk_ite
    | split
    | dsimp only
    | with_reducible apply memOk_mem
    | with_reducible apply memOk_mk

theorem State.settleSlot_memOk (s : State) (n : Nat) (h0 : State.memOk s) :
    State.memOk (State.settleSlot s n) := by
  unfold State.settleSlot
  repeat' first
    | with_reducible assumption
    | with_reducible apply State.setSlot_memOk
    | with_reducible apply State.dedupAccepted_memOk
    | with_reducible apply State.readyQuestion_memOk
    | with_reducible apply State.qrnIssue_memOk
    | intro _
    | with_reducible apply memOk_ite
    | split
    | dsimp only

theorem State.settle_memOk (s : State) (h0 : State.memOk s) :
    State.memOk (State.settle s) := by
  unfold State.settle
  repeat' first
    | with_reducible assumption
    | with_reducible apply State.settleSlot_memOk
    | with_reducible apply memOk_foldl

theorem State.postRefuse_memOk (s : State) (rid : Nat) (d : List Byte) (code aux0 : Nat) (h0 : State.memOk s) :
    State.memOk (State.postRefuse s rid d code aux0) := by
  unfold State.postRefuse
  repeat' first
    | with_reducible assumption
    | with_reducible apply State.postRing_memOk
    | with_reducible apply State.settle_memOk

theorem State.enrol_memOk (s : State) (d inp : List Byte) (comp n colour : Nat) (h0 : State.memOk s) :
    State.memOk (State.enrol s d inp comp n colour) := by
  unfold State.enrol
  repeat' first
    | with_reducible assumption
    | with_reducible apply State.setSlot_memOk
    | with_reducible apply State.reserve_memOk
    | with_reducible apply State.setMeter_memOk
    | with_reducible apply State.journalAdd_memOk

theorem State.noteRed_memOk (s : State) (sub v : Nat) (h0 : State.memOk s) :
    State.memOk (State.noteRed s sub v) := by
  unfold State.noteRed
  repeat' first
    | with_reducible assumption
    | with_reducible apply State.bump_memOk
    | with_reducible apply State.event_memOk
    | intro _
    | dsimp only
    | with_reducible apply memOk_mem
    | with_reducible apply memOk_mk

theorem State.consume_memOk (s : State) (rid : Nat) (r : Ring) (h0 : State.memOk s) :
    State.memOk (State.consume s rid r) := by
  unfold State.consume
  repeat' first
    | with_reducible assumption
    | with_reducible apply State.bumpWide_memOk
    | with_reducible apply State.setRing_memOk

theorem State.submitMeter_memOk (s : State) (r : Ring) (comp : Nat) (d inp : List Byte) (h0 : State.memOk s) :
    State.memOk (State.submitMeter s r comp d inp) := by
  unfold State.submitMeter
  repeat' first
    | with_reducible assumption
    | with_reducible apply State.bump_memOk
    | with_reducible apply State.event_memOk
    | with_reducible apply State.noteActive_memOk
    | with_reducible apply State.postRefuse_memOk
    | with_reducible apply State.enrol_memOk
    | with_reducible apply State.noteRed_memOk
    | intro _
    | with_reducible apply memOk_ite
    | with_reducible apply memOk_ite_fst
    | with_reducible apply memOk_ite_snd
    | split
    | dsimp only

theorem submit_memOk (s : State) (rid : Nat) (h0 : State.memOk s) :
    State.memOk (submit s rid) := by
  unfold submit
  repeat' first
    | with_reducible assumption
    | with_reducible apply State.event_memOk
    | with_reducible apply State.postRefuse_memOk
    | with_reducible apply State.consume_memOk
    | with_reducible apply State.submitMeter_memOk
    | intro _
    | with_reducible apply memOk_ite
    | split
    | dsimp only

theorem cancel_memOk (s : State) (rid : Nat) (h0 : State.memOk s) :
    State.memOk (cancel s rid) := by
  unfold cancel
  repeat' first
    | with_reducible assumption
    | with_reducible apply State.setSlot_memOk
    | with_reducible apply State.postRefuse_memOk
    | with_reducible apply State.consume_memOk
    | intro _
    | with_reducible apply memOk_ite
    | split

theorem State.restoreDebits_memOk (s : State) (x : Slot) (h0 : State.memOk s) :
    State.memOk (State.restoreDebits s x) := by
  unfold State.restoreDebits
  repeat' first
    | with_reducible assumption
    | with_reducible apply State.setMeter_memOk

theorem admitDurable_memOk (s : State) (n : Nat) (h0 : State.memOk s) :
    State.memOk (admitDurable s n) := by
  unfold admitDurable
  repeat' first
    | with_reducible assumption
    | with_reducible apply State.setSlot_memOk
    | with_reducible apply State.fillRing_memOk
    | with_reducible apply State.journalDurable_memOk
    | with_reducible apply State.journalDrop_memOk
    | with_reducible apply State.settle_memOk
    | with_reducible apply State.restoreDebits_memOk
    | intro _
    | with_reducible apply memOk_ite
    | split
    | dsimp only
    | with_reducible apply memOk_mem
    | with_reducible apply memOk_mk

theorem State.pushRec_memOk (s : State) (n : Nat) (rec : List Byte) (h0 : State.memOk s) :
    State.memOk (State.pushRec s n rec) := by
  unfold State.pushRec
  repeat' first
    | with_reducible assumption
    | with_reducible apply State.setSlot_memOk
    | with_reducible apply State.setQueue_memOk
    | with_reducible apply State.noteActive_memOk
    | intro _
    | with_reducible apply memOk_ite

theorem State.composeTok_memOk (s : State) (n seq tok : Nat) (last : Bool) (h0 : State.memOk s) :
    State.memOk (State.composeTok s n seq tok last) := by
  unfold State.composeTok
  repeat' first
    | with_reducible assumption
    | with_reducible apply State.setSlot_memOk
    | with_reducible apply State.pushRec_memOk
    | intro _
    | with_reducible apply memOk_ite

theorem State.commitOpen_memOk (s : State) (n : Nat) (h0 : State.memOk s) :
    State.memOk (State.commitOpen s n) := by
  unfold State.commitOpen
  repeat' first
    | with_reducible assumption
    | with_reducible apply State.setSlot_memOk
    | with_reducible apply State.composeTok_memOk
    | with_reducible apply memOk_foldl
    | with_reducible apply memOk_foldl_fst
    | with_reducible apply memOk_foldl_snd
    | intro _

theorem State.beginDrain_memOk (s : State) (n code : Nat) (h0 : State.memOk s) :
    State.memOk (State.beginDrain s n code) := by
  unfold State.beginDrain
  repeat' first
    | with_reducible assumption
    | with_reducible apply State.setSlot_memOk
    | with_reducible apply State.event_memOk
    | with_reducible apply State.reserve_memOk
    | with_reducible apply State.kvRelease_memOk
    | with_reducible apply State.journalAdd_memOk
    | intro _
    | with_reducible apply memOk_ite
    | with_reducible apply memOk_ite_fst
    | with_reducible apply memOk_ite_snd
    | split

theorem frontDurable_memOk (s : State) (n : Nat) (h0 : State.memOk s) :
    State.memOk (frontDurable s n) := by
  unfold frontDurable
  repeat' first
    | with_reducible assumption
    | with_reducible apply State.setSlot_memOk
    | with_reducible apply State.refundBoth_memOk
    | with_reducible apply State.journalDurable_memOk
    | with_reducible apply State.beginDrain_memOk
    | intro _
    | with_reducible apply memOk_ite

theorem State.ringWaits_memOk (s : State) (rid : Nat) (h0 : State.memOk s) :
    State.memOk (State.ringWaits s rid) := by
  unfold State.ringWaits
  repeat' first
    | with_reducible assumption
    | with_reducible apply State.bump_memOk
    | with_reducible apply State.event_memOk
    | with_reducible apply State.setRing_memOk
    | intro _
    | with_reducible apply memOk_ite
    | split

theorem citationMapPost_memOk (s : State) (n : Nat) (h0 : State.memOk s) :
    State.memOk (citationMapPost s n) := by
  unfold citationMapPost
  repeat' first
    | with_reducible assumption
    | with_reducible apply State.setSlot_memOk
    | with_reducible apply State.setRing_memOk
    | with_reducible apply State.drainRing_memOk
    | with_reducible apply State.ringWaits_memOk
    | with_reducible apply memOk_foldl
    | with_reducible apply memOk_foldl_fst
    | with_reducible apply memOk_foldl_snd
    | intro _
    | with_reducible apply memOk_ite
    | with_reducible apply memOk_ite_fst
    | with_reducible apply memOk_ite_snd
    | split

theorem doneDurable_memOk (s : State) (n : Nat) (h0 : State.memOk s) :
    State.memOk (doneDurable s n) := by
  unfold doneDurable
  repeat' first
    | with_reducible assumption
    | with_reducible apply State.setSlot_memOk
    | with_reducible apply State.fillRing_memOk
    | with_reducible apply State.refundBoth_memOk
    | with_reducible apply State.journalDurable_memOk
    | with_reducible apply State.settle_memOk
    | intro _
    | with_reducible apply memOk_ite
    | split
    | dsimp only
    | with_reducible apply memOk_mem
    | with_reducible apply memOk_mk

theorem journalProgrammed_memOk (s : State) (w serial : Nat) (h0 : State.memOk s) :
    State.memOk (journalProgrammed s w serial) := by
  unfold journalProgrammed
  repeat' first
    | with_reducible assumption
    | intro _
    | with_reducible apply memOk_ite
    | split
    | dsimp only
    | with_reducible apply memOk_mem
    | with_reducible apply memOk_mk

theorem dedupExpiry_memOk (s : State) (sub tag : Nat) (h0 : State.memOk s) :
    State.memOk (dedupExpiry s sub tag) := by
  unfold dedupExpiry
  repeat' first
    | with_reducible assumption
    | intro _
    | with_reducible apply memOk_ite
    | split
    | dsimp only
    | with_reducible apply memOk_mem
    | with_reducible apply memOk_mk

theorem journalRetentionExpiry_memOk (s : State) (n : Nat) (h0 : State.memOk s) :
    State.memOk (journalRetentionExpiry s n) := by
  unfold journalRetentionExpiry
  repeat' first
    | with_reducible assumption
    | intro _
    | with_reducible apply memOk_ite
    | split
    | dsimp only
    | with_reducible apply memOk_mem
    | with_reducible apply memOk_mk

theorem State.releaseLast_memOk (s : State) (n seq tok parts : Nat) (h0 : State.memOk s) :
    State.memOk (State.releaseLast s n seq tok parts) := by
  unfold State.releaseLast
  repeat' first
    | with_reducible assumption
    | with_reducible apply State.setSlot_memOk
    | with_reducible apply State.setQueue_memOk
    | with_reducible apply State.pushRec_memOk

theorem State.closeOutput_memOk (s : State) (n : Nat) (h0 : State.memOk s) :
    State.memOk (State.closeOutput s n) := by
  unfold State.closeOutput
  repeat' first
    | with_reducible assumption
    | with_reducible apply State.setQueue_memOk
    | with_reducible apply State.releaseLast_memOk
    | intro _
    | with_reducible apply memOk_ite
    | split

theorem State.endRequest_memOk (s : State) (n code : Nat) (h0 : State.memOk s) :
    State.memOk (State.endRequest s n code) := by
  unfold State.endRequest
  repeat' first
    | with_reducible assumption
    | with_reducible apply State.commitOpen_memOk
    | with_reducible apply State.beginDrain_memOk
    | with_reducible apply State.closeOutput_memOk
    | intro _
    | split
    | dsimp only

theorem deadlineExpiry_memOk (s : State) (n : Nat) (h0 : State.memOk s) :
    State.memOk (deadlineExpiry s n) := by
  unfold deadlineExpiry
  repeat' first
    | with_reducible assumption
    | with_reducible apply State.endRequest_memOk
    | intro _
    | with_reducible apply memOk_ite

end Sys2Proof.Machine
end

