-- ==== Sys2Proof/Laws/KeepsStore.lean ====
section
/-! SUPPORT. Every operation of these files keeps the memory in its canonical form: the Cistern, the register gate, plans and KV pages. -/

namespace Sys2Proof.Machine

/-! ### Cistern -/

theorem State.addMove_memOk (s : State) (m : Move) (h0 : State.memOk s) :
    State.memOk (State.addMove s m) := by
  unfold State.addMove
  repeat' first
    | with_reducible assumption
    | with_reducible apply State.setPte_memOk
    | intro _
    | split
    | dsimp only
    | with_reducible apply memOk_mem
    | with_reducible apply memOk_mk

theorem State.cisRefused_memOk (s : State) (job : Nat) (h0 : State.memOk s) :
    State.memOk (State.cisRefused s job) := by
  unfold State.cisRefused
  repeat' first
    | with_reducible assumption
    | with_reducible apply State.bump_memOk
    | with_reducible apply State.event_memOk

theorem State.roomLp_memOk (s : State) (job heat : Nat) (h0 : State.memOk s) :
    ∀ out, (State.roomLp s job heat) = some out → State.memOk out := by
  unfold State.roomLp
  intro out ht
  repeat' first
    | with_reducible assumption
    | contradiction
    | (simp only [Option.some.injEq, Prod.mk.injEq] at ht)
    | (obtain ⟨rfl, rfl, rfl⟩ := ht)
    | (obtain ⟨rfl, rfl⟩ := ht)
    | subst ht
    | split at ht
    | dsimp only at ht
    | with_reducible apply State.addMove_memOk

theorem State.roomDown_memOk (s : State) (job heat : Nat) (h0 : State.memOk s) :
    ∀ out, (State.roomDown s job heat) = some out → State.memOk out := by
  unfold State.roomDown
  intro out ht
  repeat' first
    | with_reducible assumption
    | contradiction
    | (simp only [Option.some.injEq, Prod.mk.injEq] at ht)
    | (obtain ⟨rfl, rfl, rfl⟩ := ht)
    | (obtain ⟨rfl, rfl⟩ := ht)
    | subst ht
    | split at ht
    | dsimp only at ht
    | exact absurd ht (by simp)
    | (with_reducible refine State.roomLp_memOk _ _ _ ?_ _ (by assumption))

theorem State.roomHbm_memOk (s : State) (job tiller heat : Nat) (hold : Bool) (h0 : State.memOk s) :
    ∀ out, (State.roomHbm s job tiller heat hold) = some out → State.memOk out := by
  intro t ht
  unfold State.roomHbm at ht
  split at ht
  · obtain rfl := Option.some.inj ht; exact h0
  · dsimp only at ht
    split at ht
    · contradiction
    · obtain ⟨u, hu, rfl⟩ := Option.map_eq_some_iff.mp ht
      exact State.addMove_memOk _ _ (State.roomDown_memOk _ _ _ h0 _ hu)

theorem State.promote_memOk (s : State) (job vpn : Nat) (h0 : State.memOk s) :
    State.memOk (State.promote s job vpn) := by
  unfold State.promote
  repeat' first
    | with_reducible assumption
    | with_reducible apply State.addMove_memOk
    | with_reducible apply State.cisRefused_memOk
    | (with_reducible refine State.roomLp_memOk _ _ _ ?_ _ (by assumption))
    | (with_reducible refine State.roomHbm_memOk _ _ _ _ _ ?_ _ (by assumption))
    | intro _
    | with_reducible apply memOk_ite
    | split

theorem State.addHeat_memOk (s : State) (h0 : State.memOk s) :
    State.memOk (State.addHeat s) := by
  unfold State.addHeat
  repeat' first
    | with_reducible assumption
    | with_reducible apply State.mapPtes_memOk

theorem State.clearAcc_memOk (s : State) (h0 : State.memOk s) :
    State.memOk (State.clearAcc s) := by
  unfold State.clearAcc
  repeat' first
    | with_reducible assumption
    | with_reducible apply State.mapPtes_memOk

theorem State.applyThr_memOk (s : State) (h0 : State.memOk s) :
    State.memOk (State.applyThr s) := h0

theorem State.fitQuota_memOk (y0 : Nat) (y1 : State) (y2 : Nat) (h0 : State.memOk y1) :
    State.memOk (State.fitQuota y0 y1 y2) := by
  induction y0 generalizing y1 y2 h0 with
  | zero =>
    rw [State.fitQuota]
    repeat' first
      | with_reducible assumption
  | succ n ih =>
    rw [State.fitQuota]
    repeat' first
      | with_reducible assumption
      | with_reducible apply State.addMove_memOk
      | with_reducible apply ih
      | intro _
      | with_reducible apply memOk_ite
      | with_reducible apply memOk_ite_fst
      | with_reducible apply memOk_ite_snd
      | split
      | dsimp only

theorem State.quotaPad_memOk (s : State) (pad : Nat) (h0 : State.memOk s) :
    State.memOk (State.quotaPad s pad) := by
  unfold State.quotaPad
  repeat' first
    | with_reducible assumption
    | with_reducible apply State.event_memOk
    | with_reducible apply State.fitQuota_memOk
    | intro _
    | with_reducible apply memOk_ite
    | split
    | dsimp only
    | with_reducible apply memOk_mem
    | with_reducible apply memOk_mk

theorem State.quotas_memOk (s : State) (h0 : State.memOk s) :
    State.memOk (State.quotas s) := by
  unfold State.quotas
  repeat' first
    | with_reducible assumption
    | with_reducible apply State.quotaPad_memOk
    | with_reducible apply memOk_foldl
    | with_reducible apply memOk_foldl_fst
    | with_reducible apply memOk_foldl_snd
    | intro _

theorem State.scanPage_memOk (s : State) (job vpn : Nat) (h0 : State.memOk s) :
    State.memOk (State.scanPage s job vpn) := by
  unfold State.scanPage
  repeat' first
    | with_reducible assumption
    | with_reducible apply State.addMove_memOk
    | intro _
    | with_reducible apply memOk_ite
    | split

theorem State.halveHeat_memOk (s : State) (h0 : State.memOk s) :
    State.memOk (State.halveHeat s) := by
  unfold State.halveHeat
  repeat' first
    | with_reducible assumption
    | with_reducible apply State.mapPtes_memOk
    | with_reducible apply State.scanPage_memOk
    | with_reducible apply memOk_foldl
    | with_reducible apply memOk_foldl_fst
    | with_reducible apply memOk_foldl_snd
    | intro _
    | split
    | dsimp only
    | with_reducible apply memOk_mem
    | with_reducible apply memOk_mk

theorem heatHalving_memOk (s : State) (h0 : State.memOk s) :
    State.memOk (heatHalving s) := by
  unfold heatHalving
  repeat' first
    | with_reducible assumption
    | with_reducible apply State.halveHeat_memOk
    | intro _
    | with_reducible apply memOk_ite

theorem State.cisternBoundary_memOk (s : State) (h0 : State.memOk s) :
    State.memOk (State.cisternBoundary s) := by
  unfold State.cisternBoundary
  repeat' first
    | with_reducible assumption
    | with_reducible apply State.promote_memOk
    | with_reducible apply State.addHeat_memOk
    | with_reducible apply State.clearAcc_memOk
    | with_reducible apply State.applyThr_memOk
    | with_reducible apply State.quotas_memOk
    | with_reducible apply heatHalving_memOk
    | with_reducible apply memOk_foldl
    | with_reducible apply memOk_foldl_fst
    | with_reducible apply memOk_foldl_snd
    | intro _
    | split
    | dsimp only
    | with_reducible apply memOk_mem
    | with_reducible apply memOk_mk

theorem State.writeBack_memOk (s : State) (job vpn : Nat) (e : Pte) (h0 : State.memOk s) :
    State.memOk (State.writeBack s job vpn e).1 := by
  unfold State.writeBack
  repeat' first
    | with_reducible assumption
    | with_reducible apply State.writeLogical_memOk
    | with_reducible apply Memory.wf_copy
    | with_reducible apply memOk_foldl
    | with_reducible apply memOk_foldl_fst
    | with_reducible apply memOk_foldl_snd
    | with_reducible apply wf_foldl
    | intro _
    | with_reducible apply memOk_ite
    | with_reducible apply memOk_ite_fst
    | with_reducible apply memOk_ite_snd
    | split
    | dsimp only
    | with_reducible apply memOk_mem
    | with_reducible apply memOk_mk

theorem State.runMove_memOk (s : State) (m : Move) (h0 : State.memOk s) :
    State.memOk (State.runMove s m) := by
  unfold State.runMove
  repeat' first
    | with_reducible assumption
    | with_reducible apply State.store_memOk
    | with_reducible apply State.bump_memOk
    | with_reducible apply State.bumpWide_memOk
    | with_reducible apply State.readLogical_memOk
    | with_reducible apply State.setPte_memOk
    | with_reducible apply State.allocLp_memOk
    | with_reducible apply State.allocHbm_memOk
    | with_reducible apply State.freeFrame_memOk
    | with_reducible apply State.writeBack_memOk
    | with_reducible apply Memory.wf_copy
    | with_reducible apply memOk_foldl
    | with_reducible apply memOk_foldl_fst
    | with_reducible apply memOk_foldl_snd
    | with_reducible apply wf_foldl
    | intro _
    | with_reducible apply memOk_ite
    | with_reducible apply memOk_ite_fst
    | with_reducible apply memOk_ite_snd
    | split
    | dsimp only
    | with_reducible apply memOk_mem
    | with_reducible apply memOk_mk

theorem moveComplete_memOk (s : State) (job vpn : Nat) (h0 : State.memOk s) :
    State.memOk (moveComplete s job vpn) := by
  unfold moveComplete
  repeat' first
    | with_reducible assumption
    | with_reducible apply State.runMove_memOk
    | intro _
    | with_reducible apply memOk_ite
    | split
    | dsimp only
    | with_reducible apply memOk_mem
    | with_reducible apply memOk_mk

theorem State.tierLoss_memOk (s : State) (t : Nat) (h0 : State.memOk s) :
    State.memOk (State.tierLoss s t) := by
  unfold State.tierLoss
  repeat' first
    | with_reducible assumption
    | with_reducible apply State.event_memOk
    | with_reducible apply Memory.wf_clear
    | with_reducible apply memOk_foldl
    | with_reducible apply memOk_foldl_fst
    | with_reducible apply memOk_foldl_snd
    | with_reducible apply wf_foldl
    | intro _
    | with_reducible apply memOk_ite
    | with_reducible apply memOk_ite_fst
    | with_reducible apply memOk_ite_snd
    | split
    | dsimp only
    | with_reducible apply memOk_mem
    | with_reducible apply memOk_mk

theorem flashPageRead_memOk (s : State) (job va len : Nat) (bad : List Nat) (h0 : State.memOk s) :
    State.memOk (flashPageRead s job va len bad) := by
  unfold flashPageRead
  repeat' first
    | with_reducible assumption
    | with_reducible apply State.bump_memOk
    | with_reducible apply State.answer_memOk
    | with_reducible apply State.drawBytes_memOk
    | with_reducible apply State.readLogical_memOk
    | with_reducible apply State.setPte_memOk
    | with_reducible apply State.touch_memOk
    | with_reducible apply memOk_foldl
    | with_reducible apply memOk_foldl_fst
    | with_reducible apply memOk_foldl_snd
    | intro _
    | with_reducible apply memOk_ite
    | with_reducible apply memOk_ite_fst
    | with_reducible apply memOk_ite_snd
    | split
    | dsimp only

/-! ### Gate -/

theorem State.denyWrite_memOk (s : State) (p die page code : Nat) (h0 : State.memOk s) :
    State.memOk (State.denyWrite s p die page code) := by
  unfold State.denyWrite
  repeat' first
    | with_reducible assumption
    | with_reducible apply State.bump_memOk
    | with_reducible apply State.event_memOk
    | with_reducible apply State.err_memOk

theorem State.gate_memOk (s : State) (req : Requester) (die page cls : Nat) (h0 : State.memOk s) :
    State.memOk (State.gate s req die page cls).1 := by
  unfold State.gate
  repeat' first
    | with_reducible assumption
    | with_reducible apply State.denyWrite_memOk
    | intro _
    | with_reducible apply memOk_ite
    | with_reducible apply memOk_ite_fst
    | with_reducible apply memOk_ite_snd
    | split

theorem State.gated_memOk (s : State) (req : Requester) (die page cls : Nat) (f : State → State) (h0 : State.memOk s) (hf0 : ∀ (t : State), State.memOk t → State.memOk (f t)) :
    State.memOk (State.gated s req die page cls f) := by
  unfold State.gated
  repeat' first
    | with_reducible assumption
    | with_reducible apply State.gate_memOk
    | with_reducible apply hf0
    | intro _
    | with_reducible apply memOk_ite

theorem State.setResult_memOk (s : State) (die page off st code id : Nat) (h0 : State.memOk s) :
    State.memOk (State.setResult s die page off st code id) := by
  unfold State.setResult
  repeat' first
    | with_reducible assumption
    | with_reducible apply State.setRegN_memOk

theorem State.cmdDone_memOk (s : State) (page code id : Nat) (h0 : State.memOk s) :
    State.memOk (State.cmdDone s page code id) := by
  unfold State.cmdDone
  repeat' first
    | with_reducible assumption
    | with_reducible apply State.event_memOk
    | with_reducible apply State.setResult_memOk

theorem State.modCommand_memOk (s : State) (req : Requester) (page : Nat) (f : State → State) (h0 : State.memOk s) (hf0 : ∀ (t : State), State.memOk t → State.memOk (f t)) :
    State.memOk (State.modCommand s req page f) := by
  unfold State.modCommand
  repeat' first
    | with_reducible assumption
    | with_reducible apply State.err_memOk
    | with_reducible apply State.gated_memOk
    | with_reducible apply hf0
    | intro _
    | with_reducible apply memOk_ite

/-! ### Plans -/

theorem State.fillStore_memOk (s : State) (job : Nat) (p : Plan) (h0 : State.memOk s) :
    State.memOk (State.fillStore s job p) := by
  unfold State.fillStore
  repeat' first
    | with_reducible assumption
    | with_reducible apply State.writeLogical_memOk
    | with_reducible apply Memory.wf_writeBytes
    | with_reducible apply Memory.wf_write
    | with_reducible apply Memory.wf_clear
    | with_reducible apply Memory.wf_copy
    | with_reducible apply memOk_foldl
    | with_reducible apply wf_foldl
    | intro _
    | with_reducible apply memOk_ite
    | split
    | dsimp only
    | with_reducible apply memOk_mem
    | with_reducible apply memOk_mk

theorem State.putPlan_memOk (s : State) (job : Nat) (p : Plan) (h0 : State.memOk s) :
    State.memOk (State.putPlan s job p) := h0

theorem planStage_memOk (s : State) (req : Requester) (job : Nat) (h0 : State.memOk s) :
    State.memOk (planStage s req job) := by
  unfold planStage
  repeat' first
    | with_reducible assumption
    | with_reducible apply State.cmdDone_memOk
    | with_reducible apply State.modCommand_memOk
    | with_reducible apply State.fillStore_memOk
    | with_reducible apply State.putPlan_memOk
    | intro _
    | with_reducible apply memOk_ite

theorem State.dropPlan_memOk (s : State) (job : Nat) (h0 : State.memOk s) :
    State.memOk (State.dropPlan s job) := by
  unfold State.dropPlan
  repeat' first
    | with_reducible assumption
    | with_reducible apply State.discard_memOk
    | with_reducible apply State.freeFrame_memOk
    | with_reducible apply memOk_foldl
    | with_reducible apply memOk_foldl_fst
    | with_reducible apply memOk_foldl_snd
    | intro _
    | split
    | dsimp only
    | with_reducible apply memOk_mem
    | with_reducible apply memOk_mk

theorem planUnstage_memOk (s : State) (req : Requester) (job : Nat) (h0 : State.memOk s) :
    State.memOk (planUnstage s req job) := by
  unfold planUnstage
  repeat' first
    | with_reducible assumption
    | with_reducible apply State.cmdDone_memOk
    | with_reducible apply State.modCommand_memOk
    | with_reducible apply State.dropPlan_memOk
    | intro _
    | with_reducible apply memOk_ite
    | split

theorem State.flushJob_memOk (s : State) (job : Nat) (h0 : State.memOk s) :
    State.memOk (State.flushJob s job) := by
  unfold State.flushJob
  repeat' first
    | with_reducible assumption
    | with_reducible apply State.bumpWide_memOk
    | with_reducible apply State.setPte_memOk
    | with_reducible apply State.writeBack_memOk
    | with_reducible apply memOk_foldl
    | with_reducible apply memOk_foldl_fst
    | with_reducible apply memOk_foldl_snd
    | intro _
    | with_reducible apply memOk_ite

theorem planFlush_memOk (s : State) (req : Requester) (job : Nat) (h0 : State.memOk s) :
    State.memOk (planFlush s req job) := by
  unfold planFlush
  repeat' first
    | with_reducible assumption
    | with_reducible apply State.cmdDone_memOk
    | with_reducible apply State.modCommand_memOk
    | with_reducible apply State.flushJob_memOk
    | intro _
    | with_reducible apply memOk_ite
    | split

theorem State.cisHost_memOk (s : State) (v : Nat) (h0 : State.memOk s) :
    State.memOk (State.cisHost s v) := by
  unfold State.cisHost
  repeat' first
    | with_reducible assumption
    | with_reducible apply State.err_memOk
    | intro _
    | with_reducible apply memOk_ite
    | split
    | dsimp only
    | with_reducible apply memOk_mem
    | with_reducible apply memOk_mk

theorem cisHostWrite_memOk (s : State) (req : Requester) (v : Nat) (h0 : State.memOk s) :
    State.memOk (cisHostWrite s req v) := by
  unfold cisHostWrite
  repeat' first
    | with_reducible assumption
    | with_reducible apply State.gated_memOk
    | with_reducible apply State.cisHost_memOk
    | intro _

/-! ### Attention -/

theorem State.kvPut_memOk (s : State) (job id layer group t : Nat) (r : KvRow) (h0 : State.memOk s) :
    State.memOk (State.kvPut s job id layer group t r) := by
  unfold State.kvPut
  repeat' first
    | with_reducible assumption
    | with_reducible apply State.vaWrite_memOk
    | intro _
    | with_reducible apply memOk_ite

theorem State.kvSummaries_memOk (s : State) (job id layer : Nat) (h0 : State.memOk s) :
    State.memOk (State.kvSummaries s job id layer) := by
  unfold State.kvSummaries
  repeat' first
    | with_reducible assumption
    | with_reducible apply State.vaWrite_memOk
    | with_reducible apply memOk_foldl
    | intro _
    | with_reducible apply memOk_ite

theorem State.kvRead_memOk (s : State) (job va n : Nat) (h0 : State.memOk s) :
    State.memOk (State.kvRead s job va n) := by
  unfold State.kvRead
  repeat' first
    | with_reducible assumption
    | with_reducible apply State.touch_memOk
    | with_reducible apply State.kvCount_memOk
    | with_reducible apply memOk_foldl
    | with_reducible apply memOk_foldl_fst
    | with_reducible apply memOk_foldl_snd
    | intro _
    | with_reducible apply memOk_ite

theorem State.kvReadPage_memOk (s : State) (job id layer rows : Nat) (h0 : State.memOk s) :
    State.memOk (State.kvReadPage s job id layer rows) := by
  unfold State.kvReadPage
  repeat' first
    | with_reducible assumption
    | with_reducible apply State.kvRead_memOk
    | with_reducible apply memOk_foldl
    | with_reducible apply memOk_foldl_fst
    | with_reducible apply memOk_foldl_snd
    | intro _

theorem State.kvReadSumm_memOk (s : State) (job id layer : Nat) (h0 : State.memOk s) :
    State.memOk (State.kvReadSumm s job id layer) := by
  unfold State.kvReadSumm
  repeat' first
    | with_reducible assumption
    | with_reducible apply State.kvRead_memOk

theorem State.kvUnit_memOk (s : State) (n pos layer width : Nat) (all : Bool) (q : List Word) (h0 : State.memOk s) :
    State.memOk (State.kvUnit s n pos layer width all q).1 := by
  unfold State.kvUnit
  repeat' first
    | with_reducible assumption
    | with_reducible apply State.kvCount_memOk
    | with_reducible apply State.kvReadPage_memOk
    | with_reducible apply State.kvReadSumm_memOk
    | with_reducible apply memOk_foldl
    | with_reducible apply memOk_foldl_fst
    | with_reducible apply memOk_foldl_snd
    | intro _
    | with_reducible apply memOk_ite
    | with_reducible apply memOk_ite_fst

theorem State.kvPosition_memOk (s : State) (n pos : Nat) (write : Bool) (h0 : State.memOk s) :
    State.memOk (State.kvPosition s n pos write).1 := by
  unfold State.kvPosition
  repeat' first
    | with_reducible assumption
    | with_reducible apply State.kvPut_memOk
    | with_reducible apply State.kvSummaries_memOk
    | with_reducible apply State.kvUnit_memOk
    | with_reducible apply memOk_foldl
    | with_reducible apply memOk_foldl_fst
    | with_reducible apply memOk_foldl_snd
    | intro _
    | with_reducible apply memOk_ite

/-! ### Kv -/

theorem State.kvList_memOk (s : State) (job id : Nat) (h0 : State.memOk s) :
    State.memOk (State.kvList s job id) := by
  unfold State.kvList
  repeat' first
    | with_reducible assumption
    | with_reducible apply State.setKvPage_memOk
    | with_reducible apply State.setShare_memOk
    | with_reducible apply State.kvSync_memOk
    | intro _
    | with_reducible apply memOk_ite

theorem State.kvCopy_memOk (s : State) (n i : Nat) (e : KvEnt) (h0 : State.memOk s) :
    State.memOk (State.kvCopy s n i e) := by
  unfold State.kvCopy
  repeat' first
    | with_reducible assumption
    | with_reducible apply State.setSlot_memOk
    | with_reducible apply State.vaWrite_memOk
    | with_reducible apply State.setKvPage_memOk
    | with_reducible apply State.kvSync_memOk
    | with_reducible apply State.kvDrop_memOk
    | with_reducible apply State.kvNote_memOk
    | with_reducible apply State.kvTake_memOk
    | intro _
    | with_reducible apply memOk_ite

theorem State.kvRow_memOk (s : State) (n : Nat) (list : Bool) (h0 : State.memOk s) :
    State.memOk (State.kvRow s n list).1 := by
  unfold State.kvRow
  repeat' first
    | with_reducible assumption
    | with_reducible apply State.setSlot_memOk
    | with_reducible apply State.setKvPage_memOk
    | with_reducible apply State.kvUnlist_memOk
    | with_reducible apply State.kvSync_memOk
    | with_reducible apply State.kvTake_memOk
    | with_reducible apply State.kvPosition_memOk
    | with_reducible apply State.kvList_memOk
    | with_reducible apply State.kvCopy_memOk
    | intro _
    | with_reducible apply memOk_ite
    | with_reducible apply memOk_ite_fst
    | with_reducible apply memOk_ite_snd
    | split
    | dsimp only

theorem State.kvRows_memOk (s : State) (n upto : Nat) (list : Bool) (h0 : State.memOk s) :
    State.memOk (State.kvRows s n upto list).1 := by
  unfold State.kvRows
  repeat' first
    | with_reducible assumption
    | with_reducible apply State.kvRow_memOk
    | with_reducible apply memOk_foldl
    | with_reducible apply memOk_foldl_fst
    | with_reducible apply memOk_foldl_snd
    | intro _

theorem State.kvCovered_memOk (s : State) (n lo hi : Nat) (h0 : State.memOk s) :
    State.memOk (State.kvCovered s n lo hi).1 := by
  unfold State.kvCovered
  repeat' first
    | with_reducible assumption
    | with_reducible apply State.kvPosition_memOk
    | with_reducible apply memOk_foldl
    | with_reducible apply memOk_foldl_fst
    | with_reducible apply memOk_foldl_snd
    | intro _

theorem State.kvPrefill_memOk (s : State) (n : Nat) (h0 : State.memOk s) :
    State.memOk (State.kvPrefill s n) := by
  unfold State.kvPrefill
  repeat' first
    | with_reducible assumption
    | with_reducible apply State.kvRows_memOk
    | with_reducible apply State.kvCovered_memOk
    | intro _
    | with_reducible apply memOk_ite

theorem State.kvLookup_memOk (y0 : Nat) (y1 : State) (y2 y3 : Nat) (h0 : State.memOk y1) :
    State.memOk (State.kvLookup y0 y1 y2 y3) := by
  induction y0 generalizing y1 y2 y3 h0 with
  | zero =>
    rw [State.kvLookup]
    repeat' first
      | with_reducible assumption
  | succ n ih =>
    rw [State.kvLookup]
    repeat' first
      | with_reducible assumption
      | with_reducible apply State.setSlot_memOk
      | with_reducible apply State.setKvPage_memOk
      | with_reducible apply State.kvSync_memOk
      | with_reducible apply State.kvNote_memOk
      | with_reducible apply ih
      | intro _
      | with_reducible apply memOk_ite
      | split
      | dsimp only

theorem shareLookup_memOk (s : State) (n : Nat) (h0 : State.memOk s) :
    State.memOk (shareLookup s n) := by
  unfold shareLookup
  repeat' first
    | with_reducible assumption
    | with_reducible apply State.kvLookup_memOk
    | intro _
    | with_reducible apply memOk_ite

theorem prefillComplete_memOk (s : State) (n : Nat) (h0 : State.memOk s) :
    State.memOk (prefillComplete s n) := by
  unfold prefillComplete
  repeat' first
    | with_reducible assumption
    | with_reducible apply State.setSlot_memOk
    | with_reducible apply State.kvList_memOk
    | with_reducible apply State.kvPrefill_memOk
    | intro _
    | with_reducible apply memOk_ite
    | split

theorem State.kvStep_memOk (s : State) (n : Nat) (h0 : State.memOk s) :
    State.memOk (State.kvStep s n) := by
  unfold State.kvStep
  repeat' first
    | with_reducible assumption
    | with_reducible apply State.setSlot_memOk
    | with_reducible apply State.kvNote_memOk
    | with_reducible apply State.kvRows_memOk
    | intro _
    | with_reducible apply memOk_ite

theorem State.noteLate_memOk (s : State) (pad ns opened : Nat) (h0 : State.memOk s) :
    State.memOk (State.noteLate s pad ns opened) := by
  unfold State.noteLate
  repeat' first
    | with_reducible assumption
    | with_reducible apply State.bump_memOk
    | intro _
    | with_reducible apply memOk_ite

theorem State.losePages_memOk (s : State) (job : Nat) (vpns : List Nat) (h0 : State.memOk s) :
    State.memOk (State.losePages s job vpns) := by
  unfold State.losePages
  repeat' first
    | with_reducible assumption
    | with_reducible apply State.setPte_memOk
    | with_reducible apply memOk_foldl
    | intro _
    | with_reducible apply memOk_ite
    | split

theorem decodeStepEnd_memOk (s : State) (job ns : Nat) (bad : List Nat) (h0 : State.memOk s) :
    State.memOk (decodeStepEnd s job ns bad) := by
  unfold decodeStepEnd
  repeat' first
    | with_reducible assumption
    | with_reducible apply State.setPaddock_memOk
    | with_reducible apply State.commitOpen_memOk
    | with_reducible apply State.beginDrain_memOk
    | with_reducible apply State.putPlan_memOk
    | with_reducible apply State.kvStep_memOk
    | with_reducible apply State.noteLate_memOk
    | with_reducible apply State.losePages_memOk
    | with_reducible apply memOk_foldl
    | intro _
    | with_reducible apply memOk_ite
    | split
    | dsimp only

theorem State.updateHolds_memOk (s : State) (job : Nat) (h0 : State.memOk s) :
    State.memOk (State.updateHolds s job) := by
  unfold State.updateHolds
  repeat' first
    | with_reducible assumption
    | with_reducible apply State.setPte_memOk
    | with_reducible apply State.mapPtes_memOk
    | with_reducible apply memOk_foldl
    | intro _
    | with_reducible apply memOk_ite
    | split

theorem State.spillPage_memOk (s : State) (n i : Nat) (e : KvEnt) (h0 : State.memOk s) :
    State.memOk (State.spillPage s n i e) := by
  unfold State.spillPage
  repeat' first
    | with_reducible assumption
    | with_reducible apply State.store_memOk
    | intro _
    | with_reducible apply memOk_ite

theorem State.parkSlot_memOk (s : State) (n : Nat) (h0 : State.memOk s) :
    State.memOk (State.parkSlot s n) := by
  unfold State.parkSlot
  repeat' first
    | with_reducible assumption
    | with_reducible apply State.setSlot_memOk
    | with_reducible apply State.writeLogical_memOk
    | with_reducible apply State.kvRelease_memOk
    | with_reducible apply State.spillPage_memOk
    | with_reducible apply memOk_foldl
    | with_reducible apply memOk_foldl_fst
    | with_reducible apply memOk_foldl_snd
    | intro _

theorem park_memOk (s : State) (n : Nat) (h0 : State.memOk s) :
    State.memOk (park s n) := by
  unfold park
  repeat' first
    | with_reducible assumption
    | with_reducible apply State.setSlot_memOk
    | intro _
    | with_reducible apply memOk_ite

theorem pageWaitPark_memOk (s : State) (job : Nat) (h0 : State.memOk s) :
    State.memOk (pageWaitPark s job) := by
  unfold pageWaitPark
  repeat' first
    | with_reducible assumption
    | with_reducible apply State.setSlot_memOk
    | intro _
    | with_reducible apply memOk_ite
    | split
    | dsimp only

theorem State.kvDiscard_memOk (s : State) (n : Nat) (h0 : State.memOk s) :
    State.memOk (State.kvDiscard s n) := by
  unfold State.kvDiscard
  repeat' first
    | with_reducible assumption
    | with_reducible apply State.kvRelease_memOk
    | intro _
    | with_reducible apply memOk_ite

theorem State.kvRestore_memOk (s : State) (n : Nat) (unreadable : List Nat) (h0 : State.memOk s) :
    State.memOk (State.kvRestore s n unreadable) := by
  unfold State.kvRestore
  repeat' first
    | with_reducible assumption
    | with_reducible apply State.setSlot_memOk
    | with_reducible apply State.discard_memOk
    | with_reducible apply State.vaWrite_memOk
    | with_reducible apply State.setKvPage_memOk
    | with_reducible apply State.kvSync_memOk
    | with_reducible apply State.kvTake_memOk
    | with_reducible apply memOk_foldl
    | with_reducible apply memOk_foldl_fst
    | with_reducible apply memOk_foldl_snd
    | intro _
    | with_reducible apply memOk_ite

end Sys2Proof.Machine
end

