-- ==== Sys2Proof/Laws/KeepsTiles.lean ====
section
/-! SUPPORT. Every operation of these files keeps the memory in its canonical form: links, arrays, epilogues and the fabric. -/

namespace Sys2Proof.Machine

/-! ### Links -/

theorem State.countHops_memOk (s : State) (hops : List (Nat × Nat)) (flits : Nat) (h0 : State.memOk s) :
    State.memOk (State.countHops s hops flits) := by
  unfold State.countHops
  repeat' first
    | with_reducible assumption
    | with_reducible apply State.bumpWide_memOk
    | with_reducible apply memOk_foldl
    | with_reducible apply memOk_foldl_fst
    | with_reducible apply memOk_foldl_snd
    | intro _
    | split
    | dsimp only
    | with_reducible apply memOk_mem
    | with_reducible apply memOk_mk

theorem State.countFlits_memOk (s : State) (p : Packet) (h0 : State.memOk s) :
    State.memOk (State.countFlits s p) := by
  unfold State.countFlits
  repeat' first
    | with_reducible assumption
    | with_reducible apply State.countHops_memOk

theorem State.rhzDrop_memOk (s : State) (die code : Nat) (h0 : State.memOk s) :
    State.memOk (State.rhzDrop s die code) := by
  unfold State.rhzDrop
  repeat' first
    | with_reducible assumption
    | with_reducible apply State.bump_memOk
    | with_reducible apply State.event_memOk

theorem State.inject_memOk (s : State) (p : Packet) (h0 : State.memOk s) :
    State.memOk (State.inject s p) := by
  unfold State.inject
  repeat' first
    | with_reducible assumption
    | with_reducible apply State.rhzDrop_memOk
    | intro _
    | with_reducible apply memOk_ite
    | split
    | dsimp only
    | with_reducible apply memOk_mem
    | with_reducible apply memOk_mk

theorem State.sendRuns_memOk (s : State) (h : Packet) (ctr : Nat) (runs : List (Nat × List Byte)) (h0 : State.memOk s) :
    State.memOk (State.sendRuns s h ctr runs) := by
  unfold State.sendRuns
  repeat' first
    | with_reducible assumption
    | with_reducible apply State.inject_memOk
    | with_reducible apply memOk_foldl

theorem State.sramWrite_memOk (s : State) (t a : Nat) (bs : List Byte) (h0 : State.memOk s) :
    State.memOk (State.sramWrite s t a bs) := by
  unfold State.sramWrite
  repeat' first
    | with_reducible assumption
    | with_reducible apply State.store_memOk
    | intro _
    | with_reducible apply memOk_ite

theorem State.commit_memOk (s : State) (p : Packet) (h0 : State.memOk s) :
    State.memOk (State.commit s p) := by
  unfold State.commit
  repeat' first
    | with_reducible assumption
    | with_reducible apply State.store_memOk
    | intro _
    | with_reducible apply memOk_ite
    | split

theorem State.takePacket_memOk (s : State) (p : Packet) (h0 : State.memOk s) :
    ∀ out, (State.takePacket s p) = some out → State.memOk out := by
  unfold State.takePacket
  intro out ht
  repeat' first
    | with_reducible assumption
    | contradiction
    | (simp only [Option.some.injEq, Prod.mk.injEq] at ht)
    | (obtain ⟨rfl, rfl, rfl⟩ := ht)
    | (obtain ⟨rfl, rfl⟩ := ht)
    | subst ht
    | split at ht
    | dsimp only at ht
    | dsimp only
    | with_reducible apply memOk_mem
    | with_reducible apply memOk_mk

theorem State.sendAdvance_memOk (s : State) (die ctr : Nat) (h0 : State.memOk s) :
    State.memOk (State.sendAdvance s die ctr) := by
  unfold State.sendAdvance
  repeat' first
    | with_reducible assumption
    | with_reducible apply State.inject_memOk

theorem State.commitFlow_memOk (s : State) (src dst vc : Nat) (h0 : State.memOk s) :
    State.memOk (State.commitFlow s src dst vc) := by
  unfold State.commitFlow
  repeat' first
    | with_reducible assumption
    | with_reducible apply State.countFlits_memOk
    | with_reducible apply State.commit_memOk
    | (with_reducible refine State.takePacket_memOk _ _ ?_ _ (by assumption))
    | with_reducible apply State.sendAdvance_memOk
    | with_reducible apply memOk_foldl
    | intro _
    | with_reducible apply memOk_ite
    | split

theorem State.leg_memOk (s : State) (ps : List Packet) (f : State → State) (h0 : State.memOk s) (hf0 : ∀ (t : State), State.memOk t → State.memOk (f t)) :
    State.memOk (State.leg s ps f) := by
  unfold State.leg
  repeat' first
    | with_reducible assumption
    | with_reducible apply State.countFlits_memOk
    | with_reducible apply State.rhzDrop_memOk
    | with_reducible apply State.inject_memOk
    | with_reducible apply hf0
    | with_reducible apply memOk_foldl
    | intro _
    | with_reducible apply memOk_ite

theorem State.setZport_memOk (s : State) (p : Nat) (x : ZioPort) (h0 : State.memOk s) :
    State.memOk (State.setZport s p x) := h0

theorem State.setZpair_memOk (s : State) (i : Nat) (x : ZioPair) (h0 : State.memOk s) :
    State.memOk (State.setZpair s i x) := h0

theorem State.zioLeave_memOk (s : State) (m : ZioMsg) (h0 : State.memOk s) :
    State.memOk (State.zioLeave s m) := by
  unfold State.zioLeave
  repeat' first
    | with_reducible assumption
    | with_reducible apply State.bumpWide_memOk
    | with_reducible apply State.setZport_memOk

theorem State.zioPumpGo_memOk (y0 y1 : List ZioOut) (y2 : List Nat) (y3 : State) (h0 : State.memOk y3) :
    State.memOk (State.zioPumpGo y0 y1 y2 y3) := by
  induction y0 generalizing y1 y2 y3 h0 with
  | nil =>
    rw [State.zioPumpGo]
    repeat' first
      | with_reducible assumption
      | with_reducible apply State.zioLeave_memOk
      | intro _
      | with_reducible apply memOk_ite
      | split
      | dsimp only
      | with_reducible apply memOk_mem
      | with_reducible apply memOk_mk
  | cons a l ih =>
    rw [State.zioPumpGo]
    repeat' first
      | with_reducible assumption
      | with_reducible apply State.zioLeave_memOk
      | with_reducible apply ih
      | intro _
      | with_reducible apply memOk_ite
      | split
      | dsimp only
      | with_reducible apply memOk_mem
      | with_reducible apply memOk_mk

theorem State.zioPump_memOk (s : State) (h0 : State.memOk s) :
    State.memOk (State.zioPump s) := by
  unfold State.zioPump
  repeat' first
    | with_reducible assumption
    | with_reducible apply State.zioPumpGo_memOk

theorem State.zioPost_memOk (s : State) (m : ZioMsg) (h0 : State.memOk s) :
    State.memOk (State.zioPost s m) := by
  unfold State.zioPost
  repeat' first
    | with_reducible assumption
    | with_reducible apply State.zioPump_memOk
    | intro _
    | with_reducible apply memOk_ite
    | split
    | dsimp only
    | with_reducible apply memOk_mem
    | with_reducible apply memOk_mk

theorem State.zioUnits_memOk (s : State) (a : Nat) (bs : List Byte) (h0 : State.memOk s) :
    State.memOk (State.zioUnits s a bs).2 := by
  unfold State.zioUnits
  repeat' first
    | with_reducible assumption
    | with_reducible apply State.drawBytes_memOk

theorem State.zioRuns_memOk (s : State) (port op vc ctr : Nat) (runs : List (Nat × List Byte)) (h0 : State.memOk s) :
    State.memOk (State.zioRuns s port op vc ctr runs) := by
  unfold State.zioRuns
  repeat' first
    | with_reducible assumption
    | with_reducible apply State.drawWord_memOk
    | with_reducible apply State.zioPost_memOk
    | with_reducible apply State.zioUnits_memOk
    | with_reducible apply memOk_foldl
    | with_reducible apply memOk_foldl_fst
    | with_reducible apply memOk_foldl_snd
    | intro _

theorem State.zioSend_memOk (s : State) (die port op kind vc ctr : Nat) (runs : List (Nat × List Byte)) (h0 : State.memOk s) :
    State.memOk (State.zioSend s die port op kind vc ctr runs) := by
  unfold State.zioSend
  repeat' first
    | with_reducible assumption
    | with_reducible apply State.leg_memOk
    | with_reducible apply State.zioRuns_memOk
    | intro _

/-! ### Arrays -/

theorem State.setArray_memOk (s : State) (t a : Nat) (x : MatArray) (h0 : State.memOk s) :
    State.memOk (State.setArray s t a x) := by
  unfold State.setArray
  repeat' first
    | with_reducible assumption
    | with_reducible apply State.setTiller_memOk

theorem State.setChain_memOk (s : State) (t g : Nat) (c : Chain) (h0 : State.memOk s) :
    State.memOk (State.setChain s t g c) := by
  unfold State.setChain
  repeat' first
    | with_reducible assumption
    | with_reducible apply State.setTiller_memOk

theorem State.modChain_memOk (s : State) (t g : Nat) (f : Chain → Chain) (h0 : State.memOk s) :
    State.memOk (State.modChain s t g f) := by
  unfold State.modChain
  repeat' first
    | with_reducible assumption
    | with_reducible apply State.setChain_memOk

theorem State.tilErr_memOk (s : State) (t code : Nat) (sq : List Nat) (h0 : State.memOk s) :
    State.memOk (State.tilErr s t code sq) := by
  unfold State.tilErr
  repeat' first
    | with_reducible assumption
    | with_reducible apply State.event_memOk

theorem State.noteAdopted_memOk (s : State) (t a : Nat) (h0 : State.memOk s) :
    State.memOk (State.noteAdopted s t a) := by
  unfold State.noteAdopted
  repeat' first
    | with_reducible assumption
    | with_reducible apply State.event_memOk
    | intro _
    | with_reducible apply memOk_ite

theorem State.giveList_memOk (s : State) (t job rank a addr : Nat) (h0 : State.memOk s) :
    State.memOk (State.giveList s t job rank a addr) := by
  unfold State.giveList
  repeat' first
    | with_reducible assumption
    | with_reducible apply State.setTiller_memOk
    | with_reducible apply State.noteAdopted_memOk

theorem State.applyWidth_memOk (s : State) (t a : Nat) (h0 : State.memOk s) :
    State.memOk (State.applyWidth s t a) := by
  unfold State.applyWidth
  repeat' first
    | with_reducible assumption
    | with_reducible apply State.event_memOk
    | with_reducible apply State.setArray_memOk
    | with_reducible apply State.noteAdopted_memOk
    | intro _
    | with_reducible apply memOk_ite
    | split
    | dsimp only

theorem State.tileAnchors_memOk (s : State) (t a : Nat) (d : List Byte) (lo n : Nat) (h0 : State.memOk s) :
    State.memOk (State.tileAnchors s t a d lo n).1 := by
  unfold State.tileAnchors
  repeat' first
    | with_reducible assumption
    | with_reducible apply State.sramWrite_memOk
    | with_reducible apply memOk_foldl
    | with_reducible apply memOk_foldl_fst
    | with_reducible apply memOk_foldl_snd
    | intro _
    | with_reducible apply memOk_ite
    | with_reducible apply memOk_ite_fst
    | with_reducible apply memOk_ite_snd
    | split

theorem State.tilePass_memOk (s : State) (t a : Nat) (d : List Byte) (lo n : Nat) (h0 : State.memOk s) :
    State.memOk (State.tilePass s t a d lo n).1 := by
  unfold State.tilePass
  repeat' first
    | with_reducible assumption
    | with_reducible apply State.setArray_memOk
    | with_reducible apply State.tileAnchors_memOk
    | with_reducible apply memOk_foldl
    | with_reducible apply memOk_foldl_fst
    | with_reducible apply memOk_foldl_snd
    | intro _
    | with_reducible apply memOk_ite
    | with_reducible apply memOk_ite_fst
    | with_reducible apply memOk_ite_snd
    | split
    | dsimp only
    | with_reducible apply memOk_mem
    | with_reducible apply memOk_mk

theorem State.intoShadow_memOk (s : State) (t a : Nat) (x : Tile) (h0 : State.memOk s) :
    State.memOk (State.intoShadow s t a x) := by
  unfold State.intoShadow
  repeat' first
    | with_reducible assumption
    | with_reducible apply State.setArray_memOk
    | with_reducible apply State.modChain_memOk
    | with_reducible apply State.applyWidth_memOk

theorem State.toShadow_memOk (s : State) (t a : Nat) (x : Tile) (h0 : State.memOk s) :
    State.memOk (State.toShadow s t a x) := by
  unfold State.toShadow
  repeat' first
    | with_reducible assumption
    | with_reducible apply State.bumpWide_memOk
    | with_reducible apply State.setArray_memOk
    | with_reducible apply State.intoShadow_memOk
    | intro _
    | with_reducible apply memOk_ite

theorem State.freeShadow_memOk (s : State) (t a : Nat) (h0 : State.memOk s) :
    State.memOk (State.freeShadow s t a) := by
  unfold State.freeShadow
  repeat' first
    | with_reducible assumption
    | with_reducible apply State.setArray_memOk
    | with_reducible apply State.intoShadow_memOk
    | intro _
    | with_reducible apply memOk_ite
    | split
    | dsimp only

theorem State.runTile_memOk (s : State) (t a : Nat) (x : Tile) (h0 : State.memOk s) :
    State.memOk (State.runTile s t a x) := by
  unfold State.runTile
  repeat' first
    | with_reducible assumption
    | with_reducible apply State.bump_memOk
    | with_reducible apply State.bumpWide_memOk
    | with_reducible apply State.event_memOk
    | with_reducible apply State.setArray_memOk
    | with_reducible apply State.tilePass_memOk
    | with_reducible apply State.toShadow_memOk
    | intro _
    | with_reducible apply memOk_ite

theorem State.epiRefuse_memOk (s : State) (t g entry code : Nat) (h0 : State.memOk s) :
    State.memOk (State.epiRefuse s t g entry code) := by
  unfold State.epiRefuse
  repeat' first
    | with_reducible assumption
    | with_reducible apply State.setRegN_memOk
    | with_reducible apply State.event_memOk

theorem State.tookDesc_memOk (s : State) (t a rank list idx addr : Nat) (h0 : State.memOk s) :
    State.memOk (State.tookDesc s t a rank list idx addr) := by
  unfold State.tookDesc
  repeat' first
    | with_reducible assumption
    | with_reducible apply State.setTiller_memOk

theorem State.tileRefuse_memOk (s : State) (t addr code : Nat) (h0 : State.memOk s) :
    State.memOk (State.tileRefuse s t addr code) := by
  unfold State.tileRefuse
  repeat' first
    | with_reducible assumption
    | with_reducible apply State.setRegN_memOk
    | with_reducible apply State.bump_memOk
    | with_reducible apply State.tilErr_memOk

theorem State.passWait_memOk (s : State) (code f : Nat) (h0 : State.memOk s) :
    State.memOk (State.passWait s code f) := by
  unfold State.passWait
  repeat' first
    | with_reducible assumption
    | with_reducible apply State.noteWait_memOk
    | intro _
    | with_reducible apply memOk_ite

theorem State.arrayWaits_memOk (s : State) (t a : Nat) (x : Tile) (h0 : State.memOk s) :
    State.memOk (State.arrayWaits s t a x) := by
  unfold State.arrayWaits
  repeat' first
    | with_reducible assumption
    | with_reducible apply State.park_memOk
    | with_reducible apply State.setArray_memOk

theorem tileProduct_memOk (s : State) (t a : Nat) (h0 : State.memOk s) :
    State.memOk (tileProduct s t a) := by
  unfold tileProduct
  repeat' first
    | with_reducible assumption
    | with_reducible apply State.runTile_memOk
    | with_reducible apply State.epiRefuse_memOk
    | with_reducible apply State.tookDesc_memOk
    | with_reducible apply State.tileRefuse_memOk
    | with_reducible apply State.passWait_memOk
    | with_reducible apply State.arrayWaits_memOk
    | intro _
    | with_reducible apply memOk_ite
    | split

theorem State.runPrepass_memOk (s : State) (t a : Nat) (x : Tile) (h0 : State.memOk s) :
    State.memOk (State.runPrepass s t a x) := by
  unfold State.runPrepass
  repeat' first
    | with_reducible assumption
    | with_reducible apply State.bumpWide_memOk
    | with_reducible apply State.advanceFld_memOk
    | with_reducible apply State.sramWrite_memOk
    | with_reducible apply State.setArray_memOk
    | with_reducible apply State.applyWidth_memOk
    | with_reducible apply memOk_foldl
    | with_reducible apply memOk_foldl_fst
    | with_reducible apply memOk_foldl_snd
    | intro _

theorem tilePrepass_memOk (s : State) (t a : Nat) (h0 : State.memOk s) :
    State.memOk (tilePrepass s t a) := by
  unfold tilePrepass
  repeat' first
    | with_reducible assumption
    | with_reducible apply State.noteWait_memOk
    | with_reducible apply State.runTile_memOk
    | with_reducible apply State.epiRefuse_memOk
    | with_reducible apply State.tookDesc_memOk
    | with_reducible apply State.tileRefuse_memOk
    | with_reducible apply State.arrayWaits_memOk
    | with_reducible apply State.runPrepass_memOk
    | intro _
    | with_reducible apply memOk_ite
    | split

theorem tileEnd_memOk (s : State) (t a : Nat) (h0 : State.memOk s) :
    State.memOk (tileEnd s t a) := by
  unfold tileEnd
  repeat' first
    | with_reducible assumption
    | with_reducible apply State.setTiller_memOk
    | with_reducible apply State.tileRefuse_memOk
    | intro _
    | with_reducible apply memOk_ite
    | split

theorem splitSecondPass_memOk (s : State) (t a : Nat) (h0 : State.memOk s) :
    State.memOk (splitSecondPass s t a) := by
  unfold splitSecondPass
  repeat' first
    | with_reducible assumption
    | with_reducible apply State.bumpWide_memOk
    | with_reducible apply State.setTiller_memOk
    | with_reducible apply State.tilePass_memOk
    | with_reducible apply State.toShadow_memOk
    | intro _
    | with_reducible apply memOk_ite
    | with_reducible apply memOk_ite_fst
    | with_reducible apply memOk_ite_snd
    | split

theorem State.arrayGo_memOk (s : State) (t a : Nat) (h0 : State.memOk s) :
    State.memOk (State.arrayGo s t a) := by
  unfold State.arrayGo
  repeat' first
    | with_reducible assumption
    | with_reducible apply State.runTile_memOk
    | with_reducible apply State.runPrepass_memOk
    | intro _
    | with_reducible apply memOk_ite
    | split
    | dsimp only

/-! ### Epilogue -/

theorem State.sendEntry_memOk (s : State) (t g kind vc zop base : Nat) (runs : List (Nat × List Byte)) (ent : List Byte) (h0 : State.memOk s) :
    State.memOk (State.sendEntry s t g kind vc zop base runs ent) := by
  unfold State.sendEntry
  repeat' first
    | with_reducible assumption
    | with_reducible apply State.bump_memOk
    | with_reducible apply State.event_memOk
    | with_reducible apply State.sendRuns_memOk
    | with_reducible apply State.zioSend_memOk
    | intro _
    | with_reducible apply memOk_ite

theorem State.sendAll_memOk (s : State) (t g : Nat) (e : List Byte) (kind vc zop base : Nat) (runs : List (Nat × List Byte)) (h0 : State.memOk s) :
    State.memOk (State.sendAll s t g e kind vc zop base runs) := by
  unfold State.sendAll
  repeat' first
    | with_reducible assumption
    | with_reducible apply State.sendEntry_memOk
    | with_reducible apply memOk_foldl
    | intro _

theorem State.finishTile_memOk (s : State) (t g : Nat) (x : Tile) (rows : List (List Nat)) (h0 : State.memOk s) :
    State.memOk (State.finishTile s t g x rows) := by
  unfold State.finishTile
  repeat' first
    | with_reducible assumption
    | with_reducible apply State.bump_memOk
    | with_reducible apply State.advanceFld_memOk
    | with_reducible apply State.sramWrite_memOk
    | with_reducible apply State.sendAll_memOk
    | with_reducible apply memOk_foldl
    | with_reducible apply memOk_foldl_fst
    | with_reducible apply memOk_foldl_snd
    | intro _
    | with_reducible apply memOk_ite

theorem State.holdTile_memOk (s : State) (t g : Nat) (x : Tile) (rows : List (List Nat)) (h0 : State.memOk s) :
    State.memOk (State.holdTile s t g x rows) := by
  unfold State.holdTile
  repeat' first
    | with_reducible assumption
    | with_reducible apply State.bump_memOk
    | with_reducible apply State.advanceFld_memOk
    | with_reducible apply State.sramWrite_memOk
    | with_reducible apply State.modChain_memOk
    | with_reducible apply memOk_foldl
    | with_reducible apply memOk_foldl_fst
    | with_reducible apply memOk_foldl_snd
    | intro _

theorem State.stagesTile_memOk (s : State) (t g : Nat) (x : Tile) (rows : List (List Nat)) (h0 : State.memOk s) :
    State.memOk (State.stagesTile s t g x rows) := by
  unfold State.stagesTile
  repeat' first
    | with_reducible assumption
    | with_reducible apply State.finishTile_memOk
    | with_reducible apply State.holdTile_memOk
    | intro _
    | with_reducible apply memOk_ite

theorem State.useTag_memOk (s : State) (t g : Nat) (x : Tile) (h0 : State.memOk s) :
    State.memOk (State.useTag s t g x) := by
  unfold State.useTag
  repeat' first
    | with_reducible assumption
    | with_reducible apply State.noteWait_memOk
    | with_reducible apply State.modChain_memOk
    | intro _
    | with_reducible apply memOk_ite

theorem State.runDrain_memOk (s : State) (t g : Nat) (x : Tile) (h0 : State.memOk s) :
    State.memOk (State.runDrain s t g x) := by
  unfold State.runDrain
  repeat' first
    | with_reducible assumption
    | with_reducible apply State.bump_memOk
    | with_reducible apply State.advanceFld_memOk
    | with_reducible apply State.setTiller_memOk
    | with_reducible apply State.modChain_memOk
    | with_reducible apply State.sendAll_memOk
    | with_reducible apply State.stagesTile_memOk
    | intro _
    | with_reducible apply memOk_ite
    | with_reducible apply memOk_ite_fst
    | with_reducible apply memOk_ite_snd
    | split

theorem tileDrain_memOk (s : State) (t a : Nat) (h0 : State.memOk s) :
    State.memOk (tileDrain s t a) := by
  unfold tileDrain
  repeat' first
    | with_reducible assumption
    | with_reducible apply State.modChain_memOk
    | with_reducible apply State.freeShadow_memOk
    | with_reducible apply State.useTag_memOk
    | intro _
    | with_reducible apply memOk_ite
    | split

theorem epilogueDrain_memOk (s : State) (t g : Nat) (h0 : State.memOk s) :
    State.memOk (epilogueDrain s t g) := by
  unfold epilogueDrain
  repeat' first
    | with_reducible assumption
    | with_reducible apply State.setChain_memOk
    | with_reducible apply State.runDrain_memOk
    | intro _
    | split
    | dsimp only

theorem deferredDrain_memOk (s : State) (t g : Nat) (h0 : State.memOk s) :
    State.memOk (deferredDrain s t g) := by
  unfold deferredDrain
  repeat' first
    | with_reducible assumption
    | with_reducible apply State.setChain_memOk
    | with_reducible apply State.freeShadow_memOk
    | with_reducible apply State.useTag_memOk
    | with_reducible apply State.runDrain_memOk
    | intro _
    | split
    | dsimp only

theorem State.contribAdvance_memOk (s : State) (t : Nat) (c : Contrib) (h0 : State.memOk s) :
    State.memOk (State.contribAdvance s t c) := by
  unfold State.contribAdvance
  repeat' first
    | with_reducible assumption
    | with_reducible apply State.advanceFld_memOk
    | with_reducible apply State.sendAdvance_memOk
    | intro _
    | with_reducible apply memOk_ite

theorem partialApply_memOk (s : State) (t : Nat) (h0 : State.memOk s) :
    State.memOk (partialApply s t) := by
  unfold partialApply
  repeat' first
    | with_reducible assumption
    | with_reducible apply State.bumpWide_memOk
    | with_reducible apply State.event_memOk
    | with_reducible apply State.setTiller_memOk
    | with_reducible apply State.sramWrite_memOk
    | with_reducible apply State.contribAdvance_memOk
    | with_reducible apply memOk_foldl
    | with_reducible apply memOk_foldl_fst
    | with_reducible apply memOk_foldl_snd
    | intro _
    | with_reducible apply memOk_ite
    | with_reducible apply memOk_ite_fst
    | with_reducible apply memOk_ite_snd
    | split
    | dsimp only

theorem State.emptyBuffer_memOk (s : State) (t a : Nat) (h0 : State.memOk s) :
    State.memOk (State.emptyBuffer s t a) := by
  unfold State.emptyBuffer
  repeat' first
    | with_reducible assumption
    | with_reducible apply State.sramWrite_memOk
    | with_reducible apply Memory.wf_clear
    | with_reducible apply memOk_foldl
    | with_reducible apply wf_foldl
    | intro _
    | split
    | dsimp only
    | with_reducible apply memOk_mem
    | with_reducible apply memOk_mk

theorem addFinish_memOk (s : State) (t g : Nat) (h0 : State.memOk s) :
    State.memOk (addFinish s t g) := by
  unfold addFinish
  repeat' first
    | with_reducible assumption
    | with_reducible apply State.noteWait_memOk
    | with_reducible apply State.setChain_memOk
    | with_reducible apply State.stagesTile_memOk
    | with_reducible apply State.useTag_memOk
    | with_reducible apply State.emptyBuffer_memOk
    | intro _
    | with_reducible apply memOk_ite
    | split
    | dsimp only

end Sys2Proof.Machine
end

