-- ==== Sys2Proof/Laws/KeepsPorts.lean ====
section
/-! SUPPORT. Every operation of these files keeps the memory in its canonical form: counters, rings and host ports. -/

namespace Sys2Proof.Machine

/-! ### Noria -/

theorem State.receive_memOk (s : State) (m : CmdMsg) (h0 : State.memOk s) :
    State.memOk (State.receive s m) := h0

theorem State.earlyDoorbell_memOk (s : State) (port : Nat) (h0 : State.memOk s) :
    State.memOk (State.earlyDoorbell s port) := by
  unfold State.earlyDoorbell
  repeat' first
    | with_reducible assumption
    | with_reducible apply State.setRegN_memOk

theorem State.badIndex_memOk (s : State) (w : Nat) (errs : List Nat) (h0 : State.memOk s) :
    State.memOk (State.badIndex s w errs) := by
  unfold State.badIndex
  repeat' first
    | with_reducible assumption
    | with_reducible apply State.bump_memOk
    | with_reducible apply State.event_memOk

theorem State.handCommands_memOk (s : State) (r : Ring) (n : Nat) (h0 : State.memOk s) :
    State.memOk (State.handCommands s r n) := by
  unfold State.handCommands
  repeat' first
    | with_reducible assumption
    | with_reducible apply State.receive_memOk
    | with_reducible apply memOk_foldl
    | intro _

theorem doorbellWrite_memOk (s : State) (port rid v : Nat) (aligned : Bool) (h0 : State.memOk s) :
    State.memOk (doorbellWrite s port rid v aligned) := by
  unfold doorbellWrite
  repeat' first
    | with_reducible assumption
    | with_reducible apply State.err_memOk
    | with_reducible apply State.setRing_memOk
    | with_reducible apply State.earlyDoorbell_memOk
    | with_reducible apply State.badIndex_memOk
    | with_reducible apply State.handCommands_memOk
    | intro _
    | with_reducible apply memOk_ite
    | split

theorem ringCreate_memOk (s : State) (req : Requester) (rid : Nat) (h0 : State.memOk s) :
    State.memOk (ringCreate s req rid) := by
  unfold ringCreate
  repeat' first
    | with_reducible assumption
    | with_reducible apply State.setRing_memOk
    | with_reducible apply State.cmdDone_memOk
    | with_reducible apply State.modCommand_memOk
    | intro _
    | with_reducible apply memOk_ite
    | with_reducible apply memOk_ite_fst
    | with_reducible apply memOk_ite_snd
    | split
    | dsimp only
    | with_reducible apply memOk_mem
    | with_reducible apply memOk_mk

theorem ringDestroy_memOk (s : State) (req : Requester) (rid : Nat) (h0 : State.memOk s) :
    State.memOk (ringDestroy s req rid) := by
  unfold ringDestroy
  repeat' first
    | with_reducible assumption
    | with_reducible apply State.cmdDone_memOk
    | with_reducible apply State.modCommand_memOk
    | intro _
    | with_reducible apply memOk_ite
    | split
    | dsimp only
    | with_reducible apply memOk_mem
    | with_reducible apply memOk_mk

theorem consumerIndexPost_memOk (s : State) (rid : Nat) (h0 : State.memOk s) :
    State.memOk (consumerIndexPost s rid) := by
  unfold consumerIndexPost
  repeat' first
    | with_reducible assumption
    | with_reducible apply State.bumpWide_memOk
    | with_reducible apply State.hostWrite_memOk
    | with_reducible apply State.setRing_memOk
    | intro _
    | with_reducible apply memOk_ite
    | split

theorem consumerIndexRead_memOk (s : State) (rid v : Nat) (h0 : State.memOk s) :
    State.memOk (consumerIndexRead s rid v) := by
  unfold consumerIndexRead
  repeat' first
    | with_reducible assumption
    | with_reducible apply State.store_memOk
    | with_reducible apply State.bump_memOk
    | with_reducible apply State.bumpWide_memOk
    | with_reducible apply State.setRing_memOk
    | with_reducible apply State.drainRing_memOk
    | with_reducible apply State.settle_memOk
    | with_reducible apply State.badIndex_memOk
    | intro _
    | with_reducible apply memOk_ite
    | split

theorem State.fenceAccepts_memOk (s : State) (a b : Nat) (h0 : State.memOk s) :
    State.memOk (State.fenceAccepts s a b) := by
  unfold State.fenceAccepts
  repeat' first
    | with_reducible assumption
    | intro _
    | with_reducible apply memOk_ite
    | with_reducible apply memOk_ite_fst
    | with_reducible apply memOk_ite_snd
    | split
    | dsimp only
    | with_reducible apply memOk_mem
    | with_reducible apply memOk_mk

theorem crossPortFence_memOk (s : State) (a b : Nat) (h0 : State.memOk s) :
    State.memOk (crossPortFence s a b) := by
  unfold crossPortFence
  repeat' first
    | with_reducible assumption
    | with_reducible apply State.bumpWide_memOk
    | with_reducible apply State.fenceAccepts_memOk
    | intro _
    | with_reducible apply memOk_ite
    | split
    | dsimp only
    | with_reducible apply memOk_mem
    | with_reducible apply memOk_mk

theorem State.hptDrop_memOk (s : State) (port : Nat) (h0 : State.memOk s) :
    State.memOk (State.hptDrop s port) := by
  unfold State.hptDrop
  repeat' first
    | with_reducible assumption
    | with_reducible apply State.bump_memOk

theorem counterWindowRead_memOk (s : State) (port off width : Nat) (h0 : State.memOk s) :
    State.memOk (counterWindowRead s port off width) := by
  unfold counterWindowRead
  repeat' first
    | with_reducible assumption
    | with_reducible apply State.answer_memOk
    | with_reducible apply State.err_memOk
    | with_reducible apply State.ctrOp_memOk
    | intro _
    | with_reducible apply memOk_ite

theorem counterWindowAdd_memOk (s : State) (port off width v : Nat) (h0 : State.memOk s) :
    State.memOk (counterWindowAdd s port off width v) := by
  unfold counterWindowAdd
  repeat' first
    | with_reducible assumption
    | with_reducible apply State.err_memOk
    | with_reducible apply State.advance_memOk
    | with_reducible apply State.hptDrop_memOk
    | intro _
    | with_reducible apply memOk_ite

theorem State.setSyc_memOk (s : State) (wh : Nat) (req : Requester) (x : SycOp) (h0 : State.memOk s) :
    State.memOk (State.setSyc s wh req x) := h0

theorem sycGo_memOk (s : State) (req : Requester) (wh op core : Nat) (h0 : State.memOk s) :
    State.memOk (sycGo s req wh op core) := by
  unfold sycGo
  repeat' first
    | with_reducible assumption
    | with_reducible apply State.err_memOk
    | with_reducible apply State.ctrOp_memOk
    | with_reducible apply State.gated_memOk
    | with_reducible apply State.setSyc_memOk
    | intro _
    | with_reducible apply memOk_ite

theorem State.waitUsed_memOk (s : State) (f : Nat) (p : Park) (h0 : State.memOk s) :
    State.memOk (State.waitUsed s f p) := by
  unfold State.waitUsed
  repeat' first
    | with_reducible assumption
    | with_reducible apply State.noteWait_memOk
    | intro _
    | with_reducible apply memOk_ite
    | split
    | dsimp only
    | with_reducible apply memOk_mem
    | with_reducible apply memOk_mk

theorem waitPark_memOk (s : State) (u : WaitUnit) (c thr : Nat) (h0 : State.memOk s) :
    State.memOk (waitPark s u c thr) := by
  unfold waitPark
  repeat' first
    | with_reducible assumption
    | with_reducible apply State.park_memOk
    | intro _
    | with_reducible apply memOk_ite

theorem State.waitGo_memOk (s : State) (p : Park) (h0 : State.memOk s) :
    State.memOk (State.waitGo s p) := by
  unfold State.waitGo
  repeat' first
    | with_reducible assumption
    | with_reducible apply State.ctrOp_memOk
    | with_reducible apply State.noteWait_memOk
    | with_reducible apply State.inject_memOk
    | with_reducible apply State.arrayGo_memOk
    | with_reducible apply deferredDrain_memOk
    | with_reducible apply addFinish_memOk
    | intro _
    | split
    | dsimp only
    | with_reducible apply memOk_mem
    | with_reducible apply memOk_mk

theorem waitSatisfied_memOk (s : State) (w : Nat) (h0 : State.memOk s) :
    State.memOk (waitSatisfied s w) := by
  unfold waitSatisfied
  repeat' first
    | with_reducible assumption
    | with_reducible apply State.waitGo_memOk
    | intro _
    | split
    | dsimp only
    | with_reducible apply memOk_mem
    | with_reducible apply memOk_mk

theorem waitReissue_memOk (s : State) (w : Nat) (h0 : State.memOk s) :
    State.memOk (waitReissue s w) := by
  unfold waitReissue
  repeat' first
    | with_reducible assumption
    | with_reducible apply State.park_memOk
    | with_reducible apply State.waitGo_memOk
    | intro _
    | with_reducible apply memOk_ite
    | split
    | dsimp only
    | with_reducible apply memOk_mem
    | with_reducible apply memOk_mk

/-! ### HostPorts -/

theorem perstRelease_memOk (s : State) (p : Nat) (h0 : State.memOk s) :
    State.memOk (perstRelease s p) := by
  unfold perstRelease
  repeat' first
    | with_reducible assumption
    | with_reducible apply State.setHp_memOk
    | intro _
    | with_reducible apply memOk_ite

theorem State.portTick_memOk (s : State) (p : Nat) (h0 : State.memOk s) :
    State.memOk (State.portTick s p) := by
  unfold State.portTick
  repeat' first
    | with_reducible assumption
    | with_reducible apply State.setHp_memOk
    | intro _
    | with_reducible apply memOk_ite
    | split
    | dsimp only
    | with_reducible apply memOk_mem
    | with_reducible apply memOk_mk

theorem State.issueHeld_memOk (s : State) (p : Nat) (h0 : State.memOk s) :
    State.memOk (State.issueHeld s p) := by
  unfold State.issueHeld
  repeat' first
    | with_reducible assumption
    | with_reducible apply State.store_memOk
    | with_reducible apply State.bumpWide_memOk
    | with_reducible apply State.setHp_memOk
    | with_reducible apply State.noteIssued_memOk
    | with_reducible apply State.settle_memOk
    | with_reducible apply memOk_foldl
    | with_reducible apply memOk_foldl_fst
    | with_reducible apply memOk_foldl_snd
    | intro _

theorem State.setPower_memOk (s : State) (p : Nat) (d3 : Bool) (h0 : State.memOk s) :
    State.memOk (State.setPower s p d3) := by
  unfold State.setPower
  repeat' first
    | with_reducible assumption
    | with_reducible apply State.setHp_memOk
    | with_reducible apply State.issueHeld_memOk
    | intro _
    | with_reducible apply memOk_ite

theorem State.configWrite_memOk (s : State) (p reg v : Nat) (h0 : State.memOk s) :
    State.memOk (State.configWrite s p reg v) := by
  unfold State.configWrite
  repeat' first
    | with_reducible assumption
    | with_reducible apply State.setPower_memOk
    | intro _
    | with_reducible apply memOk_ite

theorem State.configRead_memOk (s : State) (reg : Nat) (h0 : State.memOk s) :
    State.memOk (State.configRead s reg) := by
  unfold State.configRead
  repeat' first
    | with_reducible assumption
    | with_reducible apply State.answer_memOk
    | with_reducible apply State.drawWord_memOk
    | intro _
    | with_reducible apply memOk_ite
    | with_reducible apply memOk_ite_fst
    | with_reducible apply memOk_ite_snd
    | split

theorem configRequest_memOk (s : State) (p reg : Nat) (write rrsSv : Bool) (v : Nat) (h0 : State.memOk s) :
    State.memOk (configRequest s p reg write rrsSv v) := by
  unfold configRequest
  repeat' first
    | with_reducible assumption
    | with_reducible apply State.answer_memOk
    | with_reducible apply State.configWrite_memOk
    | with_reducible apply State.configRead_memOk
    | intro _
    | with_reducible apply memOk_ite

theorem State.windowMiss_memOk (s : State) (p code : Nat) (h0 : State.memOk s) :
    State.memOk (State.windowMiss s p code) := by
  unfold State.windowMiss
  repeat' first
    | with_reducible assumption
    | with_reducible apply State.event_memOk
    | with_reducible apply State.hptDrop_memOk

theorem bar2Access_memOk (s : State) (p off len : Nat) (write poisoned : Bool) (data : List Byte) (h0 : State.memOk s) :
    State.memOk (bar2Access s p off len write poisoned data) := by
  unfold bar2Access
  repeat' first
    | with_reducible assumption
    | with_reducible apply State.store_memOk
    | with_reducible apply State.bumpWide_memOk
    | with_reducible apply State.answer_memOk
    | with_reducible apply doorbellWrite_memOk
    | with_reducible apply State.hptDrop_memOk
    | with_reducible apply counterWindowRead_memOk
    | with_reducible apply counterWindowAdd_memOk
    | with_reducible apply State.windowMiss_memOk
    | intro _
    | with_reducible apply memOk_ite

theorem hptWinWrite_memOk (s : State) (req : Requester) (p v : Nat) (h0 : State.memOk s) :
    State.memOk (hptWinWrite s req p v) := by
  unfold hptWinWrite
  repeat' first
    | with_reducible assumption
    | with_reducible apply State.setHp_memOk
    | with_reducible apply State.gated_memOk
    | intro _

theorem portReset_memOk (s : State) (p : Nat) (h0 : State.memOk s) :
    State.memOk (portReset s p) := by
  unfold portReset
  repeat' first
    | with_reducible assumption
    | with_reducible apply State.setHp_memOk
    | with_reducible apply State.event_memOk
    | intro _
    | with_reducible apply memOk_ite

theorem hostReadFail_memOk (s : State) (p addr len : Nat) (h0 : State.memOk s) :
    State.memOk (hostReadFail s p addr len) := by
  unfold hostReadFail
  repeat' first
    | with_reducible assumption
    | with_reducible apply State.bumpWide_memOk
    | with_reducible apply State.setHp_memOk
    | with_reducible apply State.event_memOk

theorem hostReadReissue_memOk (s : State) (p : Nat) (ok : Bool) (h0 : State.memOk s) :
    State.memOk (hostReadReissue s p ok) := by
  unfold hostReadReissue
  repeat' first
    | with_reducible assumption
    | with_reducible apply State.bumpWide_memOk
    | with_reducible apply State.setHp_memOk
    | with_reducible apply State.event_memOk
    | intro _
    | with_reducible apply memOk_ite
    | split
    | dsimp only

theorem hostPortReturn_memOk (s : State) (p lanes speed : Nat) (h0 : State.memOk s) :
    State.memOk (hostPortReturn s p lanes speed) := by
  unfold hostPortReturn
  repeat' first
    | with_reducible assumption
    | with_reducible apply State.bumpWide_memOk
    | with_reducible apply State.setHp_memOk
    | with_reducible apply State.issueHeld_memOk

end Sys2Proof.Machine
end

