-- ==== Sys2Proof/Laws/KeepsFront.lean ====
section
/-! SUPPORT. Every operation of these files keeps the memory in its canonical form: sampling, the Quern, the Sheaf, search, the front and replay. -/

namespace Sys2Proof.Machine

/-! ### Sampling -/

theorem State.setWin_memOk (s : State) (t : Nat) (x : WinSt) (h0 : State.memOk s) :
    State.memOk (State.setWin s t x) := h0

theorem State.winTook_memOk (s : State) (t a : Nat) (d : List Byte) (h0 : State.memOk s) :
    State.memOk (State.winTook s t a d) := State.waitUsed_memOk _ _ _ (State.setWin_memOk _ _ _ h0)

theorem State.winListWrite_memOk (s : State) (t v : Nat) (h0 : State.memOk s) :
    State.memOk (State.winListWrite s t v) := by
  unfold State.winListWrite
  repeat' first
    | with_reducible assumption
    | with_reducible apply State.setRegN_memOk
    | with_reducible apply State.setWin_memOk
    | intro _
    | with_reducible apply memOk_ite

theorem State.winRefuse_memOk (s : State) (t a code : Nat) (h0 : State.memOk s) :
    State.memOk (State.winRefuse s t a code) := by
  unfold State.winRefuse
  repeat' first
    | with_reducible assumption
    | with_reducible apply State.setRegN_memOk
    | with_reducible apply State.bump_memOk
    | with_reducible apply State.event_memOk

theorem State.winDone_memOk (s : State) (t : Nat) (d : List Byte) (h0 : State.memOk s) :
    State.memOk (State.winDone s t d) := by
  unfold State.winDone
  repeat' first
    | with_reducible assumption
    | with_reducible apply State.bump_memOk
    | with_reducible apply State.advanceFld_memOk

theorem State.winScan_memOk (s : State) (t n nans : Nat) (h0 : State.memOk s) :
    State.memOk (State.winScan s t n nans) := by
  unfold State.winScan
  repeat' first
    | with_reducible assumption
    | with_reducible apply State.bumpWide_memOk
    | with_reducible apply State.event_memOk
    | intro _
    | with_reducible apply memOk_ite

theorem State.selectSums_memOk (s : State) (d : List Byte) (row : List (Nat × Nat × Bool)) (h0 : State.memOk s) :
    State.memOk (State.selectSums s d row).2 := by
  unfold State.selectSums
  repeat' first
    | with_reducible assumption
    | with_reducible apply State.drawWord_memOk
    | intro _
    | with_reducible apply memOk_ite
    | with_reducible apply memOk_ite_fst
    | with_reducible apply memOk_ite_snd

theorem State.runSelect_memOk (s : State) (t : Nat) (d : List Byte) (h0 : State.memOk s) :
    State.memOk (State.runSelect s t d) := by
  unfold State.runSelect
  repeat' first
    | with_reducible assumption
    | with_reducible apply State.bumpWide_memOk
    | with_reducible apply State.sramWrite_memOk
    | with_reducible apply State.winDone_memOk
    | with_reducible apply State.winScan_memOk
    | with_reducible apply State.selectSums_memOk

theorem State.refusedSelect_memOk (s : State) (t : Nat) (d : List Byte) (h0 : State.memOk s) :
    State.memOk (State.refusedSelect s t d) := by
  unfold State.refusedSelect
  repeat' first
    | with_reducible assumption
    | with_reducible apply State.drawWord_memOk
    | with_reducible apply State.sramWrite_memOk
    | with_reducible apply State.winDone_memOk

theorem winSelect_memOk (s : State) (t : Nat) (h0 : State.memOk s) :
    State.memOk (winSelect s t) := by
  unfold winSelect
  repeat' first
    | with_reducible assumption
    | with_reducible apply State.winTook_memOk
    | with_reducible apply State.winRefuse_memOk
    | with_reducible apply State.runSelect_memOk
    | with_reducible apply State.refusedSelect_memOk
    | intro _
    | with_reducible apply memOk_ite
    | split

theorem winnowEnd_memOk (s : State) (t : Nat) (h0 : State.memOk s) :
    State.memOk (winnowEnd s t) := by
  unfold winnowEnd
  repeat' first
    | with_reducible assumption
    | with_reducible apply State.setWin_memOk
    | with_reducible apply State.winRefuse_memOk
    | intro _
    | with_reducible apply memOk_ite
    | split

theorem State.takeToken_memOk (s : State) (n pos tok : Nat) (ds : List Nat) (h0 : State.memOk s) :
    State.memOk (State.takeToken s n pos tok ds).1 := by
  unfold State.takeToken
  repeat' first
    | with_reducible assumption
    | with_reducible apply State.setSlot_memOk
    | intro _
    | with_reducible apply memOk_ite
    | with_reducible apply memOk_ite_fst

theorem State.cacheIn_memOk (s : State) (t : Nat) (k : Nat × Nat) (h0 : State.memOk s) :
    State.memOk (State.cacheIn s t k) := by
  unfold State.cacheIn
  repeat' first
    | with_reducible assumption
    | with_reducible apply State.setWin_memOk

theorem State.maskAsk_memOk (s : State) (t : Nat) (k : Option (Nat × Nat)) (h0 : State.memOk s) :
    State.memOk (State.maskAsk s t k) := by
  unfold State.maskAsk
  repeat' first
    | with_reducible assumption
    | with_reducible apply State.bump_memOk
    | with_reducible apply State.setWin_memOk
    | with_reducible apply State.cacheIn_memOk
    | intro _
    | with_reducible apply memOk_ite
    | split

theorem State.chooseToken_memOk (s : State) (t : Nat) (d : List Byte) (x : Slot) (mask : Option (List Byte)) (seq : Nat) (h0 : State.memOk s) :
    State.memOk (State.chooseToken s t d x mask seq).1 := by
  unfold State.chooseToken
  repeat' first
    | with_reducible assumption
    | with_reducible apply State.drawWord_memOk
    | intro _
    | with_reducible apply memOk_ite
    | with_reducible apply memOk_ite_fst
    | with_reducible apply memOk_ite_snd
    | split
    | dsimp only

theorem State.recordToken_memOk (s : State) (t : Nat) (d : List Byte) (ds : List Nat) (c : Nat × Nat × Nat × Nat × Nat × Nat × Nat × Nat × Bool × Bool) (h0 : State.memOk s) :
    State.memOk (State.recordToken s t d ds c) := by
  unfold State.recordToken
  repeat' first
    | with_reducible assumption
    | with_reducible apply State.bump_memOk
    | with_reducible apply State.bumpWide_memOk
    | with_reducible apply State.event_memOk
    | with_reducible apply State.sramWrite_memOk
    | with_reducible apply State.takeToken_memOk
    | with_reducible apply State.maskAsk_memOk
    | intro _
    | with_reducible apply memOk_ite
    | with_reducible apply memOk_ite_fst

theorem winSample_memOk (s : State) (t : Nat) (ds : List Nat) (h0 : State.memOk s) :
    State.memOk (winSample s t ds) := by
  unfold winSample
  repeat' first
    | with_reducible assumption
    | with_reducible apply State.bump_memOk
    | with_reducible apply State.bumpWide_memOk
    | with_reducible apply State.drawWord_memOk
    | with_reducible apply State.event_memOk
    | with_reducible apply State.setWin_memOk
    | with_reducible apply State.winTook_memOk
    | with_reducible apply State.winRefuse_memOk
    | with_reducible apply State.winDone_memOk
    | with_reducible apply State.winScan_memOk
    | with_reducible apply State.maskAsk_memOk
    | with_reducible apply State.chooseToken_memOk
    | with_reducible apply State.recordToken_memOk
    | intro _
    | with_reducible apply memOk_ite
    | with_reducible apply memOk_ite_fst
    | with_reducible apply memOk_ite_snd
    | split

theorem maskFetch_memOk (s : State) (t : Nat) (h0 : State.memOk s) :
    State.memOk (maskFetch s t) := by
  unfold maskFetch
  repeat' first
    | with_reducible assumption
    | with_reducible apply State.bumpWide_memOk
    | with_reducible apply State.drawWord_memOk
    | with_reducible apply State.setWin_memOk
    | with_reducible apply State.cacheIn_memOk
    | intro _
    | with_reducible apply memOk_ite
    | with_reducible apply memOk_ite_fst
    | with_reducible apply memOk_ite_snd
    | split
    | dsimp only

theorem grammarRegister_memOk (s : State) (req : Requester) (id : Nat) (h0 : State.memOk s) :
    State.memOk (grammarRegister s req id) := by
  unfold grammarRegister
  repeat' first
    | with_reducible assumption
    | with_reducible apply State.cmdDone_memOk
    | with_reducible apply State.modCommand_memOk
    | intro _
    | with_reducible apply memOk_ite
    | with_reducible apply memOk_ite_fst
    | with_reducible apply memOk_ite_snd
    | split
    | dsimp only
    | with_reducible apply memOk_mem
    | with_reducible apply memOk_mk

theorem State.grmFree_memOk (s : State) (id : Nat) (h0 : State.memOk s) :
    State.memOk (State.grmFree s id) := h0

theorem grammarUnregister_memOk (s : State) (req : Requester) (id : Nat) (h0 : State.memOk s) :
    State.memOk (grammarUnregister s req id) := by
  unfold grammarUnregister
  repeat' first
    | with_reducible assumption
    | with_reducible apply State.setResult_memOk
    | with_reducible apply State.cmdDone_memOk
    | with_reducible apply State.modCommand_memOk
    | with_reducible apply State.grmFree_memOk
    | intro _
    | with_reducible apply memOk_ite
    | split
    | dsimp only
    | with_reducible apply memOk_mem
    | with_reducible apply memOk_mk

theorem catalogueFreed_memOk (s : State) (recipe : Bool) (id : Nat) (h0 : State.memOk s) :
    State.memOk (catalogueFreed s recipe id) := by
  unfold catalogueFreed
  repeat' first
    | with_reducible assumption
    | with_reducible apply State.cmdDone_memOk
    | with_reducible apply State.grmFree_memOk
    | intro _
    | with_reducible apply memOk_ite
    | split
    | dsimp only
    | with_reducible apply memOk_mem
    | with_reducible apply memOk_mk

theorem catalogueGraceExpiry_memOk (s : State) (n : Nat) (h0 : State.memOk s) :
    State.memOk (catalogueGraceExpiry s n) := by
  unfold catalogueGraceExpiry
  repeat' first
    | with_reducible assumption
    | with_reducible apply State.endRequest_memOk
    | intro _
    | with_reducible apply memOk_ite

/-! ### Quern -/

theorem tokenizerRegister_memOk (s : State) (req : Requester) (id : Nat) (h0 : State.memOk s) :
    State.memOk (tokenizerRegister s req id) := by
  unfold tokenizerRegister
  repeat' first
    | with_reducible assumption
    | with_reducible apply State.cmdDone_memOk
    | with_reducible apply State.modCommand_memOk
    | intro _
    | with_reducible apply memOk_ite
    | with_reducible apply memOk_ite_fst
    | with_reducible apply memOk_ite_snd
    | split
    | dsimp only
    | with_reducible apply memOk_mem
    | with_reducible apply memOk_mk

theorem tokenizerUnregister_memOk (s : State) (req : Requester) (id : Nat) (h0 : State.memOk s) :
    State.memOk (tokenizerUnregister s req id) := by
  unfold tokenizerUnregister
  repeat' first
    | with_reducible assumption
    | with_reducible apply State.cmdDone_memOk
    | with_reducible apply State.modCommand_memOk
    | intro _
    | with_reducible apply memOk_ite
    | split
    | dsimp only
    | with_reducible apply memOk_mem
    | with_reducible apply memOk_mk

theorem State.takeTokens_memOk (s : State) (n : Nat) (toks : List Nat) (trunc : Bool) (h0 : State.memOk s) :
    State.memOk (State.takeTokens s n toks trunc) := by
  unfold State.takeTokens
  repeat' first
    | with_reducible assumption
    | with_reducible apply State.setSlot_memOk
    | with_reducible apply State.noteTrunc_memOk
    | intro _
    | with_reducible apply memOk_ite

theorem State.qrnWaiters_memOk (s : State) (h0 : State.memOk s) :
    State.memOk (State.qrnWaiters s) := by
  unfold State.qrnWaiters
  repeat' first
    | with_reducible assumption
    | with_reducible apply State.qrnIssue_memOk
    | with_reducible apply memOk_foldl
    | intro _
    | with_reducible apply memOk_ite
    | split
    | dsimp only
    | with_reducible apply memOk_mem
    | with_reducible apply memOk_mk

theorem State.runTokenise_memOk (s : State) (l : Nat) (d g : List Byte) (h0 : State.memOk s) :
    State.memOk (State.runTokenise s l d g) := by
  unfold State.runTokenise
  repeat' first
    | with_reducible assumption
    | with_reducible apply State.store_memOk
    | with_reducible apply State.bump_memOk
    | with_reducible apply State.bumpWide_memOk
    | with_reducible apply State.drawWord_memOk
    | with_reducible apply State.event_memOk
    | with_reducible apply State.takeTokens_memOk
    | with_reducible apply memOk_foldl
    | with_reducible apply memOk_foldl_fst
    | with_reducible apply memOk_foldl_snd
    | intro _
    | with_reducible apply memOk_ite

theorem State.refuseTokenise_memOk (s : State) (l : Nat) (d : List Byte) (code : Nat) (h0 : State.memOk s) :
    State.memOk (State.refuseTokenise s l d code) := by
  unfold State.refuseTokenise
  repeat' first
    | with_reducible assumption
    | with_reducible apply State.store_memOk
    | with_reducible apply State.bump_memOk
    | with_reducible apply State.drawWord_memOk
    | with_reducible apply State.event_memOk
    | intro _
    | with_reducible apply memOk_ite

theorem State.laneRun_memOk (s : State) (l : Nat) (h0 : State.memOk s) :
    State.memOk (State.laneRun s l).1 := by
  unfold State.laneRun
  repeat' first
    | with_reducible assumption
    | with_reducible apply State.advanceFld_memOk
    | with_reducible apply State.qrnWaiters_memOk
    | with_reducible apply State.runTokenise_memOk
    | with_reducible apply State.refuseTokenise_memOk
    | intro _
    | with_reducible apply memOk_ite
    | with_reducible apply memOk_ite_fst
    | with_reducible apply memOk_ite_snd
    | split
    | dsimp only
    | with_reducible apply memOk_mem
    | with_reducible apply memOk_mk

theorem State.detokCount_memOk (s : State) (n t subs : Nat) (g : List Byte) (h0 : State.memOk s) :
    State.memOk (State.detokCount s n t subs g) := by
  unfold State.detokCount
  repeat' first
    | with_reducible assumption
    | with_reducible apply State.bumpWide_memOk
    | with_reducible apply State.drawWord_memOk

theorem detokenise_memOk (s : State) (n tok : Nat) (h0 : State.memOk s) :
    State.memOk (detokenise s n tok) := by
  unfold detokenise
  repeat' first
    | with_reducible assumption
    | with_reducible apply State.setSlot_memOk
    | with_reducible apply State.pushRec_memOk
    | with_reducible apply State.detokCount_memOk
    | with_reducible apply memOk_foldl
    | with_reducible apply memOk_foldl_fst
    | with_reducible apply memOk_foldl_snd
    | intro _
    | with_reducible apply memOk_ite
    | with_reducible apply memOk_ite_fst
    | with_reducible apply memOk_ite_snd
    | split
    | dsimp only

/-! ### Sheaf -/

theorem State.setTable_memOk (s : State) (t : Nat) (x : ShfTable) (h0 : State.memOk s) :
    State.memOk (State.setTable s t x) := h0

theorem sheafTableSet_memOk (s : State) (req : Requester) (t : Nat) (h0 : State.memOk s) :
    State.memOk (sheafTableSet s req t) := by
  unfold sheafTableSet
  repeat' first
    | with_reducible assumption
    | with_reducible apply State.cmdDone_memOk
    | with_reducible apply State.modCommand_memOk
    | with_reducible apply State.setTable_memOk
    | intro _
    | with_reducible apply memOk_ite

theorem State.tableDrop_memOk (s : State) (t : Nat) (h0 : State.memOk s) :
    State.memOk (State.tableDrop s t) := by
  unfold State.tableDrop
  repeat' first
    | with_reducible assumption
    | with_reducible apply State.setRing_memOk
    | intro _
    | with_reducible apply memOk_ite
    | with_reducible apply memOk_ite_fst
    | with_reducible apply memOk_ite_snd
    | split
    | dsimp only
    | with_reducible apply memOk_mem
    | with_reducible apply memOk_mk

theorem sheafTableClear_memOk (s : State) (req : Requester) (t : Nat) (h0 : State.memOk s) :
    State.memOk (sheafTableClear s req t) := by
  unfold sheafTableClear
  repeat' first
    | with_reducible assumption
    | with_reducible apply State.cmdDone_memOk
    | with_reducible apply State.modCommand_memOk
    | with_reducible apply State.tableDrop_memOk
    | intro _
    | with_reducible apply memOk_ite
    | with_reducible apply memOk_ite_fst
    | with_reducible apply memOk_ite_snd
    | split

theorem sheafTableAmend_memOk (s : State) (req : Requester) (t : Nat) (h0 : State.memOk s) :
    State.memOk (sheafTableAmend s req t) := by
  unfold sheafTableAmend
  repeat' first
    | with_reducible assumption
    | with_reducible apply State.cmdDone_memOk
    | with_reducible apply State.modCommand_memOk
    | with_reducible apply State.setTable_memOk
    | intro _
    | with_reducible apply memOk_ite
    | with_reducible apply memOk_ite_fst
    | with_reducible apply memOk_ite_snd
    | split

theorem State.touchRows_memOk (s : State) (die : Nat) (bad : List Nat) (x : List Byte) (idx : List Nat) (h0 : State.memOk s) :
    State.memOk (State.touchRows s die bad x idx) := by
  unfold State.touchRows
  repeat' first
    | with_reducible assumption
    | with_reducible apply State.touchRange_memOk
    | with_reducible apply memOk_foldl
    | intro _
    | split

theorem State.sheafDone_memOk (s : State) (die job : Nat) (d : List Byte) (rows defaults dropped bytes : Nat) (h0 : State.memOk s) :
    State.memOk (State.sheafDone s die job d rows defaults dropped bytes) := by
  unfold State.sheafDone
  repeat' first
    | with_reducible assumption
    | with_reducible apply State.bump_memOk
    | with_reducible apply State.bumpWide_memOk
    | with_reducible apply State.advanceFld_memOk
    | with_reducible apply State.vaWrite_memOk
    | intro _
    | with_reducible apply memOk_ite

theorem State.runGather_memOk (s : State) (die job : Nat) (bad : List Nat) (d x : List Byte) (h0 : State.memOk s) :
    State.memOk (State.runGather s die job bad d x) := by
  unfold State.runGather
  repeat' first
    | with_reducible assumption
    | with_reducible apply State.vaWrite_memOk
    | with_reducible apply State.losePages_memOk
    | with_reducible apply State.touchRows_memOk
    | with_reducible apply State.sheafDone_memOk
    | with_reducible apply memOk_foldl
    | with_reducible apply memOk_foldl_fst
    | with_reducible apply memOk_foldl_snd
    | intro _

theorem State.runGatherSum_memOk (s : State) (die job : Nat) (bad : List Nat) (d x : List Byte) (h0 : State.memOk s) :
    State.memOk (State.runGatherSum s die job bad d x) := by
  unfold State.runGatherSum
  repeat' first
    | with_reducible assumption
    | with_reducible apply State.vaWrite_memOk
    | with_reducible apply State.losePages_memOk
    | with_reducible apply State.touchRows_memOk
    | with_reducible apply State.sheafDone_memOk
    | with_reducible apply memOk_foldl
    | with_reducible apply memOk_foldl_fst
    | with_reducible apply memOk_foldl_snd
    | intro _

theorem State.runScatter_memOk (s : State) (die job : Nat) (d x : List Byte) (h0 : State.memOk s) :
    State.memOk (State.runScatter s die job d x) := by
  unfold State.runScatter
  repeat' first
    | with_reducible assumption
    | with_reducible apply State.vaWrite_memOk
    | with_reducible apply State.sheafDone_memOk
    | with_reducible apply memOk_foldl
    | with_reducible apply memOk_foldl_fst
    | with_reducible apply memOk_foldl_snd
    | intro _
    | split

theorem State.refuseSheaf_memOk (s : State) (die job addr : Nat) (d : List Byte) (code : Nat) (h0 : State.memOk s) :
    State.memOk (State.refuseSheaf s die job addr d code) := by
  unfold State.refuseSheaf
  repeat' first
    | with_reducible assumption
    | with_reducible apply State.setRegN_memOk
    | with_reducible apply State.bump_memOk
    | with_reducible apply State.event_memOk
    | with_reducible apply State.advanceFld_memOk
    | with_reducible apply State.vaWrite_memOk
    | with_reducible apply memOk_foldl
    | intro _
    | with_reducible apply memOk_ite
    | split

theorem State.sheafTook_memOk (s : State) (die addr : Nat) (d : List Byte) (h0 : State.memOk s) :
    State.memOk (State.sheafTook s die addr d) := by
  unfold State.sheafTook
  refine State.waitUsed_memOk _ _ _ ?_
  split <;> exact h0

theorem State.sheafRun_memOk (s : State) (die job : Nat) (fed : List Byte) (ops : Nat → Bool) (f : State → Nat → List Byte → List Byte → State) (h0 : State.memOk s) (hf0 : ∀ (t : State) (a1 : Nat) (a2 : List Byte) (a3 : List Byte), State.memOk t → State.memOk (f t a1 a2 a3)) :
    State.memOk (State.sheafRun s die job fed ops f) := by
  unfold State.sheafRun
  repeat' first
    | with_reducible assumption
    | with_reducible apply State.refuseSheaf_memOk
    | with_reducible apply State.sheafTook_memOk
    | with_reducible apply hf0
    | intro _
    | with_reducible apply memOk_ite
    | split
    | dsimp only

theorem gather_memOk (s : State) (die : Nat) (fed : List Byte) (job : Nat) (bad : List Nat) (h0 : State.memOk s) :
    State.memOk (gather s die fed job bad) := by
  unfold gather
  repeat' first
    | with_reducible assumption
    | with_reducible apply State.runGather_memOk
    | with_reducible apply State.sheafRun_memOk
    | intro _

theorem gatherSum_memOk (s : State) (die : Nat) (fed : List Byte) (job : Nat) (bad : List Nat) (h0 : State.memOk s) :
    State.memOk (gatherSum s die fed job bad) := by
  unfold gatherSum
  repeat' first
    | with_reducible assumption
    | with_reducible apply State.runGatherSum_memOk
    | with_reducible apply State.sheafRun_memOk
    | intro _

theorem scatter_memOk (s : State) (die : Nat) (fed : List Byte) (job : Nat) (h0 : State.memOk s) :
    State.memOk (scatter s die fed job) := by
  unfold scatter
  repeat' first
    | with_reducible assumption
    | with_reducible apply State.runScatter_memOk
    | with_reducible apply State.sheafRun_memOk
    | intro _

theorem prefetch_memOk (s : State) (die : Nat) (fed : List Byte) (job : Nat) (bad : List Nat) (h0 : State.memOk s) :
    State.memOk (prefetch s die fed job bad) := by
  unfold prefetch
  repeat' first
    | with_reducible assumption
    | with_reducible apply State.bump_memOk
    | with_reducible apply State.event_memOk
    | with_reducible apply State.runGather_memOk
    | with_reducible apply State.sheafRun_memOk
    | intro _
    | with_reducible apply memOk_ite

theorem State.sheafListWrite_memOk (s : State) (die v : Nat) (h0 : State.memOk s) :
    State.memOk (State.sheafListWrite s die v) := by
  unfold State.sheafListWrite
  repeat' first
    | with_reducible assumption
    | with_reducible apply State.setRegN_memOk
    | intro _
    | with_reducible apply memOk_ite
    | split
    | dsimp only
    | with_reducible apply memOk_mem
    | with_reducible apply memOk_mk

theorem sheafEnd_memOk (s : State) (die : Nat) (fed : List Byte) (h0 : State.memOk s) :
    State.memOk (sheafEnd s die fed) := by
  unfold sheafEnd
  repeat' first
    | with_reducible assumption
    | with_reducible apply State.refuseSheaf_memOk
    | with_reducible apply State.sheafTook_memOk
    | intro _
    | with_reducible apply memOk_ite
    | split
    | dsimp only
    | with_reducible apply memOk_mem
    | with_reducible apply memOk_mk

theorem batchListWrite_memOk (s : State) (h0 : State.memOk s) :
    State.memOk (batchListWrite s) := by
  unfold batchListWrite
  repeat' first
    | with_reducible assumption
    | with_reducible apply State.advanceFld_memOk
    | with_reducible apply State.vaWrite_memOk
    | with_reducible apply memOk_foldl
    | with_reducible apply memOk_foldl_fst
    | with_reducible apply memOk_foldl_snd
    | intro _
    | split
    | dsimp only
    | with_reducible apply memOk_mem
    | with_reducible apply memOk_mk

theorem State.fbDrop_memOk (s : State) (w : Nat) (errs : List Nat) (h0 : State.memOk s) :
    State.memOk (State.fbDrop s w errs) := by
  unfold State.fbDrop
  repeat' first
    | with_reducible assumption
    | with_reducible apply State.bump_memOk
    | with_reducible apply State.event_memOk

theorem State.mergeEvent_memOk (s : State) (t : Nat) (x : ShfTable) (e : List Byte) (h0 : State.memOk s) :
    State.memOk (State.mergeEvent s t x e) := by
  unfold State.mergeEvent
  repeat' first
    | with_reducible assumption
    | with_reducible apply State.setTable_memOk
    | intro _
    | split
    | dsimp only
    | with_reducible apply memOk_mem
    | with_reducible apply memOk_mk

theorem feedbackEvent_memOk (s : State) (t : Nat) (h0 : State.memOk s) :
    State.memOk (feedbackEvent s t) := by
  unfold feedbackEvent
  repeat' first
    | with_reducible assumption
    | with_reducible apply State.bumpWide_memOk
    | with_reducible apply State.consume_memOk
    | with_reducible apply State.fbDrop_memOk
    | with_reducible apply State.mergeEvent_memOk
    | intro _
    | with_reducible apply memOk_ite
    | split
    | dsimp only

theorem State.applyEntry_memOk (s : State) (t : Nat) (x : List Byte) (row : Nat) (e : ShfEntry) (h0 : State.memOk s) :
    State.memOk (State.applyEntry s t x row e) := by
  unfold State.applyEntry
  repeat' first
    | with_reducible assumption
    | with_reducible apply State.bumpWide_memOk
    | with_reducible apply State.vaWrite_memOk
    | with_reducible apply State.fbDrop_memOk
    | intro _
    | with_reducible apply memOk_ite
    | with_reducible apply memOk_ite_fst
    | with_reducible apply memOk_ite_snd
    | split
    | dsimp only
    | with_reducible apply memOk_mem
    | with_reducible apply memOk_mk

theorem State.applyTable_memOk (s : State) (t : Nat) (h0 : State.memOk s) :
    State.memOk (State.applyTable s t) := by
  unfold State.applyTable
  repeat' first
    | with_reducible assumption
    | with_reducible apply State.setTable_memOk
    | with_reducible apply State.applyEntry_memOk
    | with_reducible apply memOk_foldl
    | with_reducible apply memOk_foldl_fst
    | with_reducible apply memOk_foldl_snd
    | intro _
    | split

theorem sheafUpdateApply_memOk (s : State) (t : Nat) (h0 : State.memOk s) :
    State.memOk (sheafUpdateApply s t) := by
  unfold sheafUpdateApply
  repeat' first
    | with_reducible assumption
    | with_reducible apply State.applyTable_memOk
    | intro _
    | with_reducible apply memOk_ite
    | split

theorem forcedApply_memOk (s : State) (w : Nat) (h0 : State.memOk s) :
    State.memOk (forcedApply s w) := by
  unfold forcedApply
  repeat' first
    | with_reducible assumption
    | with_reducible apply State.bump_memOk
    | with_reducible apply State.event_memOk
    | with_reducible apply State.applyTable_memOk
    | with_reducible apply memOk_foldl
    | intro _
    | with_reducible apply memOk_ite

/-! ### Search -/

theorem State.setGen_memOk (s : State) (g : Nat) (x : GenSlot) (h0 : State.memOk s) :
    State.memOk (State.setGen s g x) := h0

theorem State.idxDone_memOk (s : State) (code g : Nat) (h0 : State.memOk s) :
    State.memOk (State.idxDone s code g) := by
  unfold State.idxDone
  repeat' first
    | with_reducible assumption
    | with_reducible apply State.cmdDone_memOk

theorem indexOpen_memOk (s : State) (req : Requester) (g : Nat) (h0 : State.memOk s) :
    State.memOk (indexOpen s req g) := by
  unfold indexOpen
  repeat' first
    | with_reducible assumption
    | with_reducible apply State.modCommand_memOk
    | with_reducible apply State.setGen_memOk
    | with_reducible apply State.idxDone_memOk
    | intro _
    | with_reducible apply memOk_ite
    | split
    | dsimp only
    | with_reducible apply memOk_mem
    | with_reducible apply memOk_mk

theorem State.layGroup_memOk (s : State) (h : List Byte) (region i src serial k : Nat) (h0 : State.memOk s) :
    State.memOk (State.layGroup s h region i src serial k) := by
  unfold State.layGroup
  repeat' first
    | with_reducible assumption
    | with_reducible apply State.setBlock_memOk
    | with_reducible apply State.programmed_memOk
    | with_reducible apply Memory.wf_writeBytes
    | with_reducible apply Memory.wf_write
    | with_reducible apply Memory.wf_copy
    | with_reducible apply memOk_foldl
    | with_reducible apply wf_foldl
    | intro _
    | with_reducible apply memOk_ite
    | split
    | dsimp only
    | with_reducible apply memOk_mem
    | with_reducible apply memOk_mk

theorem State.takeFrom_memOk (s : State) (part serial : Nat) (y0 : List Nat) (h0 : State.memOk s) :
    ∀ w0 w1, (State.takeFrom s part serial y0) = some (w0, w1) → State.memOk w1 := by
  induction y0 generalizing s h0 with
  | nil =>
    rw [State.takeFrom]
    intro out out ht
    repeat' first
      | with_reducible assumption
      | contradiction
  | cons a l ih =>
    rw [State.takeFrom]
    intro out out ht
    repeat' first
      | with_reducible assumption
      | contradiction
      | (simp only [Option.some.injEq, Prod.mk.injEq] at ht)
      | (obtain ⟨rfl, rfl, rfl⟩ := ht)
      | (obtain ⟨rfl, rfl⟩ := ht)
      | subst ht
      | split at ht
      | dsimp only at ht
      | exact absurd ht (by simp)
      | (with_reducible refine State.takeBlock_memOk _ _ _ _ ?_ _ _ (by assumption))
      | dsimp only
      | intro _
      | split
      | (with_reducible refine ih _ ?_ _ _ (by assumption))

theorem State.placeGroup_memOk (s : State) (h : List Byte) (region i src serial : Nat) (h0 : State.memOk s) :
    ∀ w0 w1 w2, (State.placeGroup s h region i src serial) = some (w0, w1, w2) → State.memOk w2 := by
  unfold State.placeGroup
  intro out out out ht
  repeat' first
    | with_reducible assumption
    | contradiction
    | (simp only [Option.some.injEq, Prod.mk.injEq] at ht)
    | (obtain ⟨rfl, rfl, rfl⟩ := ht)
    | (obtain ⟨rfl, rfl⟩ := ht)
    | subst ht
    | split at ht
    | dsimp only at ht
    | with_reducible apply State.drawWord_memOk
    | with_reducible apply State.layGroup_memOk
    | (with_reducible refine State.takeFrom_memOk _ _ _ _ ?_ _ _ (by assumption))
    | dsimp only
    | intro _
    | split

theorem State.placeGroups_memOk (s : State) (h : List Byte) (region serial y0 y1 y2 : Nat) (h0 : State.memOk s) :
    ∀ out, (State.placeGroups s h region serial y0 y1 y2) = some out → State.memOk out := by
  induction y0 generalizing s y1 y2 h0 with
  | zero =>
    rw [State.placeGroups]
    intro out ht
    repeat' first
      | with_reducible assumption
      | contradiction
      | (simp only [Option.some.injEq, Prod.mk.injEq] at ht)
      | (obtain ⟨rfl, rfl, rfl⟩ := ht)
  | succ n ih =>
    rw [State.placeGroups]
    intro out ht
    repeat' first
      | with_reducible assumption
      | contradiction
      | (simp only [Option.some.injEq, Prod.mk.injEq] at ht)
      | (obtain ⟨rfl, rfl, rfl⟩ := ht)
      | (obtain ⟨rfl, rfl⟩ := ht)
      | subst ht
      | split at ht
      | dsimp only at ht
      | exact absurd ht (by simp)
      | with_reducible apply State.store_memOk
      | (with_reducible refine State.placeGroup_memOk _ _ _ _ _ _ ?_ _ _ _ (by assumption))
      | dsimp only
      | intro _
      | split
      | (with_reducible refine ih _ _ _ ?_ _ (by assumption))

theorem State.indexWriteRun_memOk (s : State) (g addr : Nat) (h0 : State.memOk s) :
    State.memOk (State.indexWriteRun s g addr).2 := by
  unfold State.indexWriteRun
  repeat' first
    | with_reducible assumption
    | with_reducible apply State.setGen_memOk
    | (with_reducible refine State.placeGroups_memOk _ _ _ _ _ _ _ ?_ _ (by assumption))
    | intro _
    | with_reducible apply memOk_ite
    | with_reducible apply memOk_ite_fst
    | with_reducible apply memOk_ite_snd
    | split

theorem indexWrite_memOk (s : State) (req : Requester) (g : Nat) (h0 : State.memOk s) :
    State.memOk (indexWrite s req g) := by
  unfold indexWrite
  repeat' first
    | with_reducible assumption
    | with_reducible apply State.modCommand_memOk
    | with_reducible apply State.idxDone_memOk
    | with_reducible apply State.indexWriteRun_memOk
    | intro _

theorem State.sealBlocks_memOk (s : State) (serial : Nat) (h0 : State.memOk s) :
    State.memOk (State.sealBlocks s serial) := by
  unfold State.sealBlocks
  repeat' first
    | with_reducible assumption
    | intro _
    | with_reducible apply memOk_ite
    | with_reducible apply memOk_ite_fst
    | with_reducible apply memOk_ite_snd
    | split
    | dsimp only
    | with_reducible apply memOk_mem
    | with_reducible apply memOk_mk

theorem indexSeal_memOk (s : State) (req : Requester) (g : Nat) (h0 : State.memOk s) :
    State.memOk (indexSeal s req g) := by
  unfold indexSeal
  repeat' first
    | with_reducible assumption
    | with_reducible apply State.store_memOk
    | with_reducible apply State.setRegN_memOk
    | with_reducible apply State.modCommand_memOk
    | with_reducible apply State.setGen_memOk
    | with_reducible apply State.idxDone_memOk
    | with_reducible apply State.sealBlocks_memOk
    | intro _
    | with_reducible apply memOk_ite

theorem indexLoad_memOk (s : State) (req : Requester) (g : Nat) (h0 : State.memOk s) :
    State.memOk (indexLoad s req g) := by
  unfold indexLoad
  repeat' first
    | with_reducible assumption
    | with_reducible apply State.modCommand_memOk
    | with_reducible apply State.setGen_memOk
    | with_reducible apply State.idxDone_memOk
    | intro _
    | with_reducible apply memOk_ite

theorem indexActivate_memOk (s : State) (req : Requester) (g : Nat) (h0 : State.memOk s) :
    State.memOk (indexActivate s req g) := by
  unfold indexActivate
  repeat' first
    | with_reducible assumption
    | with_reducible apply State.setResult_memOk
    | with_reducible apply State.modCommand_memOk
    | with_reducible apply State.setGen_memOk
    | with_reducible apply State.idxDone_memOk
    | intro _
    | with_reducible apply memOk_ite

theorem activationApply_memOk (s : State) (g : Nat) (h0 : State.memOk s) :
    State.memOk (activationApply s g) := by
  unfold activationApply
  repeat' first
    | with_reducible assumption
    | with_reducible apply State.event_memOk
    | with_reducible apply State.setGen_memOk
    | with_reducible apply State.idxDone_memOk
    | with_reducible apply memOk_foldl
    | intro _
    | with_reducible apply memOk_ite

theorem State.freeGen_memOk (s : State) (g : Nat) (h0 : State.memOk s) :
    State.memOk (State.freeGen s g) := by
  unfold State.freeGen
  repeat' first
    | with_reducible assumption
    | with_reducible apply State.setGen_memOk
    | intro _
    | with_reducible apply memOk_ite
    | with_reducible apply memOk_ite_fst
    | with_reducible apply memOk_ite_snd
    | split
    | dsimp only
    | with_reducible apply memOk_mem
    | with_reducible apply memOk_mk

theorem indexDiscard_memOk (s : State) (req : Requester) (g : Nat) (h0 : State.memOk s) :
    State.memOk (indexDiscard s req g) := by
  unfold indexDiscard
  repeat' first
    | with_reducible assumption
    | with_reducible apply State.setResult_memOk
    | with_reducible apply State.modCommand_memOk
    | with_reducible apply State.setGen_memOk
    | with_reducible apply State.idxDone_memOk
    | with_reducible apply State.freeGen_memOk
    | intro _
    | with_reducible apply memOk_ite
    | split
    | dsimp only

theorem indexSlotFreed_memOk (s : State) (g : Nat) (h0 : State.memOk s) :
    State.memOk (indexSlotFreed s g) := by
  unfold indexSlotFreed
  repeat' first
    | with_reducible assumption
    | with_reducible apply State.idxDone_memOk
    | with_reducible apply State.freeGen_memOk
    | intro _
    | with_reducible apply memOk_ite

theorem State.setSearch_memOk (s : State) (i : Nat) (x : Search) (h0 : State.memOk s) :
    State.memOk (State.setSearch s i x) := h0

theorem State.callGo_memOk (s : State) (n : Nat) (h0 : State.memOk s) :
    State.memOk (State.callGo s n).1 := by
  unfold State.callGo
  repeat' first
    | with_reducible assumption
    | with_reducible apply State.setSlot_memOk
    | with_reducible apply State.event_memOk
    | with_reducible apply State.setSearch_memOk
    | intro _
    | with_reducible apply memOk_ite
    | with_reducible apply memOk_ite_fst
    | with_reducible apply memOk_ite_snd
    | split
    | dsimp only
    | with_reducible apply memOk_mem
    | with_reducible apply memOk_mk

theorem State.callsGo_memOk (s : State) (h0 : State.memOk s) :
    State.memOk (State.callsGo s) := by
  unfold State.callsGo
  repeat' first
    | with_reducible assumption
    | with_reducible apply State.callGo_memOk
    | with_reducible apply memOk_foldl
    | with_reducible apply memOk_foldl_fst
    | with_reducible apply memOk_foldl_snd
    | intro _
    | with_reducible apply memOk_ite
    | with_reducible apply memOk_ite_fst
    | with_reducible apply memOk_ite_snd
    | split
    | dsimp only
    | with_reducible apply memOk_mem
    | with_reducible apply memOk_mk

theorem State.freeSearch_memOk (s : State) (i : Nat) (h0 : State.memOk s) :
    State.memOk (State.freeSearch s i) := by
  unfold State.freeSearch
  repeat' first
    | with_reducible assumption
    | with_reducible apply State.callsGo_memOk
    | intro _
    | dsimp only
    | with_reducible apply memOk_mem
    | with_reducible apply memOk_mk

theorem State.sndCount_memOk (s : State) (i kind n : Nat) (h0 : State.memOk s) :
    State.memOk (State.sndCount s i kind n) := by
  unfold State.sndCount
  repeat' first
    | with_reducible assumption
    | with_reducible apply State.bumpWide_memOk

theorem State.issueRead_memOk (s : State) (i : Nat) (x : Search) (j : Nat) (p : Pick) (h0 : State.memOk s) :
    State.memOk (State.issueRead s i x j p).1 := by
  unfold State.issueRead
  repeat' first
    | with_reducible assumption
    | with_reducible apply State.sndCount_memOk
    | intro _
    | with_reducible apply memOk_ite
    | with_reducible apply memOk_ite_fst
    | with_reducible apply memOk_ite_snd
    | split
    | dsimp only
    | with_reducible apply memOk_mem
    | with_reducible apply memOk_mk

theorem State.pickRound_memOk (s : State) (i : Nat) (x : Search) (h0 : State.memOk s) :
    State.memOk (State.pickRound s i x) := by
  unfold State.pickRound
  repeat' first
    | with_reducible assumption
    | with_reducible apply State.bump_memOk
    | with_reducible apply State.event_memOk
    | with_reducible apply State.settlePlanes_memOk
    | with_reducible apply State.setSearch_memOk
    | with_reducible apply State.sndCount_memOk
    | with_reducible apply State.issueRead_memOk
    | with_reducible apply memOk_foldl
    | with_reducible apply memOk_foldl_fst
    | with_reducible apply memOk_foldl_snd
    | intro _
    | with_reducible apply memOk_ite

theorem searchBuild_memOk (s : State) (i : Nat) (h0 : State.memOk s) :
    State.memOk (searchBuild s i) := by
  unfold searchBuild
  repeat' first
    | with_reducible assumption
    | with_reducible apply State.sndCount_memOk
    | with_reducible apply State.pickRound_memOk
    | with_reducible apply memOk_foldl
    | with_reducible apply memOk_foldl_fst
    | with_reducible apply memOk_foldl_snd
    | intro _
    | with_reducible apply memOk_ite
    | with_reducible apply memOk_ite_fst
    | with_reducible apply memOk_ite_snd
    | split

theorem searchRound_memOk (s : State) (i : Nat) (h0 : State.memOk s) :
    State.memOk (searchRound s i) := by
  unfold searchRound
  repeat' first
    | with_reducible assumption
    | with_reducible apply State.sndCount_memOk
    | with_reducible apply State.pickRound_memOk
    | with_reducible apply memOk_foldl
    | with_reducible apply memOk_foldl_fst
    | with_reducible apply memOk_foldl_snd
    | intro _
    | with_reducible apply memOk_ite
    | with_reducible apply memOk_ite_fst
    | with_reducible apply memOk_ite_snd
    | split

theorem State.abortDone_memOk (s : State) (i : Nat) (h0 : State.memOk s) :
    State.memOk (State.abortDone s i) := by
  unfold State.abortDone
  repeat' first
    | with_reducible assumption
    | with_reducible apply State.freeSearch_memOk
    | intro _
    | with_reducible apply memOk_ite
    | split

theorem State.walkerPage_memOk (s : State) (rd : NRead) (uncorrectable : Bool) (h0 : State.memOk s) :
    State.memOk (State.walkerPage s rd uncorrectable).1 := by
  unfold State.walkerPage
  repeat' first
    | with_reducible assumption
    | with_reducible apply State.readPage_memOk
    | intro _
    | split

theorem State.readPick_memOk (s : State) (i : Nat) (x : Search) (p : Pick) (rd : NRead) (uncorrectable : Bool) (h0 : State.memOk s) :
    State.memOk (State.readPick s i x p rd uncorrectable).1 := by
  unfold State.readPick
  repeat' first
    | with_reducible assumption
    | with_reducible apply State.bumpWide_memOk
    | with_reducible apply State.event_memOk
    | intro _
    | with_reducible apply memOk_ite
    | with_reducible apply memOk_ite_fst
    | with_reducible apply memOk_ite_snd
    | split
    | dsimp only

theorem State.answerRead_memOk (s : State) (rd : NRead) (uncorrectable : Bool) (h0 : State.memOk s) :
    State.memOk (State.answerRead s rd uncorrectable) := by
  unfold State.answerRead
  repeat' first
    | with_reducible assumption
    | with_reducible apply State.setSearch_memOk
    | with_reducible apply State.abortDone_memOk
    | with_reducible apply State.readPick_memOk
    | intro _
    | with_reducible apply memOk_ite
    | with_reducible apply memOk_ite_fst
    | with_reducible apply memOk_ite_snd
    | split
    | dsimp only
    | with_reducible apply memOk_mem
    | with_reducible apply memOk_mk

theorem nodeRead_memOk (s : State) (i j : Nat) (uncorrectable : Bool) (h0 : State.memOk s) :
    State.memOk (nodeRead s i j uncorrectable) := by
  unfold nodeRead
  repeat' first
    | with_reducible assumption
    | with_reducible apply State.settlePlanes_memOk
    | with_reducible apply State.walkerPage_memOk
    | with_reducible apply State.answerRead_memOk
    | intro _
    | with_reducible apply memOk_ite
    | with_reducible apply memOk_ite_fst
    | with_reducible apply memOk_ite_snd
    | split

theorem hubWindowClose_memOk (s : State) (well page : Nat) (uncorrectable : Bool) (h0 : State.memOk s) :
    State.memOk (hubWindowClose s well page uncorrectable) := by
  unfold hubWindowClose
  repeat' first
    | with_reducible assumption
    | with_reducible apply State.settlePlanes_memOk
    | with_reducible apply State.walkerPage_memOk
    | with_reducible apply State.answerRead_memOk
    | with_reducible apply memOk_foldl
    | with_reducible apply memOk_foldl_fst
    | with_reducible apply memOk_foldl_snd
    | intro _
    | with_reducible apply memOk_ite
    | with_reducible apply memOk_ite_fst
    | with_reducible apply memOk_ite_snd
    | split

theorem searchAbort_memOk (s : State) (i : Nat) (h0 : State.memOk s) :
    State.memOk (searchAbort s i) := by
  unfold searchAbort
  repeat' first
    | with_reducible assumption
    | with_reducible apply State.setSearch_memOk
    | with_reducible apply State.freeSearch_memOk
    | with_reducible apply State.abortDone_memOk
    | intro _
    | with_reducible apply memOk_ite
    | split

theorem State.searchWellLost_memOk (s : State) (w : Nat) (h0 : State.memOk s) :
    State.memOk (State.searchWellLost s w) := by
  unfold State.searchWellLost
  repeat' first
    | with_reducible assumption
    | with_reducible apply State.setGen_memOk
    | with_reducible apply State.setSearch_memOk
    | with_reducible apply State.abortDone_memOk
    | with_reducible apply memOk_foldl
    | with_reducible apply memOk_foldl_fst
    | with_reducible apply memOk_foldl_snd
    | intro _
    | with_reducible apply memOk_ite
    | with_reducible apply memOk_ite_fst
    | with_reducible apply memOk_ite_snd
    | split
    | dsimp only
    | with_reducible apply memOk_mem
    | with_reducible apply memOk_mk

/-! ### Front -/

theorem recipeRegister_memOk (s : State) (req : Requester) (id : Nat) (h0 : State.memOk s) :
    State.memOk (recipeRegister s req id) := by
  unfold recipeRegister
  repeat' first
    | with_reducible assumption
    | with_reducible apply State.cmdDone_memOk
    | with_reducible apply State.modCommand_memOk
    | intro _
    | with_reducible apply memOk_ite
    | with_reducible apply memOk_ite_fst
    | with_reducible apply memOk_ite_snd
    | split
    | dsimp only
    | with_reducible apply memOk_mem
    | with_reducible apply memOk_mk

theorem recipeUnregister_memOk (s : State) (req : Requester) (id : Nat) (h0 : State.memOk s) :
    State.memOk (recipeUnregister s req id) := by
  unfold recipeUnregister
  repeat' first
    | with_reducible assumption
    | with_reducible apply State.setResult_memOk
    | with_reducible apply State.cmdDone_memOk
    | with_reducible apply State.modCommand_memOk
    | intro _
    | with_reducible apply memOk_ite
    | split
    | dsimp only
    | with_reducible apply memOk_mem
    | with_reducible apply memOk_mk

theorem frontEncode_memOk (s : State) (n : Nat) (vec : List Byte) (h0 : State.memOk s) :
    State.memOk (frontEncode s n vec) := by
  unfold frontEncode
  repeat' first
    | with_reducible assumption
    | with_reducible apply State.setSlot_memOk
    | with_reducible apply State.event_memOk
    | intro _
    | with_reducible apply memOk_ite

theorem searchCall_memOk (s : State) (n : Nat) (h0 : State.memOk s) :
    State.memOk (searchCall s n) := by
  unfold searchCall
  repeat' first
    | with_reducible assumption
    | with_reducible apply State.setSlot_memOk
    | with_reducible apply State.callsGo_memOk
    | intro _
    | with_reducible apply memOk_ite
    | split
    | dsimp only
    | with_reducible apply memOk_mem
    | with_reducible apply memOk_mk

theorem State.frontGathers_memOk (s : State) (w : Nat) (r : List Byte) (question : List Nat) (cs : List Cand) (h0 : State.memOk s) :
    State.memOk (State.frontGathers s w r question cs) := by
  unfold State.frontGathers
  repeat' first
    | with_reducible assumption
    | with_reducible apply State.bump_memOk
    | with_reducible apply State.touchRows_memOk
    | with_reducible apply memOk_foldl
    | intro _
    | with_reducible apply memOk_ite
    | split
    | dsimp only

theorem frontCandidates_memOk (s : State) (n : Nat) (unreadable : List Nat) (h0 : State.memOk s) :
    State.memOk (frontCandidates s n unreadable) := by
  unfold frontCandidates
  repeat' first
    | with_reducible assumption
    | with_reducible apply State.setSlot_memOk
    | with_reducible apply State.freeSearch_memOk
    | with_reducible apply State.frontGathers_memOk
    | intro _
    | with_reducible apply memOk_ite
    | with_reducible apply memOk_ite_fst
    | with_reducible apply memOk_ite_snd
    | split

theorem frontRerank_memOk (s : State) (n : Nat) (unreadable : List Nat) (h0 : State.memOk s) :
    State.memOk (frontRerank s n unreadable) := by
  unfold frontRerank
  repeat' first
    | with_reducible assumption
    | with_reducible apply State.setSlot_memOk
    | intro _
    | with_reducible apply memOk_ite

theorem State.frontCounts_memOk (s : State) (x : Slot) (cut : Bool) (h0 : State.memOk s) :
    State.memOk (State.frontCounts s x cut) := by
  unfold State.frontCounts
  repeat' first
    | with_reducible assumption
    | with_reducible apply State.bump_memOk
    | with_reducible apply State.event_memOk
    | intro _
    | with_reducible apply memOk_ite

theorem State.frontRecord_memOk (s : State) (n prompt : Nat) (ids : List Nat) (h0 : State.memOk s) :
    State.memOk (State.frontRecord s n prompt ids) := by
  unfold State.frontRecord
  repeat' first
    | with_reducible assumption
    | with_reducible apply State.journalAdd_memOk

theorem frontPack_memOk (s : State) (n : Nat) (h0 : State.memOk s) :
    State.memOk (frontPack s n) := by
  unfold frontPack
  repeat' first
    | with_reducible assumption
    | with_reducible apply State.setSlot_memOk
    | with_reducible apply State.freeSearch_memOk
    | with_reducible apply State.frontCounts_memOk
    | with_reducible apply State.frontRecord_memOk
    | intro _
    | with_reducible apply memOk_ite
    | with_reducible apply memOk_ite_fst
    | with_reducible apply memOk_ite_snd
    | split
    | dsimp only
    | with_reducible apply memOk_mem
    | with_reducible apply memOk_mk

/-! ### Replay -/

theorem State.replayPrompt_memOk (s : State) (n : Nat) (h0 : State.memOk s) :
    ∀ out, (State.replayPrompt s n) = some out → State.memOk out := by
  unfold State.replayPrompt
  intro out ht
  repeat' first
    | with_reducible assumption
    | contradiction
    | (simp only [Option.some.injEq, Prod.mk.injEq] at ht)
    | (obtain ⟨rfl, rfl, rfl⟩ := ht)
    | (obtain ⟨rfl, rfl⟩ := ht)
    | subst ht
    | split at ht
    | dsimp only at ht
    | with_reducible apply State.setSlot_memOk

theorem State.replayRows_memOk (s : State) (n again upto : Nat) (h0 : State.memOk s) :
    State.memOk (State.replayRows s n again upto).1 := by
  unfold State.replayRows
  repeat' first
    | with_reducible assumption
    | with_reducible apply State.kvRows_memOk
    | with_reducible apply State.kvCovered_memOk
    | with_reducible apply State.kvPrefill_memOk
    | intro _
    | with_reducible apply memOk_ite
    | with_reducible apply memOk_ite_fst

theorem State.replayPages_memOk (s : State) (n : Nat) (unreadable : List Nat) (h0 : State.memOk s) :
    State.memOk (State.replayPages s n unreadable) := by
  unfold State.replayPages
  repeat' first
    | with_reducible assumption
    | with_reducible apply shareLookup_memOk
    | with_reducible apply State.kvRestore_memOk
    | intro _
    | with_reducible apply memOk_ite

theorem State.replayDone_memOk (s : State) (n : Nat) (h0 : State.memOk s) :
    State.memOk (State.replayDone s n) := by
  unfold State.replayDone
  repeat' first
    | with_reducible assumption
    | with_reducible apply State.setSlot_memOk
    | with_reducible apply State.beginDrain_memOk
    | with_reducible apply State.endRequest_memOk
    | intro _
    | split
    | dsimp only

theorem State.replayKept_memOk (s : State) (n : Nat) (steps : List (List Nat)) (unreadable : List Nat) (tiller : Nat) (h0 : State.memOk s) :
    State.memOk (State.replayKept s n steps unreadable tiller) := by
  unfold State.replayKept
  repeat' first
    | with_reducible assumption
    | with_reducible apply State.setSlot_memOk
    | with_reducible apply State.postFault_memOk
    | with_reducible apply State.endRequest_memOk
    | with_reducible apply State.replayRows_memOk
    | with_reducible apply State.replayPages_memOk
    | with_reducible apply State.replayDone_memOk
    | intro _
    | with_reducible apply memOk_ite

theorem State.replayToken_memOk (s : State) (n tok : Nat) (first : Bool) (h0 : State.memOk s) :
    State.memOk (State.replayToken s n tok first) := by
  unfold State.replayToken
  repeat' first
    | with_reducible assumption
    | with_reducible apply State.setSlot_memOk
    | with_reducible apply State.pushRec_memOk
    | with_reducible apply State.detokCount_memOk
    | with_reducible apply memOk_foldl
    | with_reducible apply memOk_foldl_fst
    | with_reducible apply memOk_foldl_snd
    | intro _
    | with_reducible apply memOk_ite

theorem State.replayStep_memOk (s : State) (n : Nat) (st : List Nat) (h0 : State.memOk s) :
    State.memOk (State.replayStep s n st) := by
  unfold State.replayStep
  repeat' first
    | with_reducible assumption
    | with_reducible apply State.setSlot_memOk
    | with_reducible apply State.kvRows_memOk
    | with_reducible apply State.replayToken_memOk
    | with_reducible apply memOk_foldl
    | with_reducible apply memOk_foldl_fst
    | with_reducible apply memOk_foldl_snd
    | intro _
    | with_reducible apply memOk_ite

theorem State.replayFresh_memOk (s : State) (n : Nat) (steps : List (List Nat)) (h0 : State.memOk s) :
    State.memOk (State.replayFresh s n steps) := by
  unfold State.replayFresh
  repeat' first
    | with_reducible assumption
    | with_reducible apply State.setSlot_memOk
    | with_reducible apply State.replayRows_memOk
    | with_reducible apply State.replayPages_memOk
    | with_reducible apply State.replayDone_memOk
    | with_reducible apply State.replayStep_memOk
    | with_reducible apply memOk_foldl
    | with_reducible apply memOk_foldl_fst
    | with_reducible apply memOk_foldl_snd
    | intro _
    | with_reducible apply memOk_ite

theorem replayCatchUp_memOk (s : State) (n : Nat) (steps : List (List Nat)) (unreadable : List Nat) (tiller : Nat) (h0 : State.memOk s) :
    State.memOk (replayCatchUp s n steps unreadable tiller) := by
  unfold replayCatchUp
  repeat' first
    | with_reducible assumption
    | with_reducible apply State.beginDrain_memOk
    | (with_reducible refine State.replayPrompt_memOk _ _ ?_ _ (by assumption))
    | with_reducible apply State.replayKept_memOk
    | with_reducible apply State.replayFresh_memOk
    | intro _
    | with_reducible apply memOk_ite
    | split

end Sys2Proof.Machine
end

