-- ==== Sys2Proof/Laws/KeepsMedia.lean ====
section
/-! SUPPORT. Every operation of these files keeps the memory in its canonical form: the Windlass, Ziori and the check units. -/

namespace Sys2Proof.Machine

/-! ### Windlass -/

theorem eraseIntent_memOk (s : State) (w loc : Nat) (h0 : State.memOk s) :
    State.memOk (eraseIntent s w loc) := by
  unfold eraseIntent
  repeat' first
    | with_reducible assumption
    | with_reducible apply State.setBlock_memOk
    | intro _
    | with_reducible apply memOk_ite
    | split
    | dsimp only
    | with_reducible apply memOk_mem
    | with_reducible apply memOk_mk

theorem eraseIssue_memOk (s : State) (loc : Nat) (h0 : State.memOk s) :
    State.memOk (eraseIssue s loc) := by
  unfold eraseIssue
  repeat' first
    | with_reducible assumption
    | with_reducible apply State.setBlock_memOk
    | with_reducible apply State.eraseQueue_memOk
    | intro _
    | with_reducible apply memOk_ite
    | split
    | dsimp only
    | with_reducible apply memOk_mem
    | with_reducible apply memOk_mk

theorem State.countErase_memOk (s : State) (k : Nat) (tlc : Bool) (h0 : State.memOk s) :
    State.memOk (State.countErase s k tlc) := by
  unfold State.countErase
  repeat' first
    | with_reducible assumption
    | with_reducible apply State.bumpWide_memOk
    | with_reducible apply State.setWell_memOk

theorem eraseComplete_memOk (s : State) (loc : Nat) (ok : Bool) (h0 : State.memOk s) :
    State.memOk (eraseComplete s loc ok) := by
  unfold eraseComplete
  repeat' first
    | with_reducible assumption
    | with_reducible apply State.event_memOk
    | with_reducible apply State.setBlock_memOk
    | with_reducible apply State.eraseLeaves_memOk
    | with_reducible apply State.retireBlock_memOk
    | with_reducible apply State.countErase_memOk
    | with_reducible apply Memory.wf_clear
    | intro _
    | with_reducible apply memOk_ite
    | split
    | dsimp only
    | with_reducible apply memOk_mem
    | with_reducible apply memOk_mk

theorem State.noteRebuilt_memOk (s : State) (k n : Nat) (h0 : State.memOk s) :
    State.memOk (State.noteRebuilt s k n) := by
  unfold State.noteRebuilt
  repeat' first
    | with_reducible assumption
    | with_reducible apply State.bumpWide_memOk
    | with_reducible apply State.event_memOk
    | intro _
    | with_reducible apply memOk_ite

theorem State.moveKeys_memOk (s : State) (keys : List Nat) (well : Nat) (h0 : State.memOk s) :
    State.memOk (State.moveKeys s keys well) := by
  unfold State.moveKeys
  repeat' first
    | with_reducible assumption
    | with_reducible apply State.programOn_memOk
    | with_reducible apply memOk_foldl
    | with_reducible apply memOk_foldl_fst
    | with_reducible apply memOk_foldl_snd
    | intro _

theorem State.moveGroup_memOk (s : State) (k well : Nat) (h0 : State.memOk s) :
    State.memOk (State.moveGroup s k well) := by
  unfold State.moveGroup
  repeat' first
    | with_reducible assumption
    | with_reducible apply State.store_memOk
    | with_reducible apply State.setBlock_memOk
    | (with_reducible refine State.takeBlock_memOk _ _ _ _ ?_ _ _ (by assumption))
    | with_reducible apply State.programmed_memOk
    | with_reducible apply Memory.wf_copy
    | intro _
    | with_reducible apply memOk_ite
    | split
    | dsimp only
    | with_reducible apply memOk_mem
    | with_reducible apply memOk_mk

theorem blockVerify_memOk (s : State) (loc : Nat) (failing : List Nat) (h0 : State.memOk s) :
    State.memOk (blockVerify s loc failing) := by
  unfold blockVerify
  repeat' first
    | with_reducible assumption
    | with_reducible apply State.setBlock_memOk
    | with_reducible apply State.noteRebuilt_memOk
    | with_reducible apply State.moveKeys_memOk
    | with_reducible apply State.moveGroup_memOk
    | intro _
    | with_reducible apply memOk_ite

theorem reclaim_memOk (s : State) (well part : Nat) (h0 : State.memOk s) :
    State.memOk (reclaim s well part) := by
  unfold reclaim
  repeat' first
    | with_reducible assumption
    | with_reducible apply State.bumpWide_memOk
    | with_reducible apply State.setBlock_memOk
    | with_reducible apply State.moveKeys_memOk
    | intro _
    | with_reducible apply memOk_ite
    | with_reducible apply memOk_ite_fst
    | with_reducible apply memOk_ite_snd
    | split
    | dsimp only

theorem programFail_memOk (s : State) (loc : Nat) (erase : Bool) (h0 : State.memOk s) :
    State.memOk (programFail s loc erase) := by
  unfold programFail
  repeat' first
    | with_reducible assumption
    | with_reducible apply State.event_memOk
    | with_reducible apply State.setBlock_memOk
    | with_reducible apply State.eraseLeaves_memOk
    | with_reducible apply State.retireBlock_memOk
    | with_reducible apply State.countErase_memOk
    | with_reducible apply State.noteRebuilt_memOk
    | with_reducible apply State.moveKeys_memOk
    | with_reducible apply State.moveGroup_memOk
    | intro _
    | with_reducible apply memOk_ite
    | split
    | dsimp only
    | with_reducible apply memOk_mem
    | with_reducible apply memOk_mk

theorem readOnlyEntry_memOk (s : State) (well : Nat) (h0 : State.memOk s) :
    State.memOk (readOnlyEntry s well) := by
  unfold readOnlyEntry
  repeat' first
    | with_reducible assumption
    | with_reducible apply State.event_memOk
    | with_reducible apply memOk_foldl
    | intro _
    | with_reducible apply memOk_ite
    | split
    | dsimp only
    | with_reducible apply memOk_mem
    | with_reducible apply memOk_mk

theorem holdupMeasure_memOk (s : State) (dj : Nat) (h0 : State.memOk s) :
    State.memOk (holdupMeasure s dj) := by
  unfold holdupMeasure
  repeat' first
    | with_reducible assumption
    | with_reducible apply State.setRegN_memOk
    | with_reducible apply State.event_memOk
    | with_reducible apply memOk_foldl
    | intro _
    | with_reducible apply memOk_ite
    | split
    | dsimp only
    | with_reducible apply memOk_mem
    | with_reducible apply memOk_mk

theorem mapCheckpoint_memOk (s : State) (h0 : State.memOk s) :
    State.memOk (mapCheckpoint s) := by
  unfold mapCheckpoint
  repeat' first
    | with_reducible assumption
    | intro _
    | with_reducible apply memOk_ite
    | split
    | dsimp only
    | with_reducible apply memOk_mem
    | with_reducible apply memOk_mk

theorem State.placeStream_memOk (s : State) (w copy : Nat) (h0 : State.memOk s) :
    State.memOk (State.placeStream s w copy) := by
  unfold State.placeStream
  repeat' first
    | with_reducible assumption
    | intro _
    | split
    | dsimp only
    | with_reducible apply memOk_mem
    | with_reducible apply memOk_mk

theorem State.moveStreams_memOk (s : State) (well : Nat) (h0 : State.memOk s) :
    State.memOk (State.moveStreams s well) := by
  unfold State.moveStreams
  repeat' first
    | with_reducible assumption
    | with_reducible apply State.placeStream_memOk
    | with_reducible apply memOk_foldl
    | intro _
    | with_reducible apply memOk_ite

theorem State.markSingle_memOk (s : State) (well : Nat) (h0 : State.memOk s) :
    State.memOk (State.markSingle s well) := by
  unfold State.markSingle
  repeat' first
    | with_reducible assumption
    | intro _
    | with_reducible apply memOk_ite
    | with_reducible apply memOk_ite_fst
    | with_reducible apply memOk_ite_snd
    | split
    | dsimp only
    | with_reducible apply memOk_mem
    | with_reducible apply memOk_mk

theorem State.loseBacking_memOk (s : State) (h0 : State.memOk s) :
    State.memOk (State.loseBacking s) := by
  unfold State.loseBacking
  repeat' first
    | with_reducible assumption
    | with_reducible apply State.setPte_memOk
    | with_reducible apply memOk_foldl
    | with_reducible apply memOk_foldl_fst
    | with_reducible apply memOk_foldl_snd
    | intro _
    | with_reducible apply memOk_ite
    | with_reducible apply memOk_ite_fst
    | with_reducible apply memOk_ite_snd
    | split

theorem State.loseSpilled_memOk (s : State) (h0 : State.memOk s) :
    State.memOk (State.loseSpilled s) := h0

theorem State.wellFailure_memOk (s : State) (n : Nat) (h0 : State.memOk s) :
    State.memOk (State.wellFailure s n) := by
  unfold State.wellFailure
  repeat' first
    | with_reducible assumption
    | with_reducible apply State.postFault_memOk
    | with_reducible apply State.setWell_memOk
    | with_reducible apply State.settlePlanes_memOk
    | with_reducible apply State.searchWellLost_memOk
    | with_reducible apply State.moveStreams_memOk
    | with_reducible apply State.markSingle_memOk
    | with_reducible apply State.loseBacking_memOk
    | with_reducible apply State.loseSpilled_memOk
    | intro _
    | with_reducible apply memOk_ite

theorem State.staleOn_memOk (s : State) (well g : Nat) (h0 : State.memOk s) :
    State.memOk (State.staleOn s well g) := by
  unfold State.staleOn
  repeat' first
    | with_reducible assumption
    | with_reducible apply State.setGen_memOk
    | intro _
    | with_reducible apply memOk_ite

theorem wellReturn_memOk (s : State) (n : Nat) (h0 : State.memOk s) :
    State.memOk (wellReturn s n) := by
  unfold wellReturn
  repeat' first
    | with_reducible assumption
    | with_reducible apply State.setWell_memOk
    | with_reducible apply State.staleOn_memOk
    | with_reducible apply memOk_foldl
    | with_reducible apply memOk_foldl_fst
    | with_reducible apply memOk_foldl_snd
    | intro _
    | with_reducible apply memOk_ite
    | with_reducible apply memOk_ite_fst
    | with_reducible apply memOk_ite_snd
    | split
    | dsimp only
    | with_reducible apply memOk_mem
    | with_reducible apply memOk_mk

theorem State.setImage_memOk (s : State) (id : Nat) (x : ModelImage) (h0 : State.memOk s) :
    State.memOk (State.setImage s id x) := h0

theorem imageCreate_memOk (s : State) (req : Requester) (id : Nat) (h0 : State.memOk s) :
    State.memOk (imageCreate s req id) := by
  unfold imageCreate
  repeat' first
    | with_reducible assumption
    | with_reducible apply State.cmdDone_memOk
    | with_reducible apply State.modCommand_memOk
    | with_reducible apply State.setImage_memOk
    | intro _
    | with_reducible apply memOk_ite

theorem imageWrite_memOk (s : State) (req : Requester) (id : Nat) (h0 : State.memOk s) :
    State.memOk (imageWrite s req id) := by
  unfold imageWrite
  repeat' first
    | with_reducible assumption
    | with_reducible apply State.writeLogical_memOk
    | with_reducible apply State.cmdDone_memOk
    | with_reducible apply State.modCommand_memOk
    | with_reducible apply State.setImage_memOk
    | with_reducible apply Memory.wf_copy
    | with_reducible apply memOk_foldl
    | with_reducible apply memOk_foldl_fst
    | with_reducible apply memOk_foldl_snd
    | with_reducible apply wf_foldl
    | intro _
    | with_reducible apply memOk_ite
    | with_reducible apply memOk_ite_fst
    | with_reducible apply memOk_ite_snd
    | split
    | dsimp only
    | with_reducible apply memOk_mem
    | with_reducible apply memOk_mk

theorem imageSeal_memOk (s : State) (req : Requester) (id : Nat) (h0 : State.memOk s) :
    State.memOk (imageSeal s req id) := by
  unfold imageSeal
  repeat' first
    | with_reducible assumption
    | with_reducible apply State.cmdDone_memOk
    | with_reducible apply State.modCommand_memOk
    | with_reducible apply State.setImage_memOk
    | intro _
    | with_reducible apply memOk_ite
    | with_reducible apply memOk_ite_fst
    | with_reducible apply memOk_ite_snd
    | split

theorem imageDelete_memOk (s : State) (req : Requester) (id : Nat) (h0 : State.memOk s) :
    State.memOk (imageDelete s req id) := by
  unfold imageDelete
  repeat' first
    | with_reducible assumption
    | with_reducible apply State.discard_memOk
    | with_reducible apply State.cmdDone_memOk
    | with_reducible apply State.modCommand_memOk
    | intro _
    | with_reducible apply memOk_ite
    | with_reducible apply memOk_ite_fst
    | with_reducible apply memOk_ite_snd
    | split
    | dsimp only
    | with_reducible apply memOk_mem
    | with_reducible apply memOk_mk

theorem layout_memOk (s : State) (req : Requester) (h0 : State.memOk s) :
    State.memOk (layout s req) := by
  unfold layout
  repeat' first
    | with_reducible assumption
    | with_reducible apply State.cmdDone_memOk
    | with_reducible apply State.modCommand_memOk
    | intro _
    | with_reducible apply memOk_ite
    | with_reducible apply memOk_ite_fst
    | with_reducible apply memOk_ite_snd
    | split
    | dsimp only
    | with_reducible apply memOk_mem
    | with_reducible apply memOk_mk

/-! ### Ziori -/

theorem State.zioUnreach_memOk (s : State) (port n : Nat) (h0 : State.memOk s) :
    State.memOk (State.zioUnreach s port n) := by
  unfold State.zioUnreach
  repeat' first
    | with_reducible assumption
    | with_reducible apply State.bump_memOk

theorem State.zioArrived_memOk (s : State) (port n : Nat) (h0 : State.memOk s) :
    State.memOk (State.zioArrived s port n) := by
  unfold State.zioArrived
  repeat' first
    | with_reducible assumption
    | with_reducible apply State.bumpWide_memOk
    | with_reducible apply State.setZport_memOk

theorem State.zioForward_memOk (s : State) (m : ZioMsg) (h0 : State.memOk s) :
    State.memOk (State.zioForward s m) := by
  unfold State.zioForward
  repeat' first
    | with_reducible assumption
    | with_reducible apply State.bumpWide_memOk
    | with_reducible apply State.setZport_memOk

theorem State.zioAdvance_memOk (s : State) (m : ZioMsg) (h0 : State.memOk s) :
    State.memOk (State.zioAdvance s m) := by
  unfold State.zioAdvance
  repeat' first
    | with_reducible assumption
    | with_reducible apply State.advance_memOk
    | intro _
    | with_reducible apply memOk_ite

theorem State.zioTake_memOk (s : State) (m : ZioMsg) (op : Nat) (spaces : List Nat) (f : State → State) (h0 : State.memOk s) (hf0 : ∀ (t : State), State.memOk t → State.memOk (f t)) :
    State.memOk (State.zioTake s m op spaces f) := by
  unfold State.zioTake
  repeat' first
    | with_reducible assumption
    | with_reducible apply State.zioUnreach_memOk
    | with_reducible apply State.zioArrived_memOk
    | with_reducible apply State.zioForward_memOk
    | with_reducible apply hf0
    | intro _
    | with_reducible apply memOk_ite
    | split
    | dsimp only
    | with_reducible apply memOk_mem
    | with_reducible apply memOk_mk

theorem zioWrite_memOk (s : State) (m : ZioMsg) (h0 : State.memOk s) :
    State.memOk (zioWrite s m) := by
  unfold zioWrite
  repeat' first
    | with_reducible assumption
    | with_reducible apply State.store_memOk
    | with_reducible apply State.sramWrite_memOk
    | with_reducible apply State.leg_memOk
    | with_reducible apply State.zioUnreach_memOk
    | with_reducible apply State.zioAdvance_memOk
    | with_reducible apply State.zioTake_memOk
    | intro _
    | with_reducible apply memOk_ite

theorem zioPartial_memOk (s : State) (m : ZioMsg) (h0 : State.memOk s) :
    State.memOk (zioPartial s m) := by
  unfold zioPartial
  repeat' first
    | with_reducible assumption
    | with_reducible apply State.setTiller_memOk
    | with_reducible apply State.leg_memOk
    | with_reducible apply State.zioUnreach_memOk
    | with_reducible apply State.zioTake_memOk
    | with_reducible apply memOk_foldl
    | intro _
    | with_reducible apply memOk_ite

theorem zioCtrAdd_memOk (s : State) (m : ZioMsg) (h0 : State.memOk s) :
    State.memOk (zioCtrAdd s m) := by
  unfold zioCtrAdd
  repeat' first
    | with_reducible assumption
    | with_reducible apply State.drawWord_memOk
    | with_reducible apply State.advance_memOk
    | with_reducible apply State.zioTake_memOk
    | intro _

theorem zioCommand_memOk (s : State) (m : ZioMsg) (h0 : State.memOk s) :
    State.memOk (zioCommand s m) := by
  unfold zioCommand
  repeat' first
    | with_reducible assumption
    | with_reducible apply State.receive_memOk
    | with_reducible apply State.zioAdvance_memOk
    | with_reducible apply State.zioTake_memOk
    | intro _

theorem zioRecord_memOk (s : State) (m : ZioMsg) (h0 : State.memOk s) :
    State.memOk (zioRecord s m) := by
  unfold zioRecord
  repeat' first
    | with_reducible assumption
    | with_reducible apply State.zioAdvance_memOk
    | with_reducible apply State.zioTake_memOk
    | intro _
    | split
    | dsimp only
    | with_reducible apply memOk_mem
    | with_reducible apply memOk_mk

theorem State.zioAck_memOk (s : State) (dst vc eack : Nat) (h0 : State.memOk s) :
    State.memOk (State.zioAck s dst vc eack) := by
  unfold State.zioAck
  repeat' first
    | with_reducible assumption
    | intro _
    | with_reducible apply memOk_ite
    | split
    | dsimp only
    | with_reducible apply memOk_mem
    | with_reducible apply memOk_mk

theorem zioCtrl_memOk (s : State) (port vc credits : Nat) (nak : Bool) (lseq src dst eack : Nat) (h0 : State.memOk s) :
    State.memOk (zioCtrl s port vc credits nak lseq src dst eack) := by
  unfold zioCtrl
  repeat' first
    | with_reducible assumption
    | with_reducible apply State.bumpWide_memOk
    | with_reducible apply State.setZport_memOk
    | with_reducible apply State.zioPump_memOk
    | with_reducible apply State.zioAck_memOk
    | intro _
    | with_reducible apply memOk_ite

theorem headerCrcNak_memOk (s : State) (port : Nat) (h0 : State.memOk s) :
    State.memOk (headerCrcNak s port) := by
  unfold headerCrcNak
  repeat' first
    | with_reducible assumption
    | with_reducible apply State.bumpWide_memOk
    | with_reducible apply State.event_memOk
    | with_reducible apply State.setZport_memOk
    | intro _
    | with_reducible apply memOk_ite

theorem e2eResend_memOk (s : State) (port : Nat) (h0 : State.memOk s) :
    State.memOk (e2eResend s port) := by
  unfold e2eResend
  repeat' first
    | with_reducible assumption
    | with_reducible apply State.bumpWide_memOk
    | with_reducible apply State.zioPump_memOk
    | intro _
    | with_reducible apply memOk_ite
    | split
    | dsimp only
    | with_reducible apply memOk_mem
    | with_reducible apply memOk_mk

theorem streamTeardown_memOk (s : State) (dst vc w : Nat) (h0 : State.memOk s) :
    State.memOk (streamTeardown s dst vc w) := by
  unfold streamTeardown
  repeat' first
    | with_reducible assumption
    | with_reducible apply State.bump_memOk
    | with_reducible apply State.err_memOk
    | with_reducible apply State.zioPump_memOk
    | intro _
    | with_reducible apply memOk_ite
    | split
    | dsimp only
    | with_reducible apply memOk_mem
    | with_reducible apply memOk_mk

theorem frameMarkSend_memOk (s : State) (port phase : Nat) (h0 : State.memOk s) :
    State.memOk (frameMarkSend s port phase) := by
  unfold frameMarkSend
  repeat' first
    | with_reducible assumption
    | with_reducible apply State.bumpWide_memOk
    | with_reducible apply State.answer_memOk
    | with_reducible apply State.setZport_memOk
    | intro _
    | with_reducible apply memOk_ite

theorem State.retime_memOk (s : State) (h0 : State.memOk s) :
    State.memOk (State.retime s) := h0

theorem frameMarkReceive_memOk (s : State) (m : FrameMark) (h0 : State.memOk s) :
    State.memOk (frameMarkReceive s m) := by
  unfold frameMarkReceive
  repeat' first
    | with_reducible assumption
    | with_reducible apply State.setZpair_memOk
    | with_reducible apply State.zioArrived_memOk
    | intro _
    | with_reducible apply memOk_ite
    | with_reducible apply memOk_ite_fst
    | with_reducible apply memOk_ite_snd
    | split
    | dsimp only
    | with_reducible apply memOk_mem
    | with_reducible apply memOk_mk

theorem State.pairCtlWrite_memOk (s : State) (i v : Nat) (h0 : State.memOk s) :
    State.memOk (State.pairCtlWrite s i v) := by
  unfold State.pairCtlWrite
  repeat' first
    | with_reducible assumption
    | with_reducible apply State.setRegN_memOk
    | with_reducible apply State.err_memOk
    | with_reducible apply State.setZpair_memOk
    | intro _
    | with_reducible apply memOk_ite

theorem joinClear_memOk (s : State) (req : Requester) (i : Nat) (h0 : State.memOk s) :
    State.memOk (joinClear s req i) := by
  unfold joinClear
  repeat' first
    | with_reducible assumption
    | with_reducible apply State.gated_memOk
    | with_reducible apply State.pairCtlWrite_memOk
    | intro _
    | with_reducible apply memOk_ite

theorem State.train_memOk (s : State) (p : Nat) (h0 : State.memOk s) :
    State.memOk (State.train s p) := by
  unfold State.train
  repeat' first
    | with_reducible assumption
    | with_reducible apply State.setZport_memOk
    | intro _
    | with_reducible apply memOk_ite

theorem State.beginJoin_memOk (s : State) (i : Nat) (h0 : State.memOk s) :
    State.memOk (State.beginJoin s i) := by
  unfold State.beginJoin
  repeat' first
    | with_reducible assumption
    | with_reducible apply State.setZpair_memOk
    | with_reducible apply State.train_memOk

theorem State.beginLeave_memOk (s : State) (i : Nat) (h0 : State.memOk s) :
    State.memOk (State.beginLeave s i) := by
  unfold State.beginLeave
  repeat' first
    | with_reducible assumption
    | with_reducible apply State.setZpair_memOk
    | with_reducible apply State.retime_memOk

theorem State.checkMarks_memOk (s : State) (i : Nat) (m : FrameMark) (h0 : State.memOk s) :
    State.memOk (State.checkMarks s i m) := by
  unfold State.checkMarks
  repeat' first
    | with_reducible assumption
    | with_reducible apply State.err_memOk
    | with_reducible apply State.setZpair_memOk
    | with_reducible apply State.beginLeave_memOk
    | intro _
    | with_reducible apply memOk_ite

theorem State.joined_memOk (s : State) (i : Nat) (m : FrameMark) (h0 : State.memOk s) :
    State.memOk (State.joined s i m) := by
  unfold State.joined
  repeat' first
    | with_reducible assumption
    | with_reducible apply State.event_memOk
    | with_reducible apply State.setZpair_memOk
    | with_reducible apply State.zioPump_memOk
    | with_reducible apply State.retime_memOk
    | intro _
    | with_reducible apply memOk_ite
    | with_reducible apply memOk_ite_fst
    | with_reducible apply memOk_ite_snd
    | split
    | dsimp only
    | with_reducible apply memOk_mem
    | with_reducible apply memOk_mk

theorem pairJoin_memOk (s : State) (i : Nat) (mark : Option FrameMark) (h0 : State.memOk s) :
    State.memOk (pairJoin s i mark) := by
  unfold pairJoin
  repeat' first
    | with_reducible assumption
    | with_reducible apply State.beginJoin_memOk
    | with_reducible apply State.checkMarks_memOk
    | with_reducible apply State.joined_memOk
    | intro _
    | with_reducible apply memOk_ite
    | split

theorem State.closePair_memOk (s : State) (i : Nat) (h0 : State.memOk s) :
    State.memOk (State.closePair s i) := by
  unfold State.closePair
  repeat' first
    | with_reducible assumption
    | with_reducible apply State.event_memOk
    | with_reducible apply State.setZpair_memOk
    | with_reducible apply State.retime_memOk
    | with_reducible apply State.train_memOk

theorem pairLeave_memOk (s : State) (i : Nat) (h0 : State.memOk s) :
    State.memOk (pairLeave s i) := by
  unfold pairLeave
  repeat' first
    | with_reducible assumption
    | with_reducible apply State.beginLeave_memOk
    | with_reducible apply State.closePair_memOk
    | intro _
    | with_reducible apply memOk_ite

theorem timingLeave_memOk (s : State) (h0 : State.memOk s) :
    State.memOk (timingLeave s) := by
  unfold timingLeave
  repeat' first
    | with_reducible assumption
    | with_reducible apply State.event_memOk
    | with_reducible apply State.postFault_memOk
    | with_reducible apply State.setZpair_memOk
    | with_reducible apply memOk_foldl
    | intro _
    | with_reducible apply memOk_ite
    | split
    | dsimp only
    | with_reducible apply memOk_mem
    | with_reducible apply memOk_mk

theorem State.failPort_memOk (s : State) (p : Nat) (h0 : State.memOk s) :
    State.memOk (State.failPort s p) := by
  unfold State.failPort
  repeat' first
    | with_reducible assumption
    | with_reducible apply State.event_memOk
    | with_reducible apply State.postFault_memOk
    | with_reducible apply State.setZport_memOk
    | with_reducible apply State.setZpair_memOk
    | with_reducible apply State.retime_memOk
    | intro _
    | with_reducible apply memOk_ite

theorem laneDrop_memOk (s : State) (p lane : Nat) (h0 : State.memOk s) :
    State.memOk (laneDrop s p lane) := by
  unfold laneDrop
  repeat' first
    | with_reducible assumption
    | with_reducible apply State.event_memOk
    | with_reducible apply State.postFault_memOk
    | with_reducible apply State.setZport_memOk
    | with_reducible apply State.train_memOk
    | with_reducible apply State.failPort_memOk
    | intro _
    | with_reducible apply memOk_ite

theorem portTrainRetry_memOk (s : State) (p : Nat) (trained : Bool) (h0 : State.memOk s) :
    State.memOk (portTrainRetry s p trained) := by
  unfold portTrainRetry
  repeat' first
    | with_reducible assumption
    | with_reducible apply State.setZport_memOk
    | intro _
    | with_reducible apply memOk_ite

theorem portQuarantineEnd_memOk (s : State) (p : Nat) (pass : Bool) (h0 : State.memOk s) :
    State.memOk (portQuarantineEnd s p pass) := by
  unfold portQuarantineEnd
  repeat' first
    | with_reducible assumption
    | with_reducible apply State.setZport_memOk
    | with_reducible apply State.setZpair_memOk
    | with_reducible apply State.zioPump_memOk
    | with_reducible apply State.beginJoin_memOk
    | intro _
    | with_reducible apply memOk_ite

theorem zioriPortTrained_memOk (s : State) (p lanes peer delay : Nat) (h0 : State.memOk s) :
    State.memOk (zioriPortTrained s p lanes peer delay) := by
  unfold zioriPortTrained
  repeat' first
    | with_reducible assumption
    | with_reducible apply State.setZport_memOk
    | with_reducible apply State.zioPump_memOk
    | intro _
    | with_reducible apply memOk_ite

theorem State.nodeWrite_memOk (s : State) (v : Nat) (h0 : State.memOk s) :
    State.memOk (State.nodeWrite s v) := by
  unfold State.nodeWrite
  repeat' first
    | with_reducible assumption
    | with_reducible apply State.setRegN_memOk
    | with_reducible apply State.err_memOk
    | intro _
    | with_reducible apply memOk_ite

theorem nodeWrite_memOk (s : State) (req : Requester) (v : Nat) (h0 : State.memOk s) :
    State.memOk (nodeWrite s req v) := by
  unfold nodeWrite
  repeat' first
    | with_reducible assumption
    | with_reducible apply State.gated_memOk
    | with_reducible apply State.nodeWrite_memOk
    | intro _

/-! ### Check -/

theorem State.setChk_memOk (s : State) (u : Nat) (x : ChkUnit) (h0 : State.memOk s) :
    State.memOk (State.setChk s u x) := h0

theorem State.chkWrite_memOk (s : State) (req : Requester) (u : Nat) (f : State → ChkUnit → State) (h0 : State.memOk s) (hf0 : ∀ (t : State) (a1 : ChkUnit), State.memOk t → State.memOk (f t a1)) :
    State.memOk (State.chkWrite s req u f) := by
  unfold State.chkWrite
  repeat' first
    | with_reducible assumption
    | with_reducible apply State.err_memOk
    | with_reducible apply State.gated_memOk
    | with_reducible apply hf0
    | intro _
    | with_reducible apply memOk_ite

theorem State.chkFeed_memOk (s : State) (req : Requester) (u n v : Nat) (h0 : State.memOk s) :
    State.memOk (State.chkFeed s req u n v) := by
  unfold State.chkFeed
  repeat' first
    | with_reducible assumption
    | with_reducible apply State.bumpWide_memOk
    | with_reducible apply State.setChk_memOk
    | with_reducible apply State.chkWrite_memOk
    | intro _
    | with_reducible apply memOk_ite

theorem chkRestart_memOk (s : State) (req : Requester) (u : Nat) (h0 : State.memOk s) :
    State.memOk (chkRestart s req u) := by
  unfold chkRestart
  repeat' first
    | with_reducible assumption
    | with_reducible apply State.setChk_memOk
    | with_reducible apply State.chkWrite_memOk
    | intro _
    | with_reducible apply memOk_ite

theorem chkCfgWrite_memOk (s : State) (req : Requester) (u v : Nat) (h0 : State.memOk s) :
    State.memOk (chkCfgWrite s req u v) := by
  unfold chkCfgWrite
  repeat' first
    | with_reducible assumption
    | with_reducible apply State.err_memOk
    | with_reducible apply State.setChk_memOk
    | with_reducible apply State.chkWrite_memOk
    | intro _
    | with_reducible apply memOk_ite

theorem State.chkParam_memOk (s : State) (u word v : Nat) (h0 : State.memOk s) :
    State.memOk (State.chkParam s u word v) := by
  unfold State.chkParam
  repeat' first
    | with_reducible assumption
    | with_reducible apply State.err_memOk
    | with_reducible apply State.setChk_memOk
    | intro _
    | with_reducible apply memOk_ite
    | split

theorem State.scanRun_memOk (s : State) (x : ChkUnit) (d : List Byte) (h0 : State.memOk s) :
    State.memOk (State.scanRun s x d).1 := by
  unfold State.scanRun
  repeat' first
    | with_reducible assumption
    | with_reducible apply State.store_memOk
    | intro _
    | with_reducible apply memOk_ite
    | with_reducible apply memOk_ite_fst
    | with_reducible apply memOk_ite_snd
    | split

theorem State.scanGo_memOk (s : State) (req : Requester) (u op : Nat) (h0 : State.memOk s) :
    State.memOk (State.scanGo s req u op) := by
  unfold State.scanGo
  repeat' first
    | with_reducible assumption
    | with_reducible apply State.bumpWide_memOk
    | with_reducible apply State.setChk_memOk
    | with_reducible apply State.chkWrite_memOk
    | with_reducible apply State.scanRun_memOk
    | intro _
    | with_reducible apply memOk_ite

theorem chkScanDone_memOk (s : State) (u : Nat) (h0 : State.memOk s) :
    State.memOk (chkScanDone s u) := by
  unfold chkScanDone
  repeat' first
    | with_reducible assumption
    | with_reducible apply State.bumpWide_memOk
    | with_reducible apply State.event_memOk
    | with_reducible apply State.advanceFld_memOk
    | with_reducible apply State.setChk_memOk
    | intro _
    | with_reducible apply memOk_ite
    | split
    | dsimp only

end Sys2Proof.Machine
end

