-- ==== Sys2Proof/Laws/KeepsModule.lean ====
section
/-! SUPPORT. Every operation of these files keeps the memory in its canonical form: paddocks, losses, faults, clocks, start-up and the stroke. -/

namespace Sys2Proof.Machine

/-! ### Paddock -/

theorem State.setClk_memOk (s : State) (d : Nat) (x : ClkDie) (h0 : State.memOk s) :
    State.memOk (State.setClk s d x) := h0

theorem State.askPoint_memOk (s : State) (t op off : Nat) (h0 : State.memOk s) :
    State.memOk (State.askPoint s t op off) := by
  unfold State.askPoint
  repeat' first
    | with_reducible assumption
    | with_reducible apply State.event_memOk
    | with_reducible apply State.setClk_memOk
    | intro _
    | with_reducible apply memOk_ite

theorem State.setPoints_memOk (s : State) (h0 : State.memOk s) :
    State.memOk (State.setPoints s) := by
  unfold State.setPoints
  repeat' first
    | with_reducible assumption
    | with_reducible apply State.setClk_memOk
    | with_reducible apply State.askPoint_memOk
    | with_reducible apply memOk_foldl
    | intro _
    | with_reducible apply memOk_ite

theorem State.copyPageTo_memOk (s : State) (job vpn : Nat) (sp : Space) (a : Nat) (h0 : State.memOk s) :
    State.memOk (State.copyPageTo s job vpn sp a) := by
  unfold State.copyPageTo
  repeat' first
    | with_reducible assumption
    | with_reducible apply State.store_memOk
    | with_reducible apply Memory.wf_clear
    | with_reducible apply Memory.wf_copy
    | intro _
    | with_reducible apply memOk_ite
    | split
    | dsimp only
    | with_reducible apply memOk_mem
    | with_reducible apply memOk_mk

theorem State.bringPage_memOk (s : State) (job vpn tier tiller loc : Nat) (pin : Bool) (h0 : State.memOk s) :
    State.memOk (State.bringPage s job vpn tier tiller loc pin) := by
  unfold State.bringPage
  repeat' first
    | with_reducible assumption
    | with_reducible apply State.setPte_memOk
    | with_reducible apply State.allocLp_memOk
    | with_reducible apply State.allocHbm_memOk
    | with_reducible apply State.freeFrame_memOk
    | with_reducible apply State.copyPageTo_memOk
    | intro _
    | with_reducible apply memOk_ite
    | with_reducible apply memOk_ite_fst
    | with_reducible apply memOk_ite_snd
    | split

theorem State.placePage_memOk (s : State) (job pad : Nat) (p : Plan) (r : Region) (vpn i : Nat) (h0 : State.memOk s) :
    State.memOk (State.placePage s job pad p r vpn i) := by
  unfold State.placePage
  repeat' first
    | with_reducible assumption
    | with_reducible apply State.pickFree_memOk
    | with_reducible apply State.bringPage_memOk
    | intro _
    | with_reducible apply memOk_ite
    | with_reducible apply memOk_ite_fst
    | with_reducible apply memOk_ite_snd
    | split

theorem State.placePool_memOk (s : State) (job pad : Nat) (p : Plan) (h0 : State.memOk s) :
    State.memOk (State.placePool s job pad p) := by
  unfold State.placePool
  repeat' first
    | with_reducible assumption
    | with_reducible apply State.placePage_memOk
    | with_reducible apply memOk_foldl
    | with_reducible apply memOk_foldl_fst
    | with_reducible apply memOk_foldl_snd
    | intro _
    | with_reducible apply memOk_ite
    | with_reducible apply memOk_ite_fst
    | with_reducible apply memOk_ite_snd
    | split
    | dsimp only

theorem State.placeJob_memOk (s : State) (job : Nat) (h0 : State.memOk s) :
    State.memOk (State.placeJob s job) := by
  unfold State.placeJob
  repeat' first
    | with_reducible assumption
    | with_reducible apply State.placePage_memOk
    | with_reducible apply State.placePool_memOk
    | with_reducible apply memOk_foldl
    | intro _
    | with_reducible apply memOk_ite
    | split

theorem State.placePad_memOk (s : State) (pad : Nat) (h0 : State.memOk s) :
    State.memOk (State.placePad s pad) := by
  unfold State.placePad
  repeat' first
    | with_reducible assumption
    | with_reducible apply State.placeJob_memOk
    | with_reducible apply memOk_foldl

theorem State.evacuate_memOk (s : State) (t : Nat) (h0 : State.memOk s) :
    State.memOk (State.evacuate s t) := by
  unfold State.evacuate
  repeat' first
    | with_reducible assumption
    | with_reducible apply State.bringPage_memOk
    | with_reducible apply memOk_foldl
    | with_reducible apply memOk_foldl_fst
    | with_reducible apply memOk_foldl_snd
    | intro _

theorem State.publishSlots_memOk (s : State) (pad : Nat) (h0 : State.memOk s) :
    State.memOk (State.publishSlots s pad) := by
  unfold State.publishSlots
  repeat' first
    | with_reducible assumption
    | with_reducible apply State.modSlot_memOk
    | with_reducible apply State.setPaddock_memOk
    | with_reducible apply memOk_foldl
    | intro _

theorem State.setRole_memOk (s : State) (t : Nat) (role : Role) (pad : Option Nat) (h0 : State.memOk s) :
    State.memOk (State.setRole s t role pad) := by
  unfold State.setRole
  repeat' first
    | with_reducible assumption
    | with_reducible apply State.setTiller_memOk

theorem State.bumpCap_memOk (s old : State) (h0 : State.memOk s) (h1 : State.memOk old) :
    State.memOk (State.bumpCap s old) := by
  unfold State.bumpCap
  repeat' first
    | with_reducible assumption
    | intro _
    | with_reducible apply memOk_ite
    | split
    | dsimp only
    | with_reducible apply memOk_mem
    | with_reducible apply memOk_mk

theorem State.idleUnits_memOk (s : State) (t : Nat) (h0 : State.memOk s) :
    State.memOk (State.idleUnits s t) := by
  unfold State.idleUnits
  repeat' first
    | with_reducible assumption
    | with_reducible apply State.setTiller_memOk
    | intro _
    | split
    | dsimp only
    | with_reducible apply memOk_mem
    | with_reducible apply memOk_mk

theorem State.powerOff_memOk (s : State) (t : Nat) (h0 : State.memOk s) :
    State.memOk (State.powerOff s t) := by
  unfold State.powerOff
  repeat' first
    | with_reducible assumption
    | with_reducible apply State.setClk_memOk
    | with_reducible apply State.setRole_memOk
    | with_reducible apply State.idleUnits_memOk
    | with_reducible apply Memory.wf_clear
    | intro _
    | dsimp only
    | with_reducible apply memOk_mem
    | with_reducible apply memOk_mk

theorem State.cmdResult_memOk (s : State) (m : CmdMsg) (result aux : Nat) (h0 : State.memOk s) :
    State.memOk (State.cmdResult s m result aux) := by
  unfold State.cmdResult
  repeat' first
    | with_reducible assumption
    | with_reducible apply State.event_memOk
    | with_reducible apply State.postRing_memOk
    | intro _
    | with_reducible apply memOk_ite
    | split

theorem State.doLoad_memOk (s : State) (m : CmdMsg) (ready : Bool) (h0 : State.memOk s) :
    State.memOk (State.doLoad s m ready).1 := by
  unfold State.doLoad
  repeat' first
    | with_reducible assumption
    | with_reducible apply State.event_memOk
    | with_reducible apply State.setPaddock_memOk
    | with_reducible apply State.putPlan_memOk
    | with_reducible apply State.placeJob_memOk
    | with_reducible apply State.publishSlots_memOk
    | intro _
    | with_reducible apply memOk_ite
    | with_reducible apply memOk_ite_fst
    | with_reducible apply memOk_ite_snd
    | split
    | dsimp only
    | with_reducible apply memOk_mem
    | with_reducible apply memOk_mk

theorem State.removeRequests_memOk (s : State) (j : Nat) (h0 : State.memOk s) :
    State.memOk (State.removeRequests s j) := by
  unfold State.removeRequests
  repeat' first
    | with_reducible assumption
    | with_reducible apply State.setSlot_memOk
    | with_reducible apply State.endRequest_memOk
    | with_reducible apply memOk_foldl
    | with_reducible apply memOk_foldl_fst
    | with_reducible apply memOk_foldl_snd
    | intro _
    | with_reducible apply memOk_ite

theorem State.unplaceJob_memOk (s : State) (j : Nat) (h0 : State.memOk s) :
    State.memOk (State.unplaceJob s j) := by
  unfold State.unplaceJob
  repeat' first
    | with_reducible assumption
    | with_reducible apply State.discard_memOk
    | with_reducible apply State.mapPtes_memOk
    | with_reducible apply State.freeFrame_memOk
    | with_reducible apply State.putPlan_memOk
    | with_reducible apply State.flushJob_memOk
    | with_reducible apply memOk_foldl
    | with_reducible apply memOk_foldl_fst
    | with_reducible apply memOk_foldl_snd
    | intro _
    | with_reducible apply memOk_ite
    | with_reducible apply memOk_ite_fst
    | with_reducible apply memOk_ite_snd
    | split
    | dsimp only
    | with_reducible apply memOk_mem
    | with_reducible apply memOk_mk

theorem State.forgetJob_memOk (s : State) (pad j : Nat) (h0 : State.memOk s) :
    State.memOk (State.forgetJob s pad j) := by
  unfold State.forgetJob
  repeat' first
    | with_reducible assumption
    | with_reducible apply State.setTiller_memOk
    | with_reducible apply State.freeShadow_memOk
    | with_reducible apply memOk_foldl
    | with_reducible apply memOk_foldl_fst
    | with_reducible apply memOk_foldl_snd
    | intro _

theorem State.retireGens_memOk (s : State) (j : Nat) (h0 : State.memOk s) :
    State.memOk (State.retireGens s j) := by
  unfold State.retireGens
  repeat' first
    | with_reducible assumption
    | with_reducible apply State.setGen_memOk
    | with_reducible apply memOk_foldl
    | intro _
    | with_reducible apply memOk_ite

theorem State.clearJob_memOk (s : State) (pad j : Nat) (h0 : State.memOk s) :
    State.memOk (State.clearJob s pad j) := by
  unfold State.clearJob
  repeat' first
    | with_reducible assumption
    | with_reducible apply State.tableDrop_memOk
    | with_reducible apply State.removeRequests_memOk
    | with_reducible apply State.unplaceJob_memOk
    | with_reducible apply State.forgetJob_memOk
    | with_reducible apply State.retireGens_memOk
    | with_reducible apply memOk_foldl
    | with_reducible apply memOk_foldl_fst
    | with_reducible apply memOk_foldl_snd
    | intro _
    | split
    | dsimp only
    | with_reducible apply memOk_mem
    | with_reducible apply memOk_mk

theorem State.unloadPlan_memOk (s : State) (j : Nat) (h0 : State.memOk s) :
    State.memOk (State.unloadPlan s j) := by
  unfold State.unloadPlan
  repeat' first
    | with_reducible assumption
    | with_reducible apply State.putPlan_memOk
    | intro _
    | split

theorem State.rerank_memOk (s : State) (pad : Nat) (h0 : State.memOk s) :
    State.memOk (State.rerank s pad) := by
  unfold State.rerank
  repeat' first
    | with_reducible assumption
    | with_reducible apply State.setPaddock_memOk
    | with_reducible apply State.placePad_memOk
    | intro _
    | with_reducible apply memOk_ite
    | split

theorem State.doRemove_memOk (s : State) (m : CmdMsg) (h0 : State.memOk s) :
    State.memOk (State.doRemove s m).1 := by
  unfold State.doRemove
  repeat' first
    | with_reducible assumption
    | with_reducible apply State.event_memOk
    | with_reducible apply State.setPaddock_memOk
    | with_reducible apply State.publishSlots_memOk
    | with_reducible apply State.clearJob_memOk
    | with_reducible apply State.unloadPlan_memOk
    | with_reducible apply State.rerank_memOk
    | intro _
    | with_reducible apply memOk_ite
    | with_reducible apply memOk_ite_fst
    | with_reducible apply memOk_ite_snd
    | split

theorem State.doWheel_memOk (s : State) (m : CmdMsg) (h0 : State.memOk s) :
    State.memOk (State.doWheel s m).1 := by
  unfold State.doWheel
  repeat' first
    | with_reducible assumption
    | with_reducible apply State.setPaddock_memOk
    | intro _
    | with_reducible apply memOk_ite
    | with_reducible apply memOk_ite_fst

theorem State.doDrain_memOk (s : State) (m : CmdMsg) (drain : Bool) (h0 : State.memOk s) :
    State.memOk (State.doDrain s m drain).1 := by
  unfold State.doDrain
  repeat' first
    | with_reducible assumption
    | with_reducible apply State.setPaddock_memOk

theorem State.unhalt_memOk (s : State) (pad : Nat) (h0 : State.memOk s) :
    State.memOk (State.unhalt s pad) := by
  unfold State.unhalt
  repeat' first
    | with_reducible assumption
    | with_reducible apply State.setPaddock_memOk
    | intro _
    | with_reducible apply memOk_ite

theorem State.doResize_memOk (s : State) (m : CmdMsg) (ready : Bool) (h0 : State.memOk s) :
    State.memOk (State.doResize s m ready).1 := by
  unfold State.doResize
  repeat' first
    | with_reducible assumption
    | with_reducible apply State.event_memOk
    | with_reducible apply State.setPaddock_memOk
    | with_reducible apply State.setPoints_memOk
    | with_reducible apply State.placePad_memOk
    | with_reducible apply State.evacuate_memOk
    | with_reducible apply State.publishSlots_memOk
    | with_reducible apply State.setRole_memOk
    | with_reducible apply State.idleUnits_memOk
    | with_reducible apply State.unhalt_memOk
    | with_reducible apply memOk_foldl
    | with_reducible apply memOk_foldl_fst
    | with_reducible apply memOk_foldl_snd
    | intro _
    | with_reducible apply memOk_ite
    | with_reducible apply memOk_ite_fst
    | with_reducible apply memOk_ite_snd
    | split

theorem State.depart_memOk (s : State) (t : Nat) (h0 : State.memOk s) :
    ∀ out, (State.depart s t) = some out → State.memOk out := by
  unfold State.depart
  intro out ht
  repeat' first
    | with_reducible assumption
    | contradiction
    | (simp only [Option.some.injEq, Prod.mk.injEq] at ht)
    | (obtain ⟨rfl, rfl, rfl⟩ := ht)
    | (obtain ⟨rfl, rfl⟩ := ht)
    | subst ht
    | split at ht
    | dsimp only at ht
    | with_reducible apply State.event_memOk
    | with_reducible apply State.setPaddock_memOk
    | with_reducible apply State.placePad_memOk
    | with_reducible apply State.evacuate_memOk
    | with_reducible apply State.publishSlots_memOk
    | with_reducible apply State.setRole_memOk
    | with_reducible apply State.powerOff_memOk

theorem State.doRetire_memOk (s : State) (m : CmdMsg) (ready : Bool) (h0 : State.memOk s) :
    State.memOk (State.doRetire s m ready).1 := by
  unfold State.doRetire
  repeat' first
    | with_reducible assumption
    | with_reducible apply State.setPoints_memOk
    | with_reducible apply State.powerOff_memOk
    | (with_reducible refine State.depart_memOk _ _ ?_ _ (by assumption))
    | with_reducible apply memOk_foldl
    | with_reducible apply memOk_foldl_fst
    | with_reducible apply memOk_foldl_snd
    | intro _
    | with_reducible apply memOk_ite
    | with_reducible apply memOk_ite_fst
    | with_reducible apply memOk_ite_snd
    | split
    | dsimp only
    | with_reducible apply memOk_mem
    | with_reducible apply memOk_mk

theorem State.doReadmit_memOk (s : State) (m : CmdMsg) (h0 : State.memOk s) :
    State.memOk (State.doReadmit s m).1 := by
  unfold State.doReadmit
  repeat' first
    | with_reducible assumption
    | intro _
    | with_reducible apply memOk_ite
    | with_reducible apply memOk_ite_fst
    | with_reducible apply memOk_ite_snd
    | split
    | dsimp only
    | with_reducible apply memOk_mem
    | with_reducible apply memOk_mk

theorem State.applyCmd_memOk (s : State) (m : CmdMsg) (ready : Bool) (h0 : State.memOk s) :
    State.memOk (State.applyCmd s m ready) := by
  unfold State.applyCmd
  repeat' first
    | with_reducible assumption
    | with_reducible apply State.cmdResult_memOk
    | with_reducible apply State.doLoad_memOk
    | with_reducible apply State.doRemove_memOk
    | with_reducible apply State.doWheel_memOk
    | with_reducible apply State.doDrain_memOk
    | with_reducible apply State.unhalt_memOk
    | with_reducible apply State.doResize_memOk
    | with_reducible apply State.doRetire_memOk
    | with_reducible apply State.doReadmit_memOk
    | intro _
    | split
    | dsimp only

theorem State.holdCmd_memOk (s : State) (m : CmdMsg) (h0 : State.memOk s) :
    State.memOk (State.holdCmd s m) := by
  unfold State.holdCmd
  repeat' first
    | with_reducible assumption
    | with_reducible apply State.setPaddock_memOk

theorem State.refuseCmd_memOk (s : State) (m : CmdMsg) (code : Nat) (h0 : State.memOk s) :
    State.memOk (State.refuseCmd s m code) := by
  unfold State.refuseCmd
  repeat' first
    | with_reducible assumption
    | with_reducible apply State.err_memOk
    | with_reducible apply State.cmdResult_memOk
    | intro _
    | with_reducible apply memOk_ite

theorem State.awaitDue_memOk (s : State) (m : CmdMsg) (h0 : State.memOk s) :
    State.memOk (State.awaitDue s m) := by
  unfold State.awaitDue
  repeat' first
    | with_reducible assumption
    | intro _
    | dsimp only
    | with_reducible apply memOk_mem
    | with_reducible apply memOk_mk

theorem State.takeCmd_memOk (s : State) (r : Recvd) (h0 : State.memOk s) :
    State.memOk (State.takeCmd s r) := by
  unfold State.takeCmd
  repeat' first
    | with_reducible assumption
    | with_reducible apply State.applyCmd_memOk
    | with_reducible apply State.holdCmd_memOk
    | with_reducible apply State.refuseCmd_memOk
    | with_reducible apply State.awaitDue_memOk
    | intro _
    | with_reducible apply memOk_ite

theorem State.cmdConsumed_memOk (s : State) (source : Nat) (h0 : State.memOk s) :
    State.memOk (State.cmdConsumed s source) := by
  unfold State.cmdConsumed
  repeat' first
    | with_reducible assumption
    | with_reducible apply State.setRing_memOk
    | intro _
    | with_reducible apply memOk_ite
    | split

theorem State.takeCommands_memOk (s : State) (h0 : State.memOk s) :
    State.memOk (State.takeCommands s) := by
  unfold State.takeCommands
  repeat' first
    | with_reducible assumption
    | with_reducible apply State.takeCmd_memOk
    | with_reducible apply State.cmdConsumed_memOk
    | with_reducible apply memOk_foldl
    | intro _
    | split
    | dsimp only
    | with_reducible apply memOk_mem
    | with_reducible apply memOk_mk

theorem State.undue_memOk (s : State) (d : Due) (h0 : State.memOk s) :
    State.memOk (State.undue s d) := h0

theorem State.untaken_memOk (s : State) (r : Recvd) (h0 : State.memOk s) :
    State.memOk (State.untaken s r) := by
  unfold State.untaken
  repeat' first
    | with_reducible assumption
    | with_reducible apply State.cmdConsumed_memOk
    | intro _
    | dsimp only
    | with_reducible apply memOk_mem
    | with_reducible apply memOk_mk

theorem State.cmdNow_memOk (s : State) (m : CmdMsg) (cmd : Nat) (h0 : State.memOk s) :
    State.memOk (State.cmdNow s m cmd) := by
  unfold State.cmdNow
  repeat' first
    | with_reducible assumption
    | with_reducible apply State.receive_memOk
    | with_reducible apply State.bumpCap_memOk
    | with_reducible apply State.applyCmd_memOk
    | with_reducible apply State.holdCmd_memOk
    | with_reducible apply State.takeCmd_memOk
    | with_reducible apply State.undue_memOk
    | with_reducible apply State.untaken_memOk
    | intro _
    | with_reducible apply memOk_ite
    | split

theorem State.bypassArray_memOk (s : State) (t a : Nat) (h0 : State.memOk s) :
    State.memOk (State.bypassArray s t a) := by
  unfold State.bypassArray
  repeat' first
    | with_reducible assumption
    | with_reducible apply State.setArray_memOk
    | with_reducible apply State.applyWidth_memOk
    | with_reducible apply memOk_foldl
    | with_reducible apply memOk_foldl_fst
    | with_reducible apply memOk_foldl_snd
    | intro _
    | with_reducible apply memOk_ite

theorem State.bypassColumns_memOk (s : State) (h0 : State.memOk s) :
    State.memOk (State.bypassColumns s) := by
  unfold State.bypassColumns
  repeat' first
    | with_reducible assumption
    | with_reducible apply State.bypassArray_memOk
    | with_reducible apply memOk_foldl
    | intro _
    | with_reducible apply memOk_ite
    | split
    | dsimp only
    | with_reducible apply memOk_mem
    | with_reducible apply memOk_mk

theorem State.leaveNow_memOk (s : State) (h0 : State.memOk s) :
    State.memOk (State.leaveNow s) := by
  unfold State.leaveNow
  repeat' first
    | with_reducible assumption
    | with_reducible apply State.powerOff_memOk
    | (with_reducible refine State.depart_memOk _ _ ?_ _ (by assumption))
    | with_reducible apply memOk_foldl
    | intro _
    | with_reducible apply memOk_ite
    | split
    | dsimp only
    | with_reducible apply memOk_mem
    | with_reducible apply memOk_mk

theorem State.rejoinTiller_memOk (s : State) (t : Nat) (cmd : Option CmdMsg) (ready : Bool) (h0 : State.memOk s) :
    State.memOk (State.rejoinTiller s t cmd ready).1 := by
  unfold State.rejoinTiller
  repeat' first
    | with_reducible assumption
    | with_reducible apply State.event_memOk
    | with_reducible apply State.setPaddock_memOk
    | with_reducible apply State.placePad_memOk
    | with_reducible apply State.publishSlots_memOk
    | with_reducible apply State.setRole_memOk
    | with_reducible apply State.cmdResult_memOk
    | with_reducible apply State.unhalt_memOk
    | intro _
    | with_reducible apply memOk_ite
    | with_reducible apply memOk_ite_fst
    | with_reducible apply memOk_ite_snd
    | split

theorem State.rejoins_memOk (s : State) (ready : List Nat) (h0 : State.memOk s) :
    State.memOk (State.rejoins s ready) := by
  unfold State.rejoins
  repeat' first
    | with_reducible assumption
    | with_reducible apply State.rejoinTiller_memOk
    | with_reducible apply memOk_foldl
    | with_reducible apply memOk_foldl_fst
    | with_reducible apply memOk_foldl_snd
    | intro _
    | with_reducible apply memOk_ite
    | with_reducible apply memOk_ite_fst
    | with_reducible apply memOk_ite_snd
    | split
    | dsimp only
    | with_reducible apply memOk_mem
    | with_reducible apply memOk_mk

theorem State.applyDue_memOk (s : State) (ready : List Nat) (h0 : State.memOk s) :
    State.memOk (State.applyDue s ready) := by
  unfold State.applyDue
  repeat' first
    | with_reducible assumption
    | with_reducible apply State.applyCmd_memOk
    | with_reducible apply State.holdCmd_memOk
    | with_reducible apply memOk_foldl
    | intro _
    | with_reducible apply memOk_ite
    | split
    | dsimp only
    | with_reducible apply memOk_mem
    | with_reducible apply memOk_mk

theorem State.faultSlot_memOk (s : State) (pad n : Nat) (h0 : State.memOk s) :
    State.memOk (State.faultSlot s pad n) := by
  unfold State.faultSlot
  repeat' first
    | with_reducible assumption
    | with_reducible apply State.setSlot_memOk
    | with_reducible apply State.journalDrop_memOk
    | with_reducible apply State.kvDiscard_memOk
    | intro _
    | with_reducible apply memOk_ite
    | split
    | dsimp only

theorem State.haltPad_memOk (s : State) (pad : Nat) (h0 : State.memOk s) :
    State.memOk (State.haltPad s pad) := by
  unfold State.haltPad
  repeat' first
    | with_reducible assumption
    | with_reducible apply State.event_memOk
    | with_reducible apply State.setPaddock_memOk
    | with_reducible apply State.putPlan_memOk
    | with_reducible apply State.idleUnits_memOk
    | with_reducible apply State.faultSlot_memOk
    | with_reducible apply memOk_foldl
    | with_reducible apply memOk_foldl_fst
    | with_reducible apply memOk_foldl_snd
    | intro _
    | with_reducible apply memOk_ite
    | with_reducible apply memOk_ite_fst
    | with_reducible apply memOk_ite_snd
    | split

theorem State.routerDown_memOk (s : State) (site : Nat) (h0 : State.memOk s) :
    State.memOk (State.routerDown s site) := by
  unfold State.routerDown
  repeat' first
    | with_reducible assumption
    | with_reducible apply State.event_memOk
    | with_reducible apply memOk_foldl
    | intro _
    | with_reducible apply memOk_ite
    | split
    | dsimp only
    | with_reducible apply memOk_mem
    | with_reducible apply memOk_mk

theorem State.quarFail_memOk (s : State) (t : Nat) (h0 : State.memOk s) :
    State.memOk (State.quarFail s t) := by
  unfold State.quarFail
  repeat' first
    | with_reducible assumption
    | with_reducible apply State.cmdResult_memOk
    | with_reducible apply memOk_foldl
    | intro _
    | split
    | dsimp only
    | with_reducible apply memOk_mem
    | with_reducible apply memOk_mk

theorem State.spareFail_memOk (s : State) (t : Nat) (permanent : Bool) (h0 : State.memOk s) :
    State.memOk (State.spareFail s t permanent) := by
  unfold State.spareFail
  repeat' first
    | with_reducible assumption
    | with_reducible apply State.postFault_memOk
    | with_reducible apply memOk_foldl
    | intro _
    | with_reducible apply memOk_ite
    | split
    | dsimp only
    | with_reducible apply memOk_mem
    | with_reducible apply memOk_mk

theorem State.dropPlanned_memOk (s : State) (t : Nat) (h0 : State.memOk s) :
    State.memOk (State.dropPlanned s t) := by
  unfold State.dropPlanned
  repeat' first
    | with_reducible assumption
    | with_reducible apply State.setTiller_memOk
    | intro _
    | split
    | dsimp only
    | with_reducible apply memOk_mem
    | with_reducible apply memOk_mk

theorem State.tillerFail_memOk (s : State) (t : Nat) (permanent router : Bool) (h0 : State.memOk s) :
    State.memOk (State.tillerFail s t permanent router) := by
  unfold State.tillerFail
  repeat' first
    | with_reducible assumption
    | with_reducible apply State.postFault_memOk
    | with_reducible apply State.tierLoss_memOk
    | with_reducible apply State.idleUnits_memOk
    | with_reducible apply State.haltPad_memOk
    | with_reducible apply State.routerDown_memOk
    | with_reducible apply State.quarFail_memOk
    | with_reducible apply State.spareFail_memOk
    | with_reducible apply State.dropPlanned_memOk
    | intro _
    | with_reducible apply memOk_ite
    | split
    | dsimp only
    | with_reducible apply memOk_mem
    | with_reducible apply memOk_mk

theorem tillerFault_memOk (s : State) (t : Nat) (cause : TillerCause) (h0 : State.memOk s) :
    State.memOk (tillerFault s t cause) := by
  unfold tillerFault
  repeat' first
    | with_reducible assumption
    | with_reducible apply State.tillerFail_memOk
    | intro _
    | with_reducible apply memOk_ite
    | split

theorem spareFailure_memOk (s : State) (t : Nat) (h0 : State.memOk s) :
    State.memOk (spareFailure s t) := by
  unfold spareFailure
  repeat' first
    | with_reducible assumption
    | with_reducible apply State.spareFail_memOk
    | intro _
    | with_reducible apply memOk_ite

theorem State.promoteOne_memOk (s : State) (x : Promo) (h0 : State.memOk s) :
    State.memOk (State.promoteOne s x) := by
  unfold State.promoteOne
  repeat' first
    | with_reducible assumption
    | with_reducible apply State.setPaddock_memOk
    | with_reducible apply State.setRole_memOk
    | with_reducible apply State.powerOff_memOk
    | intro _
    | with_reducible apply memOk_ite
    | with_reducible apply memOk_ite_fst
    | with_reducible apply memOk_ite_snd
    | split
    | dsimp only
    | with_reducible apply memOk_mem
    | with_reducible apply memOk_mk

theorem State.releaseHeld_memOk (s : State) (pad : Nat) (h0 : State.memOk s) :
    State.memOk (State.releaseHeld s pad) := by
  unfold State.releaseHeld
  repeat' first
    | with_reducible assumption
    | with_reducible apply State.setPaddock_memOk
    | with_reducible apply State.applyCmd_memOk
    | with_reducible apply memOk_foldl
    | intro _

theorem State.promotePad_memOk (s : State) (pad : Nat) (h0 : State.memOk s) :
    State.memOk (State.promotePad s pad) := by
  unfold State.promotePad
  repeat' first
    | with_reducible assumption
    | with_reducible apply State.event_memOk
    | with_reducible apply State.placePad_memOk
    | with_reducible apply State.publishSlots_memOk
    | with_reducible apply State.unhalt_memOk
    | with_reducible apply State.promoteOne_memOk
    | with_reducible apply memOk_foldl

theorem State.restorePad_memOk (s : State) (pad : Nat) (h0 : State.memOk s) :
    State.memOk (State.restorePad s pad) := by
  unfold State.restorePad
  repeat' first
    | with_reducible assumption
    | with_reducible apply State.event_memOk
    | with_reducible apply State.unhalt_memOk
    | intro _
    | with_reducible apply memOk_ite

theorem State.freeHeld_memOk (s : State) (pad : Nat) (h0 : State.memOk s) :
    State.memOk (State.freeHeld s pad) := by
  unfold State.freeHeld
  repeat' first
    | with_reducible assumption
    | with_reducible apply State.releaseHeld_memOk
    | intro _
    | with_reducible apply memOk_ite

theorem State.replan_memOk (s : State) (ready : List Nat) (h0 : State.memOk s) :
    State.memOk (State.replan s ready) := by
  unfold State.replan
  repeat' first
    | with_reducible assumption
    | with_reducible apply State.setPoints_memOk
    | with_reducible apply State.bumpCap_memOk
    | with_reducible apply State.bypassColumns_memOk
    | with_reducible apply State.leaveNow_memOk
    | with_reducible apply State.rejoins_memOk
    | with_reducible apply State.applyDue_memOk
    | with_reducible apply State.promotePad_memOk
    | with_reducible apply State.restorePad_memOk
    | with_reducible apply State.freeHeld_memOk
    | with_reducible apply memOk_foldl
    | intro _
    | with_reducible apply memOk_ite

theorem quarantineEnd_memOk (s : State) (t : Nat) (pass : Bool) (h0 : State.memOk s) :
    State.memOk (quarantineEnd s t pass) := by
  unfold quarantineEnd
  repeat' first
    | with_reducible assumption
    | with_reducible apply State.quarFail_memOk
    | intro _
    | with_reducible apply memOk_ite
    | split
    | dsimp only
    | with_reducible apply memOk_mem
    | with_reducible apply memOk_mk

/-! ### Loss -/

theorem State.lose_memOk (s : State) (keep : Bool) (h0 : State.memOk s) :
    State.memOk (State.lose s keep) := by
  unfold State.lose
  repeat' first
    | with_reducible assumption
    | with_reducible apply Memory.wf_filter
    | intro _
    | with_reducible apply memOk_ite
    | with_reducible apply memOk_ite_fst
    | with_reducible apply memOk_ite_snd
    | split
    | dsimp only
    | with_reducible apply memOk_mem
    | with_reducible apply memOk_mk

theorem State.safeStates_memOk (s : State) (h0 : State.memOk s) :
    State.memOk (State.safeStates s) := by
  unfold State.safeStates
  repeat' first
    | with_reducible assumption
    | with_reducible apply State.lose_memOk
    | intro _
    | dsimp only
    | with_reducible apply memOk_mem
    | with_reducible apply memOk_mk

/-! ### Fabric -/

theorem State.arrive_memOk (s : State) (p : Packet) (kind : Nat) (f : State → State) (h0 : State.memOk s) (hf0 : ∀ (t : State), State.memOk t → State.memOk (f t)) :
    State.memOk (State.arrive s p kind f) := by
  unfold State.arrive
  repeat' first
    | with_reducible assumption
    | with_reducible apply State.event_memOk
    | with_reducible apply State.countFlits_memOk
    | with_reducible apply State.rhzDrop_memOk
    | (with_reducible refine State.takePacket_memOk _ _ ?_ _ (by assumption))
    | with_reducible apply hf0
    | intro _
    | with_reducible apply memOk_ite
    | split

theorem fabricWrite_memOk (s : State) (p : Packet) (h0 : State.memOk s) :
    State.memOk (fabricWrite s p) := by
  unfold fabricWrite
  repeat' first
    | with_reducible assumption
    | with_reducible apply State.commit_memOk
    | with_reducible apply State.sendAdvance_memOk
    | with_reducible apply State.arrive_memOk
    | intro _
    | with_reducible apply memOk_ite

theorem fabricReadReq_memOk (s : State) (p : Packet) (h0 : State.memOk s) :
    State.memOk (fabricReadReq s p) := by
  unfold fabricReadReq
  repeat' first
    | with_reducible assumption
    | with_reducible apply State.inject_memOk
    | with_reducible apply State.arrive_memOk
    | intro _
    | split

theorem fabricReadResp_memOk (s : State) (p : Packet) (h0 : State.memOk s) :
    State.memOk (fabricReadResp s p) := by
  unfold fabricReadResp
  repeat' first
    | with_reducible assumption
    | with_reducible apply State.answer_memOk
    | with_reducible apply State.arrive_memOk
    | intro _

theorem fabricPartial_memOk (s : State) (p : Packet) (h0 : State.memOk s) :
    State.memOk (fabricPartial s p) := by
  unfold fabricPartial
  repeat' first
    | with_reducible assumption
    | with_reducible apply State.setTiller_memOk
    | with_reducible apply State.arrive_memOk
    | with_reducible apply memOk_foldl
    | intro _

theorem ctrOpPacket_memOk (s : State) (p : Packet) (h0 : State.memOk s) :
    State.memOk (ctrOpPacket s p) := by
  unfold ctrOpPacket
  repeat' first
    | with_reducible assumption
    | with_reducible apply State.ctrOp_memOk
    | with_reducible apply State.park_memOk
    | with_reducible apply State.inject_memOk
    | with_reducible apply State.arrive_memOk
    | intro _
    | with_reducible apply memOk_ite

theorem ctrResp_memOk (s : State) (p : Packet) (h0 : State.memOk s) :
    State.memOk (ctrResp s p) := by
  unfold ctrResp
  repeat' first
    | with_reducible assumption
    | with_reducible apply State.answer_memOk
    | with_reducible apply State.arrive_memOk
    | intro _

/-! ### Faults -/

theorem State.linkEndDown_memOk (s : State) (site port : Nat) (h0 : State.memOk s) :
    State.memOk (State.linkEndDown s site port) := by
  unfold State.linkEndDown
  repeat' first
    | with_reducible assumption
    | with_reducible apply State.event_memOk
    | intro _
    | with_reducible apply memOk_ite
    | split
    | dsimp only
    | with_reducible apply memOk_mem
    | with_reducible apply memOk_mk

theorem linkRetry_memOk (s : State) (site port retries : Nat) (h0 : State.memOk s) :
    State.memOk (linkRetry s site port retries) := by
  unfold linkRetry
  repeat' first
    | with_reducible assumption
    | with_reducible apply State.bumpWide_memOk
    | with_reducible apply State.event_memOk
    | with_reducible apply State.linkEndDown_memOk
    | intro _
    | with_reducible apply memOk_ite
    | split
    | dsimp only
    | with_reducible apply memOk_mem
    | with_reducible apply memOk_mk

theorem State.armSwitch_memOk (s : State) (replan : Bool) (ready : List Nat) (h0 : State.memOk s) :
    State.memOk (State.armSwitch s replan ready) := by
  unfold State.armSwitch
  repeat' first
    | with_reducible assumption
    | intro _
    | with_reducible apply memOk_ite
    | split
    | dsimp only
    | with_reducible apply memOk_mem
    | with_reducible apply memOk_mk

theorem State.switchDiscard_memOk (s : State) (at_ : Nat) (p : Packet) (h0 : State.memOk s) :
    State.memOk (State.switchDiscard s at_ p) := by
  unfold State.switchDiscard
  repeat' first
    | with_reducible assumption
    | with_reducible apply State.countHops_memOk
    | with_reducible apply State.rhzDrop_memOk
    | with_reducible apply State.haltPad_memOk
    | with_reducible apply memOk_foldl
    | with_reducible apply memOk_foldl_fst
    | with_reducible apply memOk_foldl_snd
    | intro _
    | with_reducible apply memOk_ite
    | with_reducible apply memOk_ite_fst
    | with_reducible apply memOk_ite_snd
    | split
    | dsimp only
    | with_reducible apply memOk_mem
    | with_reducible apply memOk_mk

theorem routeSwitch_memOk (s : State) (pauseNs : Nat) (h0 : State.memOk s) :
    State.memOk (routeSwitch s pauseNs) := by
  unfold routeSwitch
  repeat' first
    | with_reducible assumption
    | with_reducible apply State.setRegN_memOk
    | with_reducible apply State.event_memOk
    | with_reducible apply State.inject_memOk
    | with_reducible apply State.switchDiscard_memOk
    | with_reducible apply memOk_foldl
    | intro _
    | with_reducible apply memOk_ite
    | split
    | dsimp only
    | with_reducible apply memOk_mem
    | with_reducible apply memOk_mk

theorem routerFailure_memOk (s : State) (site : Nat) (h0 : State.memOk s) :
    State.memOk (routerFailure s site) := by
  unfold routerFailure
  repeat' first
    | with_reducible assumption
    | with_reducible apply State.routerDown_memOk
    | with_reducible apply State.spareFail_memOk
    | with_reducible apply State.tillerFail_memOk
    | intro _
    | with_reducible apply memOk_ite
    | split

theorem State.frameLost_memOk (s : State) (k : Nat) (e : Pte) (h0 : State.memOk s) :
    State.memOk (State.frameLost s k e) := by
  unfold State.frameLost
  repeat' first
    | with_reducible assumption
    | with_reducible apply State.event_memOk
    | with_reducible apply State.setPte_memOk
    | with_reducible apply State.bringPage_memOk
    | intro _
    | with_reducible apply memOk_ite
    | split
    | dsimp only
    | with_reducible apply memOk_mem
    | with_reducible apply memOk_mk

theorem hbmStackFail_memOk (s : State) (t : Nat) (h0 : State.memOk s) :
    State.memOk (hbmStackFail s t) := by
  unfold hbmStackFail
  repeat' first
    | with_reducible assumption
    | with_reducible apply State.postFault_memOk
    | with_reducible apply State.tillerFail_memOk
    | intro _
    | with_reducible apply memOk_ite

theorem hbmFrameRetire_memOk (s : State) (t frame : Nat) (h0 : State.memOk s) :
    State.memOk (hbmFrameRetire s t frame) := by
  unfold hbmFrameRetire
  repeat' first
    | with_reducible assumption
    | with_reducible apply State.frameLost_memOk
    | with_reducible apply hbmStackFail_memOk
    | with_reducible apply Memory.wf_clear
    | with_reducible apply memOk_foldl
    | with_reducible apply memOk_foldl_fst
    | with_reducible apply memOk_foldl_snd
    | with_reducible apply wf_foldl
    | intro _
    | with_reducible apply memOk_ite
    | with_reducible apply memOk_ite_fst
    | with_reducible apply memOk_ite_snd
    | split
    | dsimp only
    | with_reducible apply memOk_mem
    | with_reducible apply memOk_mk

theorem State.dieLoss_memOk (s : State) (d : Nat) (h0 : State.memOk s) :
    State.memOk (State.dieLoss s d) := by
  unfold State.dieLoss
  repeat' first
    | with_reducible assumption
    | with_reducible apply State.event_memOk
    | with_reducible apply State.setWell_memOk
    | with_reducible apply State.setBlock_memOk
    | with_reducible apply State.noteRebuilt_memOk
    | with_reducible apply State.moveKeys_memOk
    | with_reducible apply State.moveGroup_memOk
    | with_reducible apply State.loseBacking_memOk
    | with_reducible apply State.loseSpilled_memOk
    | with_reducible apply memOk_foldl
    | with_reducible apply memOk_foldl_fst
    | with_reducible apply memOk_foldl_snd
    | intro _
    | with_reducible apply memOk_ite
    | with_reducible apply memOk_ite_fst
    | with_reducible apply memOk_ite_snd
    | split
    | dsimp only
    | with_reducible apply memOk_mem
    | with_reducible apply memOk_mk

theorem flashDieFail_memOk (s : State) (w ch die : Nat) (h0 : State.memOk s) :
    State.memOk (flashDieFail s w ch die) := by
  unfold flashDieFail
  repeat' first
    | with_reducible assumption
    | with_reducible apply State.postFault_memOk
    | with_reducible apply State.dieLoss_memOk
    | intro _
    | with_reducible apply memOk_ite

theorem flashChannelFail_memOk (s : State) (w ch : Nat) (h0 : State.memOk s) :
    State.memOk (flashChannelFail s w ch) := by
  unfold flashChannelFail
  repeat' first
    | with_reducible assumption
    | with_reducible apply State.postFault_memOk
    | with_reducible apply State.wellFailure_memOk
    | with_reducible apply State.dieLoss_memOk
    | with_reducible apply memOk_foldl
    | intro _
    | with_reducible apply memOk_ite
    | split
    | dsimp only
    | with_reducible apply memOk_mem
    | with_reducible apply memOk_mk

theorem State.wellheadFail_memOk (s : State) (w : Nat) (h0 : State.memOk s) :
    State.memOk (State.wellheadFail s w) := by
  unfold State.wellheadFail
  repeat' first
    | with_reducible assumption
    | with_reducible apply State.setHp_memOk
    | with_reducible apply State.postFault_memOk
    | with_reducible apply State.safeStates_memOk
    | intro _
    | with_reducible apply memOk_ite
    | split
    | dsimp only
    | with_reducible apply memOk_mem
    | with_reducible apply memOk_mk

theorem State.releaseClaims_memOk (s : State) (c : Nat) (h0 : State.memOk s) :
    State.memOk (State.releaseClaims s c) := h0

theorem State.coreFail_memOk (s : State) (c : Nat) (h0 : State.memOk s) :
    State.memOk (State.coreFail s c) := by
  unfold State.coreFail
  repeat' first
    | with_reducible assumption
    | with_reducible apply State.postFault_memOk
    | with_reducible apply State.settle_memOk
    | with_reducible apply State.wellheadFail_memOk
    | with_reducible apply State.releaseClaims_memOk
    | intro _
    | with_reducible apply memOk_ite
    | split
    | dsimp only
    | with_reducible apply memOk_mem
    | with_reducible apply memOk_mk

theorem coreFailure_memOk (s : State) (c : Nat) (h0 : State.memOk s) :
    State.memOk (coreFailure s c) := by
  unfold coreFailure
  repeat' first
    | with_reducible assumption
    | with_reducible apply State.coreFail_memOk
    | intro _
    | with_reducible apply memOk_ite

theorem tokenise_memOk (s : State) (l : Nat) (h0 : State.memOk s) :
    State.memOk (tokenise s l) := by
  unfold tokenise
  repeat' first
    | with_reducible assumption
    | with_reducible apply State.qrnIssue_memOk
    | with_reducible apply State.laneRun_memOk
    | with_reducible apply State.coreFail_memOk
    | intro _
    | with_reducible apply memOk_ite
    | with_reducible apply memOk_ite_fst
    | with_reducible apply memOk_ite_snd
    | split
    | dsimp only

theorem State.setPlanner_memOk (s : State) (t : Nat) (p : Planner) (h0 : State.memOk s) :
    State.memOk (State.setPlanner s t p) := h0

theorem State.markColumn_memOk (s : State) (t a c : Nat) (h0 : State.memOk s) :
    State.memOk (State.markColumn s t a c) := by
  unfold State.markColumn
  repeat' first
    | with_reducible assumption
    | with_reducible apply State.bumpWide_memOk
    | with_reducible apply State.event_memOk
    | with_reducible apply State.postFault_memOk
    | with_reducible apply State.setArray_memOk
    | intro _
    | with_reducible apply memOk_ite
    | with_reducible apply memOk_ite_fst
    | with_reducible apply memOk_ite_snd
    | split
    | dsimp only
    | with_reducible apply memOk_mem
    | with_reducible apply memOk_mk

theorem marginPlannerRun_memOk (s : State) (t : Nat) (slack : List Int) (failing : List (Nat × Nat)) (quiet : Bool) (h0 : State.memOk s) :
    State.memOk (marginPlannerRun s t slack failing quiet) := by
  unfold marginPlannerRun
  repeat' first
    | with_reducible assumption
    | with_reducible apply State.bumpWide_memOk
    | with_reducible apply State.event_memOk
    | with_reducible apply State.setPlanner_memOk
    | with_reducible apply State.markColumn_memOk
    | with_reducible apply memOk_foldl
    | with_reducible apply memOk_foldl_fst
    | with_reducible apply memOk_foldl_snd
    | intro _
    | with_reducible apply memOk_ite
    | with_reducible apply memOk_ite_fst
    | with_reducible apply memOk_ite_snd
    | split
    | dsimp only
    | with_reducible apply memOk_mem
    | with_reducible apply memOk_mk

/-! ### Clocks -/

theorem clkMuxSwitch_memOk (s : State) (req : Requester) (d v : Nat) (h0 : State.memOk s) :
    State.memOk (clkMuxSwitch s req d v) := by
  unfold clkMuxSwitch
  repeat' first
    | with_reducible assumption
    | with_reducible apply State.gated_memOk
    | with_reducible apply State.setClk_memOk
    | with_reducible apply memOk_foldl
    | intro _

theorem muxSwitchComplete_memOk (s : State) (d dom : Nat) (h0 : State.memOk s) :
    State.memOk (muxSwitchComplete s d dom) := by
  unfold muxSwitchComplete
  repeat' first
    | with_reducible assumption
    | with_reducible apply State.setClk_memOk
    | intro _
    | with_reducible apply memOk_ite

theorem muxHang_memOk (s : State) (d dom : Nat) (h0 : State.memOk s) :
    State.memOk (muxHang s d dom) := by
  unfold muxHang
  repeat' first
    | with_reducible assumption
    | with_reducible apply State.event_memOk
    | with_reducible apply State.setClk_memOk
    | intro _
    | with_reducible apply memOk_ite

theorem State.resetHeaders_memOk (s : State) (d : Nat) (h0 : State.memOk s) :
    State.memOk (State.resetHeaders s d) := h0

theorem State.domReset_memOk (s : State) (d dom : Nat) (h0 : State.memOk s) :
    State.memOk (State.domReset s d dom) := by
  unfold State.domReset
  repeat' first
    | with_reducible assumption
    | with_reducible apply State.wellFailure_memOk
    | with_reducible apply State.setClk_memOk
    | with_reducible apply State.idleUnits_memOk
    | with_reducible apply State.tillerFail_memOk
    | with_reducible apply State.safeStates_memOk
    | with_reducible apply State.resetHeaders_memOk
    | intro _
    | with_reducible apply memOk_ite

theorem clkDomReset_memOk (s : State) (req : Requester) (d v : Nat) (h0 : State.memOk s) :
    State.memOk (clkDomReset s req d v) := by
  unfold clkDomReset
  repeat' first
    | with_reducible assumption
    | with_reducible apply State.gated_memOk
    | with_reducible apply State.domReset_memOk
    | with_reducible apply memOk_foldl
    | intro _
    | with_reducible apply memOk_ite

theorem oscStable_memOk (s : State) (d : Nat) (h0 : State.memOk s) :
    State.memOk (oscStable s d) := by
  unfold oscStable
  repeat' first
    | with_reducible assumption
    | with_reducible apply State.setClk_memOk
    | intro _
    | with_reducible apply memOk_ite

theorem pllLockConfirm_memOk (s : State) (d : Nat) (h0 : State.memOk s) :
    State.memOk (pllLockConfirm s d) := by
  unfold pllLockConfirm
  repeat' first
    | with_reducible assumption
    | with_reducible apply State.train_memOk
    | with_reducible apply State.setClk_memOk
    | with_reducible apply memOk_foldl
    | intro _
    | with_reducible apply memOk_ite
    | split
    | dsimp only
    | with_reducible apply memOk_mem
    | with_reducible apply memOk_mk

theorem trimSourceSwitch_memOk (s : State) (d source : Nat) (trim : Int) (h0 : State.memOk s) :
    State.memOk (trimSourceSwitch s d source trim) := by
  unfold trimSourceSwitch
  repeat' first
    | with_reducible assumption
    | with_reducible apply State.event_memOk
    | with_reducible apply State.setClk_memOk
    | intro _
    | with_reducible apply memOk_ite

theorem rootLoss_memOk (s : State) (d : Nat) (h0 : State.memOk s) :
    State.memOk (rootLoss s d) := by
  unfold rootLoss
  repeat' first
    | with_reducible assumption
    | with_reducible apply State.event_memOk
    | with_reducible apply State.wellFailure_memOk
    | with_reducible apply State.setClk_memOk
    | with_reducible apply State.routerDown_memOk
    | with_reducible apply State.spareFail_memOk
    | with_reducible apply State.tillerFail_memOk
    | with_reducible apply State.safeStates_memOk
    | intro _
    | with_reducible apply memOk_ite
    | split
    | dsimp only
    | with_reducible apply memOk_mem
    | with_reducible apply memOk_mk

theorem restartWait_memOk (s : State) (unstable : Option Nat) (h0 : State.memOk s) :
    State.memOk (restartWait s unstable) := by
  unfold restartWait
  repeat' first
    | with_reducible assumption
    | with_reducible apply State.wellheadFail_memOk
    | intro _
    | with_reducible apply memOk_ite
    | split
    | dsimp only
    | with_reducible apply memOk_mem
    | with_reducible apply memOk_mk

theorem sequencerChange_memOk (s : State) (t : Nat) (h0 : State.memOk s) :
    State.memOk (sequencerChange s t) := by
  unfold sequencerChange
  repeat' first
    | with_reducible assumption
    | with_reducible apply State.setClk_memOk
    | intro _
    | with_reducible apply memOk_ite
    | split
    | dsimp only

theorem inputLow_memOk (s : State) (cv : Nat) (h0 : State.memOk s) :
    State.memOk (inputLow s cv) := by
  unfold inputLow
  repeat' first
    | with_reducible assumption
    | with_reducible apply State.event_memOk
    | intro _
    | with_reducible apply memOk_ite

theorem inputOvervoltage_memOk (s : State) (h0 : State.memOk s) :
    State.memOk (inputOvervoltage s) := h0

theorem State.pwrWrite_memOk (s : State) (d off v : Nat) (h0 : State.memOk s) :
    State.memOk (State.pwrWrite s d off v) := by
  unfold State.pwrWrite
  repeat' first
    | with_reducible assumption
    | with_reducible apply State.setRegN_memOk
    | with_reducible apply State.err_memOk
    | intro _
    | with_reducible apply memOk_ite

theorem pwrCapWrite_memOk (s : State) (req : Requester) (off v : Nat) (h0 : State.memOk s) :
    State.memOk (pwrCapWrite s req off v) := by
  unfold pwrCapWrite
  repeat' first
    | with_reducible assumption
    | with_reducible apply State.gated_memOk
    | with_reducible apply State.pwrWrite_memOk
    | intro _

theorem State.lowerPad_memOk (s : State) (p avg : Nat) (h0 : State.memOk s) :
    State.memOk (State.lowerPad s p avg) := by
  unfold State.lowerPad
  repeat' first
    | with_reducible assumption
    | intro _
    | dsimp only
    | with_reducible apply memOk_mem
    | with_reducible apply memOk_mk

theorem State.coolTiller_memOk (s : State) (t : Nat) (h0 : State.memOk s) :
    State.memOk (State.coolTiller s t) := by
  unfold State.coolTiller
  repeat' first
    | with_reducible assumption
    | with_reducible apply State.event_memOk
    | with_reducible apply State.lowerPad_memOk
    | intro _
    | with_reducible apply memOk_ite
    | split
    | dsimp only
    | with_reducible apply memOk_mem
    | with_reducible apply memOk_mk

theorem hotspotHigh_memOk (s : State) (t : Nat) (eighths : Int) (h0 : State.memOk s) :
    State.memOk (hotspotHigh s t eighths) := by
  unfold hotspotHigh
  repeat' first
    | with_reducible assumption
    | with_reducible apply State.coolTiller_memOk
    | intro _
    | with_reducible apply memOk_ite
    | split
    | dsimp only
    | with_reducible apply memOk_mem
    | with_reducible apply memOk_mk

theorem State.coolAll_memOk (s : State) (h0 : State.memOk s) :
    State.memOk (State.coolAll s) := by
  unfold State.coolAll
  repeat' first
    | with_reducible assumption
    | with_reducible apply State.coolTiller_memOk
    | with_reducible apply memOk_foldl

theorem hotspotTrip_memOk (s : State) (d : Nat) (h0 : State.memOk s) :
    State.memOk (hotspotTrip s d) := by
  unfold hotspotTrip
  repeat' first
    | with_reducible assumption
    | intro _
    | with_reducible apply memOk_ite
    | split
    | dsimp only
    | with_reducible apply memOk_mem
    | with_reducible apply memOk_mk

theorem State.applyPoints_memOk (s : State) (h0 : State.memOk s) :
    State.memOk (State.applyPoints s) := by
  unfold State.applyPoints
  repeat' first
    | with_reducible assumption
    | with_reducible apply State.event_memOk
    | with_reducible apply memOk_foldl
    | intro _
    | with_reducible apply memOk_ite
    | split
    | dsimp only
    | with_reducible apply memOk_mem
    | with_reducible apply memOk_mk

theorem State.capControl_memOk (s : State) (input : Nat) (draw : List Nat) (h0 : State.memOk s) :
    State.memOk (State.capControl s input draw) := by
  unfold State.capControl
  repeat' first
    | with_reducible assumption
    | with_reducible apply State.bumpWide_memOk
    | with_reducible apply State.event_memOk
    | with_reducible apply State.lowerPad_memOk
    | with_reducible apply State.applyPoints_memOk
    | with_reducible apply memOk_foldl
    | intro _
    | with_reducible apply memOk_ite
    | split
    | dsimp only
    | with_reducible apply memOk_mem
    | with_reducible apply memOk_mk

/-! ### StartUp -/

theorem powerOn_memOk (s : State) (h0 : State.memOk s) :
    State.memOk (powerOn s) := by
  unfold powerOn
  repeat' first
    | with_reducible assumption
    | with_reducible apply State.lose_memOk
    | intro _
    | with_reducible apply memOk_ite
    | split
    | dsimp only
    | with_reducible apply memOk_mem
    | with_reducible apply memOk_mk

theorem State.startAgain_memOk (s : State) (h0 : State.memOk s) :
    State.memOk (State.startAgain s) := by
  unfold State.startAgain
  repeat' first
    | with_reducible assumption
    | with_reducible apply State.lose_memOk
    | intro _
    | dsimp only
    | with_reducible apply memOk_mem
    | with_reducible apply memOk_mk

theorem restart_memOk (s : State) (h0 : State.memOk s) :
    State.memOk (restart s) := by
  unfold restart
  repeat' first
    | with_reducible assumption
    | with_reducible apply State.startAgain_memOk
    | intro _
    | with_reducible apply memOk_ite

theorem State.askRestart_memOk (s : State) (h0 : State.memOk s) :
    State.memOk (State.askRestart s) := h0

theorem dbgReset_memOk (s : State) (req : Requester) (h0 : State.memOk s) :
    State.memOk (dbgReset s req) := by
  unfold dbgReset
  repeat' first
    | with_reducible assumption
    | with_reducible apply State.gated_memOk
    | with_reducible apply State.askRestart_memOk

theorem holdupFlush_memOk (s : State) (us : Nat) (h0 : State.memOk s) :
    State.memOk (holdupFlush s us) := by
  unfold holdupFlush
  repeat' first
    | with_reducible assumption
    | with_reducible apply State.lose_memOk
    | intro _
    | with_reducible apply memOk_ite
    | split
    | dsimp only
    | with_reducible apply memOk_mem
    | with_reducible apply memOk_mk

theorem State.applyBypass_memOk (s : State) (m : Tbl (List Nat)) (h0 : State.memOk s) :
    State.memOk (State.applyBypass s m) := by
  unfold State.applyBypass
  repeat' first
    | with_reducible assumption
    | with_reducible apply State.setArray_memOk
    | with_reducible apply memOk_foldl
    | with_reducible apply memOk_foldl_fst
    | with_reducible apply memOk_foldl_snd
    | intro _

theorem State.applyFuses_memOk (s : State) (f : Fuses) (h0 : State.memOk s) :
    State.memOk (State.applyFuses s f) := by
  unfold State.applyFuses
  repeat' first
    | with_reducible assumption
    | with_reducible apply State.setClk_memOk
    | with_reducible apply State.setRole_memOk
    | with_reducible apply State.applyBypass_memOk
    | with_reducible apply memOk_foldl
    | with_reducible apply memOk_foldl_fst
    | with_reducible apply memOk_foldl_snd
    | intro _
    | with_reducible apply memOk_ite
    | with_reducible apply memOk_ite_fst
    | with_reducible apply memOk_ite_snd
    | split
    | dsimp only
    | with_reducible apply memOk_mem
    | with_reducible apply memOk_mk

theorem State.holdFuses_memOk (s : State) (h0 : State.memOk s) :
    State.memOk (State.holdFuses s) := h0

theorem fuseLoad_memOk (s : State) (eccOk : Bool) (h0 : State.memOk s) :
    State.memOk (fuseLoad s eccOk) := by
  unfold fuseLoad
  repeat' first
    | with_reducible assumption
    | with_reducible apply State.err_memOk
    | with_reducible apply State.applyFuses_memOk
    | with_reducible apply State.holdFuses_memOk
    | intro _
    | with_reducible apply memOk_ite
    | split
    | dsimp only
    | with_reducible apply memOk_mem
    | with_reducible apply memOk_mk

theorem firmwareLoad_memOk (s : State) (h0 : State.memOk s) :
    State.memOk (firmwareLoad s) := by
  unfold firmwareLoad
  repeat' first
    | with_reducible assumption
    | with_reducible apply State.err_memOk
    | intro _
    | with_reducible apply memOk_ite
    | with_reducible apply memOk_ite_fst
    | with_reducible apply memOk_ite_snd
    | split
    | dsimp only
    | with_reducible apply memOk_mem
    | with_reducible apply memOk_mk

theorem firmwarePersist_memOk (s : State) (h0 : State.memOk s) :
    State.memOk (firmwarePersist s) := by
  unfold firmwarePersist
  repeat' first
    | with_reducible assumption
    | intro _
    | with_reducible apply memOk_ite
    | split
    | dsimp only
    | with_reducible apply memOk_mem
    | with_reducible apply memOk_mk

theorem State.mountBlock_memOk (s : State) (k : Nat) (h0 : State.memOk s) :
    State.memOk (State.mountBlock s k) := by
  unfold State.mountBlock
  repeat' first
    | with_reducible assumption
    | with_reducible apply State.bump_memOk
    | with_reducible apply State.event_memOk
    | with_reducible apply State.setBlock_memOk
    | with_reducible apply State.countErase_memOk
    | with_reducible apply Memory.wf_clear
    | intro _
    | with_reducible apply memOk_ite
    | split
    | dsimp only
    | with_reducible apply memOk_mem
    | with_reducible apply memOk_mk

theorem State.mountWell_memOk (s : State) (answering : List Nat) (n : Nat) (h0 : State.memOk s) :
    State.memOk (State.mountWell s answering n) := by
  unfold State.mountWell
  repeat' first
    | with_reducible assumption
    | intro _
    | with_reducible apply memOk_ite
    | split
    | dsimp only
    | with_reducible apply memOk_mem
    | with_reducible apply memOk_mk

theorem mount_memOk (s : State) (dj : Nat) (answering : List Nat) (h0 : State.memOk s) :
    State.memOk (mount s dj answering) := by
  unfold mount
  repeat' first
    | with_reducible assumption
    | with_reducible apply State.setRegN_memOk
    | with_reducible apply State.event_memOk
    | with_reducible apply holdupMeasure_memOk
    | with_reducible apply State.placeStream_memOk
    | with_reducible apply State.mountBlock_memOk
    | with_reducible apply State.mountWell_memOk
    | with_reducible apply memOk_foldl
    | with_reducible apply memOk_foldl_fst
    | with_reducible apply memOk_foldl_snd
    | intro _
    | with_reducible apply memOk_ite
    | with_reducible apply memOk_ite_fst
    | with_reducible apply memOk_ite_snd
    | split
    | dsimp only
    | with_reducible apply memOk_mem
    | with_reducible apply memOk_mk

theorem State.cisternRebuild_memOk (s : State) (h0 : State.memOk s) :
    State.memOk (State.cisternRebuild s) := by
  unfold State.cisternRebuild
  repeat' first
    | with_reducible assumption
    | with_reducible apply memOk_foldl
    | with_reducible apply memOk_foldl_fst
    | with_reducible apply memOk_foldl_snd
    | intro _
    | split
    | dsimp only
    | with_reducible apply memOk_mem
    | with_reducible apply memOk_mk

theorem State.rebuildGen_memOk (s : State) (g : Nat) (h0 : State.memOk s) :
    State.memOk (State.rebuildGen s g) := by
  unfold State.rebuildGen
  repeat' first
    | with_reducible assumption
    | with_reducible apply State.setGen_memOk
    | with_reducible apply State.freeGen_memOk
    | intro _
    | split
    | dsimp only

theorem State.restoreConfig_memOk (s : State) (h0 : State.memOk s) :
    State.memOk (State.restoreConfig s) := by
  unfold State.restoreConfig
  repeat' first
    | with_reducible assumption
    | with_reducible apply State.setPaddock_memOk
    | with_reducible apply State.setRole_memOk
    | with_reducible apply memOk_foldl
    | with_reducible apply memOk_foldl_fst
    | with_reducible apply memOk_foldl_snd
    | intro _
    | with_reducible apply memOk_ite
    | with_reducible apply memOk_ite_fst
    | with_reducible apply memOk_ite_snd
    | split
    | dsimp only
    | with_reducible apply memOk_mem
    | with_reducible apply memOk_mk

theorem rebuild_memOk (s : State) (h0 : State.memOk s) :
    State.memOk (rebuild s) := by
  unfold rebuild
  repeat' first
    | with_reducible assumption
    | with_reducible apply State.applyBypass_memOk
    | with_reducible apply State.cisternRebuild_memOk
    | with_reducible apply State.rebuildGen_memOk
    | with_reducible apply State.restoreConfig_memOk
    | with_reducible apply memOk_foldl
    | intro _
    | with_reducible apply memOk_ite
    | split
    | dsimp only
    | with_reducible apply memOk_mem
    | with_reducible apply memOk_mk

theorem State.readBack_memOk (s : State) (rid : Nat) (r : Ring) (h0 : State.memOk s) :
    State.memOk (State.readBack s rid r) := by
  unfold State.readBack
  repeat' first
    | with_reducible assumption
    | with_reducible apply State.setRing_memOk
    | with_reducible apply State.badIndex_memOk
    | intro _
    | with_reducible apply memOk_ite

theorem State.repost_memOk (s : State) (n kind : Nat) (h0 : State.memOk s) :
    State.memOk (State.repost s n kind) := by
  unfold State.repost
  repeat' first
    | with_reducible assumption
    | with_reducible apply State.drawWord_memOk
    | with_reducible apply State.reserve_memOk
    | with_reducible apply State.fillRing_memOk
    | with_reducible apply State.journalNow_memOk
    | intro _
    | with_reducible apply memOk_ite
    | with_reducible apply memOk_ite_fst
    | with_reducible apply memOk_ite_snd
    | split
    | dsimp only
    | with_reducible apply memOk_mem
    | with_reducible apply memOk_mk

theorem State.recoverSlot_memOk (s : State) (n : Nat) (h0 : State.memOk s) :
    State.memOk (State.recoverSlot s n) := by
  unfold State.recoverSlot
  repeat' first
    | with_reducible assumption
    | with_reducible apply State.setSlot_memOk
    | with_reducible apply State.readyQuestion_memOk
    | intro _
    | with_reducible apply memOk_ite
    | split
    | dsimp only

theorem recovery_memOk (s : State) (h0 : State.memOk s) :
    State.memOk (recovery s) := by
  unfold recovery
  repeat' first
    | with_reducible assumption
    | with_reducible apply State.faultTo_memOk
    | with_reducible apply consumerIndexPost_memOk
    | with_reducible apply State.readBack_memOk
    | with_reducible apply State.repost_memOk
    | with_reducible apply State.recoverSlot_memOk
    | with_reducible apply memOk_foldl
    | with_reducible apply memOk_foldl_fst
    | with_reducible apply memOk_foldl_snd
    | intro _
    | with_reducible apply memOk_ite
    | with_reducible apply memOk_ite_fst
    | with_reducible apply memOk_ite_snd
    | split
    | dsimp only
    | with_reducible apply memOk_mem
    | with_reducible apply memOk_mk

theorem serviceEntry_memOk (s : State) (h0 : State.memOk s) :
    State.memOk (serviceEntry s) := by
  unfold serviceEntry
  repeat' first
    | with_reducible assumption
    | with_reducible apply State.event_memOk
    | intro _
    | with_reducible apply memOk_ite
    | split
    | dsimp only
    | with_reducible apply memOk_mem
    | with_reducible apply memOk_mk

theorem shutdown_memOk (s : State) (req : Requester) (h0 : State.memOk s) :
    State.memOk (shutdown s req) := by
  unfold shutdown
  repeat' first
    | with_reducible assumption
    | with_reducible apply State.err_memOk
    | with_reducible apply State.gated_memOk
    | intro _
    | with_reducible apply memOk_ite
    | split
    | dsimp only
    | with_reducible apply memOk_mem
    | with_reducible apply memOk_mk

theorem State.shutOff_memOk (s : State) (h0 : State.memOk s) :
    State.memOk (State.shutOff s) := by
  unfold State.shutOff
  repeat' first
    | with_reducible assumption
    | with_reducible apply State.flushJob_memOk
    | with_reducible apply State.setClk_memOk
    | with_reducible apply State.idleUnits_memOk
    | with_reducible apply Memory.wf_filter
    | with_reducible apply memOk_foldl
    | with_reducible apply memOk_foldl_fst
    | with_reducible apply memOk_foldl_snd
    | intro _
    | split
    | dsimp only
    | with_reducible apply memOk_mem
    | with_reducible apply memOk_mk

theorem State.shutStep_memOk (s : State) (h0 : State.memOk s) :
    State.memOk (State.shutStep s) := by
  unfold State.shutStep
  repeat' first
    | with_reducible assumption
    | with_reducible apply State.shutOff_memOk
    | intro _
    | with_reducible apply memOk_ite
    | split
    | dsimp only
    | with_reducible apply memOk_mem
    | with_reducible apply memOk_mk

theorem State.fusDone_memOk (s : State) (code : Nat) (h0 : State.memOk s) :
    State.memOk (State.fusDone s code) := by
  unfold State.fusDone
  repeat' first
    | with_reducible assumption
    | with_reducible apply State.event_memOk
    | with_reducible apply State.setResult_memOk

theorem provision_memOk (s : State) (req : Requester) (h0 : State.memOk s) :
    State.memOk (provision s req) := by
  unfold provision
  repeat' first
    | with_reducible assumption
    | with_reducible apply State.gated_memOk
    | with_reducible apply State.fusDone_memOk
    | intro _
    | with_reducible apply memOk_ite
    | split
    | dsimp only
    | with_reducible apply memOk_mem
    | with_reducible apply memOk_mk

theorem raiseLock_memOk (s : State) (req : Requester) (arg : Nat) (h0 : State.memOk s) :
    State.memOk (raiseLock s req arg) := by
  unfold raiseLock
  repeat' first
    | with_reducible assumption
    | with_reducible apply State.gated_memOk
    | with_reducible apply State.fusDone_memOk
    | intro _
    | with_reducible apply memOk_ite
    | split
    | dsimp only
    | with_reducible apply memOk_mem
    | with_reducible apply memOk_mk

theorem raiseSec_memOk (s : State) (req : Requester) (arg : Nat) (h0 : State.memOk s) :
    State.memOk (raiseSec s req arg) := by
  unfold raiseSec
  repeat' first
    | with_reducible assumption
    | with_reducible apply State.gated_memOk
    | with_reducible apply State.fusDone_memOk
    | intro _
    | with_reducible apply memOk_ite
    | split
    | dsimp only
    | with_reducible apply memOk_mem
    | with_reducible apply memOk_mk

theorem storeFw_memOk (s : State) (req : Requester) (h0 : State.memOk s) :
    State.memOk (storeFw s req) := by
  unfold storeFw
  repeat' first
    | with_reducible assumption
    | with_reducible apply State.gated_memOk
    | with_reducible apply State.fusDone_memOk
    | intro _
    | with_reducible apply memOk_ite
    | split
    | dsimp only
    | with_reducible apply memOk_mem
    | with_reducible apply memOk_mk

theorem timeStage_memOk (s : State) (req : Requester) (h0 : State.memOk s) :
    State.memOk (timeStage s req) := by
  unfold timeStage
  repeat' first
    | with_reducible assumption
    | with_reducible apply State.gated_memOk
    | intro _
    | split
    | dsimp only
    | with_reducible apply memOk_mem
    | with_reducible apply memOk_mk

theorem timeCancel_memOk (s : State) (req : Requester) (h0 : State.memOk s) :
    State.memOk (timeCancel s req) := by
  unfold timeCancel
  repeat' first
    | with_reducible assumption
    | with_reducible apply State.gated_memOk
    | intro _
    | split
    | dsimp only
    | with_reducible apply memOk_mem
    | with_reducible apply memOk_mk

/-! ### Stroke -/

theorem State.missCause_memOk (s : State) (pad : Nat) (h0 : State.memOk s) :
    State.memOk (State.missCause s pad).2 := by
  unfold State.missCause
  repeat' first
    | with_reducible assumption
    | intro _
    | with_reducible apply memOk_ite
    | with_reducible apply memOk_ite_fst
    | with_reducible apply memOk_ite_snd
    | split
    | dsimp only
    | with_reducible apply memOk_mem
    | with_reducible apply memOk_mk

theorem State.missOne_memOk (s : State) (pad : Nat) (h0 : State.memOk s) :
    State.memOk (State.missOne s pad) := by
  unfold State.missOne
  repeat' first
    | with_reducible assumption
    | with_reducible apply State.setRegN_memOk
    | with_reducible apply State.bump_memOk
    | with_reducible apply State.event_memOk
    | with_reducible apply State.setPaddock_memOk
    | with_reducible apply State.missCause_memOk
    | intro _
    | with_reducible apply memOk_ite
    | with_reducible apply memOk_ite_fst
    | with_reducible apply memOk_ite_snd
    | split
    | dsimp only

theorem State.noteMissed_memOk (s : State) (h0 : State.memOk s) :
    State.memOk (State.noteMissed s) := by
  unfold State.noteMissed
  repeat' first
    | with_reducible assumption
    | with_reducible apply State.missOne_memOk
    | with_reducible apply memOk_foldl

theorem State.advanceTime_memOk (s : State) (h0 : State.memOk s) :
    State.memOk (State.advanceTime s) := by
  unfold State.advanceTime
  repeat' first
    | with_reducible assumption
    | intro _
    | split
    | dsimp only
    | with_reducible apply memOk_mem
    | with_reducible apply memOk_mk

theorem State.timeApply_memOk (s : State) (h0 : State.memOk s) :
    State.memOk (State.timeApply s) := by
  unfold State.timeApply
  repeat' first
    | with_reducible assumption
    | with_reducible apply State.event_memOk
    | intro _
    | with_reducible apply memOk_ite
    | split
    | dsimp only
    | with_reducible apply memOk_mem
    | with_reducible apply memOk_mk

theorem State.cancelSlot_memOk (s : State) (n : Nat) (h0 : State.memOk s) :
    State.memOk (State.cancelSlot s n) := by
  unfold State.cancelSlot
  repeat' first
    | with_reducible assumption
    | with_reducible apply State.setSlot_memOk
    | with_reducible apply State.journalNow_memOk
    | with_reducible apply State.endRequest_memOk
    | intro _
    | with_reducible apply memOk_ite

theorem State.boundarySlot_memOk (s : State) (n : Nat) (h0 : State.memOk s) :
    State.memOk (State.boundarySlot s n) := by
  unfold State.boundarySlot
  repeat' first
    | with_reducible assumption
    | with_reducible apply State.setSlot_memOk
    | with_reducible apply State.qrnIssue_memOk
    | with_reducible apply State.endRequest_memOk
    | with_reducible apply State.parkSlot_memOk
    | with_reducible apply State.cancelSlot_memOk
    | intro _
    | with_reducible apply memOk_ite

theorem State.boundarySlots_memOk (s : State) (h0 : State.memOk s) :
    State.memOk (State.boundarySlots s) := by
  unfold State.boundarySlots
  repeat' first
    | with_reducible assumption
    | with_reducible apply State.boundarySlot_memOk
    | with_reducible apply memOk_foldl

theorem State.reloadJob_memOk (s : State) (j pad : Nat) (h0 : State.memOk s) :
    State.memOk (State.reloadJob s j pad) := by
  unfold State.reloadJob
  repeat' first
    | with_reducible assumption
    | with_reducible apply State.setPaddock_memOk
    | with_reducible apply State.putPlan_memOk
    | with_reducible apply State.placeJob_memOk
    | with_reducible apply State.publishSlots_memOk
    | intro _
    | with_reducible apply memOk_ite
    | split
    | dsimp only
    | with_reducible apply memOk_mem
    | with_reducible apply memOk_mk

theorem State.waitJob_memOk (s : State) (e : Nat × Nat) (h0 : State.memOk s) :
    State.memOk (State.waitJob s e) := by
  unfold State.waitJob
  repeat' first
    | with_reducible assumption
    | with_reducible apply State.removeRequests_memOk
    | with_reducible apply State.reloadJob_memOk
    | intro _
    | with_reducible apply memOk_ite
    | with_reducible apply memOk_ite_fst
    | with_reducible apply memOk_ite_snd
    | split
    | dsimp only
    | with_reducible apply memOk_mem
    | with_reducible apply memOk_mk

theorem State.readmitOwn_memOk (s : State) (h0 : State.memOk s) :
    State.memOk (State.readmitOwn s) := by
  unfold State.readmitOwn
  repeat' first
    | with_reducible assumption
    | intro _
    | split
    | dsimp only
    | with_reducible apply memOk_mem
    | with_reducible apply memOk_mk

theorem State.writeConfig_memOk (s : State) (h0 : State.memOk s) :
    State.memOk (State.writeConfig s) := by
  unfold State.writeConfig
  repeat' first
    | with_reducible assumption
    | intro _
    | with_reducible apply memOk_ite
    | with_reducible apply memOk_ite_fst
    | with_reducible apply memOk_ite_snd
    | split
    | dsimp only
    | with_reducible apply memOk_mem
    | with_reducible apply memOk_mk

theorem State.setUnit_memOk (s : State) (t u : Nat) (a : Option Nat) (h0 : State.memOk s) :
    State.memOk (State.setUnit s t u a) := by
  unfold State.setUnit
  repeat' first
    | with_reducible assumption
    | with_reducible apply State.setRegN_memOk
    | with_reducible apply State.setWin_memOk
    | intro _
    | with_reducible apply memOk_ite
    | split
    | dsimp only
    | with_reducible apply memOk_mem
    | with_reducible apply memOk_mk

theorem State.saveUnits_memOk (s : State) (t job : Nat) (h0 : State.memOk s) :
    State.memOk (State.saveUnits s t job) := by
  unfold State.saveUnits
  repeat' first
    | with_reducible assumption
    | with_reducible apply State.setTiller_memOk
    | with_reducible apply memOk_foldl
    | intro _

theorem State.restoreUnits_memOk (s : State) (t job : Nat) (h0 : State.memOk s) :
    State.memOk (State.restoreUnits s t job) := by
  unfold State.restoreUnits
  repeat' first
    | with_reducible assumption
    | with_reducible apply State.setUnit_memOk
    | with_reducible apply memOk_foldl
    | intro _

theorem State.giveTables_memOk (s : State) (t k : Nat) (p : Plan) (h0 : State.memOk s) :
    State.memOk (State.giveTables s t k p) := by
  unfold State.giveTables
  repeat' first
    | with_reducible assumption
    | with_reducible apply State.setRegN_memOk
    | with_reducible apply memOk_foldl
    | intro _
    | split
    | dsimp only
    | with_reducible apply memOk_mem
    | with_reducible apply memOk_mk

theorem State.giveStep_memOk (s : State) (t job : Nat) (p : Plan) (h0 : State.memOk s) :
    State.memOk (State.giveStep s t job p) := by
  unfold State.giveStep
  repeat' first
    | with_reducible assumption
    | with_reducible apply State.setTiller_memOk
    | with_reducible apply State.giveList_memOk
    | with_reducible apply State.setUnit_memOk
    | with_reducible apply State.giveTables_memOk
    | with_reducible apply memOk_foldl
    | with_reducible apply memOk_foldl_fst
    | with_reducible apply memOk_foldl_snd
    | intro _
    | with_reducible apply memOk_ite
    | with_reducible apply memOk_ite_fst
    | with_reducible apply memOk_ite_snd
    | split
    | dsimp only

theorem State.handover_memOk (s : State) (pad old new : Nat) (start : Bool) (h0 : State.memOk s) :
    State.memOk (State.handover s pad old new start) := by
  unfold State.handover
  repeat' first
    | with_reducible assumption
    | with_reducible apply State.setTiller_memOk
    | with_reducible apply State.saveUnits_memOk
    | with_reducible apply State.restoreUnits_memOk
    | with_reducible apply State.giveTables_memOk
    | with_reducible apply State.giveStep_memOk
    | with_reducible apply memOk_foldl
    | intro _
    | with_reducible apply memOk_ite
    | split

theorem State.unpark_memOk (s : State) (n : Nat) (h0 : State.memOk s) :
    State.memOk (State.unpark s n) := by
  unfold State.unpark
  repeat' first
    | with_reducible assumption
    | with_reducible apply State.modSlot_memOk

theorem State.runJob_memOk (s : State) (pad job : Nat) (h0 : State.memOk s) :
    State.memOk (State.runJob s pad job) := by
  unfold State.runJob
  repeat' first
    | with_reducible assumption
    | with_reducible apply State.setPaddock_memOk
    | with_reducible apply State.putPlan_memOk
    | with_reducible apply State.handover_memOk
    | with_reducible apply State.unpark_memOk
    | with_reducible apply memOk_foldl
    | intro _
    | with_reducible apply memOk_ite
    | split

theorem State.dropNext_memOk (s : State) (pad : Nat) (h0 : State.memOk s) :
    State.memOk (State.dropNext s pad) := by
  unfold State.dropNext
  repeat' first
    | with_reducible assumption
    | with_reducible apply State.putPlan_memOk
    | with_reducible apply memOk_foldl
    | intro _
    | with_reducible apply memOk_ite
    | split

theorem State.occupy_memOk (s : State) (pad : Nat) (turn : List Nat) (h0 : State.memOk s) :
    State.memOk (State.occupy s pad turn) := by
  unfold State.occupy
  repeat' first
    | with_reducible assumption
    | with_reducible apply State.runJob_memOk
    | with_reducible apply State.dropNext_memOk
    | intro _
    | with_reducible apply memOk_ite
    | split

theorem State.startPad_memOk (s : State) (pad : Nat) (h0 : State.memOk s) :
    State.memOk (State.startPad s pad) := by
  unfold State.startPad
  repeat' first
    | with_reducible assumption
    | with_reducible apply State.setPaddock_memOk
    | with_reducible apply State.occupy_memOk

theorem State.startBatches_memOk (s : State) (h0 : State.memOk s) :
    State.memOk (State.startBatches s) := by
  unfold State.startBatches
  repeat' first
    | with_reducible assumption
    | with_reducible apply State.startPad_memOk
    | with_reducible apply memOk_foldl

theorem State.noteDuty_memOk (s : State) (h0 : State.memOk s) :
    State.memOk (State.noteDuty s) := by
  unfold State.noteDuty
  repeat' first
    | with_reducible assumption
    | with_reducible apply State.setPlanner_memOk
    | with_reducible apply memOk_foldl
    | intro _
    | with_reducible apply memOk_ite
    | with_reducible apply memOk_ite_fst
    | with_reducible apply memOk_ite_snd
    | split
    | dsimp only
    | with_reducible apply memOk_mem
    | with_reducible apply memOk_mk

theorem State.tiersBoundary_memOk (s : State) (h0 : State.memOk s) :
    State.memOk (State.tiersBoundary s) := by
  unfold State.tiersBoundary
  repeat' first
    | with_reducible assumption
    | with_reducible apply State.cisternBoundary_memOk
    | with_reducible apply State.updateHolds_memOk
    | with_reducible apply memOk_foldl
    | with_reducible apply memOk_foldl_fst
    | with_reducible apply memOk_foldl_snd
    | intro _

theorem State.serviceBoundary_memOk (s : State) (h0 : State.memOk s) :
    State.memOk (State.serviceBoundary s) := by
  unfold State.serviceBoundary
  repeat' first
    | with_reducible assumption
    | with_reducible apply State.waitJob_memOk
    | with_reducible apply State.readmitOwn_memOk
    | with_reducible apply memOk_foldl
    | intro _
    | with_reducible apply memOk_ite

theorem State.activations_memOk (s : State) (ready : List Nat) (h0 : State.memOk s) :
    State.memOk (State.activations s ready) := by
  unfold State.activations
  repeat' first
    | with_reducible assumption
    | with_reducible apply activationApply_memOk
    | with_reducible apply memOk_foldl
    | intro _
    | with_reducible apply memOk_ite

theorem State.boundaryItems_memOk (s : State) (ready : List Nat) (h0 : State.memOk s) :
    State.memOk (State.boundaryItems s ready) := by
  unfold State.boundaryItems
  repeat' first
    | with_reducible assumption
    | with_reducible apply State.callsGo_memOk
    | with_reducible apply State.takeCommands_memOk
    | with_reducible apply State.replan_memOk
    | with_reducible apply State.armSwitch_memOk
    | with_reducible apply State.timeApply_memOk
    | with_reducible apply State.boundarySlots_memOk
    | with_reducible apply State.startBatches_memOk
    | with_reducible apply State.serviceBoundary_memOk
    | with_reducible apply State.activations_memOk
    | intro _
    | with_reducible apply memOk_ite

theorem sparePromotion_memOk (s : State) (pad : Nat) (h0 : State.memOk s) :
    State.memOk (sparePromotion s pad) := by
  unfold sparePromotion
  repeat' first
    | with_reducible assumption
    | with_reducible apply State.setPoints_memOk
    | with_reducible apply State.bumpCap_memOk
    | with_reducible apply State.promotePad_memOk
    | with_reducible apply State.freeHeld_memOk
    | with_reducible apply State.armSwitch_memOk
    | with_reducible apply State.occupy_memOk
    | intro _
    | with_reducible apply memOk_ite

theorem State.keepTmg_memOk (s : State) (h0 : State.memOk s) :
    State.memOk (State.keepTmg s) := by
  unfold State.keepTmg
  repeat' first
    | with_reducible assumption
    | intro _
    | split
    | dsimp only
    | with_reducible apply memOk_mem
    | with_reducible apply memOk_mk

theorem strokeBoundary_memOk (s : State) (watts : Nat) (draw ready : List Nat) (h0 : State.memOk s) :
    State.memOk (strokeBoundary s watts draw ready) := by
  unfold strokeBoundary
  repeat' first
    | with_reducible assumption
    | with_reducible apply State.refillAll_memOk
    | with_reducible apply State.portTick_memOk
    | with_reducible apply State.setPoints_memOk
    | with_reducible apply State.coolAll_memOk
    | with_reducible apply State.capControl_memOk
    | with_reducible apply State.shutStep_memOk
    | with_reducible apply State.noteMissed_memOk
    | with_reducible apply State.advanceTime_memOk
    | with_reducible apply State.writeConfig_memOk
    | with_reducible apply State.noteDuty_memOk
    | with_reducible apply State.tiersBoundary_memOk
    | with_reducible apply State.boundaryItems_memOk
    | with_reducible apply State.keepTmg_memOk
    | intro _
    | with_reducible apply memOk_ite
    | split
    | dsimp only
    | with_reducible apply memOk_mem
    | with_reducible apply memOk_mk

theorem State.leaveOut_memOk (s : State) (n : Nat) (h0 : State.memOk s) :
    State.memOk (State.leaveOut s n) := by
  unfold State.leaveOut
  repeat' first
    | with_reducible assumption
    | with_reducible apply State.modSlot_memOk
    | with_reducible apply State.ringWaits_memOk
    | intro _
    | with_reducible apply memOk_ite

theorem State.leaveWait_memOk (s : State) (n : Nat) (h0 : State.memOk s) :
    State.memOk (State.leaveWait s n) := by
  unfold State.leaveWait
  repeat' first
    | with_reducible assumption
    | with_reducible apply State.modSlot_memOk

theorem State.countWaits_memOk (s : State) (h0 : State.memOk s) :
    State.memOk (State.countWaits s) := by
  unfold State.countWaits
  repeat' first
    | with_reducible assumption
    | with_reducible apply State.modSlot_memOk
    | with_reducible apply State.kvNote_memOk
    | with_reducible apply memOk_foldl
    | intro _
    | with_reducible apply memOk_ite

theorem State.grantSlots_memOk (s : State) (pad job : Nat) (h0 : State.memOk s) :
    State.memOk (State.grantSlots s pad job) := by
  unfold State.grantSlots
  repeat' first
    | with_reducible assumption
    | with_reducible apply State.modSlot_memOk
    | with_reducible apply memOk_foldl
    | intro _

theorem State.composeSprint_memOk (s : State) (pad job : Nat) (h0 : State.memOk s) :
    State.memOk (State.composeSprint s pad job) := by
  unfold State.composeSprint
  repeat' first
    | with_reducible assumption
    | with_reducible apply State.putPlan_memOk
    | with_reducible apply State.leaveOut_memOk
    | with_reducible apply State.grantSlots_memOk
    | with_reducible apply memOk_foldl
    | intro _
    | split
    | dsimp only

theorem State.setVs_memOk (s : State) (job sub v : Nat) (h0 : State.memOk s) :
    State.memOk (State.setVs s job sub v) := h0

theorem State.catchUp_memOk (s : State) (job w : Nat) (now : List Nat) (h0 : State.memOk s) :
    State.memOk (State.catchUp s job w now) := by
  unfold State.catchUp
  repeat' first
    | with_reducible assumption
    | with_reducible apply State.setVs_memOk
    | with_reducible apply memOk_foldl
    | intro _
    | split
    | dsimp only
    | with_reducible apply memOk_mem
    | with_reducible apply memOk_mk

theorem State.fillBatch_memOk (job w y0 y1 : Nat) (y2 : Fill) (h0 : State.memOk y2.st) :
    State.memOk (State.fillBatch job w y0 y1 y2).st := by
  induction y0 generalizing y1 y2 h0 with
  | zero =>
    rw [State.fillBatch]
    repeat' first
      | with_reducible assumption
  | succ n ih =>
    rw [State.fillBatch]
    repeat' first
      | with_reducible assumption
      | with_reducible apply State.modSlot_memOk
      | with_reducible apply State.leaveWait_memOk
      | with_reducible apply State.setVs_memOk
      | with_reducible apply ih
      | intro _
      | with_reducible apply memOk_ite
      | split
      | dsimp only

theorem State.fillSlices_memOk (s : State) (job b : Nat) (ns : List Nat) (h0 : State.memOk s) :
    State.memOk (State.fillSlices s job b ns).st := by
  have go {f : Fill → Nat → Fill} (hf : ∀ a w, a.st.memOk → (f a w).st.memOk) (l : List Nat) (a : Fill)
      (h : a.st.memOk) : (l.foldl f a).st.memOk := by
    induction l generalizing a with
    | nil => exact h
    | cons w l ih => exact ih _ (hf _ _ h)
  refine go (fun a w h => State.fillBatch_memOk _ _ _ _ _ h) _ _ (go (fun a w h => ?_) _ _ h0)
  exact State.fillBatch_memOk _ _ _ _ _ (State.drawWord_memOk _ h)

theorem State.composeBulk_memOk (s : State) (job : Nat) (h0 : State.memOk s) :
    State.memOk (State.composeBulk s job) := by
  unfold State.composeBulk
  repeat' first
    | with_reducible assumption
    | with_reducible apply State.modSlot_memOk
    | with_reducible apply State.putPlan_memOk
    | with_reducible apply State.leaveOut_memOk
    | with_reducible apply State.leaveWait_memOk
    | with_reducible apply State.catchUp_memOk
    | with_reducible apply State.fillSlices_memOk
    | with_reducible apply memOk_foldl
    | intro _
    | split

theorem State.composeTurn_memOk (s : State) (pad : Nat) (y0 : List Nat) (h0 : State.memOk s) :
    State.memOk (State.composeTurn s pad y0) := by
  induction y0 generalizing s h0 with
  | nil =>
    rw [State.composeTurn]
    repeat' first
      | with_reducible assumption
  | cons a l ih =>
    rw [State.composeTurn]
    repeat' first
      | with_reducible assumption
      | with_reducible apply State.composeBulk_memOk
      | with_reducible apply ih
      | intro _
      | with_reducible apply memOk_ite
      | split
      | dsimp only

theorem State.cutPad_memOk (s : State) (pad : Nat) (h0 : State.memOk s) :
    State.memOk (State.cutPad s pad) := by
  unfold State.cutPad
  repeat' first
    | with_reducible assumption
    | with_reducible apply State.dropNext_memOk
    | with_reducible apply State.composeSprint_memOk
    | with_reducible apply State.composeTurn_memOk
    | intro _
    | with_reducible apply memOk_ite
    | split

theorem compositionCut_memOk (s : State) (h0 : State.memOk s) :
    State.memOk (compositionCut s) := by
  unfold compositionCut
  repeat' first
    | with_reducible assumption
    | with_reducible apply State.countWaits_memOk
    | with_reducible apply State.cutPad_memOk
    | with_reducible apply memOk_foldl
    | intro _
    | with_reducible apply memOk_ite
    | split
    | dsimp only
    | with_reducible apply memOk_mem
    | with_reducible apply memOk_mk

theorem replanBoundary_memOk (s : State) (ready : List Nat) (h0 : State.memOk s) :
    State.memOk (replanBoundary s ready) := by
  unfold replanBoundary
  repeat' first
    | with_reducible assumption
    | with_reducible apply State.replan_memOk
    | with_reducible apply State.armSwitch_memOk
    | intro _
    | with_reducible apply memOk_ite

end Sys2Proof.Machine
end

