-- ==== Sys2Proof/Laws/KeepsPages.lean ====
section
/-! SUPPORT. Every operation of these files keeps the memory in its canonical form: harts, register pages, siphons and the debug port. -/

namespace Sys2Proof.Machine

/-! ### Harts -/

theorem dbgClaimScan_memOk (s : State) (req : Requester) (v : Nat) (h0 : State.memOk s) :
    State.memOk (dbgClaimScan s req v) := by
  unfold dbgClaimScan
  repeat' first
    | with_reducible assumption
    | with_reducible apply State.gated_memOk
    | intro _
    | split
    | dsimp only
    | with_reducible apply memOk_mem
    | with_reducible apply memOk_mk

theorem claimScanDone_memOk (s : State) (h0 : State.memOk s) :
    State.memOk (claimScanDone s) := by
  unfold claimScanDone
  repeat' first
    | with_reducible assumption
    | with_reducible apply State.event_memOk
    | intro _
    | split
    | dsimp only
    | with_reducible apply memOk_mem
    | with_reducible apply memOk_mk

theorem dbgClaimForce_memOk (s : State) (req : Requester) (h0 : State.memOk s) :
    State.memOk (dbgClaimForce s req) := by
  unfold dbgClaimForce
  repeat' first
    | with_reducible assumption
    | with_reducible apply State.bump_memOk
    | with_reducible apply State.event_memOk
    | with_reducible apply State.ctrOp_memOk
    | with_reducible apply State.gated_memOk
    | intro _
    | with_reducible apply memOk_ite
    | with_reducible apply memOk_ite_fst
    | with_reducible apply memOk_ite_snd
    | split
    | dsimp only
    | with_reducible apply memOk_mem
    | with_reducible apply memOk_mk

theorem State.coreRan_memOk (s : State) (c : Nat) (h0 : State.memOk s) :
    State.memOk (State.coreRan s c) := h0

theorem hartHalt_memOk (s : State) (c : Nat) (h0 : State.memOk s) :
    State.memOk (hartHalt s c) := by
  unfold hartHalt
  repeat' first
    | with_reducible assumption
    | intro _
    | with_reducible apply memOk_ite
    | split
    | dsimp only
    | with_reducible apply memOk_mem
    | with_reducible apply memOk_mk

theorem hartResume_memOk (s : State) (c : Nat) (h0 : State.memOk s) :
    State.memOk (hartResume s c) := by
  unfold hartResume
  repeat' first
    | with_reducible assumption
    | with_reducible apply State.coreFail_memOk
    | with_reducible apply State.coreRan_memOk
    | intro _
    | with_reducible apply memOk_ite
    | split
    | dsimp only
    | with_reducible apply memOk_mem
    | with_reducible apply memOk_mk

theorem hartStep_memOk (s : State) (c : Nat) (h0 : State.memOk s) :
    State.memOk (hartStep s c) := by
  unfold hartStep
  repeat' first
    | with_reducible assumption
    | with_reducible apply State.coreRan_memOk
    | intro _
    | with_reducible apply memOk_ite

theorem triggerHit_memOk (s : State) (c trigger access addr : Nat) (h0 : State.memOk s) :
    State.memOk (triggerHit s c trigger access addr) := by
  unfold triggerHit
  repeat' first
    | with_reducible assumption
    | intro _
    | with_reducible apply memOk_ite
    | with_reducible apply memOk_ite_fst
    | with_reducible apply memOk_ite_snd
    | split
    | dsimp only
    | with_reducible apply memOk_mem
    | with_reducible apply memOk_mk

theorem State.coreReg_memOk (s : State) (c regno : Nat) (h0 : State.memOk s) :
    State.memOk (State.coreReg s c regno).2 := by
  unfold State.coreReg
  repeat' first
    | with_reducible assumption
    | with_reducible apply State.drawBytes_memOk
    | intro _
    | with_reducible apply memOk_ite
    | with_reducible apply memOk_ite_fst
    | with_reducible apply memOk_ite_snd
    | split
    | dsimp only
    | with_reducible apply memOk_mem
    | with_reducible apply memOk_mk

theorem State.setCoreReg_memOk (s : State) (c regno v : Nat) (h0 : State.memOk s) :
    State.memOk (State.setCoreReg s c regno v) := by
  unfold State.setCoreReg
  repeat' first
    | with_reducible assumption
    | intro _
    | with_reducible apply memOk_ite
    | with_reducible apply memOk_ite_fst
    | with_reducible apply memOk_ite_snd
    | split
    | dsimp only
    | with_reducible apply memOk_mem
    | with_reducible apply memOk_mk

theorem State.setDm_memOk (s : State) (a v : Nat) (h0 : State.memOk s) :
    State.memOk (State.setDm s a v) := h0

theorem State.cmdErr_memOk (s : State) (code : Nat) (h0 : State.memOk s) :
    State.memOk (State.cmdErr s code) := by
  unfold State.cmdErr
  repeat' first
    | with_reducible assumption
    | with_reducible apply State.setDm_memOk
    | intro _
    | with_reducible apply memOk_ite

theorem State.sbErr_memOk (s : State) (code : Nat) (h0 : State.memOk s) :
    State.memOk (State.sbErr s code) := by
  unfold State.sbErr
  repeat' first
    | with_reducible assumption
    | with_reducible apply State.setDm_memOk
    | intro _
    | with_reducible apply memOk_ite

theorem accessRegister_memOk (s : State) (c regno : Nat) (write : Bool) (v : Nat) (h0 : State.memOk s) :
    State.memOk (accessRegister s c regno write v) := by
  unfold accessRegister
  repeat' first
    | with_reducible assumption
    | with_reducible apply State.answer_memOk
    | with_reducible apply State.coreReg_memOk
    | with_reducible apply State.setCoreReg_memOk
    | with_reducible apply State.cmdErr_memOk
    | intro _
    | with_reducible apply memOk_ite

theorem State.debugLoad_memOk (s : State) (a n : Nat) (h0 : State.memOk s) :
    State.memOk (State.debugLoad s a n).2 := by
  unfold State.debugLoad
  repeat' first
    | with_reducible assumption
    | with_reducible apply State.drawBytes_memOk
    | intro _
    | with_reducible apply memOk_ite
    | with_reducible apply memOk_ite_fst
    | with_reducible apply memOk_ite_snd

theorem State.debugStore_memOk (s : State) (a n v : Nat) (h0 : State.memOk s) :
    State.memOk (State.debugStore s a n v) := by
  unfold State.debugStore
  repeat' first
    | with_reducible assumption
    | with_reducible apply State.store_memOk

theorem accessMemory_memOk (s : State) (c a n : Nat) (write : Bool) (v : Nat) (h0 : State.memOk s) :
    State.memOk (accessMemory s c a n write v) := by
  unfold accessMemory
  repeat' first
    | with_reducible assumption
    | with_reducible apply State.answer_memOk
    | with_reducible apply State.cmdErr_memOk
    | with_reducible apply State.debugLoad_memOk
    | with_reducible apply State.debugStore_memOk
    | intro _
    | with_reducible apply memOk_ite

theorem systemBusAccess_memOk (s : State) (a n : Nat) (write : Bool) (v : Nat) (h0 : State.memOk s) :
    State.memOk (systemBusAccess s a n write v) := by
  unfold systemBusAccess
  repeat' first
    | with_reducible assumption
    | with_reducible apply State.answer_memOk
    | with_reducible apply State.sbErr_memOk
    | with_reducible apply State.debugLoad_memOk
    | with_reducible apply State.debugStore_memOk
    | intro _
    | with_reducible apply memOk_ite

theorem ndmreset_memOk (s : State) (h0 : State.memOk s) :
    State.memOk (ndmreset s) := by
  unfold ndmreset
  repeat' first
    | with_reducible assumption
    | with_reducible apply State.askRestart_memOk
    | intro _
    | with_reducible apply memOk_ite

/-! ### Regs -/

theorem State.indWord_memOk (s : State) (die page a : Nat) (h0 : State.memOk s) :
    State.memOk (State.indWord s die page a).2 := by
  unfold State.indWord
  repeat' first
    | with_reducible assumption
    | with_reducible apply State.drawWord_memOk
    | intro _
    | with_reducible apply memOk_ite
    | with_reducible apply memOk_ite_fst
    | with_reducible apply memOk_ite_snd
    | split

/-! ### Pages -/

theorem State.setCtx_memOk (s : State) (req : Requester) (die page : Nat) (c : Ctx) (h0 : State.memOk s) :
    State.memOk (State.setCtx s req die page c) := by
  unfold State.setCtx
  repeat' first
    | with_reducible assumption
    | with_reducible apply State.setPage_memOk

theorem State.indRead_memOk (s : State) (req : Requester) (die page : Nat) (act : Bool) (h0 : State.memOk s) :
    State.memOk (State.indRead s req die page act).2 := by
  unfold State.indRead
  repeat' first
    | with_reducible assumption
    | with_reducible apply State.err_memOk
    | with_reducible apply State.indWord_memOk
    | with_reducible apply State.setCtx_memOk
    | intro _
    | with_reducible apply memOk_ite
    | with_reducible apply memOk_ite_fst
    | with_reducible apply memOk_ite_snd

theorem State.data3Read_memOk (s : State) (req : Requester) (die page : Nat) (act : Bool) (h0 : State.memOk s) :
    State.memOk (State.data3Read s req die page act).2 := by
  unfold State.data3Read
  repeat' first
    | with_reducible assumption
    | with_reducible apply State.setCtx_memOk
    | intro _
    | with_reducible apply memOk_ite

theorem State.gateRead_memOk (s : State) (h0 : State.memOk s) :
    State.memOk (State.gateRead s).2 := by
  unfold State.gateRead
  repeat' first
    | with_reducible assumption
    | with_reducible apply State.drawWord_memOk

theorem State.readReg_memOk (s : State) (req : Requester) (die page off : Nat) (act : Bool) (h0 : State.memOk s) :
    State.memOk (State.readReg s req die page off act).2 := by
  unfold State.readReg
  repeat' first
    | with_reducible assumption
    | with_reducible apply State.drawWord_memOk
    | with_reducible apply State.indRead_memOk
    | with_reducible apply State.data3Read_memOk
    | with_reducible apply State.gateRead_memOk
    | intro _
    | with_reducible apply memOk_ite
    | with_reducible apply memOk_ite_fst
    | with_reducible apply memOk_ite_snd
    | split
    | dsimp only

theorem State.mboxValue_memOk (s : State) (die page kind i : Nat) (h0 : State.memOk s) :
    State.memOk (State.mboxValue s die page kind i).2 := by
  unfold State.mboxValue
  repeat' first
    | with_reducible assumption
    | with_reducible apply State.drawBytes_memOk
    | intro _
    | with_reducible apply memOk_ite
    | with_reducible apply memOk_ite_fst
    | with_reducible apply memOk_ite_snd
    | split

theorem mboxSnapshot_memOk (s : State) (req : Requester) (die page : Nat) (h0 : State.memOk s) :
    State.memOk (mboxSnapshot s req die page) := by
  unfold mboxSnapshot
  repeat' first
    | with_reducible assumption
    | with_reducible apply State.err_memOk
    | with_reducible apply State.setCtx_memOk
    | with_reducible apply State.mboxValue_memOk
    | intro _
    | with_reducible apply memOk_ite
    | with_reducible apply memOk_ite_fst
    | with_reducible apply memOk_ite_snd
    | split
    | dsimp only

theorem State.indWrite_memOk (s : State) (req : Requester) (die page a v : Nat) (h0 : State.memOk s) :
    State.memOk (State.indWrite s req die page a v) := by
  unfold State.indWrite
  repeat' first
    | with_reducible assumption
    | with_reducible apply State.err_memOk
    | with_reducible apply State.setMeter_memOk
    | with_reducible apply State.setShaper_memOk
    | with_reducible apply State.chkParam_memOk
    | intro _
    | with_reducible apply memOk_ite
    | with_reducible apply memOk_ite_fst
    | with_reducible apply memOk_ite_snd
    | split
    | dsimp only
    | with_reducible apply memOk_mem
    | with_reducible apply memOk_mk

theorem State.indDataWrite_memOk (s : State) (req : Requester) (die page v : Nat) (h0 : State.memOk s) :
    State.memOk (State.indDataWrite s req die page v) := by
  unfold State.indDataWrite
  repeat' first
    | with_reducible assumption
    | with_reducible apply State.err_memOk
    | with_reducible apply State.setCtx_memOk
    | with_reducible apply State.indWrite_memOk
    | intro _
    | with_reducible apply memOk_ite

theorem State.headerWrite_memOk (s : State) (req : Requester) (die page off v : Nat) (h0 : State.memOk s) :
    State.memOk (State.headerWrite s req die page off v) := by
  unfold State.headerWrite
  repeat' first
    | with_reducible assumption
    | with_reducible apply State.setPage_memOk
    | with_reducible apply State.setCtx_memOk
    | with_reducible apply State.indDataWrite_memOk
    | intro _
    | with_reducible apply memOk_ite
    | split

theorem State.badCommand_memOk (s : State) (req : Requester) (die page cls : Nat) (h0 : State.memOk s) :
    State.memOk (State.badCommand s req die page cls) := by
  unfold State.badCommand
  repeat' first
    | with_reducible assumption
    | with_reducible apply State.err_memOk
    | with_reducible apply State.gated_memOk
    | intro _

theorem State.modCmd_memOk (s : State) (req : Requester) (page v : Nat) (h0 : State.memOk s) :
    State.memOk (State.modCmd s req page v) := by
  unfold State.modCmd
  repeat' first
    | with_reducible assumption
    | with_reducible apply planStage_memOk
    | with_reducible apply planUnstage_memOk
    | with_reducible apply planFlush_memOk
    | with_reducible apply ringCreate_memOk
    | with_reducible apply ringDestroy_memOk
    | with_reducible apply grammarRegister_memOk
    | with_reducible apply grammarUnregister_memOk
    | with_reducible apply tokenizerRegister_memOk
    | with_reducible apply tokenizerUnregister_memOk
    | with_reducible apply sheafTableSet_memOk
    | with_reducible apply sheafTableClear_memOk
    | with_reducible apply sheafTableAmend_memOk
    | with_reducible apply indexOpen_memOk
    | with_reducible apply indexWrite_memOk
    | with_reducible apply indexSeal_memOk
    | with_reducible apply indexLoad_memOk
    | with_reducible apply indexActivate_memOk
    | with_reducible apply indexDiscard_memOk
    | with_reducible apply recipeRegister_memOk
    | with_reducible apply recipeUnregister_memOk
    | with_reducible apply imageCreate_memOk
    | with_reducible apply imageWrite_memOk
    | with_reducible apply imageSeal_memOk
    | with_reducible apply imageDelete_memOk
    | with_reducible apply layout_memOk
    | with_reducible apply State.badCommand_memOk
    | intro _
    | with_reducible apply memOk_ite
    | split
    | dsimp only

theorem State.timeCmd_memOk (s : State) (req : Requester) (v : Nat) (h0 : State.memOk s) :
    State.memOk (State.timeCmd s req v) := by
  unfold State.timeCmd
  repeat' first
    | with_reducible assumption
    | with_reducible apply timeStage_memOk
    | with_reducible apply timeCancel_memOk
    | with_reducible apply State.badCommand_memOk
    | intro _
    | split

theorem State.fusCmd_memOk (s : State) (req : Requester) (v : Nat) (h0 : State.memOk s) :
    State.memOk (State.fusCmd s req v) := by
  unfold State.fusCmd
  repeat' first
    | with_reducible assumption
    | with_reducible apply provision_memOk
    | with_reducible apply raiseLock_memOk
    | with_reducible apply raiseSec_memOk
    | with_reducible apply storeFw_memOk
    | with_reducible apply State.badCommand_memOk
    | intro _
    | split

theorem State.chkReg_memOk (s : State) (req : Requester) (u off v : Nat) (h0 : State.memOk s) :
    State.memOk (State.chkReg s req u off v) := by
  unfold State.chkReg
  repeat' first
    | with_reducible assumption
    | with_reducible apply State.setRegN_memOk
    | with_reducible apply State.gated_memOk
    | with_reducible apply State.chkFeed_memOk
    | with_reducible apply chkRestart_memOk
    | with_reducible apply chkCfgWrite_memOk
    | with_reducible apply State.scanGo_memOk
    | intro _
    | with_reducible apply memOk_ite
    | split

theorem State.sycReg_memOk (s : State) (req : Requester) (w off v : Nat) (h0 : State.memOk s) :
    State.memOk (State.sycReg s req w off v) := by
  unfold State.sycReg
  repeat' first
    | with_reducible assumption
    | with_reducible apply State.gated_memOk
    | with_reducible apply State.setSyc_memOk
    | with_reducible apply sycGo_memOk
    | intro _
    | split

theorem State.weightWrite_memOk (s : State) (w off v : Nat) (h0 : State.memOk s) :
    State.memOk (State.weightWrite s w off v) := by
  unfold State.weightWrite
  repeat' first
    | with_reducible assumption
    | with_reducible apply State.setRegN_memOk
    | with_reducible apply State.err_memOk
    | intro _
    | with_reducible apply memOk_ite

theorem State.agePlan_memOk (s : State) (t v : Nat) (h0 : State.memOk s) :
    State.memOk (State.agePlan s t v) := by
  unfold State.agePlan
  repeat' first
    | with_reducible assumption
    | with_reducible apply State.err_memOk
    | with_reducible apply State.setPlanner_memOk
    | intro _
    | with_reducible apply memOk_ite

theorem State.blockWrite_memOk (s : State) (req : Requester) (die page off v : Nat) (h0 : State.memOk s) :
    State.memOk (State.blockWrite s req die page off v) := by
  unfold State.blockWrite
  extract_lets key cls plain
  have hp : ∀ f, (∀ t : State, t.memOk → (f t).memOk) → (plain f).memOk := fun f hf => State.gated_memOk _ _ _ _ _ _ h0 hf
  clear_value plain cls key
  split
  all_goals repeat' first
    | with_reducible apply hp
    | with_reducible assumption
    | with_reducible apply State.setRegN_memOk
    | with_reducible apply cisHostWrite_memOk
    | with_reducible apply hptWinWrite_memOk
    | with_reducible apply State.pairCtlWrite_memOk
    | with_reducible apply Sys2Proof.Machine.nodeWrite_memOk
    | with_reducible apply clkMuxSwitch_memOk
    | with_reducible apply clkDomReset_memOk
    | with_reducible apply State.pwrWrite_memOk
    | with_reducible apply dbgReset_memOk
    | with_reducible apply shutdown_memOk
    | with_reducible apply dbgClaimScan_memOk
    | with_reducible apply dbgClaimForce_memOk
    | with_reducible apply State.badCommand_memOk
    | with_reducible apply State.modCmd_memOk
    | with_reducible apply State.timeCmd_memOk
    | with_reducible apply State.fusCmd_memOk
    | with_reducible apply State.chkReg_memOk
    | with_reducible apply State.sycReg_memOk
    | with_reducible apply State.weightWrite_memOk
    | with_reducible apply State.agePlan_memOk
    | with_reducible apply State.winListWrite_memOk
    | with_reducible apply State.sheafListWrite_memOk
    | intro _
    | with_reducible apply memOk_ite

theorem State.writeReg_memOk (s : State) (req : Requester) (die page off v : Nat) (h0 : State.memOk s) :
    State.memOk (State.writeReg s req die page off v) := by
  unfold State.writeReg
  repeat' first
    | with_reducible assumption
    | with_reducible apply State.setPage_memOk
    | with_reducible apply State.gated_memOk
    | with_reducible apply State.headerWrite_memOk
    | with_reducible apply State.blockWrite_memOk
    | intro _
    | with_reducible apply memOk_ite

theorem State.writeBytesOf_memOk (s : State) (req : Requester) (die page off be v : Nat) (h0 : State.memOk s) :
    State.memOk (State.writeBytesOf s req die page off be v) := by
  unfold State.writeBytesOf
  repeat' first
    | with_reducible assumption
    | with_reducible apply State.err_memOk
    | with_reducible apply State.gated_memOk
    | with_reducible apply State.writeReg_memOk
    | intro _
    | with_reducible apply memOk_ite

theorem pgStatAck_memOk (s : State) (req : Requester) (pk v : Nat) (h0 : State.memOk s) :
    State.memOk (pgStatAck s req pk v) := by
  unfold pgStatAck
  repeat' first
    | with_reducible assumption
    | with_reducible apply State.writeReg_memOk

theorem sqFieldWrite_memOk (s : State) (req : Requester) (pk off v : Nat) (h0 : State.memOk s) :
    State.memOk (sqFieldWrite s req pk off v) := by
  unfold sqFieldWrite
  repeat' first
    | with_reducible assumption
    | with_reducible apply State.writeReg_memOk
    | intro _
    | with_reducible apply memOk_ite

theorem pgErrAck_memOk (s : State) (req : Requester) (pk v : Nat) (h0 : State.memOk s) :
    State.memOk (pgErrAck s req pk v) := by
  unfold pgErrAck
  repeat' first
    | with_reducible assumption
    | with_reducible apply State.writeReg_memOk

theorem pgIndAddrWrite_memOk (s : State) (req : Requester) (pk v : Nat) (h0 : State.memOk s) :
    State.memOk (pgIndAddrWrite s req pk v) := by
  unfold pgIndAddrWrite
  repeat' first
    | with_reducible assumption
    | with_reducible apply State.writeReg_memOk

theorem State.answerReg_memOk (s : State) (req : Requester) (die page off : Nat) (act : Bool) (h0 : State.memOk s) :
    State.memOk (State.answerReg s req die page off act) := by
  unfold State.answerReg
  repeat' first
    | with_reducible assumption
    | with_reducible apply State.answer_memOk
    | with_reducible apply State.readReg_memOk

theorem pgIndDataRead_memOk (s : State) (req : Requester) (pk : Nat) (h0 : State.memOk s) :
    State.memOk (pgIndDataRead s req pk) := by
  unfold pgIndDataRead
  repeat' first
    | with_reducible assumption
    | with_reducible apply State.answerReg_memOk

theorem pgIndDataWrite_memOk (s : State) (req : Requester) (pk v : Nat) (h0 : State.memOk s) :
    State.memOk (pgIndDataWrite s req pk v) := by
  unfold pgIndDataWrite
  repeat' first
    | with_reducible assumption
    | with_reducible apply State.writeReg_memOk

theorem pgMboxReq_memOk (s : State) (req : Requester) (pk v : Nat) (h0 : State.memOk s) :
    State.memOk (pgMboxReq s req pk v) := by
  unfold pgMboxReq
  repeat' first
    | with_reducible assumption
    | with_reducible apply State.writeReg_memOk

theorem pgMboxData3Read_memOk (s : State) (req : Requester) (pk : Nat) (h0 : State.memOk s) :
    State.memOk (pgMboxData3Read s req pk) := by
  unfold pgMboxData3Read
  repeat' first
    | with_reducible assumption
    | with_reducible apply State.answerReg_memOk

theorem registerWrite_memOk (s : State) (req : Requester) (pk off be v : Nat) (h0 : State.memOk s) :
    State.memOk (registerWrite s req pk off be v) := by
  unfold registerWrite
  repeat' first
    | with_reducible assumption
    | with_reducible apply State.writeBytesOf_memOk
    | intro _
    | with_reducible apply memOk_ite

theorem regReq_memOk (s : State) (p : Packet) (req : Requester) (write : Bool) (v : Nat) (h0 : State.memOk s) :
    State.memOk (regReq s p req write v) := by
  unfold regReq
  repeat' first
    | with_reducible assumption
    | with_reducible apply State.inject_memOk
    | with_reducible apply State.arrive_memOk
    | with_reducible apply State.readReg_memOk
    | with_reducible apply State.writeReg_memOk
    | intro _
    | with_reducible apply memOk_ite
    | with_reducible apply memOk_ite_fst
    | with_reducible apply memOk_ite_snd

theorem regResp_memOk (s : State) (p : Packet) (h0 : State.memOk s) :
    State.memOk (regResp s p) := by
  unfold regResp
  repeat' first
    | with_reducible assumption
    | with_reducible apply State.answer_memOk
    | with_reducible apply State.arrive_memOk
    | intro _

/-! ### Siphon -/

theorem State.sideRead_memOk (s : State) (die job : Nat) (d : List Byte) (a : Nat) (h0 : State.memOk s) :
    State.memOk (State.sideRead s die job d a).2 := by
  unfold State.sideRead
  repeat' first
    | with_reducible assumption
    | with_reducible apply State.bumpWide_memOk
    | with_reducible apply State.touchRange_memOk
    | with_reducible apply State.readReg_memOk
    | with_reducible apply memOk_foldl
    | with_reducible apply memOk_foldl_fst
    | with_reducible apply memOk_foldl_snd
    | intro _
    | split

theorem State.sideWrite_memOk (s : State) (die job : Nat) (d : List Byte) (a : Nat) (bs : List Byte) (h0 : State.memOk s) :
    State.memOk (State.sideWrite s die job d a bs) := by
  unfold State.sideWrite
  repeat' first
    | with_reducible assumption
    | with_reducible apply State.store_memOk
    | with_reducible apply State.hostWrite_memOk
    | with_reducible apply State.vaWrite_memOk
    | with_reducible apply State.sramWrite_memOk
    | with_reducible apply State.writeReg_memOk
    | with_reducible apply memOk_foldl
    | with_reducible apply memOk_foldl_fst
    | with_reducible apply memOk_foldl_snd
    | intro _
    | split

theorem State.sipStream_memOk (s : State) (die job : Nat) (d : List Byte) (h0 : State.memOk s) :
    State.memOk (State.sipStream s die job d).2 := by
  unfold State.sipStream
  repeat' first
    | with_reducible assumption
    | with_reducible apply State.drawBytes_memOk
    | with_reducible apply State.commitFlow_memOk
    | with_reducible apply State.sideRead_memOk
    | with_reducible apply memOk_foldl
    | with_reducible apply memOk_foldl_fst
    | with_reducible apply memOk_foldl_snd
    | intro _
    | with_reducible apply memOk_ite
    | with_reducible apply memOk_ite_fst
    | with_reducible apply memOk_ite_snd

theorem State.sipLay_memOk (s : State) (die job : Nat) (d bs : List Byte) (h0 : State.memOk s) :
    State.memOk (State.sipLay s die job d bs) := by
  unfold State.sipLay
  repeat' first
    | with_reducible assumption
    | with_reducible apply State.sendRuns_memOk
    | with_reducible apply State.sideWrite_memOk
    | with_reducible apply memOk_foldl
    | with_reducible apply memOk_foldl_fst
    | with_reducible apply memOk_foldl_snd
    | intro _
    | with_reducible apply memOk_ite

theorem State.setSip_memOk (s : State) (die chan : Nat) (c : SipChan) (h0 : State.memOk s) :
    State.memOk (State.setSip s die chan c) := h0

theorem State.sipTook_memOk (s : State) (die chan a : Nat) (h0 : State.memOk s) :
    State.memOk (State.sipTook s die chan a) := by
  unfold State.sipTook
  repeat' first
    | with_reducible assumption
    | with_reducible apply State.setSip_memOk
    | intro _
    | with_reducible apply memOk_ite

theorem State.sipLog_memOk (s : State) (die chan a code : Nat) (bits : List Nat) (h0 : State.memOk s) :
    State.memOk (State.sipLog s die chan a code bits) := by
  unfold State.sipLog
  repeat' first
    | with_reducible assumption
    | with_reducible apply State.setRegN_memOk
    | with_reducible apply State.drawWord_memOk
    | with_reducible apply State.event_memOk
    | intro _
    | with_reducible apply memOk_ite

theorem State.sipRefuse_memOk (s : State) (die chan a code : Nat) (d : List Byte) (h0 : State.memOk s) :
    State.memOk (State.sipRefuse s die chan a code d) := by
  unfold State.sipRefuse
  repeat' first
    | with_reducible assumption
    | with_reducible apply State.bump_memOk
    | with_reducible apply State.advanceFld_memOk
    | with_reducible apply State.sipTook_memOk
    | with_reducible apply State.sipLog_memOk

theorem siphonTransfer_memOk (s : State) (die chan : Nat) (fed : List Byte) (h0 : State.memOk s) :
    State.memOk (siphonTransfer s die chan fed) := by
  unfold siphonTransfer
  repeat' first
    | with_reducible assumption
    | with_reducible apply State.bumpWide_memOk
    | with_reducible apply State.waitUsed_memOk
    | with_reducible apply State.sipStream_memOk
    | with_reducible apply State.sipLay_memOk
    | with_reducible apply State.setSip_memOk
    | with_reducible apply State.sipTook_memOk
    | with_reducible apply State.sipRefuse_memOk
    | intro _
    | with_reducible apply memOk_ite
    | with_reducible apply memOk_ite_fst
    | with_reducible apply memOk_ite_snd
    | split

theorem siphonEnd_memOk (s : State) (die chan : Nat) (fed : List Byte) (h0 : State.memOk s) :
    State.memOk (siphonEnd s die chan fed) := by
  unfold siphonEnd
  repeat' first
    | with_reducible assumption
    | with_reducible apply State.setSip_memOk
    | intro _
    | with_reducible apply memOk_ite
    | split

theorem State.sipStart_memOk (s : State) (die chan : Nat) (d : List Byte) (h0 : State.memOk s) :
    State.memOk (State.sipStart s die chan d) := by
  unfold State.sipStart
  repeat' first
    | with_reducible assumption
    | with_reducible apply State.giveList_memOk
    | with_reducible apply State.sipLog_memOk
    | intro _
    | with_reducible apply memOk_ite

theorem siphonComplete_memOk (s : State) (die chan : Nat) (h0 : State.memOk s) :
    State.memOk (siphonComplete s die chan) := by
  unfold siphonComplete
  repeat' first
    | with_reducible assumption
    | with_reducible apply State.bump_memOk
    | with_reducible apply State.advanceFld_memOk
    | with_reducible apply State.setSip_memOk
    | with_reducible apply State.sipStart_memOk
    | intro _
    | with_reducible apply memOk_ite
    | split
    | dsimp only

/-! ### Probe -/

theorem State.tapBypassed_memOk (s : State) (h0 : State.memOk s) :
    State.memOk (State.tapBypassed s) := by
  unfold State.tapBypassed
  repeat' first
    | with_reducible assumption
    | with_reducible apply State.answer_memOk
    | intro _
    | with_reducible apply memOk_ite

theorem State.tapIf_memOk (s : State) (ok : Bool) (f : State → State) (h0 : State.memOk s) (hf0 : ∀ (t : State), State.memOk t → State.memOk (f t)) :
    State.memOk (State.tapIf s ok f) := by
  unfold State.tapIf
  repeat' first
    | with_reducible assumption
    | with_reducible apply State.tapBypassed_memOk
    | with_reducible apply hf0
    | intro _
    | with_reducible apply memOk_ite

theorem tapIdcode_memOk (s : State) (h0 : State.memOk s) :
    State.memOk (tapIdcode s) := by
  unfold tapIdcode
  repeat' first
    | with_reducible assumption
    | with_reducible apply State.answer_memOk
    | intro _
    | with_reducible apply memOk_ite

theorem tapSamplePreload_memOk (s : State) (pins : List Bool) (h0 : State.memOk s) :
    State.memOk (tapSamplePreload s pins) := by
  unfold tapSamplePreload
  repeat' first
    | with_reducible assumption
    | with_reducible apply State.answer_memOk
    | with_reducible apply State.drawBytes_memOk
    | intro _
    | with_reducible apply memOk_ite
    | with_reducible apply memOk_ite_fst
    | with_reducible apply memOk_ite_snd
    | split
    | dsimp only
    | with_reducible apply memOk_mem
    | with_reducible apply memOk_mk

theorem tapExtest_memOk (s : State) (pins : List Bool) (leave : Bool) (h0 : State.memOk s) :
    State.memOk (tapExtest s pins leave) := by
  unfold tapExtest
  repeat' first
    | with_reducible assumption
    | with_reducible apply State.askRestart_memOk
    | with_reducible apply State.tapIf_memOk
    | intro _
    | with_reducible apply memOk_ite
    | split
    | dsimp only
    | with_reducible apply memOk_mem
    | with_reducible apply memOk_mk

theorem tapDtmcs_memOk (s : State) (h0 : State.memOk s) :
    State.memOk (tapDtmcs s) := by
  unfold tapDtmcs
  repeat' first
    | with_reducible assumption
    | with_reducible apply State.answer_memOk
    | with_reducible apply State.tapIf_memOk
    | intro _

theorem tapRegacc_memOk (s : State) (act write : Bool) (off v : Nat) (h0 : State.memOk s) :
    State.memOk (tapRegacc s act write off v) := by
  unfold tapRegacc
  repeat' first
    | with_reducible assumption
    | with_reducible apply State.answer_memOk
    | with_reducible apply State.readReg_memOk
    | with_reducible apply State.writeReg_memOk
    | intro _
    | with_reducible apply memOk_ite
    | with_reducible apply memOk_ite_fst
    | with_reducible apply memOk_ite_snd
    | split
    | dsimp only
    | with_reducible apply memOk_mem
    | with_reducible apply memOk_mk

theorem tapUnlock_memOk (s : State) (key signature : List Byte) (h0 : State.memOk s) :
    State.memOk (tapUnlock s key signature) := by
  unfold tapUnlock
  repeat' first
    | with_reducible assumption
    | with_reducible apply State.event_memOk
    | with_reducible apply State.tapIf_memOk
    | intro _
    | with_reducible apply memOk_ite
    | split
    | dsimp only
    | with_reducible apply memOk_mem
    | with_reducible apply memOk_mk

theorem State.setDmPair_memOk (s : State) (a v : Nat) (h0 : State.memOk s) :
    State.memOk (State.setDmPair s a v) := by
  unfold State.setDmPair
  repeat' first
    | with_reducible assumption
    | with_reducible apply State.setDm_memOk

theorem State.dmTake_memOk (before s : State) (a n : Nat) (h0 : State.memOk before) (h1 : State.memOk s) :
    State.memOk (State.dmTake before s a n) := by
  unfold State.dmTake
  repeat' first
    | with_reducible assumption
    | with_reducible apply State.setDm_memOk
    | with_reducible apply State.setDmPair_memOk
    | intro _
    | with_reducible apply memOk_ite
    | split

theorem State.dmCommand_memOk (s : State) (v : Nat) (h0 : State.memOk s) :
    State.memOk (State.dmCommand s v) := by
  unfold State.dmCommand
  repeat' first
    | with_reducible assumption
    | with_reducible apply State.coreRan_memOk
    | with_reducible apply State.setDm_memOk
    | with_reducible apply State.cmdErr_memOk
    | with_reducible apply accessRegister_memOk
    | with_reducible apply accessMemory_memOk
    | with_reducible apply State.setDmPair_memOk
    | with_reducible apply State.dmTake_memOk
    | intro _
    | with_reducible apply memOk_ite

theorem State.sbAccess_memOk (s : State) (write : Bool) (h0 : State.memOk s) :
    State.memOk (State.sbAccess s write) := by
  unfold State.sbAccess
  repeat' first
    | with_reducible assumption
    | with_reducible apply State.setDm_memOk
    | with_reducible apply systemBusAccess_memOk
    | with_reducible apply State.setDmPair_memOk
    | intro _
    | with_reducible apply memOk_ite
    | split

theorem State.resumeReq_memOk (s : State) (c : Nat) (h0 : State.memOk s) :
    State.memOk (State.resumeReq s c) := by
  unfold State.resumeReq
  repeat' first
    | with_reducible assumption
    | with_reducible apply hartResume_memOk
    | with_reducible apply hartStep_memOk
    | intro _
    | with_reducible apply memOk_ite

theorem State.dmControl_memOk (s : State) (v : Nat) (h0 : State.memOk s) :
    State.memOk (State.dmControl s v) := by
  unfold State.dmControl
  repeat' first
    | with_reducible assumption
    | with_reducible apply hartHalt_memOk
    | with_reducible apply State.setDm_memOk
    | with_reducible apply ndmreset_memOk
    | with_reducible apply State.resumeReq_memOk
    | with_reducible apply memOk_foldl
    | intro _
    | with_reducible apply memOk_ite
    | split
    | dsimp only
    | with_reducible apply memOk_mem
    | with_reducible apply memOk_mk

theorem State.dmWrite_memOk (s : State) (a v : Nat) (h0 : State.memOk s) :
    State.memOk (State.dmWrite s a v) := by
  unfold State.dmWrite
  repeat' first
    | with_reducible assumption
    | with_reducible apply State.setDm_memOk
    | with_reducible apply State.dmCommand_memOk
    | with_reducible apply State.sbAccess_memOk
    | with_reducible apply State.dmControl_memOk
    | intro _
    | with_reducible apply memOk_ite
    | split

theorem tapDmi_memOk (s : State) (op a v : Nat) (h0 : State.memOk s) :
    State.memOk (tapDmi s op a v) := by
  unfold tapDmi
  repeat' first
    | with_reducible assumption
    | with_reducible apply State.answer_memOk
    | with_reducible apply State.tapIf_memOk
    | with_reducible apply State.sbAccess_memOk
    | with_reducible apply State.dmWrite_memOk
    | intro _
    | with_reducible apply memOk_ite

theorem State.smb_memOk (s : State) (n v : Nat) (h0 : State.memOk s) :
    State.memOk (State.smb s n v) := by
  unfold State.smb
  repeat' first
    | with_reducible assumption
    | with_reducible apply State.answer_memOk
    | intro _
    | with_reducible apply memOk_ite
    | split
    | dsimp only
    | with_reducible apply memOk_mem
    | with_reducible apply memOk_mk

theorem State.smbSensor_memOk (s : State) (n code : Nat) (h0 : State.memOk s) :
    State.memOk (State.smbSensor s n code) := by
  unfold State.smbSensor
  repeat' first
    | with_reducible assumption
    | with_reducible apply State.drawWord_memOk
    | with_reducible apply State.smb_memOk

theorem smbPresence_memOk (s : State) (h0 : State.memOk s) :
    State.memOk (smbPresence s) := by
  unfold smbPresence
  repeat' first
    | with_reducible assumption
    | with_reducible apply State.smb_memOk

theorem smbHotspot_memOk (s : State) (h0 : State.memOk s) :
    State.memOk (smbHotspot s) := by
  unfold smbHotspot
  repeat' first
    | with_reducible assumption
    | with_reducible apply State.smb_memOk
    | with_reducible apply State.smbSensor_memOk
    | intro _
    | with_reducible apply memOk_ite

theorem smbInputPower_memOk (s : State) (h0 : State.memOk s) :
    State.memOk (smbInputPower s) := by
  unfold smbInputPower
  repeat' first
    | with_reducible assumption
    | with_reducible apply State.smb_memOk
    | with_reducible apply State.smbSensor_memOk
    | intro _
    | with_reducible apply memOk_ite

theorem smbPhase_memOk (s : State) (h0 : State.memOk s) :
    State.memOk (smbPhase s) := by
  unfold smbPhase
  repeat' first
    | with_reducible assumption
    | with_reducible apply State.smb_memOk

theorem smbSerial_memOk (s : State) (h0 : State.memOk s) :
    State.memOk (smbSerial s) := by
  unfold smbSerial
  repeat' first
    | with_reducible assumption
    | with_reducible apply State.smb_memOk

end Sys2Proof.Machine
end

