-- ==== Sys2Proof/Laws/Ops.lean ====
section
/-! SUPPORT. Little-endian fields, checked records, and memory read back after a write. -/

namespace Sys2Proof.Machine

theorem leBytes_length (n v : Nat) : (leBytes n v).length = n := by
  induction n generalizing v with
  | zero => rfl
  | succ n ih => simp [leBytes, ih]

theorem leNat_leBytes (n v : Nat) (h : v < 256 ^ n) : leNat (leBytes n v) = v := by
  induction n generalizing v with
  | zero => simp [leBytes, leNat] at *; omega
  | succ n ih =>
    have h' : v / 256 < 256 ^ n := by rw [Nat.div_lt_iff_lt_mul (by decide)]; simpa [Nat.pow_succ] using h
    simp only [leBytes, leNat, ih _ h', BitVec.toNat_ofNat]
    omega

theorem crcBit_lt {poly c : Nat} (hp : poly < 2 ^ 32) (hc : c < 2 ^ 32) : crcBit poly c < 2 ^ 32 := by
  unfold crcBit; split
  · exact Nat.xor_lt_two_pow (by omega) hp
  · omega

theorem crcBits_lt {poly : Nat} (hp : poly < 2 ^ 32) (n : Nat) {c : Nat} (hc : c < 2 ^ 32) : crcBits poly n c < 2 ^ 32 := by
  induction n generalizing c with
  | zero => exact hc
  | succ n ih => exact ih (crcBit_lt hp hc)

theorem crc32c_lt (bs : List Byte) : crc32c bs < 2 ^ 32 := by
  have h : ∀ (l : List Byte) (c : Nat), c < 2 ^ 32 → l.foldl (crcByte 0x82F63B78) c < 2 ^ 32 := by
    intro l
    induction l with
    | nil => intro c hc; exact hc
    | cons b t ih =>
      intro c hc
      exact ih _ (crcBits_lt (by decide) 8 (Nat.xor_lt_two_pow hc (Nat.lt_trans b.isLt (by decide))))
  exact Nat.xor_lt_two_pow (h bs _ (by decide)) (by decide)

theorem withCrc_drop (b : List Byte) : (withCrc b).drop 4 = b := by
  unfold withCrc
  rw [List.drop_append_of_le_length (by simp [leBytes_length])]
  simp [leBytes_length, List.drop_eq_nil_of_le]

theorem crcOk_withCrc (b : List Byte) : crcOk (withCrc b) = true := by
  unfold crcOk
  rw [withCrc_drop]
  unfold fld withCrc
  rw [List.drop_zero, List.take_append_of_le_length (by simp [leBytes_length]),
    List.take_of_length_le (by simp [leBytes_length]), leNat_leBytes 4 _ (by simpa using crc32c_lt b)]
  simp

theorem withCrc_length (b : List Byte) : (withCrc b).length = b.length + 4 := by
  simp [withCrc, leBytes_length]; omega

theorem load_store_same (s : State) (sp : Space) (a : Nat) (bs : List Byte) :
    (s.store sp a bs).load sp a bs.length = bs :=
  Memory.readBytes_writeBytes _ _ _

theorem Memory.readBytes_writeBytes_other (m : Memory) (k : Nat) (bs : List Byte) (n : Nat) {j : Nat}
    (h : j + n ≤ k ∨ k + bs.length ≤ j) : Memory.readBytes (Memory.writeBytes m k bs) j n = Memory.readBytes m j n := by
  induction n generalizing j with
  | zero => rfl
  | succ n ih =>
    simp only [Memory.readBytes]
    rw [Memory.read_writeBytes_other m k bs (by omega), ih (by omega)]

theorem Memory.readBytes_take (m : Memory) (n k a : Nat) : Memory.readBytes m a n = (Memory.readBytes m a (n + k)).take n := by
  induction n generalizing a with
  | zero => simp [Memory.readBytes]
  | succ n ih => rw [Nat.add_right_comm]; simp [Memory.readBytes, ← ih]

theorem load_store_other (s : State) (sp : Space) {a b : Nat} (n : Nat) (bs : List Byte)
    (h : (b + n ≤ a ∨ a + bs.length ≤ b) ∧ a < 2 ^ 64 ∧ b < 2 ^ 64) : (s.store sp a bs).load sp b n = s.load sp b n := by
  refine Memory.readBytes_writeBytes_other _ _ _ _ ?_
  unfold Space.key
  obtain ⟨h, h1, h2⟩ := h
  omega

end Sys2Proof.Machine
end

