-- ==== Sys2Proof/Laws/State.lean ====
section
/-! SUPPORT. What each update of the state leaves and changes: for every setter, each field it does not touch is as it was (true by
rfl), and the entry it sets reads back, with every other entry as it was. -/

namespace Sys2Proof.Machine

/-! ### setReg -/

section
variable (s : State) (die page off : Nat) (w : Word)
@[simp] theorem State.setReg_pending : (s.setReg die page off w).pending = s.pending := rfl
@[simp] theorem State.setReg_freeCount : (s.setReg die page off w).freeCount = s.freeCount := rfl
@[simp] theorem State.setReg_reply : (s.setReg die page off w).reply = s.reply := rfl
@[simp] theorem State.setReg_mem : (s.setReg die page off w).mem = s.mem := rfl
@[simp] theorem State.setReg_time : (s.setReg die page off w).time = s.time := rfl
@[simp] theorem State.setReg_nor : (s.setReg die page off w).nor = s.nor := rfl
@[simp] theorem State.setReg_sip : (s.setReg die page off w).sip = s.sip := rfl
@[simp] theorem State.setReg_smp : (s.setReg die page off w).smp = s.smp := rfl
@[simp] theorem State.setReg_qrn : (s.setReg die page off w).qrn = s.qrn := rfl
@[simp] theorem State.setReg_shf : (s.setReg die page off w).shf = s.shf := rfl
@[simp] theorem State.setReg_hp0 : (s.setReg die page off w).hp0 = s.hp0 := rfl
@[simp] theorem State.setReg_hp1 : (s.setReg die page off w).hp1 = s.hp1 := rfl
@[simp] theorem State.setReg_req : (s.setReg die page off w).req = s.req := rfl
@[simp] theorem State.setReg_pad : (s.setReg die page off w).pad = s.pad := rfl
@[simp] theorem State.setReg_tmg : (s.setReg die page off w).tmg = s.tmg := rfl
@[simp] theorem State.setReg_cis : (s.setReg die page off w).cis = s.cis := rfl
@[simp] theorem State.setReg_kv : (s.setReg die page off w).kv = s.kv := rfl
@[simp] theorem State.setReg_cat : (s.setReg die page off w).cat = s.cat := rfl
@[simp] theorem State.setReg_flt : (s.setReg die page off w).flt = s.flt := rfl
@[simp] theorem State.setReg_til : (s.setReg die page off w).til = s.til := rfl
@[simp] theorem State.setReg_rhz : (s.setReg die page off w).rhz = s.rhz := rfl
@[simp] theorem State.setReg_zio : (s.setReg die page off w).zio = s.zio := rfl
@[simp] theorem State.setReg_idx : (s.setReg die page off w).idx = s.idx := rfl
@[simp] theorem State.setReg_wdl : (s.setReg die page off w).wdl = s.wdl := rfl
@[simp] theorem State.setReg_clk : (s.setReg die page off w).clk = s.clk := rfl
@[simp] theorem State.setReg_pwr : (s.setReg die page off w).pwr = s.pwr := rfl
@[simp] theorem State.setReg_chk : (s.setReg die page off w).chk = s.chk := rfl
@[simp] theorem State.setReg_boot : (s.setReg die page off w).boot = s.boot := rfl
@[simp] theorem State.setReg_dbg : (s.setReg die page off w).dbg = s.dbg := rfl
end

/-! ### setRegN -/

section
variable (s : State) (die page off v : Nat)
@[simp] theorem State.setRegN_pending : (s.setRegN die page off v).pending = s.pending := rfl
@[simp] theorem State.setRegN_freeCount : (s.setRegN die page off v).freeCount = s.freeCount := rfl
@[simp] theorem State.setRegN_reply : (s.setRegN die page off v).reply = s.reply := rfl
@[simp] theorem State.setRegN_mem : (s.setRegN die page off v).mem = s.mem := rfl
@[simp] theorem State.setRegN_time : (s.setRegN die page off v).time = s.time := rfl
@[simp] theorem State.setRegN_nor : (s.setRegN die page off v).nor = s.nor := rfl
@[simp] theorem State.setRegN_sip : (s.setRegN die page off v).sip = s.sip := rfl
@[simp] theorem State.setRegN_smp : (s.setRegN die page off v).smp = s.smp := rfl
@[simp] theorem State.setRegN_qrn : (s.setRegN die page off v).qrn = s.qrn := rfl
@[simp] theorem State.setRegN_shf : (s.setRegN die page off v).shf = s.shf := rfl
@[simp] theorem State.setRegN_hp0 : (s.setRegN die page off v).hp0 = s.hp0 := rfl
@[simp] theorem State.setRegN_hp1 : (s.setRegN die page off v).hp1 = s.hp1 := rfl
@[simp] theorem State.setRegN_req : (s.setRegN die page off v).req = s.req := rfl
@[simp] theorem State.setRegN_pad : (s.setRegN die page off v).pad = s.pad := rfl
@[simp] theorem State.setRegN_tmg : (s.setRegN die page off v).tmg = s.tmg := rfl
@[simp] theorem State.setRegN_cis : (s.setRegN die page off v).cis = s.cis := rfl
@[simp] theorem State.setRegN_kv : (s.setRegN die page off v).kv = s.kv := rfl
@[simp] theorem State.setRegN_cat : (s.setRegN die page off v).cat = s.cat := rfl
@[simp] theorem State.setRegN_flt : (s.setRegN die page off v).flt = s.flt := rfl
@[simp] theorem State.setRegN_til : (s.setRegN die page off v).til = s.til := rfl
@[simp] theorem State.setRegN_rhz : (s.setRegN die page off v).rhz = s.rhz := rfl
@[simp] theorem State.setRegN_zio : (s.setRegN die page off v).zio = s.zio := rfl
@[simp] theorem State.setRegN_idx : (s.setRegN die page off v).idx = s.idx := rfl
@[simp] theorem State.setRegN_wdl : (s.setRegN die page off v).wdl = s.wdl := rfl
@[simp] theorem State.setRegN_clk : (s.setRegN die page off v).clk = s.clk := rfl
@[simp] theorem State.setRegN_pwr : (s.setRegN die page off v).pwr = s.pwr := rfl
@[simp] theorem State.setRegN_chk : (s.setRegN die page off v).chk = s.chk := rfl
@[simp] theorem State.setRegN_boot : (s.setRegN die page off v).boot = s.boot := rfl
@[simp] theorem State.setRegN_dbg : (s.setRegN die page off v).dbg = s.dbg := rfl
end

/-! ### setWide -/

section
variable (s : State) (die page kind idx v : Nat)
@[simp] theorem State.setWide_pending : (s.setWide die page kind idx v).pending = s.pending := rfl
@[simp] theorem State.setWide_freeCount : (s.setWide die page kind idx v).freeCount = s.freeCount := rfl
@[simp] theorem State.setWide_reply : (s.setWide die page kind idx v).reply = s.reply := rfl
@[simp] theorem State.setWide_mem : (s.setWide die page kind idx v).mem = s.mem := rfl
@[simp] theorem State.setWide_time : (s.setWide die page kind idx v).time = s.time := rfl
@[simp] theorem State.setWide_nor : (s.setWide die page kind idx v).nor = s.nor := rfl
@[simp] theorem State.setWide_sip : (s.setWide die page kind idx v).sip = s.sip := rfl
@[simp] theorem State.setWide_smp : (s.setWide die page kind idx v).smp = s.smp := rfl
@[simp] theorem State.setWide_qrn : (s.setWide die page kind idx v).qrn = s.qrn := rfl
@[simp] theorem State.setWide_shf : (s.setWide die page kind idx v).shf = s.shf := rfl
@[simp] theorem State.setWide_hp0 : (s.setWide die page kind idx v).hp0 = s.hp0 := rfl
@[simp] theorem State.setWide_hp1 : (s.setWide die page kind idx v).hp1 = s.hp1 := rfl
@[simp] theorem State.setWide_req : (s.setWide die page kind idx v).req = s.req := rfl
@[simp] theorem State.setWide_pad : (s.setWide die page kind idx v).pad = s.pad := rfl
@[simp] theorem State.setWide_tmg : (s.setWide die page kind idx v).tmg = s.tmg := rfl
@[simp] theorem State.setWide_cis : (s.setWide die page kind idx v).cis = s.cis := rfl
@[simp] theorem State.setWide_kv : (s.setWide die page kind idx v).kv = s.kv := rfl
@[simp] theorem State.setWide_cat : (s.setWide die page kind idx v).cat = s.cat := rfl
@[simp] theorem State.setWide_flt : (s.setWide die page kind idx v).flt = s.flt := rfl
@[simp] theorem State.setWide_til : (s.setWide die page kind idx v).til = s.til := rfl
@[simp] theorem State.setWide_rhz : (s.setWide die page kind idx v).rhz = s.rhz := rfl
@[simp] theorem State.setWide_zio : (s.setWide die page kind idx v).zio = s.zio := rfl
@[simp] theorem State.setWide_idx : (s.setWide die page kind idx v).idx = s.idx := rfl
@[simp] theorem State.setWide_wdl : (s.setWide die page kind idx v).wdl = s.wdl := rfl
@[simp] theorem State.setWide_clk : (s.setWide die page kind idx v).clk = s.clk := rfl
@[simp] theorem State.setWide_pwr : (s.setWide die page kind idx v).pwr = s.pwr := rfl
@[simp] theorem State.setWide_chk : (s.setWide die page kind idx v).chk = s.chk := rfl
@[simp] theorem State.setWide_boot : (s.setWide die page kind idx v).boot = s.boot := rfl
@[simp] theorem State.setWide_dbg : (s.setWide die page kind idx v).dbg = s.dbg := rfl
end

/-! ### setPage -/

section
variable (s : State) (die page : Nat) (p : Page)
@[simp] theorem State.setPage_pending : (s.setPage die page p).pending = s.pending := rfl
@[simp] theorem State.setPage_freeCount : (s.setPage die page p).freeCount = s.freeCount := rfl
@[simp] theorem State.setPage_reply : (s.setPage die page p).reply = s.reply := rfl
@[simp] theorem State.setPage_mem : (s.setPage die page p).mem = s.mem := rfl
@[simp] theorem State.setPage_time : (s.setPage die page p).time = s.time := rfl
@[simp] theorem State.setPage_nor : (s.setPage die page p).nor = s.nor := rfl
@[simp] theorem State.setPage_sip : (s.setPage die page p).sip = s.sip := rfl
@[simp] theorem State.setPage_smp : (s.setPage die page p).smp = s.smp := rfl
@[simp] theorem State.setPage_qrn : (s.setPage die page p).qrn = s.qrn := rfl
@[simp] theorem State.setPage_shf : (s.setPage die page p).shf = s.shf := rfl
@[simp] theorem State.setPage_hp0 : (s.setPage die page p).hp0 = s.hp0 := rfl
@[simp] theorem State.setPage_hp1 : (s.setPage die page p).hp1 = s.hp1 := rfl
@[simp] theorem State.setPage_req : (s.setPage die page p).req = s.req := rfl
@[simp] theorem State.setPage_pad : (s.setPage die page p).pad = s.pad := rfl
@[simp] theorem State.setPage_tmg : (s.setPage die page p).tmg = s.tmg := rfl
@[simp] theorem State.setPage_cis : (s.setPage die page p).cis = s.cis := rfl
@[simp] theorem State.setPage_kv : (s.setPage die page p).kv = s.kv := rfl
@[simp] theorem State.setPage_cat : (s.setPage die page p).cat = s.cat := rfl
@[simp] theorem State.setPage_flt : (s.setPage die page p).flt = s.flt := rfl
@[simp] theorem State.setPage_til : (s.setPage die page p).til = s.til := rfl
@[simp] theorem State.setPage_rhz : (s.setPage die page p).rhz = s.rhz := rfl
@[simp] theorem State.setPage_zio : (s.setPage die page p).zio = s.zio := rfl
@[simp] theorem State.setPage_idx : (s.setPage die page p).idx = s.idx := rfl
@[simp] theorem State.setPage_wdl : (s.setPage die page p).wdl = s.wdl := rfl
@[simp] theorem State.setPage_clk : (s.setPage die page p).clk = s.clk := rfl
@[simp] theorem State.setPage_pwr : (s.setPage die page p).pwr = s.pwr := rfl
@[simp] theorem State.setPage_chk : (s.setPage die page p).chk = s.chk := rfl
@[simp] theorem State.setPage_boot : (s.setPage die page p).boot = s.boot := rfl
@[simp] theorem State.setPage_dbg : (s.setPage die page p).dbg = s.dbg := rfl
end

/-! ### event -/

section
variable (s : State) (die page : Nat) (sqs errs : List Nat)
@[simp] theorem State.event_pending : (s.event die page sqs errs).pending = s.pending := rfl
@[simp] theorem State.event_freeCount : (s.event die page sqs errs).freeCount = s.freeCount := rfl
@[simp] theorem State.event_reply : (s.event die page sqs errs).reply = s.reply := rfl
@[simp] theorem State.event_mem : (s.event die page sqs errs).mem = s.mem := rfl
@[simp] theorem State.event_time : (s.event die page sqs errs).time = s.time := rfl
@[simp] theorem State.event_nor : (s.event die page sqs errs).nor = s.nor := rfl
@[simp] theorem State.event_sip : (s.event die page sqs errs).sip = s.sip := rfl
@[simp] theorem State.event_smp : (s.event die page sqs errs).smp = s.smp := rfl
@[simp] theorem State.event_qrn : (s.event die page sqs errs).qrn = s.qrn := rfl
@[simp] theorem State.event_shf : (s.event die page sqs errs).shf = s.shf := rfl
@[simp] theorem State.event_hp0 : (s.event die page sqs errs).hp0 = s.hp0 := rfl
@[simp] theorem State.event_hp1 : (s.event die page sqs errs).hp1 = s.hp1 := rfl
@[simp] theorem State.event_req : (s.event die page sqs errs).req = s.req := rfl
@[simp] theorem State.event_pad : (s.event die page sqs errs).pad = s.pad := rfl
@[simp] theorem State.event_tmg : (s.event die page sqs errs).tmg = s.tmg := rfl
@[simp] theorem State.event_cis : (s.event die page sqs errs).cis = s.cis := rfl
@[simp] theorem State.event_kv : (s.event die page sqs errs).kv = s.kv := rfl
@[simp] theorem State.event_cat : (s.event die page sqs errs).cat = s.cat := rfl
@[simp] theorem State.event_flt : (s.event die page sqs errs).flt = s.flt := rfl
@[simp] theorem State.event_til : (s.event die page sqs errs).til = s.til := rfl
@[simp] theorem State.event_rhz : (s.event die page sqs errs).rhz = s.rhz := rfl
@[simp] theorem State.event_zio : (s.event die page sqs errs).zio = s.zio := rfl
@[simp] theorem State.event_idx : (s.event die page sqs errs).idx = s.idx := rfl
@[simp] theorem State.event_wdl : (s.event die page sqs errs).wdl = s.wdl := rfl
@[simp] theorem State.event_clk : (s.event die page sqs errs).clk = s.clk := rfl
@[simp] theorem State.event_pwr : (s.event die page sqs errs).pwr = s.pwr := rfl
@[simp] theorem State.event_chk : (s.event die page sqs errs).chk = s.chk := rfl
@[simp] theorem State.event_boot : (s.event die page sqs errs).boot = s.boot := rfl
@[simp] theorem State.event_dbg : (s.event die page sqs errs).dbg = s.dbg := rfl
end

/-! ### err -/

section
variable (s : State) (die page code : Nat)
@[simp] theorem State.err_pending : (s.err die page code).pending = s.pending := rfl
@[simp] theorem State.err_freeCount : (s.err die page code).freeCount = s.freeCount := rfl
@[simp] theorem State.err_reply : (s.err die page code).reply = s.reply := rfl
@[simp] theorem State.err_mem : (s.err die page code).mem = s.mem := rfl
@[simp] theorem State.err_time : (s.err die page code).time = s.time := rfl
@[simp] theorem State.err_nor : (s.err die page code).nor = s.nor := rfl
@[simp] theorem State.err_sip : (s.err die page code).sip = s.sip := rfl
@[simp] theorem State.err_smp : (s.err die page code).smp = s.smp := rfl
@[simp] theorem State.err_qrn : (s.err die page code).qrn = s.qrn := rfl
@[simp] theorem State.err_shf : (s.err die page code).shf = s.shf := rfl
@[simp] theorem State.err_hp0 : (s.err die page code).hp0 = s.hp0 := rfl
@[simp] theorem State.err_hp1 : (s.err die page code).hp1 = s.hp1 := rfl
@[simp] theorem State.err_req : (s.err die page code).req = s.req := rfl
@[simp] theorem State.err_pad : (s.err die page code).pad = s.pad := rfl
@[simp] theorem State.err_tmg : (s.err die page code).tmg = s.tmg := rfl
@[simp] theorem State.err_cis : (s.err die page code).cis = s.cis := rfl
@[simp] theorem State.err_kv : (s.err die page code).kv = s.kv := rfl
@[simp] theorem State.err_cat : (s.err die page code).cat = s.cat := rfl
@[simp] theorem State.err_flt : (s.err die page code).flt = s.flt := rfl
@[simp] theorem State.err_til : (s.err die page code).til = s.til := rfl
@[simp] theorem State.err_rhz : (s.err die page code).rhz = s.rhz := rfl
@[simp] theorem State.err_zio : (s.err die page code).zio = s.zio := rfl
@[simp] theorem State.err_idx : (s.err die page code).idx = s.idx := rfl
@[simp] theorem State.err_wdl : (s.err die page code).wdl = s.wdl := rfl
@[simp] theorem State.err_clk : (s.err die page code).clk = s.clk := rfl
@[simp] theorem State.err_pwr : (s.err die page code).pwr = s.pwr := rfl
@[simp] theorem State.err_chk : (s.err die page code).chk = s.chk := rfl
@[simp] theorem State.err_boot : (s.err die page code).boot = s.boot := rfl
@[simp] theorem State.err_dbg : (s.err die page code).dbg = s.dbg := rfl
end

/-! ### bump -/

section
variable (s : State) (die page off n : Nat)
@[simp] theorem State.bump_pending : (s.bump die page off n).pending = s.pending := rfl
@[simp] theorem State.bump_freeCount : (s.bump die page off n).freeCount = s.freeCount := rfl
@[simp] theorem State.bump_reply : (s.bump die page off n).reply = s.reply := rfl
@[simp] theorem State.bump_mem : (s.bump die page off n).mem = s.mem := rfl
@[simp] theorem State.bump_time : (s.bump die page off n).time = s.time := rfl
@[simp] theorem State.bump_nor : (s.bump die page off n).nor = s.nor := rfl
@[simp] theorem State.bump_sip : (s.bump die page off n).sip = s.sip := rfl
@[simp] theorem State.bump_smp : (s.bump die page off n).smp = s.smp := rfl
@[simp] theorem State.bump_qrn : (s.bump die page off n).qrn = s.qrn := rfl
@[simp] theorem State.bump_shf : (s.bump die page off n).shf = s.shf := rfl
@[simp] theorem State.bump_hp0 : (s.bump die page off n).hp0 = s.hp0 := rfl
@[simp] theorem State.bump_hp1 : (s.bump die page off n).hp1 = s.hp1 := rfl
@[simp] theorem State.bump_req : (s.bump die page off n).req = s.req := rfl
@[simp] theorem State.bump_pad : (s.bump die page off n).pad = s.pad := rfl
@[simp] theorem State.bump_tmg : (s.bump die page off n).tmg = s.tmg := rfl
@[simp] theorem State.bump_cis : (s.bump die page off n).cis = s.cis := rfl
@[simp] theorem State.bump_kv : (s.bump die page off n).kv = s.kv := rfl
@[simp] theorem State.bump_cat : (s.bump die page off n).cat = s.cat := rfl
@[simp] theorem State.bump_flt : (s.bump die page off n).flt = s.flt := rfl
@[simp] theorem State.bump_til : (s.bump die page off n).til = s.til := rfl
@[simp] theorem State.bump_rhz : (s.bump die page off n).rhz = s.rhz := rfl
@[simp] theorem State.bump_zio : (s.bump die page off n).zio = s.zio := rfl
@[simp] theorem State.bump_idx : (s.bump die page off n).idx = s.idx := rfl
@[simp] theorem State.bump_wdl : (s.bump die page off n).wdl = s.wdl := rfl
@[simp] theorem State.bump_clk : (s.bump die page off n).clk = s.clk := rfl
@[simp] theorem State.bump_pwr : (s.bump die page off n).pwr = s.pwr := rfl
@[simp] theorem State.bump_chk : (s.bump die page off n).chk = s.chk := rfl
@[simp] theorem State.bump_boot : (s.bump die page off n).boot = s.boot := rfl
@[simp] theorem State.bump_dbg : (s.bump die page off n).dbg = s.dbg := rfl
end

/-! ### bumpWide -/

section
variable (s : State) (die page kind idx n : Nat)
@[simp] theorem State.bumpWide_pending : (s.bumpWide die page kind idx n).pending = s.pending := rfl
@[simp] theorem State.bumpWide_freeCount : (s.bumpWide die page kind idx n).freeCount = s.freeCount := rfl
@[simp] theorem State.bumpWide_reply : (s.bumpWide die page kind idx n).reply = s.reply := rfl
@[simp] theorem State.bumpWide_mem : (s.bumpWide die page kind idx n).mem = s.mem := rfl
@[simp] theorem State.bumpWide_time : (s.bumpWide die page kind idx n).time = s.time := rfl
@[simp] theorem State.bumpWide_nor : (s.bumpWide die page kind idx n).nor = s.nor := rfl
@[simp] theorem State.bumpWide_sip : (s.bumpWide die page kind idx n).sip = s.sip := rfl
@[simp] theorem State.bumpWide_smp : (s.bumpWide die page kind idx n).smp = s.smp := rfl
@[simp] theorem State.bumpWide_qrn : (s.bumpWide die page kind idx n).qrn = s.qrn := rfl
@[simp] theorem State.bumpWide_shf : (s.bumpWide die page kind idx n).shf = s.shf := rfl
@[simp] theorem State.bumpWide_hp0 : (s.bumpWide die page kind idx n).hp0 = s.hp0 := rfl
@[simp] theorem State.bumpWide_hp1 : (s.bumpWide die page kind idx n).hp1 = s.hp1 := rfl
@[simp] theorem State.bumpWide_req : (s.bumpWide die page kind idx n).req = s.req := rfl
@[simp] theorem State.bumpWide_pad : (s.bumpWide die page kind idx n).pad = s.pad := rfl
@[simp] theorem State.bumpWide_tmg : (s.bumpWide die page kind idx n).tmg = s.tmg := rfl
@[simp] theorem State.bumpWide_cis : (s.bumpWide die page kind idx n).cis = s.cis := rfl
@[simp] theorem State.bumpWide_kv : (s.bumpWide die page kind idx n).kv = s.kv := rfl
@[simp] theorem State.bumpWide_cat : (s.bumpWide die page kind idx n).cat = s.cat := rfl
@[simp] theorem State.bumpWide_flt : (s.bumpWide die page kind idx n).flt = s.flt := rfl
@[simp] theorem State.bumpWide_til : (s.bumpWide die page kind idx n).til = s.til := rfl
@[simp] theorem State.bumpWide_rhz : (s.bumpWide die page kind idx n).rhz = s.rhz := rfl
@[simp] theorem State.bumpWide_zio : (s.bumpWide die page kind idx n).zio = s.zio := rfl
@[simp] theorem State.bumpWide_idx : (s.bumpWide die page kind idx n).idx = s.idx := rfl
@[simp] theorem State.bumpWide_wdl : (s.bumpWide die page kind idx n).wdl = s.wdl := rfl
@[simp] theorem State.bumpWide_clk : (s.bumpWide die page kind idx n).clk = s.clk := rfl
@[simp] theorem State.bumpWide_pwr : (s.bumpWide die page kind idx n).pwr = s.pwr := rfl
@[simp] theorem State.bumpWide_chk : (s.bumpWide die page kind idx n).chk = s.chk := rfl
@[simp] theorem State.bumpWide_boot : (s.bumpWide die page kind idx n).boot = s.boot := rfl
@[simp] theorem State.bumpWide_dbg : (s.bumpWide die page kind idx n).dbg = s.dbg := rfl
end

/-! ### answer -/

section
variable (s : State) (v : Nat)
@[simp] theorem State.answer_pending : (s.answer v).pending = s.pending := rfl
@[simp] theorem State.answer_freeCount : (s.answer v).freeCount = s.freeCount := rfl
@[simp] theorem State.answer_mem : (s.answer v).mem = s.mem := rfl
@[simp] theorem State.answer_pg : (s.answer v).pg = s.pg := rfl
@[simp] theorem State.answer_time : (s.answer v).time = s.time := rfl
@[simp] theorem State.answer_nor : (s.answer v).nor = s.nor := rfl
@[simp] theorem State.answer_sip : (s.answer v).sip = s.sip := rfl
@[simp] theorem State.answer_smp : (s.answer v).smp = s.smp := rfl
@[simp] theorem State.answer_qrn : (s.answer v).qrn = s.qrn := rfl
@[simp] theorem State.answer_shf : (s.answer v).shf = s.shf := rfl
@[simp] theorem State.answer_hp0 : (s.answer v).hp0 = s.hp0 := rfl
@[simp] theorem State.answer_hp1 : (s.answer v).hp1 = s.hp1 := rfl
@[simp] theorem State.answer_req : (s.answer v).req = s.req := rfl
@[simp] theorem State.answer_pad : (s.answer v).pad = s.pad := rfl
@[simp] theorem State.answer_tmg : (s.answer v).tmg = s.tmg := rfl
@[simp] theorem State.answer_cis : (s.answer v).cis = s.cis := rfl
@[simp] theorem State.answer_kv : (s.answer v).kv = s.kv := rfl
@[simp] theorem State.answer_cat : (s.answer v).cat = s.cat := rfl
@[simp] theorem State.answer_flt : (s.answer v).flt = s.flt := rfl
@[simp] theorem State.answer_til : (s.answer v).til = s.til := rfl
@[simp] theorem State.answer_rhz : (s.answer v).rhz = s.rhz := rfl
@[simp] theorem State.answer_zio : (s.answer v).zio = s.zio := rfl
@[simp] theorem State.answer_idx : (s.answer v).idx = s.idx := rfl
@[simp] theorem State.answer_wdl : (s.answer v).wdl = s.wdl := rfl
@[simp] theorem State.answer_clk : (s.answer v).clk = s.clk := rfl
@[simp] theorem State.answer_pwr : (s.answer v).pwr = s.pwr := rfl
@[simp] theorem State.answer_chk : (s.answer v).chk = s.chk := rfl
@[simp] theorem State.answer_boot : (s.answer v).boot = s.boot := rfl
@[simp] theorem State.answer_dbg : (s.answer v).dbg = s.dbg := rfl
end

/-! ### store -/

section
variable (s : State) (sp : Space) (a : Nat) (bs : List Byte)
@[simp] theorem State.store_pending : (s.store sp a bs).pending = s.pending := rfl
@[simp] theorem State.store_freeCount : (s.store sp a bs).freeCount = s.freeCount := rfl
@[simp] theorem State.store_reply : (s.store sp a bs).reply = s.reply := rfl
@[simp] theorem State.store_pg : (s.store sp a bs).pg = s.pg := rfl
@[simp] theorem State.store_time : (s.store sp a bs).time = s.time := rfl
@[simp] theorem State.store_nor : (s.store sp a bs).nor = s.nor := rfl
@[simp] theorem State.store_sip : (s.store sp a bs).sip = s.sip := rfl
@[simp] theorem State.store_smp : (s.store sp a bs).smp = s.smp := rfl
@[simp] theorem State.store_qrn : (s.store sp a bs).qrn = s.qrn := rfl
@[simp] theorem State.store_shf : (s.store sp a bs).shf = s.shf := rfl
@[simp] theorem State.store_hp0 : (s.store sp a bs).hp0 = s.hp0 := rfl
@[simp] theorem State.store_hp1 : (s.store sp a bs).hp1 = s.hp1 := rfl
@[simp] theorem State.store_req : (s.store sp a bs).req = s.req := rfl
@[simp] theorem State.store_pad : (s.store sp a bs).pad = s.pad := rfl
@[simp] theorem State.store_tmg : (s.store sp a bs).tmg = s.tmg := rfl
@[simp] theorem State.store_cis : (s.store sp a bs).cis = s.cis := rfl
@[simp] theorem State.store_kv : (s.store sp a bs).kv = s.kv := rfl
@[simp] theorem State.store_cat : (s.store sp a bs).cat = s.cat := rfl
@[simp] theorem State.store_flt : (s.store sp a bs).flt = s.flt := rfl
@[simp] theorem State.store_til : (s.store sp a bs).til = s.til := rfl
@[simp] theorem State.store_rhz : (s.store sp a bs).rhz = s.rhz := rfl
@[simp] theorem State.store_zio : (s.store sp a bs).zio = s.zio := rfl
@[simp] theorem State.store_idx : (s.store sp a bs).idx = s.idx := rfl
@[simp] theorem State.store_wdl : (s.store sp a bs).wdl = s.wdl := rfl
@[simp] theorem State.store_clk : (s.store sp a bs).clk = s.clk := rfl
@[simp] theorem State.store_pwr : (s.store sp a bs).pwr = s.pwr := rfl
@[simp] theorem State.store_chk : (s.store sp a bs).chk = s.chk := rfl
@[simp] theorem State.store_boot : (s.store sp a bs).boot = s.boot := rfl
@[simp] theorem State.store_dbg : (s.store sp a bs).dbg = s.dbg := rfl
end

/-! ### setRing -/

section
variable (s : State) (rid : Nat) (r : Ring)
@[simp] theorem State.setRing_pending : (s.setRing rid r).pending = s.pending := rfl
@[simp] theorem State.setRing_freeCount : (s.setRing rid r).freeCount = s.freeCount := rfl
@[simp] theorem State.setRing_reply : (s.setRing rid r).reply = s.reply := rfl
@[simp] theorem State.setRing_mem : (s.setRing rid r).mem = s.mem := rfl
@[simp] theorem State.setRing_pg : (s.setRing rid r).pg = s.pg := rfl
@[simp] theorem State.setRing_time : (s.setRing rid r).time = s.time := rfl
@[simp] theorem State.setRing_sip : (s.setRing rid r).sip = s.sip := rfl
@[simp] theorem State.setRing_smp : (s.setRing rid r).smp = s.smp := rfl
@[simp] theorem State.setRing_qrn : (s.setRing rid r).qrn = s.qrn := rfl
@[simp] theorem State.setRing_shf : (s.setRing rid r).shf = s.shf := rfl
@[simp] theorem State.setRing_hp0 : (s.setRing rid r).hp0 = s.hp0 := rfl
@[simp] theorem State.setRing_hp1 : (s.setRing rid r).hp1 = s.hp1 := rfl
@[simp] theorem State.setRing_req : (s.setRing rid r).req = s.req := rfl
@[simp] theorem State.setRing_pad : (s.setRing rid r).pad = s.pad := rfl
@[simp] theorem State.setRing_tmg : (s.setRing rid r).tmg = s.tmg := rfl
@[simp] theorem State.setRing_cis : (s.setRing rid r).cis = s.cis := rfl
@[simp] theorem State.setRing_kv : (s.setRing rid r).kv = s.kv := rfl
@[simp] theorem State.setRing_cat : (s.setRing rid r).cat = s.cat := rfl
@[simp] theorem State.setRing_flt : (s.setRing rid r).flt = s.flt := rfl
@[simp] theorem State.setRing_til : (s.setRing rid r).til = s.til := rfl
@[simp] theorem State.setRing_rhz : (s.setRing rid r).rhz = s.rhz := rfl
@[simp] theorem State.setRing_zio : (s.setRing rid r).zio = s.zio := rfl
@[simp] theorem State.setRing_idx : (s.setRing rid r).idx = s.idx := rfl
@[simp] theorem State.setRing_wdl : (s.setRing rid r).wdl = s.wdl := rfl
@[simp] theorem State.setRing_clk : (s.setRing rid r).clk = s.clk := rfl
@[simp] theorem State.setRing_pwr : (s.setRing rid r).pwr = s.pwr := rfl
@[simp] theorem State.setRing_chk : (s.setRing rid r).chk = s.chk := rfl
@[simp] theorem State.setRing_boot : (s.setRing rid r).boot = s.boot := rfl
@[simp] theorem State.setRing_dbg : (s.setRing rid r).dbg = s.dbg := rfl
end

/-! ### setCtr -/

section
variable (s : State) (c : Nat) (v : Word)
@[simp] theorem State.setCtr_pending : (s.setCtr c v).pending = s.pending := rfl
@[simp] theorem State.setCtr_freeCount : (s.setCtr c v).freeCount = s.freeCount := rfl
@[simp] theorem State.setCtr_reply : (s.setCtr c v).reply = s.reply := rfl
@[simp] theorem State.setCtr_mem : (s.setCtr c v).mem = s.mem := rfl
@[simp] theorem State.setCtr_pg : (s.setCtr c v).pg = s.pg := rfl
@[simp] theorem State.setCtr_time : (s.setCtr c v).time = s.time := rfl
@[simp] theorem State.setCtr_sip : (s.setCtr c v).sip = s.sip := rfl
@[simp] theorem State.setCtr_smp : (s.setCtr c v).smp = s.smp := rfl
@[simp] theorem State.setCtr_qrn : (s.setCtr c v).qrn = s.qrn := rfl
@[simp] theorem State.setCtr_shf : (s.setCtr c v).shf = s.shf := rfl
@[simp] theorem State.setCtr_hp0 : (s.setCtr c v).hp0 = s.hp0 := rfl
@[simp] theorem State.setCtr_hp1 : (s.setCtr c v).hp1 = s.hp1 := rfl
@[simp] theorem State.setCtr_req : (s.setCtr c v).req = s.req := rfl
@[simp] theorem State.setCtr_pad : (s.setCtr c v).pad = s.pad := rfl
@[simp] theorem State.setCtr_tmg : (s.setCtr c v).tmg = s.tmg := rfl
@[simp] theorem State.setCtr_cis : (s.setCtr c v).cis = s.cis := rfl
@[simp] theorem State.setCtr_kv : (s.setCtr c v).kv = s.kv := rfl
@[simp] theorem State.setCtr_cat : (s.setCtr c v).cat = s.cat := rfl
@[simp] theorem State.setCtr_flt : (s.setCtr c v).flt = s.flt := rfl
@[simp] theorem State.setCtr_til : (s.setCtr c v).til = s.til := rfl
@[simp] theorem State.setCtr_rhz : (s.setCtr c v).rhz = s.rhz := rfl
@[simp] theorem State.setCtr_zio : (s.setCtr c v).zio = s.zio := rfl
@[simp] theorem State.setCtr_idx : (s.setCtr c v).idx = s.idx := rfl
@[simp] theorem State.setCtr_wdl : (s.setCtr c v).wdl = s.wdl := rfl
@[simp] theorem State.setCtr_clk : (s.setCtr c v).clk = s.clk := rfl
@[simp] theorem State.setCtr_pwr : (s.setCtr c v).pwr = s.pwr := rfl
@[simp] theorem State.setCtr_chk : (s.setCtr c v).chk = s.chk := rfl
@[simp] theorem State.setCtr_boot : (s.setCtr c v).boot = s.boot := rfl
@[simp] theorem State.setCtr_dbg : (s.setCtr c v).dbg = s.dbg := rfl
end

/-! ### setSyc -/

section
variable (s : State) (wh : Nat) (req : Requester) (x : SycOp)
@[simp] theorem State.setSyc_pending : (s.setSyc wh req x).pending = s.pending := rfl
@[simp] theorem State.setSyc_freeCount : (s.setSyc wh req x).freeCount = s.freeCount := rfl
@[simp] theorem State.setSyc_reply : (s.setSyc wh req x).reply = s.reply := rfl
@[simp] theorem State.setSyc_mem : (s.setSyc wh req x).mem = s.mem := rfl
@[simp] theorem State.setSyc_pg : (s.setSyc wh req x).pg = s.pg := rfl
@[simp] theorem State.setSyc_time : (s.setSyc wh req x).time = s.time := rfl
@[simp] theorem State.setSyc_sip : (s.setSyc wh req x).sip = s.sip := rfl
@[simp] theorem State.setSyc_smp : (s.setSyc wh req x).smp = s.smp := rfl
@[simp] theorem State.setSyc_qrn : (s.setSyc wh req x).qrn = s.qrn := rfl
@[simp] theorem State.setSyc_shf : (s.setSyc wh req x).shf = s.shf := rfl
@[simp] theorem State.setSyc_hp0 : (s.setSyc wh req x).hp0 = s.hp0 := rfl
@[simp] theorem State.setSyc_hp1 : (s.setSyc wh req x).hp1 = s.hp1 := rfl
@[simp] theorem State.setSyc_req : (s.setSyc wh req x).req = s.req := rfl
@[simp] theorem State.setSyc_pad : (s.setSyc wh req x).pad = s.pad := rfl
@[simp] theorem State.setSyc_tmg : (s.setSyc wh req x).tmg = s.tmg := rfl
@[simp] theorem State.setSyc_cis : (s.setSyc wh req x).cis = s.cis := rfl
@[simp] theorem State.setSyc_kv : (s.setSyc wh req x).kv = s.kv := rfl
@[simp] theorem State.setSyc_cat : (s.setSyc wh req x).cat = s.cat := rfl
@[simp] theorem State.setSyc_flt : (s.setSyc wh req x).flt = s.flt := rfl
@[simp] theorem State.setSyc_til : (s.setSyc wh req x).til = s.til := rfl
@[simp] theorem State.setSyc_rhz : (s.setSyc wh req x).rhz = s.rhz := rfl
@[simp] theorem State.setSyc_zio : (s.setSyc wh req x).zio = s.zio := rfl
@[simp] theorem State.setSyc_idx : (s.setSyc wh req x).idx = s.idx := rfl
@[simp] theorem State.setSyc_wdl : (s.setSyc wh req x).wdl = s.wdl := rfl
@[simp] theorem State.setSyc_clk : (s.setSyc wh req x).clk = s.clk := rfl
@[simp] theorem State.setSyc_pwr : (s.setSyc wh req x).pwr = s.pwr := rfl
@[simp] theorem State.setSyc_chk : (s.setSyc wh req x).chk = s.chk := rfl
@[simp] theorem State.setSyc_boot : (s.setSyc wh req x).boot = s.boot := rfl
@[simp] theorem State.setSyc_dbg : (s.setSyc wh req x).dbg = s.dbg := rfl
end

/-! ### setWell -/

section
variable (s : State) (n : Nat) (w : Well)
@[simp] theorem State.setWell_pending : (s.setWell n w).pending = s.pending := rfl
@[simp] theorem State.setWell_freeCount : (s.setWell n w).freeCount = s.freeCount := rfl
@[simp] theorem State.setWell_reply : (s.setWell n w).reply = s.reply := rfl
@[simp] theorem State.setWell_mem : (s.setWell n w).mem = s.mem := rfl
@[simp] theorem State.setWell_pg : (s.setWell n w).pg = s.pg := rfl
@[simp] theorem State.setWell_time : (s.setWell n w).time = s.time := rfl
@[simp] theorem State.setWell_nor : (s.setWell n w).nor = s.nor := rfl
@[simp] theorem State.setWell_sip : (s.setWell n w).sip = s.sip := rfl
@[simp] theorem State.setWell_smp : (s.setWell n w).smp = s.smp := rfl
@[simp] theorem State.setWell_qrn : (s.setWell n w).qrn = s.qrn := rfl
@[simp] theorem State.setWell_shf : (s.setWell n w).shf = s.shf := rfl
@[simp] theorem State.setWell_hp0 : (s.setWell n w).hp0 = s.hp0 := rfl
@[simp] theorem State.setWell_hp1 : (s.setWell n w).hp1 = s.hp1 := rfl
@[simp] theorem State.setWell_req : (s.setWell n w).req = s.req := rfl
@[simp] theorem State.setWell_pad : (s.setWell n w).pad = s.pad := rfl
@[simp] theorem State.setWell_tmg : (s.setWell n w).tmg = s.tmg := rfl
@[simp] theorem State.setWell_cis : (s.setWell n w).cis = s.cis := rfl
@[simp] theorem State.setWell_kv : (s.setWell n w).kv = s.kv := rfl
@[simp] theorem State.setWell_cat : (s.setWell n w).cat = s.cat := rfl
@[simp] theorem State.setWell_flt : (s.setWell n w).flt = s.flt := rfl
@[simp] theorem State.setWell_til : (s.setWell n w).til = s.til := rfl
@[simp] theorem State.setWell_rhz : (s.setWell n w).rhz = s.rhz := rfl
@[simp] theorem State.setWell_zio : (s.setWell n w).zio = s.zio := rfl
@[simp] theorem State.setWell_idx : (s.setWell n w).idx = s.idx := rfl
@[simp] theorem State.setWell_clk : (s.setWell n w).clk = s.clk := rfl
@[simp] theorem State.setWell_pwr : (s.setWell n w).pwr = s.pwr := rfl
@[simp] theorem State.setWell_chk : (s.setWell n w).chk = s.chk := rfl
@[simp] theorem State.setWell_boot : (s.setWell n w).boot = s.boot := rfl
@[simp] theorem State.setWell_dbg : (s.setWell n w).dbg = s.dbg := rfl
end

/-! ### setBlock -/

section
variable (s : State) (k : Nat) (b : Block)
@[simp] theorem State.setBlock_pending : (s.setBlock k b).pending = s.pending := rfl
@[simp] theorem State.setBlock_freeCount : (s.setBlock k b).freeCount = s.freeCount := rfl
@[simp] theorem State.setBlock_reply : (s.setBlock k b).reply = s.reply := rfl
@[simp] theorem State.setBlock_mem : (s.setBlock k b).mem = s.mem := rfl
@[simp] theorem State.setBlock_pg : (s.setBlock k b).pg = s.pg := rfl
@[simp] theorem State.setBlock_time : (s.setBlock k b).time = s.time := rfl
@[simp] theorem State.setBlock_nor : (s.setBlock k b).nor = s.nor := rfl
@[simp] theorem State.setBlock_sip : (s.setBlock k b).sip = s.sip := rfl
@[simp] theorem State.setBlock_smp : (s.setBlock k b).smp = s.smp := rfl
@[simp] theorem State.setBlock_qrn : (s.setBlock k b).qrn = s.qrn := rfl
@[simp] theorem State.setBlock_shf : (s.setBlock k b).shf = s.shf := rfl
@[simp] theorem State.setBlock_hp0 : (s.setBlock k b).hp0 = s.hp0 := rfl
@[simp] theorem State.setBlock_hp1 : (s.setBlock k b).hp1 = s.hp1 := rfl
@[simp] theorem State.setBlock_req : (s.setBlock k b).req = s.req := rfl
@[simp] theorem State.setBlock_pad : (s.setBlock k b).pad = s.pad := rfl
@[simp] theorem State.setBlock_tmg : (s.setBlock k b).tmg = s.tmg := rfl
@[simp] theorem State.setBlock_cis : (s.setBlock k b).cis = s.cis := rfl
@[simp] theorem State.setBlock_kv : (s.setBlock k b).kv = s.kv := rfl
@[simp] theorem State.setBlock_cat : (s.setBlock k b).cat = s.cat := rfl
@[simp] theorem State.setBlock_flt : (s.setBlock k b).flt = s.flt := rfl
@[simp] theorem State.setBlock_til : (s.setBlock k b).til = s.til := rfl
@[simp] theorem State.setBlock_rhz : (s.setBlock k b).rhz = s.rhz := rfl
@[simp] theorem State.setBlock_zio : (s.setBlock k b).zio = s.zio := rfl
@[simp] theorem State.setBlock_idx : (s.setBlock k b).idx = s.idx := rfl
@[simp] theorem State.setBlock_clk : (s.setBlock k b).clk = s.clk := rfl
@[simp] theorem State.setBlock_pwr : (s.setBlock k b).pwr = s.pwr := rfl
@[simp] theorem State.setBlock_chk : (s.setBlock k b).chk = s.chk := rfl
@[simp] theorem State.setBlock_boot : (s.setBlock k b).boot = s.boot := rfl
@[simp] theorem State.setBlock_dbg : (s.setBlock k b).dbg = s.dbg := rfl
end

/-! ### setImage -/

section
variable (s : State) (id : Nat) (x : ModelImage)
@[simp] theorem State.setImage_pending : (s.setImage id x).pending = s.pending := rfl
@[simp] theorem State.setImage_freeCount : (s.setImage id x).freeCount = s.freeCount := rfl
@[simp] theorem State.setImage_reply : (s.setImage id x).reply = s.reply := rfl
@[simp] theorem State.setImage_mem : (s.setImage id x).mem = s.mem := rfl
@[simp] theorem State.setImage_pg : (s.setImage id x).pg = s.pg := rfl
@[simp] theorem State.setImage_time : (s.setImage id x).time = s.time := rfl
@[simp] theorem State.setImage_nor : (s.setImage id x).nor = s.nor := rfl
@[simp] theorem State.setImage_sip : (s.setImage id x).sip = s.sip := rfl
@[simp] theorem State.setImage_smp : (s.setImage id x).smp = s.smp := rfl
@[simp] theorem State.setImage_qrn : (s.setImage id x).qrn = s.qrn := rfl
@[simp] theorem State.setImage_shf : (s.setImage id x).shf = s.shf := rfl
@[simp] theorem State.setImage_hp0 : (s.setImage id x).hp0 = s.hp0 := rfl
@[simp] theorem State.setImage_hp1 : (s.setImage id x).hp1 = s.hp1 := rfl
@[simp] theorem State.setImage_req : (s.setImage id x).req = s.req := rfl
@[simp] theorem State.setImage_pad : (s.setImage id x).pad = s.pad := rfl
@[simp] theorem State.setImage_tmg : (s.setImage id x).tmg = s.tmg := rfl
@[simp] theorem State.setImage_cis : (s.setImage id x).cis = s.cis := rfl
@[simp] theorem State.setImage_kv : (s.setImage id x).kv = s.kv := rfl
@[simp] theorem State.setImage_cat : (s.setImage id x).cat = s.cat := rfl
@[simp] theorem State.setImage_flt : (s.setImage id x).flt = s.flt := rfl
@[simp] theorem State.setImage_til : (s.setImage id x).til = s.til := rfl
@[simp] theorem State.setImage_rhz : (s.setImage id x).rhz = s.rhz := rfl
@[simp] theorem State.setImage_zio : (s.setImage id x).zio = s.zio := rfl
@[simp] theorem State.setImage_idx : (s.setImage id x).idx = s.idx := rfl
@[simp] theorem State.setImage_clk : (s.setImage id x).clk = s.clk := rfl
@[simp] theorem State.setImage_pwr : (s.setImage id x).pwr = s.pwr := rfl
@[simp] theorem State.setImage_chk : (s.setImage id x).chk = s.chk := rfl
@[simp] theorem State.setImage_boot : (s.setImage id x).boot = s.boot := rfl
@[simp] theorem State.setImage_dbg : (s.setImage id x).dbg = s.dbg := rfl
end

/-! ### setMeter -/

section
variable (s : State) (k : Nat) (m : Meter)
@[simp] theorem State.setMeter_pending : (s.setMeter k m).pending = s.pending := rfl
@[simp] theorem State.setMeter_freeCount : (s.setMeter k m).freeCount = s.freeCount := rfl
@[simp] theorem State.setMeter_reply : (s.setMeter k m).reply = s.reply := rfl
@[simp] theorem State.setMeter_mem : (s.setMeter k m).mem = s.mem := rfl
@[simp] theorem State.setMeter_pg : (s.setMeter k m).pg = s.pg := rfl
@[simp] theorem State.setMeter_time : (s.setMeter k m).time = s.time := rfl
@[simp] theorem State.setMeter_nor : (s.setMeter k m).nor = s.nor := rfl
@[simp] theorem State.setMeter_sip : (s.setMeter k m).sip = s.sip := rfl
@[simp] theorem State.setMeter_smp : (s.setMeter k m).smp = s.smp := rfl
@[simp] theorem State.setMeter_qrn : (s.setMeter k m).qrn = s.qrn := rfl
@[simp] theorem State.setMeter_shf : (s.setMeter k m).shf = s.shf := rfl
@[simp] theorem State.setMeter_hp0 : (s.setMeter k m).hp0 = s.hp0 := rfl
@[simp] theorem State.setMeter_hp1 : (s.setMeter k m).hp1 = s.hp1 := rfl
@[simp] theorem State.setMeter_req : (s.setMeter k m).req = s.req := rfl
@[simp] theorem State.setMeter_pad : (s.setMeter k m).pad = s.pad := rfl
@[simp] theorem State.setMeter_cis : (s.setMeter k m).cis = s.cis := rfl
@[simp] theorem State.setMeter_kv : (s.setMeter k m).kv = s.kv := rfl
@[simp] theorem State.setMeter_cat : (s.setMeter k m).cat = s.cat := rfl
@[simp] theorem State.setMeter_flt : (s.setMeter k m).flt = s.flt := rfl
@[simp] theorem State.setMeter_til : (s.setMeter k m).til = s.til := rfl
@[simp] theorem State.setMeter_rhz : (s.setMeter k m).rhz = s.rhz := rfl
@[simp] theorem State.setMeter_zio : (s.setMeter k m).zio = s.zio := rfl
@[simp] theorem State.setMeter_idx : (s.setMeter k m).idx = s.idx := rfl
@[simp] theorem State.setMeter_wdl : (s.setMeter k m).wdl = s.wdl := rfl
@[simp] theorem State.setMeter_clk : (s.setMeter k m).clk = s.clk := rfl
@[simp] theorem State.setMeter_pwr : (s.setMeter k m).pwr = s.pwr := rfl
@[simp] theorem State.setMeter_chk : (s.setMeter k m).chk = s.chk := rfl
@[simp] theorem State.setMeter_boot : (s.setMeter k m).boot = s.boot := rfl
@[simp] theorem State.setMeter_dbg : (s.setMeter k m).dbg = s.dbg := rfl
end

/-! ### setShaper -/

section
variable (s : State) (q : Nat) (h : Shaper)
@[simp] theorem State.setShaper_pending : (s.setShaper q h).pending = s.pending := rfl
@[simp] theorem State.setShaper_freeCount : (s.setShaper q h).freeCount = s.freeCount := rfl
@[simp] theorem State.setShaper_reply : (s.setShaper q h).reply = s.reply := rfl
@[simp] theorem State.setShaper_mem : (s.setShaper q h).mem = s.mem := rfl
@[simp] theorem State.setShaper_pg : (s.setShaper q h).pg = s.pg := rfl
@[simp] theorem State.setShaper_time : (s.setShaper q h).time = s.time := rfl
@[simp] theorem State.setShaper_nor : (s.setShaper q h).nor = s.nor := rfl
@[simp] theorem State.setShaper_sip : (s.setShaper q h).sip = s.sip := rfl
@[simp] theorem State.setShaper_smp : (s.setShaper q h).smp = s.smp := rfl
@[simp] theorem State.setShaper_qrn : (s.setShaper q h).qrn = s.qrn := rfl
@[simp] theorem State.setShaper_shf : (s.setShaper q h).shf = s.shf := rfl
@[simp] theorem State.setShaper_hp0 : (s.setShaper q h).hp0 = s.hp0 := rfl
@[simp] theorem State.setShaper_hp1 : (s.setShaper q h).hp1 = s.hp1 := rfl
@[simp] theorem State.setShaper_req : (s.setShaper q h).req = s.req := rfl
@[simp] theorem State.setShaper_pad : (s.setShaper q h).pad = s.pad := rfl
@[simp] theorem State.setShaper_cis : (s.setShaper q h).cis = s.cis := rfl
@[simp] theorem State.setShaper_kv : (s.setShaper q h).kv = s.kv := rfl
@[simp] theorem State.setShaper_cat : (s.setShaper q h).cat = s.cat := rfl
@[simp] theorem State.setShaper_flt : (s.setShaper q h).flt = s.flt := rfl
@[simp] theorem State.setShaper_til : (s.setShaper q h).til = s.til := rfl
@[simp] theorem State.setShaper_rhz : (s.setShaper q h).rhz = s.rhz := rfl
@[simp] theorem State.setShaper_zio : (s.setShaper q h).zio = s.zio := rfl
@[simp] theorem State.setShaper_idx : (s.setShaper q h).idx = s.idx := rfl
@[simp] theorem State.setShaper_wdl : (s.setShaper q h).wdl = s.wdl := rfl
@[simp] theorem State.setShaper_clk : (s.setShaper q h).clk = s.clk := rfl
@[simp] theorem State.setShaper_pwr : (s.setShaper q h).pwr = s.pwr := rfl
@[simp] theorem State.setShaper_chk : (s.setShaper q h).chk = s.chk := rfl
@[simp] theorem State.setShaper_boot : (s.setShaper q h).boot = s.boot := rfl
@[simp] theorem State.setShaper_dbg : (s.setShaper q h).dbg = s.dbg := rfl
end

/-! ### setQueue -/

section
variable (s : State) (q : Nat) (l : List ERec)
@[simp] theorem State.setQueue_pending : (s.setQueue q l).pending = s.pending := rfl
@[simp] theorem State.setQueue_freeCount : (s.setQueue q l).freeCount = s.freeCount := rfl
@[simp] theorem State.setQueue_reply : (s.setQueue q l).reply = s.reply := rfl
@[simp] theorem State.setQueue_mem : (s.setQueue q l).mem = s.mem := rfl
@[simp] theorem State.setQueue_pg : (s.setQueue q l).pg = s.pg := rfl
@[simp] theorem State.setQueue_time : (s.setQueue q l).time = s.time := rfl
@[simp] theorem State.setQueue_nor : (s.setQueue q l).nor = s.nor := rfl
@[simp] theorem State.setQueue_sip : (s.setQueue q l).sip = s.sip := rfl
@[simp] theorem State.setQueue_smp : (s.setQueue q l).smp = s.smp := rfl
@[simp] theorem State.setQueue_qrn : (s.setQueue q l).qrn = s.qrn := rfl
@[simp] theorem State.setQueue_shf : (s.setQueue q l).shf = s.shf := rfl
@[simp] theorem State.setQueue_hp0 : (s.setQueue q l).hp0 = s.hp0 := rfl
@[simp] theorem State.setQueue_hp1 : (s.setQueue q l).hp1 = s.hp1 := rfl
@[simp] theorem State.setQueue_req : (s.setQueue q l).req = s.req := rfl
@[simp] theorem State.setQueue_pad : (s.setQueue q l).pad = s.pad := rfl
@[simp] theorem State.setQueue_cis : (s.setQueue q l).cis = s.cis := rfl
@[simp] theorem State.setQueue_kv : (s.setQueue q l).kv = s.kv := rfl
@[simp] theorem State.setQueue_cat : (s.setQueue q l).cat = s.cat := rfl
@[simp] theorem State.setQueue_flt : (s.setQueue q l).flt = s.flt := rfl
@[simp] theorem State.setQueue_til : (s.setQueue q l).til = s.til := rfl
@[simp] theorem State.setQueue_rhz : (s.setQueue q l).rhz = s.rhz := rfl
@[simp] theorem State.setQueue_zio : (s.setQueue q l).zio = s.zio := rfl
@[simp] theorem State.setQueue_idx : (s.setQueue q l).idx = s.idx := rfl
@[simp] theorem State.setQueue_wdl : (s.setQueue q l).wdl = s.wdl := rfl
@[simp] theorem State.setQueue_clk : (s.setQueue q l).clk = s.clk := rfl
@[simp] theorem State.setQueue_pwr : (s.setQueue q l).pwr = s.pwr := rfl
@[simp] theorem State.setQueue_chk : (s.setQueue q l).chk = s.chk := rfl
@[simp] theorem State.setQueue_boot : (s.setQueue q l).boot = s.boot := rfl
@[simp] theorem State.setQueue_dbg : (s.setQueue q l).dbg = s.dbg := rfl
end

/-! ### setSlot -/

section
variable (s : State) (n : Nat) (x : Slot)
@[simp] theorem State.setSlot_pending : (s.setSlot n x).pending = s.pending := rfl
@[simp] theorem State.setSlot_freeCount : (s.setSlot n x).freeCount = s.freeCount := rfl
@[simp] theorem State.setSlot_reply : (s.setSlot n x).reply = s.reply := rfl
@[simp] theorem State.setSlot_mem : (s.setSlot n x).mem = s.mem := rfl
@[simp] theorem State.setSlot_pg : (s.setSlot n x).pg = s.pg := rfl
@[simp] theorem State.setSlot_time : (s.setSlot n x).time = s.time := rfl
@[simp] theorem State.setSlot_nor : (s.setSlot n x).nor = s.nor := rfl
@[simp] theorem State.setSlot_sip : (s.setSlot n x).sip = s.sip := rfl
@[simp] theorem State.setSlot_smp : (s.setSlot n x).smp = s.smp := rfl
@[simp] theorem State.setSlot_qrn : (s.setSlot n x).qrn = s.qrn := rfl
@[simp] theorem State.setSlot_shf : (s.setSlot n x).shf = s.shf := rfl
@[simp] theorem State.setSlot_hp0 : (s.setSlot n x).hp0 = s.hp0 := rfl
@[simp] theorem State.setSlot_hp1 : (s.setSlot n x).hp1 = s.hp1 := rfl
@[simp] theorem State.setSlot_pad : (s.setSlot n x).pad = s.pad := rfl
@[simp] theorem State.setSlot_tmg : (s.setSlot n x).tmg = s.tmg := rfl
@[simp] theorem State.setSlot_cis : (s.setSlot n x).cis = s.cis := rfl
@[simp] theorem State.setSlot_kv : (s.setSlot n x).kv = s.kv := rfl
@[simp] theorem State.setSlot_cat : (s.setSlot n x).cat = s.cat := rfl
@[simp] theorem State.setSlot_flt : (s.setSlot n x).flt = s.flt := rfl
@[simp] theorem State.setSlot_til : (s.setSlot n x).til = s.til := rfl
@[simp] theorem State.setSlot_rhz : (s.setSlot n x).rhz = s.rhz := rfl
@[simp] theorem State.setSlot_zio : (s.setSlot n x).zio = s.zio := rfl
@[simp] theorem State.setSlot_idx : (s.setSlot n x).idx = s.idx := rfl
@[simp] theorem State.setSlot_wdl : (s.setSlot n x).wdl = s.wdl := rfl
@[simp] theorem State.setSlot_clk : (s.setSlot n x).clk = s.clk := rfl
@[simp] theorem State.setSlot_pwr : (s.setSlot n x).pwr = s.pwr := rfl
@[simp] theorem State.setSlot_chk : (s.setSlot n x).chk = s.chk := rfl
@[simp] theorem State.setSlot_boot : (s.setSlot n x).boot = s.boot := rfl
@[simp] theorem State.setSlot_dbg : (s.setSlot n x).dbg = s.dbg := rfl
end

/-! ### setPaddock -/

section
variable (s : State) (p : Nat) (x : Paddock)
@[simp] theorem State.setPaddock_pending : (s.setPaddock p x).pending = s.pending := rfl
@[simp] theorem State.setPaddock_freeCount : (s.setPaddock p x).freeCount = s.freeCount := rfl
@[simp] theorem State.setPaddock_reply : (s.setPaddock p x).reply = s.reply := rfl
@[simp] theorem State.setPaddock_mem : (s.setPaddock p x).mem = s.mem := rfl
@[simp] theorem State.setPaddock_pg : (s.setPaddock p x).pg = s.pg := rfl
@[simp] theorem State.setPaddock_time : (s.setPaddock p x).time = s.time := rfl
@[simp] theorem State.setPaddock_nor : (s.setPaddock p x).nor = s.nor := rfl
@[simp] theorem State.setPaddock_sip : (s.setPaddock p x).sip = s.sip := rfl
@[simp] theorem State.setPaddock_smp : (s.setPaddock p x).smp = s.smp := rfl
@[simp] theorem State.setPaddock_qrn : (s.setPaddock p x).qrn = s.qrn := rfl
@[simp] theorem State.setPaddock_shf : (s.setPaddock p x).shf = s.shf := rfl
@[simp] theorem State.setPaddock_hp0 : (s.setPaddock p x).hp0 = s.hp0 := rfl
@[simp] theorem State.setPaddock_hp1 : (s.setPaddock p x).hp1 = s.hp1 := rfl
@[simp] theorem State.setPaddock_req : (s.setPaddock p x).req = s.req := rfl
@[simp] theorem State.setPaddock_tmg : (s.setPaddock p x).tmg = s.tmg := rfl
@[simp] theorem State.setPaddock_cis : (s.setPaddock p x).cis = s.cis := rfl
@[simp] theorem State.setPaddock_kv : (s.setPaddock p x).kv = s.kv := rfl
@[simp] theorem State.setPaddock_cat : (s.setPaddock p x).cat = s.cat := rfl
@[simp] theorem State.setPaddock_flt : (s.setPaddock p x).flt = s.flt := rfl
@[simp] theorem State.setPaddock_til : (s.setPaddock p x).til = s.til := rfl
@[simp] theorem State.setPaddock_rhz : (s.setPaddock p x).rhz = s.rhz := rfl
@[simp] theorem State.setPaddock_zio : (s.setPaddock p x).zio = s.zio := rfl
@[simp] theorem State.setPaddock_idx : (s.setPaddock p x).idx = s.idx := rfl
@[simp] theorem State.setPaddock_wdl : (s.setPaddock p x).wdl = s.wdl := rfl
@[simp] theorem State.setPaddock_clk : (s.setPaddock p x).clk = s.clk := rfl
@[simp] theorem State.setPaddock_pwr : (s.setPaddock p x).pwr = s.pwr := rfl
@[simp] theorem State.setPaddock_chk : (s.setPaddock p x).chk = s.chk := rfl
@[simp] theorem State.setPaddock_boot : (s.setPaddock p x).boot = s.boot := rfl
@[simp] theorem State.setPaddock_dbg : (s.setPaddock p x).dbg = s.dbg := rfl
end

/-! ### setTiller -/

section
variable (s : State) (t : Nat) (x : Tiller)
@[simp] theorem State.setTiller_pending : (s.setTiller t x).pending = s.pending := rfl
@[simp] theorem State.setTiller_freeCount : (s.setTiller t x).freeCount = s.freeCount := rfl
@[simp] theorem State.setTiller_reply : (s.setTiller t x).reply = s.reply := rfl
@[simp] theorem State.setTiller_mem : (s.setTiller t x).mem = s.mem := rfl
@[simp] theorem State.setTiller_pg : (s.setTiller t x).pg = s.pg := rfl
@[simp] theorem State.setTiller_time : (s.setTiller t x).time = s.time := rfl
@[simp] theorem State.setTiller_nor : (s.setTiller t x).nor = s.nor := rfl
@[simp] theorem State.setTiller_sip : (s.setTiller t x).sip = s.sip := rfl
@[simp] theorem State.setTiller_smp : (s.setTiller t x).smp = s.smp := rfl
@[simp] theorem State.setTiller_qrn : (s.setTiller t x).qrn = s.qrn := rfl
@[simp] theorem State.setTiller_shf : (s.setTiller t x).shf = s.shf := rfl
@[simp] theorem State.setTiller_hp0 : (s.setTiller t x).hp0 = s.hp0 := rfl
@[simp] theorem State.setTiller_hp1 : (s.setTiller t x).hp1 = s.hp1 := rfl
@[simp] theorem State.setTiller_req : (s.setTiller t x).req = s.req := rfl
@[simp] theorem State.setTiller_pad : (s.setTiller t x).pad = s.pad := rfl
@[simp] theorem State.setTiller_tmg : (s.setTiller t x).tmg = s.tmg := rfl
@[simp] theorem State.setTiller_cis : (s.setTiller t x).cis = s.cis := rfl
@[simp] theorem State.setTiller_kv : (s.setTiller t x).kv = s.kv := rfl
@[simp] theorem State.setTiller_cat : (s.setTiller t x).cat = s.cat := rfl
@[simp] theorem State.setTiller_flt : (s.setTiller t x).flt = s.flt := rfl
@[simp] theorem State.setTiller_rhz : (s.setTiller t x).rhz = s.rhz := rfl
@[simp] theorem State.setTiller_zio : (s.setTiller t x).zio = s.zio := rfl
@[simp] theorem State.setTiller_idx : (s.setTiller t x).idx = s.idx := rfl
@[simp] theorem State.setTiller_wdl : (s.setTiller t x).wdl = s.wdl := rfl
@[simp] theorem State.setTiller_clk : (s.setTiller t x).clk = s.clk := rfl
@[simp] theorem State.setTiller_pwr : (s.setTiller t x).pwr = s.pwr := rfl
@[simp] theorem State.setTiller_chk : (s.setTiller t x).chk = s.chk := rfl
@[simp] theorem State.setTiller_boot : (s.setTiller t x).boot = s.boot := rfl
@[simp] theorem State.setTiller_dbg : (s.setTiller t x).dbg = s.dbg := rfl
end

/-! ### setKvPage -/

section
variable (s : State) (job id : Nat) (p : KvPage)
@[simp] theorem State.setKvPage_pending : (s.setKvPage job id p).pending = s.pending := rfl
@[simp] theorem State.setKvPage_freeCount : (s.setKvPage job id p).freeCount = s.freeCount := rfl
@[simp] theorem State.setKvPage_reply : (s.setKvPage job id p).reply = s.reply := rfl
@[simp] theorem State.setKvPage_mem : (s.setKvPage job id p).mem = s.mem := rfl
@[simp] theorem State.setKvPage_pg : (s.setKvPage job id p).pg = s.pg := rfl
@[simp] theorem State.setKvPage_time : (s.setKvPage job id p).time = s.time := rfl
@[simp] theorem State.setKvPage_nor : (s.setKvPage job id p).nor = s.nor := rfl
@[simp] theorem State.setKvPage_sip : (s.setKvPage job id p).sip = s.sip := rfl
@[simp] theorem State.setKvPage_smp : (s.setKvPage job id p).smp = s.smp := rfl
@[simp] theorem State.setKvPage_qrn : (s.setKvPage job id p).qrn = s.qrn := rfl
@[simp] theorem State.setKvPage_shf : (s.setKvPage job id p).shf = s.shf := rfl
@[simp] theorem State.setKvPage_hp0 : (s.setKvPage job id p).hp0 = s.hp0 := rfl
@[simp] theorem State.setKvPage_hp1 : (s.setKvPage job id p).hp1 = s.hp1 := rfl
@[simp] theorem State.setKvPage_req : (s.setKvPage job id p).req = s.req := rfl
@[simp] theorem State.setKvPage_pad : (s.setKvPage job id p).pad = s.pad := rfl
@[simp] theorem State.setKvPage_tmg : (s.setKvPage job id p).tmg = s.tmg := rfl
@[simp] theorem State.setKvPage_cis : (s.setKvPage job id p).cis = s.cis := rfl
@[simp] theorem State.setKvPage_cat : (s.setKvPage job id p).cat = s.cat := rfl
@[simp] theorem State.setKvPage_flt : (s.setKvPage job id p).flt = s.flt := rfl
@[simp] theorem State.setKvPage_til : (s.setKvPage job id p).til = s.til := rfl
@[simp] theorem State.setKvPage_rhz : (s.setKvPage job id p).rhz = s.rhz := rfl
@[simp] theorem State.setKvPage_zio : (s.setKvPage job id p).zio = s.zio := rfl
@[simp] theorem State.setKvPage_idx : (s.setKvPage job id p).idx = s.idx := rfl
@[simp] theorem State.setKvPage_wdl : (s.setKvPage job id p).wdl = s.wdl := rfl
@[simp] theorem State.setKvPage_clk : (s.setKvPage job id p).clk = s.clk := rfl
@[simp] theorem State.setKvPage_pwr : (s.setKvPage job id p).pwr = s.pwr := rfl
@[simp] theorem State.setKvPage_chk : (s.setKvPage job id p).chk = s.chk := rfl
@[simp] theorem State.setKvPage_boot : (s.setKvPage job id p).boot = s.boot := rfl
@[simp] theorem State.setKvPage_dbg : (s.setKvPage job id p).dbg = s.dbg := rfl
end

/-! ### setPte -/

section
variable (s : State) (job vpn : Nat) (e : Pte)
@[simp] theorem State.setPte_pending : (s.setPte job vpn e).pending = s.pending := rfl
@[simp] theorem State.setPte_freeCount : (s.setPte job vpn e).freeCount = s.freeCount := rfl
@[simp] theorem State.setPte_reply : (s.setPte job vpn e).reply = s.reply := rfl
@[simp] theorem State.setPte_mem : (s.setPte job vpn e).mem = s.mem := rfl
@[simp] theorem State.setPte_pg : (s.setPte job vpn e).pg = s.pg := rfl
@[simp] theorem State.setPte_time : (s.setPte job vpn e).time = s.time := rfl
@[simp] theorem State.setPte_nor : (s.setPte job vpn e).nor = s.nor := rfl
@[simp] theorem State.setPte_sip : (s.setPte job vpn e).sip = s.sip := rfl
@[simp] theorem State.setPte_smp : (s.setPte job vpn e).smp = s.smp := rfl
@[simp] theorem State.setPte_qrn : (s.setPte job vpn e).qrn = s.qrn := rfl
@[simp] theorem State.setPte_shf : (s.setPte job vpn e).shf = s.shf := rfl
@[simp] theorem State.setPte_hp0 : (s.setPte job vpn e).hp0 = s.hp0 := rfl
@[simp] theorem State.setPte_hp1 : (s.setPte job vpn e).hp1 = s.hp1 := rfl
@[simp] theorem State.setPte_req : (s.setPte job vpn e).req = s.req := rfl
@[simp] theorem State.setPte_pad : (s.setPte job vpn e).pad = s.pad := rfl
@[simp] theorem State.setPte_tmg : (s.setPte job vpn e).tmg = s.tmg := rfl
@[simp] theorem State.setPte_kv : (s.setPte job vpn e).kv = s.kv := rfl
@[simp] theorem State.setPte_cat : (s.setPte job vpn e).cat = s.cat := rfl
@[simp] theorem State.setPte_flt : (s.setPte job vpn e).flt = s.flt := rfl
@[simp] theorem State.setPte_til : (s.setPte job vpn e).til = s.til := rfl
@[simp] theorem State.setPte_rhz : (s.setPte job vpn e).rhz = s.rhz := rfl
@[simp] theorem State.setPte_zio : (s.setPte job vpn e).zio = s.zio := rfl
@[simp] theorem State.setPte_idx : (s.setPte job vpn e).idx = s.idx := rfl
@[simp] theorem State.setPte_wdl : (s.setPte job vpn e).wdl = s.wdl := rfl
@[simp] theorem State.setPte_clk : (s.setPte job vpn e).clk = s.clk := rfl
@[simp] theorem State.setPte_pwr : (s.setPte job vpn e).pwr = s.pwr := rfl
@[simp] theorem State.setPte_chk : (s.setPte job vpn e).chk = s.chk := rfl
@[simp] theorem State.setPte_boot : (s.setPte job vpn e).boot = s.boot := rfl
@[simp] theorem State.setPte_dbg : (s.setPte job vpn e).dbg = s.dbg := rfl
end

/-! ### putPlan -/

section
variable (s : State) (job : Nat) (p : Plan)
@[simp] theorem State.putPlan_pending : (s.putPlan job p).pending = s.pending := rfl
@[simp] theorem State.putPlan_freeCount : (s.putPlan job p).freeCount = s.freeCount := rfl
@[simp] theorem State.putPlan_reply : (s.putPlan job p).reply = s.reply := rfl
@[simp] theorem State.putPlan_mem : (s.putPlan job p).mem = s.mem := rfl
@[simp] theorem State.putPlan_pg : (s.putPlan job p).pg = s.pg := rfl
@[simp] theorem State.putPlan_time : (s.putPlan job p).time = s.time := rfl
@[simp] theorem State.putPlan_nor : (s.putPlan job p).nor = s.nor := rfl
@[simp] theorem State.putPlan_sip : (s.putPlan job p).sip = s.sip := rfl
@[simp] theorem State.putPlan_smp : (s.putPlan job p).smp = s.smp := rfl
@[simp] theorem State.putPlan_qrn : (s.putPlan job p).qrn = s.qrn := rfl
@[simp] theorem State.putPlan_shf : (s.putPlan job p).shf = s.shf := rfl
@[simp] theorem State.putPlan_hp0 : (s.putPlan job p).hp0 = s.hp0 := rfl
@[simp] theorem State.putPlan_hp1 : (s.putPlan job p).hp1 = s.hp1 := rfl
@[simp] theorem State.putPlan_req : (s.putPlan job p).req = s.req := rfl
@[simp] theorem State.putPlan_pad : (s.putPlan job p).pad = s.pad := rfl
@[simp] theorem State.putPlan_tmg : (s.putPlan job p).tmg = s.tmg := rfl
@[simp] theorem State.putPlan_kv : (s.putPlan job p).kv = s.kv := rfl
@[simp] theorem State.putPlan_cat : (s.putPlan job p).cat = s.cat := rfl
@[simp] theorem State.putPlan_flt : (s.putPlan job p).flt = s.flt := rfl
@[simp] theorem State.putPlan_til : (s.putPlan job p).til = s.til := rfl
@[simp] theorem State.putPlan_rhz : (s.putPlan job p).rhz = s.rhz := rfl
@[simp] theorem State.putPlan_zio : (s.putPlan job p).zio = s.zio := rfl
@[simp] theorem State.putPlan_idx : (s.putPlan job p).idx = s.idx := rfl
@[simp] theorem State.putPlan_wdl : (s.putPlan job p).wdl = s.wdl := rfl
@[simp] theorem State.putPlan_clk : (s.putPlan job p).clk = s.clk := rfl
@[simp] theorem State.putPlan_pwr : (s.putPlan job p).pwr = s.pwr := rfl
@[simp] theorem State.putPlan_chk : (s.putPlan job p).chk = s.chk := rfl
@[simp] theorem State.putPlan_boot : (s.putPlan job p).boot = s.boot := rfl
@[simp] theorem State.putPlan_dbg : (s.putPlan job p).dbg = s.dbg := rfl
end

/-! ### setZport -/

section
variable (s : State) (p : Nat) (x : ZioPort)
@[simp] theorem State.setZport_pending : (s.setZport p x).pending = s.pending := rfl
@[simp] theorem State.setZport_freeCount : (s.setZport p x).freeCount = s.freeCount := rfl
@[simp] theorem State.setZport_reply : (s.setZport p x).reply = s.reply := rfl
@[simp] theorem State.setZport_mem : (s.setZport p x).mem = s.mem := rfl
@[simp] theorem State.setZport_pg : (s.setZport p x).pg = s.pg := rfl
@[simp] theorem State.setZport_time : (s.setZport p x).time = s.time := rfl
@[simp] theorem State.setZport_nor : (s.setZport p x).nor = s.nor := rfl
@[simp] theorem State.setZport_sip : (s.setZport p x).sip = s.sip := rfl
@[simp] theorem State.setZport_smp : (s.setZport p x).smp = s.smp := rfl
@[simp] theorem State.setZport_qrn : (s.setZport p x).qrn = s.qrn := rfl
@[simp] theorem State.setZport_shf : (s.setZport p x).shf = s.shf := rfl
@[simp] theorem State.setZport_hp0 : (s.setZport p x).hp0 = s.hp0 := rfl
@[simp] theorem State.setZport_hp1 : (s.setZport p x).hp1 = s.hp1 := rfl
@[simp] theorem State.setZport_req : (s.setZport p x).req = s.req := rfl
@[simp] theorem State.setZport_pad : (s.setZport p x).pad = s.pad := rfl
@[simp] theorem State.setZport_tmg : (s.setZport p x).tmg = s.tmg := rfl
@[simp] theorem State.setZport_cis : (s.setZport p x).cis = s.cis := rfl
@[simp] theorem State.setZport_kv : (s.setZport p x).kv = s.kv := rfl
@[simp] theorem State.setZport_cat : (s.setZport p x).cat = s.cat := rfl
@[simp] theorem State.setZport_flt : (s.setZport p x).flt = s.flt := rfl
@[simp] theorem State.setZport_til : (s.setZport p x).til = s.til := rfl
@[simp] theorem State.setZport_rhz : (s.setZport p x).rhz = s.rhz := rfl
@[simp] theorem State.setZport_idx : (s.setZport p x).idx = s.idx := rfl
@[simp] theorem State.setZport_wdl : (s.setZport p x).wdl = s.wdl := rfl
@[simp] theorem State.setZport_clk : (s.setZport p x).clk = s.clk := rfl
@[simp] theorem State.setZport_pwr : (s.setZport p x).pwr = s.pwr := rfl
@[simp] theorem State.setZport_chk : (s.setZport p x).chk = s.chk := rfl
@[simp] theorem State.setZport_boot : (s.setZport p x).boot = s.boot := rfl
@[simp] theorem State.setZport_dbg : (s.setZport p x).dbg = s.dbg := rfl
end

/-! ### setZpair -/

section
variable (s : State) (i : Nat) (x : ZioPair)
@[simp] theorem State.setZpair_pending : (s.setZpair i x).pending = s.pending := rfl
@[simp] theorem State.setZpair_freeCount : (s.setZpair i x).freeCount = s.freeCount := rfl
@[simp] theorem State.setZpair_reply : (s.setZpair i x).reply = s.reply := rfl
@[simp] theorem State.setZpair_mem : (s.setZpair i x).mem = s.mem := rfl
@[simp] theorem State.setZpair_pg : (s.setZpair i x).pg = s.pg := rfl
@[simp] theorem State.setZpair_time : (s.setZpair i x).time = s.time := rfl
@[simp] theorem State.setZpair_nor : (s.setZpair i x).nor = s.nor := rfl
@[simp] theorem State.setZpair_sip : (s.setZpair i x).sip = s.sip := rfl
@[simp] theorem State.setZpair_smp : (s.setZpair i x).smp = s.smp := rfl
@[simp] theorem State.setZpair_qrn : (s.setZpair i x).qrn = s.qrn := rfl
@[simp] theorem State.setZpair_shf : (s.setZpair i x).shf = s.shf := rfl
@[simp] theorem State.setZpair_hp0 : (s.setZpair i x).hp0 = s.hp0 := rfl
@[simp] theorem State.setZpair_hp1 : (s.setZpair i x).hp1 = s.hp1 := rfl
@[simp] theorem State.setZpair_req : (s.setZpair i x).req = s.req := rfl
@[simp] theorem State.setZpair_pad : (s.setZpair i x).pad = s.pad := rfl
@[simp] theorem State.setZpair_tmg : (s.setZpair i x).tmg = s.tmg := rfl
@[simp] theorem State.setZpair_cis : (s.setZpair i x).cis = s.cis := rfl
@[simp] theorem State.setZpair_kv : (s.setZpair i x).kv = s.kv := rfl
@[simp] theorem State.setZpair_cat : (s.setZpair i x).cat = s.cat := rfl
@[simp] theorem State.setZpair_flt : (s.setZpair i x).flt = s.flt := rfl
@[simp] theorem State.setZpair_til : (s.setZpair i x).til = s.til := rfl
@[simp] theorem State.setZpair_rhz : (s.setZpair i x).rhz = s.rhz := rfl
@[simp] theorem State.setZpair_idx : (s.setZpair i x).idx = s.idx := rfl
@[simp] theorem State.setZpair_wdl : (s.setZpair i x).wdl = s.wdl := rfl
@[simp] theorem State.setZpair_clk : (s.setZpair i x).clk = s.clk := rfl
@[simp] theorem State.setZpair_pwr : (s.setZpair i x).pwr = s.pwr := rfl
@[simp] theorem State.setZpair_chk : (s.setZpair i x).chk = s.chk := rfl
@[simp] theorem State.setZpair_boot : (s.setZpair i x).boot = s.boot := rfl
@[simp] theorem State.setZpair_dbg : (s.setZpair i x).dbg = s.dbg := rfl
end

/-! ### setWin -/

section
variable (s : State) (t : Nat) (x : WinSt)
@[simp] theorem State.setWin_pending : (s.setWin t x).pending = s.pending := rfl
@[simp] theorem State.setWin_freeCount : (s.setWin t x).freeCount = s.freeCount := rfl
@[simp] theorem State.setWin_reply : (s.setWin t x).reply = s.reply := rfl
@[simp] theorem State.setWin_mem : (s.setWin t x).mem = s.mem := rfl
@[simp] theorem State.setWin_pg : (s.setWin t x).pg = s.pg := rfl
@[simp] theorem State.setWin_time : (s.setWin t x).time = s.time := rfl
@[simp] theorem State.setWin_nor : (s.setWin t x).nor = s.nor := rfl
@[simp] theorem State.setWin_sip : (s.setWin t x).sip = s.sip := rfl
@[simp] theorem State.setWin_qrn : (s.setWin t x).qrn = s.qrn := rfl
@[simp] theorem State.setWin_shf : (s.setWin t x).shf = s.shf := rfl
@[simp] theorem State.setWin_hp0 : (s.setWin t x).hp0 = s.hp0 := rfl
@[simp] theorem State.setWin_hp1 : (s.setWin t x).hp1 = s.hp1 := rfl
@[simp] theorem State.setWin_req : (s.setWin t x).req = s.req := rfl
@[simp] theorem State.setWin_pad : (s.setWin t x).pad = s.pad := rfl
@[simp] theorem State.setWin_tmg : (s.setWin t x).tmg = s.tmg := rfl
@[simp] theorem State.setWin_cis : (s.setWin t x).cis = s.cis := rfl
@[simp] theorem State.setWin_kv : (s.setWin t x).kv = s.kv := rfl
@[simp] theorem State.setWin_cat : (s.setWin t x).cat = s.cat := rfl
@[simp] theorem State.setWin_flt : (s.setWin t x).flt = s.flt := rfl
@[simp] theorem State.setWin_til : (s.setWin t x).til = s.til := rfl
@[simp] theorem State.setWin_rhz : (s.setWin t x).rhz = s.rhz := rfl
@[simp] theorem State.setWin_zio : (s.setWin t x).zio = s.zio := rfl
@[simp] theorem State.setWin_idx : (s.setWin t x).idx = s.idx := rfl
@[simp] theorem State.setWin_wdl : (s.setWin t x).wdl = s.wdl := rfl
@[simp] theorem State.setWin_clk : (s.setWin t x).clk = s.clk := rfl
@[simp] theorem State.setWin_pwr : (s.setWin t x).pwr = s.pwr := rfl
@[simp] theorem State.setWin_chk : (s.setWin t x).chk = s.chk := rfl
@[simp] theorem State.setWin_boot : (s.setWin t x).boot = s.boot := rfl
@[simp] theorem State.setWin_dbg : (s.setWin t x).dbg = s.dbg := rfl
end

/-! ### setTable -/

section
variable (s : State) (t : Nat) (x : ShfTable)
@[simp] theorem State.setTable_pending : (s.setTable t x).pending = s.pending := rfl
@[simp] theorem State.setTable_freeCount : (s.setTable t x).freeCount = s.freeCount := rfl
@[simp] theorem State.setTable_reply : (s.setTable t x).reply = s.reply := rfl
@[simp] theorem State.setTable_mem : (s.setTable t x).mem = s.mem := rfl
@[simp] theorem State.setTable_pg : (s.setTable t x).pg = s.pg := rfl
@[simp] theorem State.setTable_time : (s.setTable t x).time = s.time := rfl
@[simp] theorem State.setTable_nor : (s.setTable t x).nor = s.nor := rfl
@[simp] theorem State.setTable_sip : (s.setTable t x).sip = s.sip := rfl
@[simp] theorem State.setTable_smp : (s.setTable t x).smp = s.smp := rfl
@[simp] theorem State.setTable_qrn : (s.setTable t x).qrn = s.qrn := rfl
@[simp] theorem State.setTable_hp0 : (s.setTable t x).hp0 = s.hp0 := rfl
@[simp] theorem State.setTable_hp1 : (s.setTable t x).hp1 = s.hp1 := rfl
@[simp] theorem State.setTable_req : (s.setTable t x).req = s.req := rfl
@[simp] theorem State.setTable_pad : (s.setTable t x).pad = s.pad := rfl
@[simp] theorem State.setTable_tmg : (s.setTable t x).tmg = s.tmg := rfl
@[simp] theorem State.setTable_cis : (s.setTable t x).cis = s.cis := rfl
@[simp] theorem State.setTable_kv : (s.setTable t x).kv = s.kv := rfl
@[simp] theorem State.setTable_cat : (s.setTable t x).cat = s.cat := rfl
@[simp] theorem State.setTable_flt : (s.setTable t x).flt = s.flt := rfl
@[simp] theorem State.setTable_til : (s.setTable t x).til = s.til := rfl
@[simp] theorem State.setTable_rhz : (s.setTable t x).rhz = s.rhz := rfl
@[simp] theorem State.setTable_zio : (s.setTable t x).zio = s.zio := rfl
@[simp] theorem State.setTable_idx : (s.setTable t x).idx = s.idx := rfl
@[simp] theorem State.setTable_wdl : (s.setTable t x).wdl = s.wdl := rfl
@[simp] theorem State.setTable_clk : (s.setTable t x).clk = s.clk := rfl
@[simp] theorem State.setTable_pwr : (s.setTable t x).pwr = s.pwr := rfl
@[simp] theorem State.setTable_chk : (s.setTable t x).chk = s.chk := rfl
@[simp] theorem State.setTable_boot : (s.setTable t x).boot = s.boot := rfl
@[simp] theorem State.setTable_dbg : (s.setTable t x).dbg = s.dbg := rfl
end

/-! ### setGen -/

section
variable (s : State) (g : Nat) (x : GenSlot)
@[simp] theorem State.setGen_pending : (s.setGen g x).pending = s.pending := rfl
@[simp] theorem State.setGen_freeCount : (s.setGen g x).freeCount = s.freeCount := rfl
@[simp] theorem State.setGen_reply : (s.setGen g x).reply = s.reply := rfl
@[simp] theorem State.setGen_mem : (s.setGen g x).mem = s.mem := rfl
@[simp] theorem State.setGen_pg : (s.setGen g x).pg = s.pg := rfl
@[simp] theorem State.setGen_time : (s.setGen g x).time = s.time := rfl
@[simp] theorem State.setGen_nor : (s.setGen g x).nor = s.nor := rfl
@[simp] theorem State.setGen_sip : (s.setGen g x).sip = s.sip := rfl
@[simp] theorem State.setGen_smp : (s.setGen g x).smp = s.smp := rfl
@[simp] theorem State.setGen_qrn : (s.setGen g x).qrn = s.qrn := rfl
@[simp] theorem State.setGen_shf : (s.setGen g x).shf = s.shf := rfl
@[simp] theorem State.setGen_hp0 : (s.setGen g x).hp0 = s.hp0 := rfl
@[simp] theorem State.setGen_hp1 : (s.setGen g x).hp1 = s.hp1 := rfl
@[simp] theorem State.setGen_req : (s.setGen g x).req = s.req := rfl
@[simp] theorem State.setGen_pad : (s.setGen g x).pad = s.pad := rfl
@[simp] theorem State.setGen_tmg : (s.setGen g x).tmg = s.tmg := rfl
@[simp] theorem State.setGen_cis : (s.setGen g x).cis = s.cis := rfl
@[simp] theorem State.setGen_kv : (s.setGen g x).kv = s.kv := rfl
@[simp] theorem State.setGen_cat : (s.setGen g x).cat = s.cat := rfl
@[simp] theorem State.setGen_flt : (s.setGen g x).flt = s.flt := rfl
@[simp] theorem State.setGen_til : (s.setGen g x).til = s.til := rfl
@[simp] theorem State.setGen_rhz : (s.setGen g x).rhz = s.rhz := rfl
@[simp] theorem State.setGen_zio : (s.setGen g x).zio = s.zio := rfl
@[simp] theorem State.setGen_wdl : (s.setGen g x).wdl = s.wdl := rfl
@[simp] theorem State.setGen_clk : (s.setGen g x).clk = s.clk := rfl
@[simp] theorem State.setGen_pwr : (s.setGen g x).pwr = s.pwr := rfl
@[simp] theorem State.setGen_chk : (s.setGen g x).chk = s.chk := rfl
@[simp] theorem State.setGen_boot : (s.setGen g x).boot = s.boot := rfl
@[simp] theorem State.setGen_dbg : (s.setGen g x).dbg = s.dbg := rfl
end

/-! ### setSearch -/

section
variable (s : State) (i : Nat) (x : Search)
@[simp] theorem State.setSearch_pending : (s.setSearch i x).pending = s.pending := rfl
@[simp] theorem State.setSearch_freeCount : (s.setSearch i x).freeCount = s.freeCount := rfl
@[simp] theorem State.setSearch_reply : (s.setSearch i x).reply = s.reply := rfl
@[simp] theorem State.setSearch_mem : (s.setSearch i x).mem = s.mem := rfl
@[simp] theorem State.setSearch_pg : (s.setSearch i x).pg = s.pg := rfl
@[simp] theorem State.setSearch_time : (s.setSearch i x).time = s.time := rfl
@[simp] theorem State.setSearch_nor : (s.setSearch i x).nor = s.nor := rfl
@[simp] theorem State.setSearch_sip : (s.setSearch i x).sip = s.sip := rfl
@[simp] theorem State.setSearch_smp : (s.setSearch i x).smp = s.smp := rfl
@[simp] theorem State.setSearch_qrn : (s.setSearch i x).qrn = s.qrn := rfl
@[simp] theorem State.setSearch_shf : (s.setSearch i x).shf = s.shf := rfl
@[simp] theorem State.setSearch_hp0 : (s.setSearch i x).hp0 = s.hp0 := rfl
@[simp] theorem State.setSearch_hp1 : (s.setSearch i x).hp1 = s.hp1 := rfl
@[simp] theorem State.setSearch_req : (s.setSearch i x).req = s.req := rfl
@[simp] theorem State.setSearch_pad : (s.setSearch i x).pad = s.pad := rfl
@[simp] theorem State.setSearch_tmg : (s.setSearch i x).tmg = s.tmg := rfl
@[simp] theorem State.setSearch_cis : (s.setSearch i x).cis = s.cis := rfl
@[simp] theorem State.setSearch_kv : (s.setSearch i x).kv = s.kv := rfl
@[simp] theorem State.setSearch_cat : (s.setSearch i x).cat = s.cat := rfl
@[simp] theorem State.setSearch_flt : (s.setSearch i x).flt = s.flt := rfl
@[simp] theorem State.setSearch_til : (s.setSearch i x).til = s.til := rfl
@[simp] theorem State.setSearch_rhz : (s.setSearch i x).rhz = s.rhz := rfl
@[simp] theorem State.setSearch_zio : (s.setSearch i x).zio = s.zio := rfl
@[simp] theorem State.setSearch_wdl : (s.setSearch i x).wdl = s.wdl := rfl
@[simp] theorem State.setSearch_clk : (s.setSearch i x).clk = s.clk := rfl
@[simp] theorem State.setSearch_pwr : (s.setSearch i x).pwr = s.pwr := rfl
@[simp] theorem State.setSearch_chk : (s.setSearch i x).chk = s.chk := rfl
@[simp] theorem State.setSearch_boot : (s.setSearch i x).boot = s.boot := rfl
@[simp] theorem State.setSearch_dbg : (s.setSearch i x).dbg = s.dbg := rfl
end

/-! ### setChk -/

section
variable (s : State) (u : Nat) (x : ChkUnit)
@[simp] theorem State.setChk_pending : (s.setChk u x).pending = s.pending := rfl
@[simp] theorem State.setChk_freeCount : (s.setChk u x).freeCount = s.freeCount := rfl
@[simp] theorem State.setChk_reply : (s.setChk u x).reply = s.reply := rfl
@[simp] theorem State.setChk_mem : (s.setChk u x).mem = s.mem := rfl
@[simp] theorem State.setChk_pg : (s.setChk u x).pg = s.pg := rfl
@[simp] theorem State.setChk_time : (s.setChk u x).time = s.time := rfl
@[simp] theorem State.setChk_nor : (s.setChk u x).nor = s.nor := rfl
@[simp] theorem State.setChk_sip : (s.setChk u x).sip = s.sip := rfl
@[simp] theorem State.setChk_smp : (s.setChk u x).smp = s.smp := rfl
@[simp] theorem State.setChk_qrn : (s.setChk u x).qrn = s.qrn := rfl
@[simp] theorem State.setChk_shf : (s.setChk u x).shf = s.shf := rfl
@[simp] theorem State.setChk_hp0 : (s.setChk u x).hp0 = s.hp0 := rfl
@[simp] theorem State.setChk_hp1 : (s.setChk u x).hp1 = s.hp1 := rfl
@[simp] theorem State.setChk_req : (s.setChk u x).req = s.req := rfl
@[simp] theorem State.setChk_pad : (s.setChk u x).pad = s.pad := rfl
@[simp] theorem State.setChk_tmg : (s.setChk u x).tmg = s.tmg := rfl
@[simp] theorem State.setChk_cis : (s.setChk u x).cis = s.cis := rfl
@[simp] theorem State.setChk_kv : (s.setChk u x).kv = s.kv := rfl
@[simp] theorem State.setChk_cat : (s.setChk u x).cat = s.cat := rfl
@[simp] theorem State.setChk_flt : (s.setChk u x).flt = s.flt := rfl
@[simp] theorem State.setChk_til : (s.setChk u x).til = s.til := rfl
@[simp] theorem State.setChk_rhz : (s.setChk u x).rhz = s.rhz := rfl
@[simp] theorem State.setChk_zio : (s.setChk u x).zio = s.zio := rfl
@[simp] theorem State.setChk_idx : (s.setChk u x).idx = s.idx := rfl
@[simp] theorem State.setChk_wdl : (s.setChk u x).wdl = s.wdl := rfl
@[simp] theorem State.setChk_clk : (s.setChk u x).clk = s.clk := rfl
@[simp] theorem State.setChk_pwr : (s.setChk u x).pwr = s.pwr := rfl
@[simp] theorem State.setChk_boot : (s.setChk u x).boot = s.boot := rfl
@[simp] theorem State.setChk_dbg : (s.setChk u x).dbg = s.dbg := rfl
end

/-! ### setClk -/

section
variable (s : State) (d : Nat) (x : ClkDie)
@[simp] theorem State.setClk_pending : (s.setClk d x).pending = s.pending := rfl
@[simp] theorem State.setClk_freeCount : (s.setClk d x).freeCount = s.freeCount := rfl
@[simp] theorem State.setClk_reply : (s.setClk d x).reply = s.reply := rfl
@[simp] theorem State.setClk_mem : (s.setClk d x).mem = s.mem := rfl
@[simp] theorem State.setClk_pg : (s.setClk d x).pg = s.pg := rfl
@[simp] theorem State.setClk_time : (s.setClk d x).time = s.time := rfl
@[simp] theorem State.setClk_nor : (s.setClk d x).nor = s.nor := rfl
@[simp] theorem State.setClk_sip : (s.setClk d x).sip = s.sip := rfl
@[simp] theorem State.setClk_smp : (s.setClk d x).smp = s.smp := rfl
@[simp] theorem State.setClk_qrn : (s.setClk d x).qrn = s.qrn := rfl
@[simp] theorem State.setClk_shf : (s.setClk d x).shf = s.shf := rfl
@[simp] theorem State.setClk_hp0 : (s.setClk d x).hp0 = s.hp0 := rfl
@[simp] theorem State.setClk_hp1 : (s.setClk d x).hp1 = s.hp1 := rfl
@[simp] theorem State.setClk_req : (s.setClk d x).req = s.req := rfl
@[simp] theorem State.setClk_pad : (s.setClk d x).pad = s.pad := rfl
@[simp] theorem State.setClk_tmg : (s.setClk d x).tmg = s.tmg := rfl
@[simp] theorem State.setClk_cis : (s.setClk d x).cis = s.cis := rfl
@[simp] theorem State.setClk_kv : (s.setClk d x).kv = s.kv := rfl
@[simp] theorem State.setClk_cat : (s.setClk d x).cat = s.cat := rfl
@[simp] theorem State.setClk_flt : (s.setClk d x).flt = s.flt := rfl
@[simp] theorem State.setClk_til : (s.setClk d x).til = s.til := rfl
@[simp] theorem State.setClk_rhz : (s.setClk d x).rhz = s.rhz := rfl
@[simp] theorem State.setClk_zio : (s.setClk d x).zio = s.zio := rfl
@[simp] theorem State.setClk_idx : (s.setClk d x).idx = s.idx := rfl
@[simp] theorem State.setClk_wdl : (s.setClk d x).wdl = s.wdl := rfl
@[simp] theorem State.setClk_pwr : (s.setClk d x).pwr = s.pwr := rfl
@[simp] theorem State.setClk_chk : (s.setClk d x).chk = s.chk := rfl
@[simp] theorem State.setClk_boot : (s.setClk d x).boot = s.boot := rfl
@[simp] theorem State.setClk_dbg : (s.setClk d x).dbg = s.dbg := rfl
end

/-! ### setPlanner -/

section
variable (s : State) (t : Nat) (p : Planner)
@[simp] theorem State.setPlanner_pending : (s.setPlanner t p).pending = s.pending := rfl
@[simp] theorem State.setPlanner_freeCount : (s.setPlanner t p).freeCount = s.freeCount := rfl
@[simp] theorem State.setPlanner_reply : (s.setPlanner t p).reply = s.reply := rfl
@[simp] theorem State.setPlanner_mem : (s.setPlanner t p).mem = s.mem := rfl
@[simp] theorem State.setPlanner_pg : (s.setPlanner t p).pg = s.pg := rfl
@[simp] theorem State.setPlanner_time : (s.setPlanner t p).time = s.time := rfl
@[simp] theorem State.setPlanner_nor : (s.setPlanner t p).nor = s.nor := rfl
@[simp] theorem State.setPlanner_sip : (s.setPlanner t p).sip = s.sip := rfl
@[simp] theorem State.setPlanner_smp : (s.setPlanner t p).smp = s.smp := rfl
@[simp] theorem State.setPlanner_qrn : (s.setPlanner t p).qrn = s.qrn := rfl
@[simp] theorem State.setPlanner_shf : (s.setPlanner t p).shf = s.shf := rfl
@[simp] theorem State.setPlanner_hp0 : (s.setPlanner t p).hp0 = s.hp0 := rfl
@[simp] theorem State.setPlanner_hp1 : (s.setPlanner t p).hp1 = s.hp1 := rfl
@[simp] theorem State.setPlanner_req : (s.setPlanner t p).req = s.req := rfl
@[simp] theorem State.setPlanner_pad : (s.setPlanner t p).pad = s.pad := rfl
@[simp] theorem State.setPlanner_tmg : (s.setPlanner t p).tmg = s.tmg := rfl
@[simp] theorem State.setPlanner_cis : (s.setPlanner t p).cis = s.cis := rfl
@[simp] theorem State.setPlanner_kv : (s.setPlanner t p).kv = s.kv := rfl
@[simp] theorem State.setPlanner_cat : (s.setPlanner t p).cat = s.cat := rfl
@[simp] theorem State.setPlanner_til : (s.setPlanner t p).til = s.til := rfl
@[simp] theorem State.setPlanner_rhz : (s.setPlanner t p).rhz = s.rhz := rfl
@[simp] theorem State.setPlanner_zio : (s.setPlanner t p).zio = s.zio := rfl
@[simp] theorem State.setPlanner_idx : (s.setPlanner t p).idx = s.idx := rfl
@[simp] theorem State.setPlanner_wdl : (s.setPlanner t p).wdl = s.wdl := rfl
@[simp] theorem State.setPlanner_clk : (s.setPlanner t p).clk = s.clk := rfl
@[simp] theorem State.setPlanner_pwr : (s.setPlanner t p).pwr = s.pwr := rfl
@[simp] theorem State.setPlanner_chk : (s.setPlanner t p).chk = s.chk := rfl
@[simp] theorem State.setPlanner_boot : (s.setPlanner t p).boot = s.boot := rfl
@[simp] theorem State.setPlanner_dbg : (s.setPlanner t p).dbg = s.dbg := rfl
end

/-! ### setSip -/

section
variable (s : State) (die chan : Nat) (c : SipChan)
@[simp] theorem State.setSip_pending : (s.setSip die chan c).pending = s.pending := rfl
@[simp] theorem State.setSip_freeCount : (s.setSip die chan c).freeCount = s.freeCount := rfl
@[simp] theorem State.setSip_reply : (s.setSip die chan c).reply = s.reply := rfl
@[simp] theorem State.setSip_mem : (s.setSip die chan c).mem = s.mem := rfl
@[simp] theorem State.setSip_pg : (s.setSip die chan c).pg = s.pg := rfl
@[simp] theorem State.setSip_time : (s.setSip die chan c).time = s.time := rfl
@[simp] theorem State.setSip_nor : (s.setSip die chan c).nor = s.nor := rfl
@[simp] theorem State.setSip_smp : (s.setSip die chan c).smp = s.smp := rfl
@[simp] theorem State.setSip_qrn : (s.setSip die chan c).qrn = s.qrn := rfl
@[simp] theorem State.setSip_shf : (s.setSip die chan c).shf = s.shf := rfl
@[simp] theorem State.setSip_hp0 : (s.setSip die chan c).hp0 = s.hp0 := rfl
@[simp] theorem State.setSip_hp1 : (s.setSip die chan c).hp1 = s.hp1 := rfl
@[simp] theorem State.setSip_req : (s.setSip die chan c).req = s.req := rfl
@[simp] theorem State.setSip_pad : (s.setSip die chan c).pad = s.pad := rfl
@[simp] theorem State.setSip_tmg : (s.setSip die chan c).tmg = s.tmg := rfl
@[simp] theorem State.setSip_cis : (s.setSip die chan c).cis = s.cis := rfl
@[simp] theorem State.setSip_kv : (s.setSip die chan c).kv = s.kv := rfl
@[simp] theorem State.setSip_cat : (s.setSip die chan c).cat = s.cat := rfl
@[simp] theorem State.setSip_flt : (s.setSip die chan c).flt = s.flt := rfl
@[simp] theorem State.setSip_til : (s.setSip die chan c).til = s.til := rfl
@[simp] theorem State.setSip_rhz : (s.setSip die chan c).rhz = s.rhz := rfl
@[simp] theorem State.setSip_zio : (s.setSip die chan c).zio = s.zio := rfl
@[simp] theorem State.setSip_idx : (s.setSip die chan c).idx = s.idx := rfl
@[simp] theorem State.setSip_wdl : (s.setSip die chan c).wdl = s.wdl := rfl
@[simp] theorem State.setSip_clk : (s.setSip die chan c).clk = s.clk := rfl
@[simp] theorem State.setSip_pwr : (s.setSip die chan c).pwr = s.pwr := rfl
@[simp] theorem State.setSip_chk : (s.setSip die chan c).chk = s.chk := rfl
@[simp] theorem State.setSip_boot : (s.setSip die chan c).boot = s.boot := rfl
@[simp] theorem State.setSip_dbg : (s.setSip die chan c).dbg = s.dbg := rfl
end

/-! ### setHp -/

section
variable (s : State) (p : Nat) (h : HostPort)
@[simp] theorem State.setHp_pending : (s.setHp p h).pending = s.pending := by unfold State.setHp; split <;> rfl
@[simp] theorem State.setHp_freeCount : (s.setHp p h).freeCount = s.freeCount := by unfold State.setHp; split <;> rfl
@[simp] theorem State.setHp_reply : (s.setHp p h).reply = s.reply := by unfold State.setHp; split <;> rfl
@[simp] theorem State.setHp_mem : (s.setHp p h).mem = s.mem := by unfold State.setHp; split <;> rfl
@[simp] theorem State.setHp_pg : (s.setHp p h).pg = s.pg := by unfold State.setHp; split <;> rfl
@[simp] theorem State.setHp_time : (s.setHp p h).time = s.time := by unfold State.setHp; split <;> rfl
@[simp] theorem State.setHp_nor : (s.setHp p h).nor = s.nor := by unfold State.setHp; split <;> rfl
@[simp] theorem State.setHp_sip : (s.setHp p h).sip = s.sip := by unfold State.setHp; split <;> rfl
@[simp] theorem State.setHp_smp : (s.setHp p h).smp = s.smp := by unfold State.setHp; split <;> rfl
@[simp] theorem State.setHp_qrn : (s.setHp p h).qrn = s.qrn := by unfold State.setHp; split <;> rfl
@[simp] theorem State.setHp_shf : (s.setHp p h).shf = s.shf := by unfold State.setHp; split <;> rfl
@[simp] theorem State.setHp_req : (s.setHp p h).req = s.req := by unfold State.setHp; split <;> rfl
@[simp] theorem State.setHp_pad : (s.setHp p h).pad = s.pad := by unfold State.setHp; split <;> rfl
@[simp] theorem State.setHp_tmg : (s.setHp p h).tmg = s.tmg := by unfold State.setHp; split <;> rfl
@[simp] theorem State.setHp_cis : (s.setHp p h).cis = s.cis := by unfold State.setHp; split <;> rfl
@[simp] theorem State.setHp_kv : (s.setHp p h).kv = s.kv := by unfold State.setHp; split <;> rfl
@[simp] theorem State.setHp_cat : (s.setHp p h).cat = s.cat := by unfold State.setHp; split <;> rfl
@[simp] theorem State.setHp_flt : (s.setHp p h).flt = s.flt := by unfold State.setHp; split <;> rfl
@[simp] theorem State.setHp_til : (s.setHp p h).til = s.til := by unfold State.setHp; split <;> rfl
@[simp] theorem State.setHp_rhz : (s.setHp p h).rhz = s.rhz := by unfold State.setHp; split <;> rfl
@[simp] theorem State.setHp_zio : (s.setHp p h).zio = s.zio := by unfold State.setHp; split <;> rfl
@[simp] theorem State.setHp_idx : (s.setHp p h).idx = s.idx := by unfold State.setHp; split <;> rfl
@[simp] theorem State.setHp_wdl : (s.setHp p h).wdl = s.wdl := by unfold State.setHp; split <;> rfl
@[simp] theorem State.setHp_clk : (s.setHp p h).clk = s.clk := by unfold State.setHp; split <;> rfl
@[simp] theorem State.setHp_pwr : (s.setHp p h).pwr = s.pwr := by unfold State.setHp; split <;> rfl
@[simp] theorem State.setHp_chk : (s.setHp p h).chk = s.chk := by unfold State.setHp; split <;> rfl
@[simp] theorem State.setHp_boot : (s.setHp p h).boot = s.boot := by unfold State.setHp; split <;> rfl
@[simp] theorem State.setHp_dbg : (s.setHp p h).dbg = s.dbg := by unfold State.setHp; split <;> rfl
theorem State.hp_setHp : (s.setHp p h).hp p = h := by
  by_cases hp : p = 0 <;> simp [State.setHp, State.hp, hp]
theorem State.hp_setHp_other {q : Nat} (hq : (q = 0) ≠ (p = 0)) : (s.setHp p h).hp q = s.hp q := by
  by_cases hp : p = 0 <;> by_cases hq0 : q = 0 <;> simp_all [State.setHp, State.hp]
end

/-! ### setPlane -/

section
variable (s : State) (p : Nat) (q : PlaneQ)
@[simp] theorem State.setPlane_pending : (s.setPlane p q).pending = s.pending := rfl
@[simp] theorem State.setPlane_freeCount : (s.setPlane p q).freeCount = s.freeCount := rfl
@[simp] theorem State.setPlane_reply : (s.setPlane p q).reply = s.reply := rfl
@[simp] theorem State.setPlane_mem : (s.setPlane p q).mem = s.mem := rfl
@[simp] theorem State.setPlane_pg : (s.setPlane p q).pg = s.pg := rfl
@[simp] theorem State.setPlane_time : (s.setPlane p q).time = s.time := rfl
@[simp] theorem State.setPlane_nor : (s.setPlane p q).nor = s.nor := rfl
@[simp] theorem State.setPlane_sip : (s.setPlane p q).sip = s.sip := rfl
@[simp] theorem State.setPlane_smp : (s.setPlane p q).smp = s.smp := rfl
@[simp] theorem State.setPlane_qrn : (s.setPlane p q).qrn = s.qrn := rfl
@[simp] theorem State.setPlane_shf : (s.setPlane p q).shf = s.shf := rfl
@[simp] theorem State.setPlane_hp0 : (s.setPlane p q).hp0 = s.hp0 := rfl
@[simp] theorem State.setPlane_hp1 : (s.setPlane p q).hp1 = s.hp1 := rfl
@[simp] theorem State.setPlane_req : (s.setPlane p q).req = s.req := rfl
@[simp] theorem State.setPlane_pad : (s.setPlane p q).pad = s.pad := rfl
@[simp] theorem State.setPlane_tmg : (s.setPlane p q).tmg = s.tmg := rfl
@[simp] theorem State.setPlane_cis : (s.setPlane p q).cis = s.cis := rfl
@[simp] theorem State.setPlane_kv : (s.setPlane p q).kv = s.kv := rfl
@[simp] theorem State.setPlane_cat : (s.setPlane p q).cat = s.cat := rfl
@[simp] theorem State.setPlane_flt : (s.setPlane p q).flt = s.flt := rfl
@[simp] theorem State.setPlane_til : (s.setPlane p q).til = s.til := rfl
@[simp] theorem State.setPlane_rhz : (s.setPlane p q).rhz = s.rhz := rfl
@[simp] theorem State.setPlane_zio : (s.setPlane p q).zio = s.zio := rfl
@[simp] theorem State.setPlane_idx : (s.setPlane p q).idx = s.idx := rfl
@[simp] theorem State.setPlane_clk : (s.setPlane p q).clk = s.clk := rfl
@[simp] theorem State.setPlane_pwr : (s.setPlane p q).pwr = s.pwr := rfl
@[simp] theorem State.setPlane_chk : (s.setPlane p q).chk = s.chk := rfl
@[simp] theorem State.setPlane_boot : (s.setPlane p q).boot = s.boot := rfl
@[simp] theorem State.setPlane_dbg : (s.setPlane p q).dbg = s.dbg := rfl
end

/-! ### setShare -/

section
variable (s : State) (job : Nat) (l : List Nat)
@[simp] theorem State.setShare_pending : (s.setShare job l).pending = s.pending := rfl
@[simp] theorem State.setShare_freeCount : (s.setShare job l).freeCount = s.freeCount := rfl
@[simp] theorem State.setShare_reply : (s.setShare job l).reply = s.reply := rfl
@[simp] theorem State.setShare_mem : (s.setShare job l).mem = s.mem := rfl
@[simp] theorem State.setShare_pg : (s.setShare job l).pg = s.pg := rfl
@[simp] theorem State.setShare_time : (s.setShare job l).time = s.time := rfl
@[simp] theorem State.setShare_nor : (s.setShare job l).nor = s.nor := rfl
@[simp] theorem State.setShare_sip : (s.setShare job l).sip = s.sip := rfl
@[simp] theorem State.setShare_smp : (s.setShare job l).smp = s.smp := rfl
@[simp] theorem State.setShare_qrn : (s.setShare job l).qrn = s.qrn := rfl
@[simp] theorem State.setShare_shf : (s.setShare job l).shf = s.shf := rfl
@[simp] theorem State.setShare_hp0 : (s.setShare job l).hp0 = s.hp0 := rfl
@[simp] theorem State.setShare_hp1 : (s.setShare job l).hp1 = s.hp1 := rfl
@[simp] theorem State.setShare_req : (s.setShare job l).req = s.req := rfl
@[simp] theorem State.setShare_pad : (s.setShare job l).pad = s.pad := rfl
@[simp] theorem State.setShare_tmg : (s.setShare job l).tmg = s.tmg := rfl
@[simp] theorem State.setShare_cis : (s.setShare job l).cis = s.cis := rfl
@[simp] theorem State.setShare_cat : (s.setShare job l).cat = s.cat := rfl
@[simp] theorem State.setShare_flt : (s.setShare job l).flt = s.flt := rfl
@[simp] theorem State.setShare_til : (s.setShare job l).til = s.til := rfl
@[simp] theorem State.setShare_rhz : (s.setShare job l).rhz = s.rhz := rfl
@[simp] theorem State.setShare_zio : (s.setShare job l).zio = s.zio := rfl
@[simp] theorem State.setShare_idx : (s.setShare job l).idx = s.idx := rfl
@[simp] theorem State.setShare_wdl : (s.setShare job l).wdl = s.wdl := rfl
@[simp] theorem State.setShare_clk : (s.setShare job l).clk = s.clk := rfl
@[simp] theorem State.setShare_pwr : (s.setShare job l).pwr = s.pwr := rfl
@[simp] theorem State.setShare_chk : (s.setShare job l).chk = s.chk := rfl
@[simp] theorem State.setShare_boot : (s.setShare job l).boot = s.boot := rfl
@[simp] theorem State.setShare_dbg : (s.setShare job l).dbg = s.dbg := rfl
end

/-! ### noteActive -/

section
variable (s : State) (q : Nat)
@[simp] theorem State.noteActive_pending : (s.noteActive q).pending = s.pending := rfl
@[simp] theorem State.noteActive_freeCount : (s.noteActive q).freeCount = s.freeCount := rfl
@[simp] theorem State.noteActive_reply : (s.noteActive q).reply = s.reply := rfl
@[simp] theorem State.noteActive_mem : (s.noteActive q).mem = s.mem := rfl
@[simp] theorem State.noteActive_pg : (s.noteActive q).pg = s.pg := rfl
@[simp] theorem State.noteActive_time : (s.noteActive q).time = s.time := rfl
@[simp] theorem State.noteActive_nor : (s.noteActive q).nor = s.nor := rfl
@[simp] theorem State.noteActive_sip : (s.noteActive q).sip = s.sip := rfl
@[simp] theorem State.noteActive_smp : (s.noteActive q).smp = s.smp := rfl
@[simp] theorem State.noteActive_qrn : (s.noteActive q).qrn = s.qrn := rfl
@[simp] theorem State.noteActive_shf : (s.noteActive q).shf = s.shf := rfl
@[simp] theorem State.noteActive_hp0 : (s.noteActive q).hp0 = s.hp0 := rfl
@[simp] theorem State.noteActive_hp1 : (s.noteActive q).hp1 = s.hp1 := rfl
@[simp] theorem State.noteActive_req : (s.noteActive q).req = s.req := rfl
@[simp] theorem State.noteActive_pad : (s.noteActive q).pad = s.pad := rfl
@[simp] theorem State.noteActive_cis : (s.noteActive q).cis = s.cis := rfl
@[simp] theorem State.noteActive_kv : (s.noteActive q).kv = s.kv := rfl
@[simp] theorem State.noteActive_cat : (s.noteActive q).cat = s.cat := rfl
@[simp] theorem State.noteActive_flt : (s.noteActive q).flt = s.flt := rfl
@[simp] theorem State.noteActive_til : (s.noteActive q).til = s.til := rfl
@[simp] theorem State.noteActive_rhz : (s.noteActive q).rhz = s.rhz := rfl
@[simp] theorem State.noteActive_zio : (s.noteActive q).zio = s.zio := rfl
@[simp] theorem State.noteActive_idx : (s.noteActive q).idx = s.idx := rfl
@[simp] theorem State.noteActive_wdl : (s.noteActive q).wdl = s.wdl := rfl
@[simp] theorem State.noteActive_clk : (s.noteActive q).clk = s.clk := rfl
@[simp] theorem State.noteActive_pwr : (s.noteActive q).pwr = s.pwr := rfl
@[simp] theorem State.noteActive_chk : (s.noteActive q).chk = s.chk := rfl
@[simp] theorem State.noteActive_boot : (s.noteActive q).boot = s.boot := rfl
@[simp] theorem State.noteActive_dbg : (s.noteActive q).dbg = s.dbg := rfl
end

/-! ### mapPtes -/

section
variable (s : State) (f : Nat → Pte → Pte)
@[simp] theorem State.mapPtes_pending : (s.mapPtes f).pending = s.pending := rfl
@[simp] theorem State.mapPtes_freeCount : (s.mapPtes f).freeCount = s.freeCount := rfl
@[simp] theorem State.mapPtes_reply : (s.mapPtes f).reply = s.reply := rfl
@[simp] theorem State.mapPtes_mem : (s.mapPtes f).mem = s.mem := rfl
@[simp] theorem State.mapPtes_pg : (s.mapPtes f).pg = s.pg := rfl
@[simp] theorem State.mapPtes_time : (s.mapPtes f).time = s.time := rfl
@[simp] theorem State.mapPtes_nor : (s.mapPtes f).nor = s.nor := rfl
@[simp] theorem State.mapPtes_sip : (s.mapPtes f).sip = s.sip := rfl
@[simp] theorem State.mapPtes_smp : (s.mapPtes f).smp = s.smp := rfl
@[simp] theorem State.mapPtes_qrn : (s.mapPtes f).qrn = s.qrn := rfl
@[simp] theorem State.mapPtes_shf : (s.mapPtes f).shf = s.shf := rfl
@[simp] theorem State.mapPtes_hp0 : (s.mapPtes f).hp0 = s.hp0 := rfl
@[simp] theorem State.mapPtes_hp1 : (s.mapPtes f).hp1 = s.hp1 := rfl
@[simp] theorem State.mapPtes_req : (s.mapPtes f).req = s.req := rfl
@[simp] theorem State.mapPtes_pad : (s.mapPtes f).pad = s.pad := rfl
@[simp] theorem State.mapPtes_tmg : (s.mapPtes f).tmg = s.tmg := rfl
@[simp] theorem State.mapPtes_kv : (s.mapPtes f).kv = s.kv := rfl
@[simp] theorem State.mapPtes_cat : (s.mapPtes f).cat = s.cat := rfl
@[simp] theorem State.mapPtes_flt : (s.mapPtes f).flt = s.flt := rfl
@[simp] theorem State.mapPtes_til : (s.mapPtes f).til = s.til := rfl
@[simp] theorem State.mapPtes_rhz : (s.mapPtes f).rhz = s.rhz := rfl
@[simp] theorem State.mapPtes_zio : (s.mapPtes f).zio = s.zio := rfl
@[simp] theorem State.mapPtes_idx : (s.mapPtes f).idx = s.idx := rfl
@[simp] theorem State.mapPtes_wdl : (s.mapPtes f).wdl = s.wdl := rfl
@[simp] theorem State.mapPtes_clk : (s.mapPtes f).clk = s.clk := rfl
@[simp] theorem State.mapPtes_pwr : (s.mapPtes f).pwr = s.pwr := rfl
@[simp] theorem State.mapPtes_chk : (s.mapPtes f).chk = s.chk := rfl
@[simp] theorem State.mapPtes_boot : (s.mapPtes f).boot = s.boot := rfl
@[simp] theorem State.mapPtes_dbg : (s.mapPtes f).dbg = s.dbg := rfl
end

/-! ### setVs -/

section
variable (s : State) (job sub v : Nat)
@[simp] theorem State.setVs_pending : (s.setVs job sub v).pending = s.pending := rfl
@[simp] theorem State.setVs_freeCount : (s.setVs job sub v).freeCount = s.freeCount := rfl
@[simp] theorem State.setVs_reply : (s.setVs job sub v).reply = s.reply := rfl
@[simp] theorem State.setVs_mem : (s.setVs job sub v).mem = s.mem := rfl
@[simp] theorem State.setVs_pg : (s.setVs job sub v).pg = s.pg := rfl
@[simp] theorem State.setVs_time : (s.setVs job sub v).time = s.time := rfl
@[simp] theorem State.setVs_nor : (s.setVs job sub v).nor = s.nor := rfl
@[simp] theorem State.setVs_sip : (s.setVs job sub v).sip = s.sip := rfl
@[simp] theorem State.setVs_smp : (s.setVs job sub v).smp = s.smp := rfl
@[simp] theorem State.setVs_qrn : (s.setVs job sub v).qrn = s.qrn := rfl
@[simp] theorem State.setVs_shf : (s.setVs job sub v).shf = s.shf := rfl
@[simp] theorem State.setVs_hp0 : (s.setVs job sub v).hp0 = s.hp0 := rfl
@[simp] theorem State.setVs_hp1 : (s.setVs job sub v).hp1 = s.hp1 := rfl
@[simp] theorem State.setVs_req : (s.setVs job sub v).req = s.req := rfl
@[simp] theorem State.setVs_pad : (s.setVs job sub v).pad = s.pad := rfl
@[simp] theorem State.setVs_cis : (s.setVs job sub v).cis = s.cis := rfl
@[simp] theorem State.setVs_kv : (s.setVs job sub v).kv = s.kv := rfl
@[simp] theorem State.setVs_cat : (s.setVs job sub v).cat = s.cat := rfl
@[simp] theorem State.setVs_flt : (s.setVs job sub v).flt = s.flt := rfl
@[simp] theorem State.setVs_til : (s.setVs job sub v).til = s.til := rfl
@[simp] theorem State.setVs_rhz : (s.setVs job sub v).rhz = s.rhz := rfl
@[simp] theorem State.setVs_zio : (s.setVs job sub v).zio = s.zio := rfl
@[simp] theorem State.setVs_idx : (s.setVs job sub v).idx = s.idx := rfl
@[simp] theorem State.setVs_wdl : (s.setVs job sub v).wdl = s.wdl := rfl
@[simp] theorem State.setVs_clk : (s.setVs job sub v).clk = s.clk := rfl
@[simp] theorem State.setVs_pwr : (s.setVs job sub v).pwr = s.pwr := rfl
@[simp] theorem State.setVs_chk : (s.setVs job sub v).chk = s.chk := rfl
@[simp] theorem State.setVs_boot : (s.setVs job sub v).boot = s.boot := rfl
@[simp] theorem State.setVs_dbg : (s.setVs job sub v).dbg = s.dbg := rfl
end

/-! ### setDm -/

section
variable (s : State) (a v : Nat)
@[simp] theorem State.setDm_pending : (s.setDm a v).pending = s.pending := rfl
@[simp] theorem State.setDm_freeCount : (s.setDm a v).freeCount = s.freeCount := rfl
@[simp] theorem State.setDm_reply : (s.setDm a v).reply = s.reply := rfl
@[simp] theorem State.setDm_mem : (s.setDm a v).mem = s.mem := rfl
@[simp] theorem State.setDm_pg : (s.setDm a v).pg = s.pg := rfl
@[simp] theorem State.setDm_time : (s.setDm a v).time = s.time := rfl
@[simp] theorem State.setDm_nor : (s.setDm a v).nor = s.nor := rfl
@[simp] theorem State.setDm_sip : (s.setDm a v).sip = s.sip := rfl
@[simp] theorem State.setDm_smp : (s.setDm a v).smp = s.smp := rfl
@[simp] theorem State.setDm_qrn : (s.setDm a v).qrn = s.qrn := rfl
@[simp] theorem State.setDm_shf : (s.setDm a v).shf = s.shf := rfl
@[simp] theorem State.setDm_hp0 : (s.setDm a v).hp0 = s.hp0 := rfl
@[simp] theorem State.setDm_hp1 : (s.setDm a v).hp1 = s.hp1 := rfl
@[simp] theorem State.setDm_req : (s.setDm a v).req = s.req := rfl
@[simp] theorem State.setDm_pad : (s.setDm a v).pad = s.pad := rfl
@[simp] theorem State.setDm_tmg : (s.setDm a v).tmg = s.tmg := rfl
@[simp] theorem State.setDm_cis : (s.setDm a v).cis = s.cis := rfl
@[simp] theorem State.setDm_kv : (s.setDm a v).kv = s.kv := rfl
@[simp] theorem State.setDm_cat : (s.setDm a v).cat = s.cat := rfl
@[simp] theorem State.setDm_flt : (s.setDm a v).flt = s.flt := rfl
@[simp] theorem State.setDm_til : (s.setDm a v).til = s.til := rfl
@[simp] theorem State.setDm_rhz : (s.setDm a v).rhz = s.rhz := rfl
@[simp] theorem State.setDm_zio : (s.setDm a v).zio = s.zio := rfl
@[simp] theorem State.setDm_idx : (s.setDm a v).idx = s.idx := rfl
@[simp] theorem State.setDm_wdl : (s.setDm a v).wdl = s.wdl := rfl
@[simp] theorem State.setDm_clk : (s.setDm a v).clk = s.clk := rfl
@[simp] theorem State.setDm_pwr : (s.setDm a v).pwr = s.pwr := rfl
@[simp] theorem State.setDm_chk : (s.setDm a v).chk = s.chk := rfl
@[simp] theorem State.setDm_boot : (s.setDm a v).boot = s.boot := rfl
end

/-! ### What is set reads back -/

section
variable (s : State)
@[simp] theorem State.slot_setSlot (k : Nat) (x : Slot) : (s.setSlot k x).slot k = x := Tbl.val_set _ _ _ _
theorem State.slot_setSlot_other {k j : Nat} (x : Slot) (h : j ≠ k) : (s.setSlot k x).slot j = s.slot j := Tbl.val_set_other _ _ _ h
@[simp] theorem State.paddock_setPaddock (k : Nat) (x : Paddock) : (s.setPaddock k x).paddock k = x := Tbl.val_set _ _ _ _
theorem State.paddock_setPaddock_other {k j : Nat} (x : Paddock) (h : j ≠ k) : (s.setPaddock k x).paddock j = s.paddock j := Tbl.val_set_other _ _ _ h
@[simp] theorem State.tiller_setTiller (k : Nat) (x : Tiller) : (s.setTiller k x).tiller k = x := Tbl.val_set _ _ _ _
theorem State.tiller_setTiller_other {k j : Nat} (x : Tiller) (h : j ≠ k) : (s.setTiller k x).tiller j = s.tiller j := Tbl.val_set_other _ _ _ h
@[simp] theorem State.ctr_setCtr (k : Nat) (x : Word) : (s.setCtr k x).ctr k = x := Tbl.val_set _ _ _ _
theorem State.ctr_setCtr_other {k j : Nat} (x : Word) (h : j ≠ k) : (s.setCtr k x).ctr j = s.ctr j := Tbl.val_set_other _ _ _ h
@[simp] theorem State.block_setBlock (k : Nat) (x : Block) : (s.setBlock k x).block k = x := Tbl.val_set _ _ _ _
theorem State.block_setBlock_other {k j : Nat} (x : Block) (h : j ≠ k) : (s.setBlock k x).block j = s.block j := Tbl.val_set_other _ _ _ h
@[simp] theorem State.plane_setPlane (k : Nat) (x : PlaneQ) : (s.setPlane k x).plane k = x := Tbl.val_set _ _ _ _
theorem State.plane_setPlane_other {k j : Nat} (x : PlaneQ) (h : j ≠ k) : (s.setPlane k x).plane j = s.plane j := Tbl.val_set_other _ _ _ h
@[simp] theorem State.vs_setVs (job sub v : Nat) : (s.setVs job sub v).vs job sub = v := Tbl.val_set _ _ _ _
@[simp] theorem State.well_setWell (k : Nat) (x : Well) : (s.setWell k x).well k = x := Tbl.val_set _ _ _ _
theorem State.well_setWell_other {k j : Nat} (x : Well) (h : j ≠ k) : (s.setWell k x).well j = s.well j := Tbl.val_set_other _ _ _ h
@[simp] theorem State.meter_setMeter (k : Nat) (x : Meter) : (s.setMeter k x).meter k = x := Tbl.val_set _ _ _ _
theorem State.meter_setMeter_other {k j : Nat} (x : Meter) (h : j ≠ k) : (s.setMeter k x).meter j = s.meter j := Tbl.val_set_other _ _ _ h
@[simp] theorem State.shaper_setShaper (k : Nat) (x : Shaper) : (s.setShaper k x).shaper k = x := Tbl.val_set _ _ _ _
theorem State.shaper_setShaper_other {k j : Nat} (x : Shaper) (h : j ≠ k) : (s.setShaper k x).shaper j = s.shaper j := Tbl.val_set_other _ _ _ h
@[simp] theorem State.zport_setZport (k : Nat) (x : ZioPort) : (s.setZport k x).zport k = x := Tbl.val_set _ _ _ _
theorem State.zport_setZport_other {k j : Nat} (x : ZioPort) (h : j ≠ k) : (s.setZport k x).zport j = s.zport j := Tbl.val_set_other _ _ _ h
@[simp] theorem State.zpair_setZpair (k : Nat) (x : ZioPair) : (s.setZpair k x).zpair k = x := Tbl.val_set _ _ _ _
theorem State.zpair_setZpair_other {k j : Nat} (x : ZioPair) (h : j ≠ k) : (s.setZpair k x).zpair j = s.zpair j := Tbl.val_set_other _ _ _ h
@[simp] theorem State.gen_setGen (k : Nat) (x : GenSlot) : (s.setGen k x).gen k = x := Tbl.val_set _ _ _ _
theorem State.gen_setGen_other {k j : Nat} (x : GenSlot) (h : j ≠ k) : (s.setGen k x).gen j = s.gen j := Tbl.val_set_other _ _ _ h
@[simp] theorem State.chkUnit_setChk (k : Nat) (x : ChkUnit) : (s.setChk k x).chkUnit k = x := Tbl.val_set _ _ _ _
theorem State.chkUnit_setChk_other {k j : Nat} (x : ChkUnit) (h : j ≠ k) : (s.setChk k x).chkUnit j = s.chkUnit j := Tbl.val_set_other _ _ _ h
@[simp] theorem State.clkDie_setClk (k : Nat) (x : ClkDie) : (s.setClk k x).clkDie k = x := Tbl.val_set _ _ _ _
theorem State.clkDie_setClk_other {k j : Nat} (x : ClkDie) (h : j ≠ k) : (s.setClk k x).clkDie j = s.clkDie j := Tbl.val_set_other _ _ _ h
@[simp] theorem State.page_setPage (d g : Nat) (x : Page) : (s.setPage d g x).page d g = x := Tbl.val_set _ _ _ _
theorem State.page_setPage_other {d g d' g' : Nat} (x : Page) (hg : g < 256) (hg' : g' < 256) (h : ¬ (d' = d ∧ g' = g)) :
    (s.setPage d g x).page d' g' = s.page d' g' := by
  refine Tbl.val_set_other _ _ _ ?_
  simp only [pageKey]
  omega
@[simp] theorem State.reg_setReg (d g off : Nat) (w : Word) : (s.setReg d g off w).reg d g off = w := Tbl.val_set _ _ _ _
@[simp] theorem State.plan_putPlan (j : Nat) (p : Plan) : (s.putPlan j p).plan j = some p := Tbl.look_put_same _ _ _
theorem State.plan_putPlan_other {j k : Nat} (p : Plan) (h : k ≠ j) : (s.putPlan j p).plan k = s.plan k :=
  Tbl.look_put_other _ _ h
@[simp] theorem State.planner_setPlanner (t : Nat) (p : Planner) : (s.setPlanner t p).planner t = p := by
  simp [State.planner, State.setPlanner, Tbl.val, Tbl.look_put_same]
@[simp] theorem State.syc_setSyc (wh : Nat) (req : Requester) (x : SycOp) : (s.setSyc wh req x).syc wh req = x :=
  Tbl.val_set _ _ _ _
theorem State.ctxOf_setCtx (req : Requester) (d g : Nat) (c : Ctx) : (s.setCtx req d g c).ctxOf req d g = c := by
  unfold State.setCtx State.ctxOf
  rw [State.page_setPage]
  cases req <;> rfl
theorem State.load_store (sp : Space) (a : Nat) (bs : List Byte) : (s.store sp a bs).load sp a bs.length = bs :=
  Memory.readBytes_writeBytes _ _ _
end

end Sys2Proof.Machine
end

