-- ==== Sys2Proof/WellFormed.lean ====
section
/-! DEFINITION. Well-formed commands: each operand names a unit the module has and fits the field the spec gives it. A meaning
takes ill-formed operands too; it then does nothing, or takes the operand modulo its field. -/

namespace Sys2Proof

/-- Fields of a command message fit their widths (R61). -/
def CmdMsg.wf (m : CmdMsg) (cmd : Nat) : Bool :=
  decide (m.source < 4) && decide (m.cmd = cmd) && decide (m.paddock < 256) && decide (m.serial < 2 ^ 64) &&
    decide (m.atStroke < 2 ^ 64) && decide (m.tillers < 2 ^ 128) && decide (m.job < 65536) && decide (m.k < 256) &&
    decide (m.wheelLen < 256) && decide (m.sprintSlots < 65536) && decide (m.lpddrGib < 2 ^ 32) &&
    decide (m.sounderSlots < 2 ^ 32) && decide (m.wheelRef < 2 ^ 64)

/-- Fields of a Rhizome packet fit their widths and its payload has the length the header gives (R164). -/
def Packet.wf (p : Packet) : Bool :=
  decide (p.kind < 8) && decide (p.vc < 4) && decide (p.cls < 2) && decide (p.leg < 2) && decide (p.via < 128) &&
    decide (p.dst < 72) && decide (p.src < 72) && decide (p.units < 128) && decide (p.space < 4) && decide (p.advCtr < 131072) &&
    decide (p.tag < 2048) && decide (p.headSkip < 16) && decide (p.tailLen < 16) && decide (p.addr < 2 ^ 48) &&
    decide (p.payload.length = if p.kind = 1 then 0 else 16 * p.units)

/-- Fields of a Ziori message fit their widths, it has the flits its length takes, and its op is the row's or none of the table's
(R420 to R422, R426). -/
def ZioMsg.wf (m : ZioMsg) (op : Nat) : Bool :=
  decide (m.port < 48) && decide (m.src < 256) && decide (m.dst < 256) && (m.vc == 0 || m.vc == 2 || m.vc == 3) &&
    decide (m.eseq < 2 ^ 32) && decide (m.flits = (16 + 16 * m.length + 239) / 240) &&
    (m.op == op || decide (4 < m.op ∧ m.op < 256)) &&
    decide (m.space < 256) && decide (m.tiller < 256) && decide (m.advCtr < 131072) && decide (m.addr < 2 ^ 48) &&
    decide (1 ≤ m.length ∧ m.length ≤ 4096) && decide (m.payload.length = 16 * m.length)

/-- Fields of a frame mark fit their widths, (R428). -/
def FrameMark.wf (m : FrameMark) : Bool :=
  decide (m.port < 48) && decide (m.stroke < 2 ^ 64) && decide (m.phase < 5) && decide (m.hops < 256) &&
    decide (m.authority < 256) && decide (m.pair < 256) && decide (m.ringId < 65536)

/-- A waiting unit exists (R389). -/
def WaitUnit.wf : WaitUnit → Bool
  | .array t a => decide (t < 68) && decide (a < 96)
  | .winnow t => decide (t < 68)
  | .sheaf d => decide (d < 4) || (decide (8 ≤ d) && decide (d < 76))
  | .chain t g => decide (t < 68) && decide (g < 12)
  | .siphon d c => (decide (d < 4) && decide (c < 64)) || (decide (8 ≤ d) && decide (d < 76) && decide (c < 16))
  | .packet x tag => decide (x < 72) && decide (tag < 2048)

/-- A die with Sheaf and Siphon engines: a Wellhead or a Tiller. -/
def engineDie (d : Nat) : Bool := decide (d < 4) || (decide (8 ≤ d) && decide (d < 76))

/-- A die of R441. -/
def dieOk (d : Nat) : Bool := engineDie d || (decide (80 ≤ d) && decide (d < 112))

/-- A page key, die × 256 + page, of the BAR0 map (R441). -/
def pageOk (k : Nat) : Bool := decide (k < 128 * 256)

/-- A Tiller and an array of it. -/
def arrayOk (t a : Nat) : Bool := decide (t < 68) && decide (a < 96)

/-- A Tiller and an epilogue group of it. -/
def groupOk (t g : Nat) : Bool := decide (t < 68) && decide (g < 12)

/-- A descriptor that firmware feeds to a Wellhead's engine has 64 bytes; a Tiller's engine takes none. -/
def fedOk (die : Nat) (fed : List Byte) : Bool := engineDie die && decide (fed.length = if die < 4 then 64 else 0)

/-- The command is well formed. -/
def Instr.wf : Instr → Bool
  | .doorbellWrite port ring _ _ => decide (port < 2) && decide (ring < 131072)
  | .submit ring => decide (ring < 131072)
  | .cancel ring => decide (ring < 131072)
  | .admitDurable slot => decide (slot < 32768)
  | .frontDurable slot => decide (slot < 32768)
  | .citationMapPost slot => decide (slot < 32768)
  | .prefillComplete slot => decide (slot < 32768)
  | .doneDurable slot => decide (slot < 32768)
  | .journalProgrammed wellhead _ => decide (wellhead < 4)
  | .dedupExpiry subscriber _ => decide (subscriber < 4096)
  | .journalRetentionExpiry slot => decide (slot < 32768)
  | .deadlineExpiry slot => decide (slot < 32768)
  | .strokeBoundary _ paddockWatts _ => decide (paddockWatts.length ≤ 16)
  | .compositionCut => true
  | .batchListWrite => true
  | .decodeStepEnd job usIntoStroke nsIntoUs _ => decide (job < 1024) && decide (usIntoStroke ≤ 50) && decide (nsIntoUs < 1000)
  | .shareLookup slot => decide (slot < 32768)
  | .pageWaitPark job => decide (job < 1024)
  | .park slot => decide (slot < 32768)
  | .replayCatchUp slot _ _ tiller => decide (slot < 32768) && decide (tiller < 68)
  | .egressGrant slice port => decide (slice < 4) && decide (port < 4)
  | .calendarPass slice => decide (slice < 4)
  | .telemetrySample slice => decide (slice < 4)
  | .heatHalving => true
  | .loadJob m => m.wf 1
  | .removeJob m => m.wf 2
  | .setWheel m => m.wf 3
  | .drain m => m.wf 4
  | .resume m => m.wf 5
  | .resize m => m.wf 6
  | .retireTiller m => m.wf 7
  | .readmitTiller m => m.wf 8
  | .replanBoundary _ => true
  | .tillerFault tiller _ => decide (tiller < 68)
  | .sparePromotion paddock => decide (paddock < 16)
  | .quarantineEnd tiller _ => decide (tiller < 68)
  | .tileProduct tiller array => arrayOk tiller array
  | .tilePrepass tiller array => arrayOk tiller array
  | .tileEnd tiller array => arrayOk tiller array
  | .splitSecondPass tiller array => arrayOk tiller array
  | .tileDrain tiller array => arrayOk tiller array
  | .epilogueDrain tiller group => groupOk tiller group
  | .deferredDrain tiller group => groupOk tiller group
  | .partialApply tiller => decide (tiller < 68)
  | .addFinish tiller group => groupOk tiller group
  | .fabricWrite p => p.wf
  | .fabricReadReq p => p.wf
  | .fabricReadResp p => p.wf
  | .fabricPartial p => p.wf
  | .ctrOp p => p.wf
  | .ctrResp p => p.wf
  | .regReq p _ _ _ => p.wf
  | .regResp p => p.wf
  | .linkRetry site port _ => decide (site < 72) && decide (port < 4)
  | .routeSwitch _ => true
  | .routerFailure site => decide (site < 72)
  | .select tiller => decide (tiller < 68)
  | .sample tiller _ => decide (tiller < 68)
  | .winnowEnd tiller => decide (tiller < 68)
  | .maskFetch tiller => decide (tiller < 68)
  | .grammarRegister _ id => decide (id < 4096)
  | .grammarUnregister _ id => decide (id < 4096)
  | .catalogueFreed _ id => decide (id < 4096)
  | .catalogueGraceExpiry slot => decide (slot < 32768)
  | .tokenizerRegister _ id => decide (id < 256)
  | .tokenizerUnregister _ id => decide (id < 256)
  | .tokenise lane => decide (lane < 16)
  | .detokenise slot token => decide (slot < 32768) && decide (token < 262144)
  | .sheafTableSet _ id => decide (id < 64)
  | .sheafTableClear _ id => decide (id < 64)
  | .sheafTableAmend _ id => decide (id < 64)
  | .gather die fed => fedOk die fed.bytes && decide (fed.job < 1024)
  | .gatherSum die fed => fedOk die fed.bytes && decide (fed.job < 1024)
  | .scatter die fed => fedOk die fed.bytes && decide (fed.job < 1024)
  | .prefetch die fed => fedOk die fed.bytes && decide (fed.job < 1024)
  | .sheafEnd die fed => fedOk die fed
  | .feedbackEvent table => decide (table < 64)
  | .sheafUpdateApply table => decide (table < 64)
  | .forcedApply wellhead => decide (wellhead < 4)
  | .recipeRegister _ id => decide (id < 4096)
  | .recipeUnregister _ id => decide (id < 4096)
  | .frontEncode slot _ => decide (slot < 32768)
  | .searchCall slot => decide (slot < 32768)
  | .frontCandidates slot _ => decide (slot < 32768)
  | .frontRerank slot _ => decide (slot < 32768)
  | .frontPack slot => decide (slot < 32768)
  | .searchBuild search => decide (search < 65536)
  | .searchRound search => decide (search < 65536)
  | .nodeRead search _ _ => decide (search < 65536)
  | .hubWindowClose well _ _ => decide (well < 32)
  | .searchAbort search => decide (search < 65536)
  | .indexOpen _ slot => decide (slot < 4)
  | .indexWrite _ slot => decide (slot < 4)
  | .indexSeal _ slot => decide (slot < 4)
  | .indexActivate _ slot => decide (slot < 4)
  | .activationApply slot => decide (slot < 4)
  | .indexLoad _ slot => decide (slot < 4)
  | .indexDiscard _ slot => decide (slot < 4)
  | .indexSlotFreed slot => decide (slot < 4)
  | .planStage _ job => decide (job < 1024)
  | .planUnstage _ job => decide (job < 1024)
  | .planFlush _ job => decide (job < 1024)
  | .cisHostWrite _ _ => true
  | .moveComplete page => decide (page.job < 1024) && decide (page.vpn < 2 ^ 32)
  | .flashPageRead job va _ _ => decide (job < 1024) && decide (va < 2 ^ 48)
  | .eraseIntent wellhead loc => decide (wellhead < 4) && decide (loc < 4294967296)
  | .eraseIssue loc => decide (loc < 4294967296)
  | .eraseComplete loc _ => decide (loc < 4294967296)
  | .blockVerify loc _ => decide (loc < 4294967296)
  | .reclaim well partition => decide (well < 32) && decide (partition < 7)
  | .programFail loc _ => decide (loc < 4294967296)
  | .readOnlyEntry well => decide (well < 32)
  | .holdupFlush _ => true
  | .holdupMeasure _ => true
  | .mapCheckpoint => true
  | .wellFailure well => decide (well < 32)
  | .wellReturn well => decide (well < 32)
  | .imageCreate _ id => decide (id < 65536)
  | .imageWrite _ id => decide (id < 65536)
  | .imageSeal _ id => decide (id < 65536)
  | .imageDelete _ id => decide (id < 65536)
  | .layout _ => true
  | .ringCreate _ ring => decide (ring < 131072)
  | .ringDestroy _ ring => decide (ring < 131072)
  | .consumerIndexPost ring => decide (ring < 131072)
  | .consumerIndexRead ring _ => decide (ring < 131072)
  | .crossPortFence firstRing secondRing => decide (firstRing < 131072) && decide (secondRing < 131072)
  | .counterWindowRead port _ _ => decide (port < 2)
  | .counterWindowAdd port _ _ _ => decide (port < 2)
  | .sycRead _ wh => decide (wh < 4)
  | .sycAdd _ wh => decide (wh < 4)
  | .sycWait _ wh => decide (wh < 4)
  | .sycCas _ wh => decide (wh < 4)
  | .sycClaim _ wh core => decide (wh < 4) && decide (core < 16)
  | .sycRelease _ wh core => decide (wh < 4) && decide (core < 16)
  | .waitPark unit counter threshold => unit.wf && decide (counter < 131072) && decide (threshold < 2 ^ 32)
  | .waitSatisfied wellhead => decide (wellhead < 4)
  | .waitReissue wellhead => decide (wellhead < 4)
  | .siphonTransfer die chan fed => fedOk die fed && decide (chan < if die < 4 then 64 else 16)
  | .siphonEnd die chan fed => fedOk die fed && decide (chan < if die < 4 then 64 else 16)
  | .siphonComplete die chan => engineDie die && decide (chan < if die < 4 then 64 else 16)
  | .perstRelease port => decide (port < 2)
  | .configRequest port reg _ _ _ => decide (port < 2) && decide (reg < 4096)
  | .bar2Access port _ _ _ _ _ => decide (port < 2)
  | .hptWinWrite _ port _ => decide (port < 2)
  | .portReset port => decide (port < 2)
  | .hostReadFail port addr _ => decide (port < 2) && decide (addr < 2 ^ 64)
  | .zioWrite m => m.wf 0
  | .zioPartial m => m.wf 1
  | .zioCtrAdd m => m.wf 2
  | .zioCommand m => m.wf 3
  | .zioRecord m => m.wf 4
  | .zioCtrl port vc _ _ lseq src dst eack => decide (port < 48) && decide (vc < 4) && decide (lseq < 65536) &&
    decide (src < 256) && decide (dst < 256) && decide (eack < 2 ^ 32)
  | .headerCrcNak port => decide (port < 48)
  | .e2eResend port => decide (port < 48)
  | .streamTeardown dst vc wellhead => decide (dst < 256) && decide (vc < 4) && decide (wellhead < 4)
  | .frameMarkSend port phase => decide (port < 48) && decide (phase < 5)
  | .frameMarkReceive m => m.wf
  | .pairJoin pair mark => decide (pair < 8) && mark.all FrameMark.wf
  | .joinClear _ pair => decide (pair < 8)
  | .pairLeave pair => decide (pair < 8)
  | .timingLeave => true
  | .laneDrop port lane => decide (port < 48) && decide (lane < 8)
  | .portTrainRetry port _ => decide (port < 48)
  | .portQuarantineEnd port _ => decide (port < 48)
  | .nodeWrite _ _ => true
  | .pgStatAck _ page _ => pageOk page
  | .sqFieldWrite _ page offset _ => pageOk page && decide (offset < 4096)
  | .pgErrAck _ page _ => pageOk page
  | .pgIndAddrWrite _ page _ => pageOk page
  | .pgIndDataRead _ page => pageOk page
  | .pgIndDataWrite _ page _ => pageOk page
  | .pgMboxReq _ page _ => pageOk page
  | .mboxSnapshot _ page => pageOk page
  | .pgMboxData3Read _ page => pageOk page
  | .registerWrite _ page offset byteEnables _ => pageOk page && decide (offset < 4096) && decide (byteEnables < 16)
  | .clkMuxSwitch _ die _ => dieOk die
  | .muxSwitchComplete die domain => dieOk die && decide (domain < 3)
  | .muxHang die domain => dieOk die && decide (domain < 3)
  | .clkDomReset _ die _ => dieOk die
  | .oscStable die => dieOk die
  | .pllLockConfirm die => dieOk die
  | .trimSourceSwitch die _ _ => dieOk die
  | .rootLoss die => dieOk die
  | .restartWait unstableWellhead => unstableWellhead.all (fun w => decide (w < 4))
  | .sequencerChange tiller => decide (tiller < 68)
  | .inputLow _ => true
  | .inputOvervoltage => true
  | .pwrCapWrite _ offset _ => decide (offset < 4096)
  | .hotspotHigh tiller _ => decide (tiller < 68)
  | .hotspotTrip die => dieOk die
  | .chkFeed8 _ unit _ => decide (unit < 16)
  | .chkFeed16 _ unit _ => decide (unit < 16)
  | .chkFeed32 _ unit _ => decide (unit < 16)
  | .chkRestart _ unit => decide (unit < 16)
  | .chkCfgWrite _ unit _ => decide (unit < 16)
  | .chkScanCompute _ unit => decide (unit < 16)
  | .chkScanAppend _ unit => decide (unit < 16)
  | .chkScanVerify _ unit => decide (unit < 16)
  | .chkScanDone unit => decide (unit < 16)
  | .hbmFrameRetire tiller frame => decide (tiller < 68) && decide (frame < 2 ^ 24)
  | .hbmStackFail tiller => decide (tiller < 68)
  | .flashDieFail well channel die => decide (well < 32) && decide (channel < 16) && decide (die < 8)
  | .flashChannelFail well channel => decide (well < 32) && decide (channel < 16)
  | .wellheadFailure wellhead => decide (wellhead < 4)
  | .coreFailure core => decide (core < 16)
  | .marginPlannerRun tiller leastSlack _ _ => decide (tiller < 68) && decide (leastSlack.length = 13)
  | .powerOn => true
  | .restart => true
  | .fuseLoad _ => true
  | .firmwareLoad => true
  | .mount _ _ => true
  | .rebuild => true
  | .recovery => true
  | .serviceEntry => true
  | .shutdown _ => true
  | .dbgReset _ => true
  | .provision _ => true
  | .raiseLock _ arg => decide (arg < 256)
  | .raiseSec _ arg => decide (arg < 256)
  | .storeFw _ => true
  | .firmwarePersist => true
  | .timeStage _ => true
  | .timeCancel _ => true
  | .tapIdcode => true
  | .tapSamplePreload _ => true
  | .tapExtest _ _ => true
  | .tapDtmcs _ _ => true
  | .tapDmi op addr _ => decide (op < 4) && decide (addr < 128)
  | .tapRegacc _ _ offset _ => decide (offset < 2 ^ 32)
  | .tapUnlock key signature => decide (key.length = 97) && decide (signature.length = 96)
  | .tapBypass _ => true
  | .hartHalt core => decide (core < 16)
  | .hartResume core => decide (core < 16)
  | .hartStep core => decide (core < 16)
  | .triggerHit core trigger access addr => decide (core < 16) && decide (trigger < 4) &&
    decide (access < 3) && decide (addr < 2 ^ 64)
  | .accessRegister core regno _ _ => decide (core < 16) && decide (regno < 65536)
  | .accessMemory core addr size _ _ => decide (core < 16) && decide (addr < 2 ^ 64) && (size == 4 || size == 8)
  | .systemBusAccess addr size _ _ => decide (addr < 2 ^ 48) && (size == 4 || size == 8)
  | .ndmreset => true
  | .dbgClaimScan _ _ => true
  | .claimScanDone => true
  | .dbgClaimForce _ => true
  | .smbPresence => true
  | .smbInletTemp => true
  | .smbOutletTemp => true
  | .smbHotspot => true
  | .smbInputPower => true
  | .smbPhase => true
  | .smbSerial => true
  | .hostReadReissue port _ => decide (port < 2)
  | .hostPortReturn port lanes speed => decide (port < 2) && decide (lanes ≤ 16) && decide (1 ≤ speed ∧ speed ≤ 6)
  | .zioriPortTrained port lanes peer delayNs => decide (port < 48) && (lanes == 4 || lanes == 8) &&
    decide (peer < 256) && decide (delayNs < 65536)
  | .spareFailure tiller => decide (tiller < 68)

end Sys2Proof
end

