-- ==== Sys2Proof/Tests/Slice0.lean ====
section
/-! SUPPORT. The author's own tests: ill-formed commands that the check refuses, worked examples of the spec, and for each
statement with hypotheses a state and operands that meet them. -/

open Sys2Proof Sys2Proof.Machine

namespace Sys2Proof.Tests

set_option Elab.async false

/-- A command message of a RESIZE and its like, every field 0 but the command. -/
def cmd0 (c : Nat) : CmdMsg := { source := 0, crcOk := true, reservedOk := true, cmd := c, paddock := 0, serial := 0, atStroke := 0, tillers := 0, job := 0, k := 0, wheelLen := 0, sprintSlots := 0, lpddrGib := 0, sounderSlots := 0, wheelRef := 0 }

/-- A packet with no payload, every field 0. -/
def pkt0 : Packet := { kind := 0, vc := 0, cls := 0, leg := 0, via := 0, dst := 0, src := 0, units := 0, space := 0, tail := false, advEn := false, advCtr := 0, tag := 0, headSkip := 0, tailLen := 0, addr := 0, payload := [] }

/-- A one-unit Ziori message of one flit. -/
def zio0 (op : Nat) : ZioMsg := { port := 0, src := 0, dst := 0, vc := 0, eseq := 0, flits := 1, op := op, space := 0, tiller := 0, advEn := false, advCtr := 0, addr := 0, length := 1, payload := List.replicate 16 0 }

/-- A frame mark with every field 0. -/
def mark0 : FrameMark := { port := 0, stroke := 0, phase := 0, hops := 0, authority := 0, pair := 0, ringId := 0, offsetNs := 0 }

theorem test_wf_refuses_1 : ([
    .doorbellWrite 2 0 0 false,
    .doorbellWrite 0 131072 0 false,
    .submit 131072,
    .cancel 131072,
    .admitDurable 32768,
    .frontDurable 32768,
    .citationMapPost 32768,
    .prefillComplete 32768,
    .doneDurable 32768,
    .journalProgrammed 4 0,
    .dedupExpiry 4096 0,
    .journalRetentionExpiry 32768,
    .deadlineExpiry 32768,
    .strokeBoundary 0 (List.replicate 17 0) [],
    .decodeStepEnd 1024 0 0 [],
    .decodeStepEnd 0 51 0 [],
    .decodeStepEnd 0 0 1000 [],
    .shareLookup 32768,
    .pageWaitPark 1024,
    .park 32768,
    .replayCatchUp 32768 [] [] 0,
    .replayCatchUp 0 [] [] 68,
    .egressGrant 4 0,
    .egressGrant 0 4,
    .calendarPass 4,
    .telemetrySample 4,
    .loadJob (cmd0 9),
    .removeJob (cmd0 9),
    .setWheel (cmd0 9),
    .drain (cmd0 9),
    .resume (cmd0 9),
    .resize (cmd0 9),
    .retireTiller (cmd0 9),
    .readmitTiller (cmd0 9),
    .tillerFault 68 .sramEcc,
    .sparePromotion 16,
    .quarantineEnd 68 false,
    .tileProduct 68 0,
    .tileProduct 0 96,
    .tilePrepass 68 0,
    .tilePrepass 0 96] : List Instr).all (fun i => !i.wf) = true := by decide +kernel

theorem test_wf_refuses_2 : ([
    .tileEnd 68 0,
    .tileEnd 0 96,
    .splitSecondPass 68 0,
    .splitSecondPass 0 96,
    .tileDrain 68 0,
    .tileDrain 0 96,
    .epilogueDrain 68 0,
    .epilogueDrain 0 12,
    .deferredDrain 68 0,
    .deferredDrain 0 12,
    .partialApply 68,
    .addFinish 68 0,
    .addFinish 0 12,
    .fabricWrite { pkt0 with kind := 8 },
    .fabricReadReq { pkt0 with kind := 8 },
    .fabricReadResp { pkt0 with kind := 8 },
    .fabricPartial { pkt0 with kind := 8 },
    .ctrOp { pkt0 with kind := 8 },
    .ctrResp { pkt0 with kind := 8 },
    .regReq { pkt0 with kind := 8 } .pumphouse false 0,
    .regResp { pkt0 with kind := 8 },
    .linkRetry 72 0 0,
    .linkRetry 0 4 0,
    .routerFailure 72,
    .select 68,
    .sample 68 [],
    .winnowEnd 68,
    .maskFetch 68,
    .grammarRegister .pumphouse 4096,
    .grammarUnregister .pumphouse 4096,
    .catalogueFreed false 4096,
    .catalogueGraceExpiry 32768,
    .tokenizerRegister .pumphouse 256,
    .tokenizerUnregister .pumphouse 256,
    .tokenise 16,
    .detokenise 32768 0,
    .detokenise 0 262144,
    .sheafTableSet .pumphouse 64,
    .sheafTableClear .pumphouse 64,
    .sheafTableAmend .pumphouse 64] : List Instr).all (fun i => !i.wf) = true := by decide +kernel

theorem test_wf_refuses_3 : ([
    .gather 4 ⟨⟨(List.replicate 64 0), 0⟩, []⟩,
    .gather 0 ⟨⟨[], 0⟩, []⟩,
    .gather 8 ⟨⟨(List.replicate 64 0), 0⟩, []⟩,
    .gatherSum 4 ⟨⟨(List.replicate 64 0), 0⟩, []⟩,
    .gatherSum 0 ⟨⟨[], 0⟩, []⟩,
    .gatherSum 8 ⟨⟨(List.replicate 64 0), 0⟩, []⟩,
    .scatter 4 ⟨(List.replicate 64 0), 0⟩,
    .scatter 0 ⟨[], 0⟩,
    .scatter 8 ⟨(List.replicate 64 0), 0⟩,
    .prefetch 4 ⟨⟨(List.replicate 64 0), 0⟩, []⟩,
    .prefetch 0 ⟨⟨[], 0⟩, []⟩,
    .prefetch 8 ⟨⟨(List.replicate 64 0), 0⟩, []⟩,
    .sheafEnd 4 (List.replicate 64 0),
    .sheafEnd 0 [],
    .sheafEnd 8 (List.replicate 64 0),
    .feedbackEvent 64,
    .sheafUpdateApply 64,
    .forcedApply 4,
    .recipeRegister .pumphouse 4096,
    .recipeUnregister .pumphouse 4096,
    .frontEncode 32768 [],
    .searchCall 32768,
    .frontCandidates 32768 [],
    .frontRerank 32768 [63],
    .frontPack 32768,
    .searchBuild 65536,
    .searchRound 65536,
    .nodeRead 65536 0 false,
    .hubWindowClose 32 0 false,
    .searchAbort 65536,
    .indexOpen .pumphouse 4,
    .indexWrite .pumphouse 4,
    .indexSeal .pumphouse 4,
    .indexActivate .pumphouse 4,
    .activationApply 4,
    .indexLoad .pumphouse 4,
    .indexDiscard .pumphouse 4,
    .indexSlotFreed 4,
    .planStage .pumphouse 1024,
    .planUnstage .pumphouse 1024] : List Instr).all (fun i => !i.wf) = true := by decide +kernel

theorem test_wf_refuses_4 : ([
    .planFlush .pumphouse 1024,
    .gather 0 ⟨⟨(List.replicate 64 0), 1024⟩, [63]⟩,
    .gatherSum 0 ⟨⟨(List.replicate 64 0), 1024⟩, [63]⟩,
    .scatter 0 ⟨(List.replicate 64 0), 1024⟩,
    .prefetch 0 ⟨⟨(List.replicate 64 0), 1024⟩, [63]⟩,
    .moveComplete ⟨1024, 0⟩,
    .moveComplete ⟨0, 4294967296⟩,
    .flashPageRead 1024 0 0 [],
    .flashPageRead 0 281474976710656 0 [],
    .eraseIntent 4 0,
    .eraseIntent 0 4294967296,
    .eraseIssue 4294967296,
    .eraseComplete 4294967296 false,
    .blockVerify 4294967296 [],
    .reclaim 32 0,
    .reclaim 0 7,
    .programFail 4294967296 false,
    .readOnlyEntry 32,
    .wellFailure 32,
    .wellReturn 32,
    .imageCreate .pumphouse 65536,
    .imageWrite .pumphouse 65536,
    .imageSeal .pumphouse 65536,
    .imageDelete .pumphouse 65536,
    .ringCreate .pumphouse 131072,
    .ringDestroy .pumphouse 131072,
    .consumerIndexPost 131072,
    .consumerIndexRead 131072 0,
    .crossPortFence 131072 0,
    .crossPortFence 0 131072,
    .counterWindowRead 2 0 0,
    .counterWindowAdd 2 0 0 0,
    .sycRead .pumphouse 4,
    .sycAdd .pumphouse 4,
    .sycWait .pumphouse 4,
    .sycCas .pumphouse 4,
    .sycClaim .pumphouse 4 0,
    .sycClaim .pumphouse 0 16,
    .sycRelease .pumphouse 4 0,
    .sycRelease .pumphouse 0 16,
    .waitPark (.winnow 0) 131072 0,
    .waitPark (.winnow 0) 0 4294967296,
    .waitPark (.array 68 0) 0 0,
    .waitPark (.array 0 96) 0 0,
    .waitPark (.winnow 68) 0 0,
    .waitPark (.packet 72 0) 0 0,
    .waitPark (.packet 0 2048) 0 0] : List Instr).all (fun i => !i.wf) = true := by decide +kernel

theorem test_wf_refuses_5 : ([
    .waitPark (.sheaf 4) 0 0,
    .waitPark (.sheaf 76) 0 0,
    .waitPark (.chain 68 0) 0 0,
    .waitPark (.chain 0 12) 0 0,
    .waitPark (.siphon 0 64) 0 0,
    .waitPark (.siphon 8 16) 0 0,
    .waitPark (.siphon 76 0) 0 0,
    .waitSatisfied 4,
    .waitReissue 4,
    .siphonTransfer 4 0 (List.replicate 64 0),
    .siphonTransfer 0 0 [],
    .siphonTransfer 8 0 (List.replicate 64 0),
    .siphonTransfer 0 64 (List.replicate 64 0),
    .siphonTransfer 8 16 [],
    .siphonEnd 4 0 (List.replicate 64 0),
    .siphonEnd 0 0 [],
    .siphonEnd 8 0 (List.replicate 64 0),
    .siphonEnd 0 64 (List.replicate 64 0),
    .siphonEnd 8 16 [],
    .siphonComplete 76 0,
    .siphonComplete 0 64,
    .siphonComplete 8 16,
    .perstRelease 2,
    .configRequest 2 0 false false 0,
    .configRequest 0 4096 false false 0,
    .bar2Access 2 0 0 false false [],
    .hptWinWrite .pumphouse 2 0,
    .portReset 2,
    .hostReadFail 2 0 0,
    .hostReadFail 0 18446744073709551616 0,
    .zioWrite (zio0 1),
    .zioPartial (zio0 2),
    .zioCtrAdd (zio0 3),
    .zioCommand (zio0 4),
    .zioRecord (zio0 0),
    .zioCtrl 48 0 0 false 0 0 0 0,
    .zioCtrl 0 4 0 false 0 0 0 0,
    .zioCtrl 0 0 0 false 65536 0 0 0,
    .zioCtrl 0 0 0 false 0 256 0 0,
    .zioCtrl 0 0 0 false 0 0 256 0] : List Instr).all (fun i => !i.wf) = true := by decide +kernel

theorem test_wf_refuses_6 : ([
    .zioCtrl 0 0 0 false 0 0 0 4294967296,
    .headerCrcNak 48,
    .e2eResend 48,
    .streamTeardown 256 0 0,
    .streamTeardown 0 4 0,
    .streamTeardown 0 0 4,
    .frameMarkSend 48 0,
    .frameMarkSend 0 5,
    .frameMarkReceive { mark0 with port := 48 },
    .pairJoin 8 none,
    .pairJoin 0 (some { mark0 with phase := 5 }),
    .joinClear .pumphouse 8,
    .pairLeave 8,
    .laneDrop 48 0,
    .laneDrop 0 8,
    .portTrainRetry 48 false,
    .portQuarantineEnd 48 false,
    .pgStatAck .pumphouse 32768 0,
    .sqFieldWrite .pumphouse 0 4096 0,
    .sqFieldWrite .pumphouse 32768 0 0,
    .pgErrAck .pumphouse 32768 0,
    .pgIndAddrWrite .pumphouse 32768 0,
    .pgIndDataRead .pumphouse 32768,
    .pgIndDataWrite .pumphouse 32768 0,
    .pgMboxReq .pumphouse 32768 0,
    .mboxSnapshot .pumphouse 32768,
    .pgMboxData3Read .pumphouse 32768,
    .registerWrite .pumphouse 0 4096 0 0,
    .registerWrite .pumphouse 0 0 16 0,
    .registerWrite .pumphouse 32768 0 0 0,
    .clkMuxSwitch .pumphouse 112 0,
    .clkMuxSwitch .pumphouse 7 0,
    .muxSwitchComplete 0 3,
    .muxSwitchComplete 112 0,
    .muxSwitchComplete 7 0,
    .muxHang 0 3,
    .muxHang 112 0,
    .muxHang 7 0,
    .clkDomReset .pumphouse 112 0,
    .clkDomReset .pumphouse 7 0] : List Instr).all (fun i => !i.wf) = true := by decide +kernel

theorem test_wf_refuses_7 : ([
    .oscStable 112,
    .oscStable 7,
    .pllLockConfirm 112,
    .pllLockConfirm 7,
    .trimSourceSwitch 112 0 0,
    .trimSourceSwitch 7 0 0,
    .rootLoss 112,
    .rootLoss 7,
    .restartWait (some 4),
    .sequencerChange 68,
    .pwrCapWrite .pumphouse 4096 0,
    .hotspotHigh 68 0,
    .hotspotTrip 112,
    .hotspotTrip 7,
    .chkFeed8 .pumphouse 16 0,
    .chkFeed16 .pumphouse 16 0,
    .chkFeed32 .pumphouse 16 0,
    .chkRestart .pumphouse 16,
    .chkCfgWrite .pumphouse 16 0,
    .chkScanCompute .pumphouse 16,
    .chkScanAppend .pumphouse 16,
    .chkScanVerify .pumphouse 16,
    .chkScanDone 16,
    .hbmFrameRetire 68 0,
    .hbmFrameRetire 0 16777216,
    .hbmStackFail 68,
    .flashDieFail 32 0 0,
    .flashDieFail 0 16 0,
    .flashDieFail 0 0 8,
    .flashChannelFail 32 0,
    .flashChannelFail 0 16,
    .wellheadFailure 4,
    .coreFailure 16,
    .marginPlannerRun 68 (List.replicate 13 0) [] false,
    .marginPlannerRun 0 [] [] false,
    .raiseLock .pumphouse 256,
    .raiseSec .pumphouse 256,
    .tapDmi 4 0 0,
    .tapDmi 0 128 0,
    .tapRegacc false false 4294967296 0] : List Instr).all (fun i => !i.wf) = true := by decide +kernel

theorem test_wf_refuses_8 : ([
    .tapUnlock [] (List.replicate 96 0),
    .tapUnlock (List.replicate 97 0) [],
    .hartHalt 16,
    .hartResume 16,
    .hartStep 16,
    .triggerHit 16 0 0 0,
    .triggerHit 0 4 0 0,
    .triggerHit 0 0 3 0,
    .triggerHit 0 0 0 18446744073709551616,
    .accessRegister 16 0 false 0,
    .accessRegister 0 65536 false 0,
    .accessMemory 16 0 4 false 0,
    .accessMemory 0 18446744073709551616 4 false 0,
    .accessMemory 0 0 2 false 0,
    .systemBusAccess 281474976710656 4 false 0,
    .systemBusAccess 0 2 false 0,
    .hostReadReissue 2 false,
    .hostPortReturn 2 0 1,
    .hostPortReturn 0 17 1,
    .hostPortReturn 0 0 0,
    .hostPortReturn 0 0 7,
    .zioriPortTrained 48 4 0 0,
    .zioriPortTrained 0 4 256 0,
    .zioriPortTrained 0 4 0 65536,
    .zioriPortTrained 0 5 0 0,
    .spareFailure 68] : List Instr).all (fun i => !i.wf) = true := by decide +kernel

theorem test_wf_takes_1 : ([
    .doorbellWrite 0 0 0 false,
    .doorbellWrite 1 0 0 false,
    .doorbellWrite 0 131071 0 false,
    .submit 0,
    .submit 131071,
    .cancel 0,
    .cancel 131071,
    .admitDurable 0,
    .admitDurable 32767,
    .frontDurable 0,
    .frontDurable 32767,
    .citationMapPost 0,
    .citationMapPost 32767,
    .prefillComplete 0,
    .prefillComplete 32767,
    .doneDurable 0,
    .doneDurable 32767,
    .journalProgrammed 0 0,
    .journalProgrammed 3 0,
    .dedupExpiry 0 0,
    .dedupExpiry 4095 0,
    .journalRetentionExpiry 0,
    .journalRetentionExpiry 32767,
    .deadlineExpiry 0,
    .deadlineExpiry 32767,
    .strokeBoundary 0 [] [],
    .decodeStepEnd 0 0 999 [],
    .decodeStepEnd 1023 0 0 [63],
    .decodeStepEnd 0 50 0 [],
    .shareLookup 0,
    .shareLookup 32767,
    .pageWaitPark 0,
    .pageWaitPark 1023,
    .park 0,
    .park 32767,
    .replayCatchUp 0 [] [] 0,
    .replayCatchUp 32767 [] [] 0,
    .replayCatchUp 0 [] [] 67,
    .egressGrant 0 0,
    .egressGrant 3 0,
    .egressGrant 0 3,
    .calendarPass 0,
    .calendarPass 3,
    .telemetrySample 0,
    .telemetrySample 3,
    .loadJob (cmd0 1),
    .removeJob (cmd0 2),
    .setWheel (cmd0 3),
    .drain (cmd0 4),
    .resume (cmd0 5),
    .resize (cmd0 6),
    .retireTiller (cmd0 7),
    .readmitTiller (cmd0 8),
    .tillerFault 0 .sramEcc,
    .tillerFault 67 .sramEcc,
    .sparePromotion 0,
    .sparePromotion 15,
    .quarantineEnd 0 false,
    .quarantineEnd 67 false,
    .tileProduct 0 0] : List Instr).all Instr.wf = true := by decide +kernel

theorem test_wf_takes_2 : ([
    .tileProduct 67 95,
    .tilePrepass 0 0,
    .tilePrepass 67 95,
    .tileEnd 0 0,
    .tileEnd 67 95,
    .splitSecondPass 0 0,
    .splitSecondPass 67 95,
    .tileDrain 0 0,
    .tileDrain 67 95,
    .epilogueDrain 0 0,
    .epilogueDrain 67 11,
    .deferredDrain 0 0,
    .deferredDrain 67 11,
    .partialApply 0,
    .partialApply 67,
    .addFinish 0 0,
    .addFinish 67 11,
    .fabricWrite pkt0,
    .fabricReadReq pkt0,
    .fabricReadResp pkt0,
    .fabricPartial pkt0,
    .ctrOp pkt0,
    .ctrResp pkt0,
    .regReq pkt0 .pumphouse false 0,
    .regResp pkt0,
    .linkRetry 0 0 0,
    .linkRetry 71 0 0,
    .linkRetry 0 3 0,
    .routerFailure 0,
    .routerFailure 71,
    .select 0,
    .select 67,
    .sample 0 [],
    .sample 67 [],
    .winnowEnd 0,
    .winnowEnd 67,
    .maskFetch 0,
    .maskFetch 67,
    .grammarRegister .pumphouse 0,
    .grammarRegister .pumphouse 4095,
    .grammarUnregister .pumphouse 0,
    .grammarUnregister .pumphouse 4095,
    .catalogueFreed false 0,
    .catalogueFreed false 4095,
    .catalogueGraceExpiry 0,
    .catalogueGraceExpiry 32767,
    .tokenizerRegister .pumphouse 0,
    .tokenizerRegister .pumphouse 255,
    .tokenizerUnregister .pumphouse 0,
    .tokenizerUnregister .pumphouse 255,
    .tokenise 0,
    .tokenise 15,
    .detokenise 0 0,
    .detokenise 32767 0,
    .detokenise 0 262143,
    .sheafTableSet .pumphouse 0,
    .sheafTableSet .pumphouse 63,
    .sheafTableClear .pumphouse 0,
    .sheafTableClear .pumphouse 63,
    .sheafTableAmend .pumphouse 0] : List Instr).all Instr.wf = true := by decide +kernel

theorem test_wf_takes_3 : ([
    .sheafTableAmend .pumphouse 63,
    .gather 0 ⟨⟨(List.replicate 64 0), 0⟩, []⟩,
    .gather 75 ⟨⟨[], 0⟩, []⟩,
    .gatherSum 0 ⟨⟨(List.replicate 64 0), 0⟩, []⟩,
    .gatherSum 75 ⟨⟨[], 0⟩, []⟩,
    .scatter 0 ⟨(List.replicate 64 0), 0⟩,
    .scatter 75 ⟨[], 0⟩,
    .prefetch 0 ⟨⟨(List.replicate 64 0), 0⟩, []⟩,
    .prefetch 75 ⟨⟨[], 0⟩, []⟩,
    .sheafEnd 0 (List.replicate 64 0),
    .sheafEnd 75 [],
    .feedbackEvent 0,
    .feedbackEvent 63,
    .sheafUpdateApply 0,
    .sheafUpdateApply 63,
    .forcedApply 0,
    .forcedApply 3,
    .recipeRegister .pumphouse 0,
    .recipeRegister .pumphouse 4095,
    .recipeUnregister .pumphouse 0,
    .recipeUnregister .pumphouse 4095,
    .frontEncode 0 [],
    .frontEncode 32767 [],
    .searchCall 0,
    .searchCall 32767,
    .frontCandidates 0 [],
    .frontCandidates 32767 [],
    .frontRerank 0 [63],
    .frontRerank 32767 [63],
    .frontPack 0,
    .frontPack 32767,
    .searchBuild 0,
    .searchBuild 65535,
    .searchRound 0,
    .searchRound 65535,
    .nodeRead 0 0 false,
    .nodeRead 65535 0 false,
    .hubWindowClose 0 0 false,
    .hubWindowClose 31 0 false,
    .searchAbort 0,
    .searchAbort 65535,
    .indexOpen .pumphouse 0,
    .indexOpen .pumphouse 3,
    .indexWrite .pumphouse 0,
    .indexWrite .pumphouse 3,
    .indexSeal .pumphouse 0,
    .indexSeal .pumphouse 3,
    .indexActivate .pumphouse 0,
    .indexActivate .pumphouse 3,
    .activationApply 0,
    .activationApply 3,
    .indexLoad .pumphouse 0,
    .indexLoad .pumphouse 3,
    .indexDiscard .pumphouse 0,
    .indexDiscard .pumphouse 3,
    .indexSlotFreed 0,
    .indexSlotFreed 3,
    .planStage .pumphouse 0,
    .planStage .pumphouse 1023,
    .planUnstage .pumphouse 0] : List Instr).all Instr.wf = true := by decide +kernel

theorem test_wf_takes_4 : ([
    .planUnstage .pumphouse 1023,
    .planFlush .pumphouse 0,
    .planFlush .pumphouse 1023,
    .gather 0 ⟨⟨(List.replicate 64 0), 1023⟩, [63]⟩,
    .gatherSum 0 ⟨⟨(List.replicate 64 0), 1023⟩, [63]⟩,
    .scatter 0 ⟨(List.replicate 64 0), 1023⟩,
    .prefetch 0 ⟨⟨(List.replicate 64 0), 1023⟩, [63]⟩,
    .moveComplete ⟨0, 0⟩,
    .moveComplete ⟨1023, 4294967295⟩,
    .flashPageRead 0 0 0 [],
    .flashPageRead 1023 0 0 [0],
    .flashPageRead 0 281474976710655 0 [],
    .eraseIntent 0 0,
    .eraseIntent 3 0,
    .eraseIntent 0 4294967295,
    .eraseIssue 0,
    .eraseIssue 4294967295,
    .eraseComplete 0 false,
    .eraseComplete 4294967295 false,
    .blockVerify 0 [],
    .blockVerify 4294967295 [],
    .reclaim 0 0,
    .reclaim 31 0,
    .reclaim 0 6,
    .programFail 0 false,
    .programFail 4294967295 false,
    .readOnlyEntry 0,
    .readOnlyEntry 31,
    .wellFailure 0,
    .wellFailure 31,
    .wellReturn 0,
    .wellReturn 31,
    .imageCreate .pumphouse 0,
    .imageCreate .pumphouse 65535,
    .imageWrite .pumphouse 0,
    .imageWrite .pumphouse 65535,
    .imageSeal .pumphouse 0,
    .imageSeal .pumphouse 65535,
    .imageDelete .pumphouse 0,
    .imageDelete .pumphouse 65535,
    .ringCreate .pumphouse 0,
    .ringCreate .pumphouse 131071,
    .ringDestroy .pumphouse 0,
    .ringDestroy .pumphouse 131071,
    .consumerIndexPost 0,
    .consumerIndexPost 131071,
    .consumerIndexRead 0 0,
    .consumerIndexRead 131071 0,
    .crossPortFence 0 0,
    .crossPortFence 131071 0,
    .crossPortFence 0 131071,
    .counterWindowRead 0 0 0,
    .counterWindowRead 1 0 0,
    .counterWindowAdd 0 0 0 0,
    .counterWindowAdd 1 0 0 0,
    .sycRead .pumphouse 0,
    .sycRead .pumphouse 3,
    .sycAdd .pumphouse 0,
    .sycAdd .pumphouse 3,
    .sycWait .pumphouse 0,
    .sycWait .pumphouse 3,
    .sycCas .pumphouse 0,
    .sycCas .pumphouse 3,
    .sycClaim .pumphouse 0 0] : List Instr).all Instr.wf = true := by decide +kernel

theorem test_wf_takes_5 : ([
    .sycClaim .pumphouse 3 0,
    .sycClaim .pumphouse 0 15,
    .sycRelease .pumphouse 0 0,
    .sycRelease .pumphouse 3 0,
    .sycRelease .pumphouse 0 15,
    .waitPark (.winnow 0) 0 0,
    .waitPark (.winnow 0) 131071 0,
    .waitPark (.winnow 0) 0 4294967295,
    .waitPark (.array 67 95) 0 0,
    .waitPark (.winnow 67) 0 0,
    .waitPark (.sheaf 3) 0 0,
    .waitPark (.sheaf 75) 0 0,
    .waitPark (.chain 67 11) 0 0,
    .waitPark (.siphon 3 63) 0 0,
    .waitPark (.siphon 75 15) 0 0,
    .waitPark (.packet 71 2047) 0 0,
    .waitSatisfied 0,
    .waitSatisfied 3,
    .waitReissue 0,
    .waitReissue 3,
    .siphonTransfer 0 0 (List.replicate 64 0),
    .siphonTransfer 75 0 [],
    .siphonEnd 0 0 (List.replicate 64 0),
    .siphonEnd 75 0 [],
    .siphonComplete 0 0,
    .perstRelease 0,
    .perstRelease 1,
    .configRequest 0 0 false false 0,
    .configRequest 1 0 false false 0,
    .configRequest 0 4095 false false 0,
    .bar2Access 0 0 0 false false [],
    .bar2Access 1 0 0 false false [],
    .hptWinWrite .pumphouse 0 0,
    .hptWinWrite .pumphouse 1 0,
    .portReset 0,
    .portReset 1,
    .hostReadFail 0 0 0,
    .hostReadFail 1 0 0,
    .hostReadFail 0 18446744073709551615 0,
    .zioWrite (zio0 0),
    .zioPartial (zio0 1),
    .zioCtrAdd (zio0 2),
    .zioCommand (zio0 3),
    .zioRecord (zio0 4),
    .zioCtrl 0 0 0 false 0 0 0 0,
    .zioCtrl 47 0 0 false 0 0 0 0,
    .zioCtrl 0 3 0 false 0 0 0 0,
    .zioCtrl 0 0 0 false 65535 0 0 0,
    .zioCtrl 0 0 0 false 0 255 0 0,
    .zioCtrl 0 0 0 false 0 0 255 0,
    .zioCtrl 0 0 0 false 0 0 0 4294967295,
    .headerCrcNak 0,
    .headerCrcNak 47,
    .e2eResend 0,
    .e2eResend 47,
    .streamTeardown 0 0 0,
    .streamTeardown 255 0 0,
    .streamTeardown 0 3 0,
    .streamTeardown 0 0 3,
    .frameMarkSend 0 0,
    .frameMarkSend 47 0] : List Instr).all Instr.wf = true := by decide +kernel

theorem test_wf_takes_6 : ([
    .frameMarkSend 0 4,
    .frameMarkReceive mark0,
    .pairJoin 0 none,
    .pairJoin 7 none,
    .joinClear .pumphouse 0,
    .joinClear .pumphouse 7,
    .pairLeave 0,
    .pairLeave 7,
    .laneDrop 0 0,
    .laneDrop 47 0,
    .laneDrop 0 7,
    .portTrainRetry 0 false,
    .portTrainRetry 47 false,
    .portQuarantineEnd 0 false,
    .portQuarantineEnd 47 false,
    .pgStatAck .pumphouse 0 0,
    .pgStatAck .pumphouse 32767 0,
    .sqFieldWrite .pumphouse 0 0 0,
    .sqFieldWrite .pumphouse 0 4095 0,
    .sqFieldWrite .pumphouse 32767 0 0,
    .pgErrAck .pumphouse 0 0,
    .pgErrAck .pumphouse 32767 0,
    .pgIndAddrWrite .pumphouse 0 0,
    .pgIndAddrWrite .pumphouse 32767 0,
    .pgIndDataRead .pumphouse 0,
    .pgIndDataRead .pumphouse 32767,
    .pgIndDataWrite .pumphouse 0 0,
    .pgIndDataWrite .pumphouse 32767 0,
    .pgMboxReq .pumphouse 0 0,
    .pgMboxReq .pumphouse 32767 0,
    .mboxSnapshot .pumphouse 0,
    .mboxSnapshot .pumphouse 32767,
    .pgMboxData3Read .pumphouse 0,
    .pgMboxData3Read .pumphouse 32767,
    .registerWrite .pumphouse 0 0 0 0,
    .registerWrite .pumphouse 0 4095 0 0,
    .registerWrite .pumphouse 0 0 15 0,
    .registerWrite .pumphouse 32767 0 0 0,
    .clkMuxSwitch .pumphouse 0 0,
    .clkMuxSwitch .pumphouse 111 0,
    .muxSwitchComplete 0 0,
    .muxSwitchComplete 0 2,
    .muxSwitchComplete 111 0,
    .muxHang 0 0,
    .muxHang 0 2,
    .muxHang 111 0,
    .clkDomReset .pumphouse 0 0,
    .clkDomReset .pumphouse 111 0,
    .oscStable 0,
    .oscStable 111,
    .pllLockConfirm 0,
    .pllLockConfirm 111,
    .trimSourceSwitch 0 0 0,
    .trimSourceSwitch 111 0 0,
    .rootLoss 0,
    .rootLoss 111,
    .restartWait none,
    .restartWait (some 3),
    .sequencerChange 0,
    .sequencerChange 67] : List Instr).all Instr.wf = true := by decide +kernel

theorem test_wf_takes_7 : ([
    .pwrCapWrite .pumphouse 0 0,
    .pwrCapWrite .pumphouse 4095 0,
    .hotspotHigh 0 0,
    .hotspotHigh 67 0,
    .hotspotTrip 0,
    .hotspotTrip 111,
    .chkFeed8 .pumphouse 0 0,
    .chkFeed8 .pumphouse 15 0,
    .chkFeed16 .pumphouse 0 0,
    .chkFeed16 .pumphouse 15 0,
    .chkFeed32 .pumphouse 0 0,
    .chkFeed32 .pumphouse 15 0,
    .chkRestart .pumphouse 0,
    .chkRestart .pumphouse 15,
    .chkCfgWrite .pumphouse 0 0,
    .chkCfgWrite .pumphouse 15 0,
    .chkScanCompute .pumphouse 0,
    .chkScanCompute .pumphouse 15,
    .chkScanAppend .pumphouse 0,
    .chkScanAppend .pumphouse 15,
    .chkScanVerify .pumphouse 0,
    .chkScanVerify .pumphouse 15,
    .chkScanDone 0,
    .chkScanDone 15,
    .hbmFrameRetire 0 0,
    .hbmFrameRetire 67 0,
    .hbmFrameRetire 0 16777215,
    .hbmStackFail 0,
    .hbmStackFail 67,
    .flashDieFail 0 0 0,
    .flashDieFail 31 0 0,
    .flashDieFail 0 15 0,
    .flashDieFail 0 0 7,
    .flashChannelFail 0 0,
    .flashChannelFail 31 0,
    .flashChannelFail 0 15,
    .wellheadFailure 0,
    .wellheadFailure 3,
    .coreFailure 0,
    .coreFailure 15,
    .marginPlannerRun 0 (List.replicate 13 0) [] false,
    .marginPlannerRun 67 (List.replicate 13 0) [] false,
    .raiseLock .pumphouse 0,
    .raiseLock .pumphouse 255,
    .raiseSec .pumphouse 0,
    .raiseSec .pumphouse 255,
    .tapDmi 0 0 0,
    .tapDmi 3 0 0,
    .tapDmi 0 127 0,
    .tapRegacc false false 0 0,
    .tapRegacc false false 4294967295 0,
    .tapUnlock (List.replicate 97 0) (List.replicate 96 0),
    .hartHalt 0,
    .hartHalt 15,
    .hartResume 0,
    .hartResume 15,
    .hartStep 0,
    .hartStep 15,
    .triggerHit 0 0 0 0,
    .triggerHit 15 0 0 0] : List Instr).all Instr.wf = true := by decide +kernel

theorem test_wf_takes_8 : ([
    .triggerHit 0 3 0 0,
    .triggerHit 0 0 2 0,
    .triggerHit 0 0 0 18446744073709551615,
    .accessRegister 0 0 false 0,
    .accessRegister 15 0 false 0,
    .accessRegister 0 65535 false 0,
    .accessMemory 0 0 4 false 0,
    .accessMemory 15 0 4 false 0,
    .accessMemory 0 18446744073709551615 4 false 0,
    .accessMemory 0 0 8 false 0,
    .systemBusAccess 0 4 false 0,
    .systemBusAccess 281474976710655 4 false 0,
    .systemBusAccess 0 8 false 0,
    .hostReadReissue 0 false,
    .hostReadReissue 1 false,
    .hostPortReturn 0 0 1,
    .hostPortReturn 1 0 1,
    .hostPortReturn 0 16 1,
    .hostPortReturn 0 0 6,
    .zioriPortTrained 0 4 0 0,
    .zioriPortTrained 47 4 0 0,
    .zioriPortTrained 0 4 255 0,
    .zioriPortTrained 0 4 0 65535,
    .zioriPortTrained 0 8 0 0,
    .spareFailure 0,
    .spareFailure 67] : List Instr).all Instr.wf = true := by decide +kernel

theorem test_wf_message_fields : ([
    { cmd0 1 with source := 4 },
    { cmd0 1 with paddock := 256 },
    { cmd0 1 with serial := 2 ^ 64 },
    { cmd0 1 with atStroke := 2 ^ 64 },
    { cmd0 1 with tillers := 2 ^ 128 },
    { cmd0 1 with job := 65536 },
    { cmd0 1 with k := 256 },
    { cmd0 1 with wheelLen := 256 },
    { cmd0 1 with sprintSlots := 65536 },
    { cmd0 1 with lpddrGib := 2 ^ 32 },
    { cmd0 1 with sounderSlots := 2 ^ 32 },
    { cmd0 1 with wheelRef := 2 ^ 64 }] : List CmdMsg).all (fun m => !m.wf 1) = true := by decide +kernel

theorem test_wf_packet_fields : ([
    { pkt0 with kind := 8 },
    { pkt0 with vc := 4 },
    { pkt0 with cls := 2 },
    { pkt0 with leg := 2 },
    { pkt0 with via := 128 },
    { pkt0 with dst := 72 },
    { pkt0 with src := 72 },
    { pkt0 with units := 128 },
    { pkt0 with space := 4 },
    { pkt0 with advCtr := 131072 },
    { pkt0 with tag := 2048 },
    { pkt0 with headSkip := 16 },
    { pkt0 with tailLen := 16 },
    { pkt0 with addr := 2 ^ 48 },
    { pkt0 with units := 1 },
    { pkt0 with kind := 1, payload := [0] }] : List Packet).all (fun p => !p.wf) = true := by decide +kernel

theorem test_wf_ziori_fields : ([
    { zio0 0 with port := 48 },
    { zio0 0 with src := 256 },
    { zio0 0 with dst := 256 },
    { zio0 0 with vc := 1 },
    { zio0 0 with eseq := 4294967296 },
    { zio0 0 with flits := 2 },
    { zio0 0 with op := 1 },
    { zio0 0 with op := 256 },
    { zio0 0 with space := 256 },
    { zio0 0 with tiller := 256 },
    { zio0 0 with advCtr := 131072 },
    { zio0 0 with addr := 2 ^ 48 },
    { zio0 0 with length := 0, payload := [] },
    { zio0 0 with length := 4097 },
    { zio0 0 with payload := [] }] : List ZioMsg).all (fun m => !m.wf 0) = true := by decide +kernel

theorem test_wf_mark_fields : ([
    { mark0 with port := 48 },
    { mark0 with stroke := 2 ^ 64 },
    { mark0 with phase := 5 },
    { mark0 with hops := 256 },
    { mark0 with authority := 256 },
    { mark0 with pair := 256 },
    { mark0 with ringId := 65536 }] : List FrameMark).all (fun m => !m.wf) = true := by decide +kernel

/-- Bytes with fields laid over them: each edit is an offset, a width and a value. -/
def patch (b : List Byte) (es : List (Nat × Nat × Nat)) : List Byte :=
  es.foldl (fun b e => b.take e.1 ++ leBytes e.2.1 e.2.2 ++ b.drop (e.1 + e.2.1)) b

/-- `n` zero bytes with fields laid over them. -/
def rec0 (n : Nat) (es : List (Nat × Nat × Nat)) : List Byte := patch (List.replicate n 0) es

/-- A record of `n` bytes with fields laid over it and its CRC in front. -/
def checked (n : Nat) (es : List (Nat × Nat × Nat)) : List Byte := withCrc ((rec0 n es).drop 4)

theorem checked_crc (n : Nat) (es : List (Nat × Nat × Nat)) : crcOk (checked n es) = true := crcOk_withCrc _

/-- The fields of a descriptor of R26: service 0 of subscriber 7 for job 3, 4 prompt bytes inline, output ring 2. -/
def descFlds : List (Nat × Nat × Nat) :=
  [(4, 1, 1), (5, 1, 1), (6, 2, 7), (9, 1, 4), (0xA, 2, 3), (0x10, 8, 0x55), (0x28, 4, 10), (0x2C, 4, 100),
    (0x38, 4, 0x3F800000), (0x48, 4, 4), (0x4C, 4, 2), (0x80, 4, 0x64636261)]

/-- That descriptor with its CRC, and other fields laid over it. -/
def desc (es : List (Nat × Nat × Nat)) : List Byte := checked 256 (descFlds ++ es)

/-- A module in service, ten strokes after its start, at 1 ms of module time. -/
def live : State := { boot := { powered := true, started := true, ready := true, upStrokes := 10 }, time := { boundNs := 1000000 } }

/-- A meter of R82: enabled or not, one unit a request, buckets that hold what is given. -/
def meter1 (on : Bool) (tc : Nat) : Meter := { w := [if on then 0x90000000 else 0x10000000, 0, 0, 1, 1, 0, 0, 0], tc := tc, tp := tc }

/-- A plan of R328 loaded in paddock 0: model service, services 0 and 1, a vocabulary of 1,000. -/
def plan3 (es : List (Nat × Nat × Nat)) : Plan := { hdr := rec0 256 ([(6, 1, 3), (0x30, 4, 1000)] ++ es), loaded := some 0 }

/-- Submission ring 0 of subscriber 7, with one record. -/
def ring0 : Ring := { kind := 0, recBytes := 256, base := 0x1000, bind := 7, prod := 1 }

/-- The module in service with rings of subscriber 7 (submission 0, completion 1, output 2, citation 3), job 3 and open meters. -/
def served : State :=
  { live with
    nor := { rings := [(0, ring0), (1, { kind := 1, base := 0x2000, bind := 7 }), (2, { kind := 2, base := 0x3000, bind := 7 }),
      (3, { kind := 6, base := 0x4000, bind := 7, log2 := 1 })] }
    cis := { plans := [(3, plan3 [])] }
    pad := { pads := [(0, { state := .running, jobs := [3] })] }
    tmg := { meters := [(28, meter1 true 256), (0x10007, meter1 false 0)] } }

theorem served_next (d : List Byte) (h : d.length = 256) (s : State) (hs : s = { served with tmg := s.tmg, req := s.req }) :
    (s.store .lpddr 0x1000 d).nextDesc 0 = some (ring0, 1, d) := by
  have e : (s.store .lpddr 0x1000 d).nextDesc 0 = some (ring0, 1, (s.store .lpddr 0x1000 d).load .lpddr 0x1000 256) := by
    rw [hs]; rfl
  rw [e, ← h, load_store_same]

/-- The state of a SUBMIT witness: one descriptor stands in ring 0. -/
def subm (s : State) (es : List (Nat × Nat × Nat)) : State := s.store .lpddr 0x1000 (desc es)

theorem desc_crc (es : List (Nat × Nat × Nat)) : crcOk (desc es) = true := checked_crc _ _

theorem desc_length : (desc []).length = 256 := by rw [desc, checked, withCrc_length]; decide +kernel

/-- The SUBMIT's hypotheses hold, and check 2 refuses a descriptor of version 2, check 3 one of another subscriber. -/
theorem wit_SubmitTakesOneDescriptor_refused :
    ((subm served [(4, 1, 2)]).nextDesc 0 = some (ring0, 1, desc [(4, 1, 2)]) ∧
      ¬(descOp (desc [(4, 1, 2)]) = 1 ∧ crcOk (desc [(4, 1, 2)]) = true) ∧ descInline (desc [(4, 1, 2)]) = true) ∧
    ((subm served [(4, 1, 2)]).consume 0 ring0).submitCheck ring0 (desc [(4, 1, 2)])
      ((subm served [(4, 1, 2)]).fetchInput ring0 (desc [(4, 1, 2)])) = some (2, 0) := by
  refine ⟨⟨served_next _ ?_ served rfl, ?_, by decide +kernel⟩, ?_⟩
  · rw [desc, checked, withCrc_length]; decide +kernel
  · intro h; exact absurd h.1 (by decide +kernel)
  · unfold State.submitCheck; rw [desc_crc]; decide +kernel

/-- A full share of the de-duplication set: the pairs of Wellhead 3's subscribers. -/
@[irreducible] def fullSet : List Dedup := List.replicate 2097152 { sub := 3, tag := 0, slot := 0, acceptNs := 0 }

theorem replicate_share (n : Nat) : let l := List.replicate n ({ sub := 3, tag := 0, slot := 0, acceptNs := 0 } : Dedup)
    l.find? (fun e => decide (e.sub = 7) && decide (e.tag = 0x55)) = none ∧ (l.filter (fun e => e.sub % 4 = 7 % 4)).length = n := by
  constructor
  · rw [List.find?_eq_none]; intro x hx; rw [(List.mem_replicate.1 hx).2]; decide
  · rw [List.filter_eq_self.2 (fun x hx => by rw [(List.mem_replicate.1 hx).2]; decide), List.length_replicate]

theorem full_share (s : State) (l : List Dedup) (hl : s.req.dedup = l) (h1 :  l.find? (fun e => decide (e.sub = 7) && decide (e.tag = 0x55)) = none)
  (h2 : 2097152 ≤ (l.filter (fun e => e.sub % 4 = 7 % 4)).length) : s.dedupLookup 7 0x55 = some (0xC, 0) := by
  have h : s.dedupFind 7 0x55 = none := by rw [← h1, ← hl]; rfl
  have h' : s.dedupFill (7 % 4) = (l.filter (fun e => e.sub % 4 = 7 % 4)).length := by rw [← hl]; rfl
  unfold State.dedupLookup
  rw [h]
  exact if_pos (h' ▸ h2)

theorem wit_SubmitTakesOneDescriptor_dedup :
    (subm { served with req := { dedup := fullSet } } []).nextDesc 0 = some (ring0, 1, desc []) ∧
    ((subm { served with req := { dedup := fullSet } } []).consume 0 ring0).submitCheck ring0 (desc [])
      ((subm { served with req := { dedup := fullSet } } []).fetchInput ring0 (desc [])) = some (0xC, 0) := by
  refine ⟨served_next _ desc_length _ rfl, ?_⟩
  have h := full_share ((subm { served with req := { dedup := fullSet } } []).consume 0 ring0) fullSet rfl
    (by rw [fullSet]; exact (replicate_share _).1) (by rw [fullSet]; exact Nat.le_of_eq (replicate_share _).2.symm)
  rw [← show descSub (desc []) = 7 by decide +kernel, ← show descTag (desc []) = 0x55 by decide +kernel] at h
  unfold State.submitCheck
  rw [desc_crc, h]
  decide +kernel

theorem wit_SubmitTakesOneDescriptor_red : let s : State := { served with tmg := {} }
    ((subm s []).nextDesc 0 = some (ring0, 1, desc []) ∧
      ((subm s []).consume 0 ring0).submitCheck ring0 (desc []) ((subm s []).fetchInput ring0 (desc [])) = none) ∧
    meterRefuses (s.meter 28) (meterBoth (s.meter 28) (s.meter 0x10007) 100 10).1 = true := by
  refine ⟨⟨served_next _ desc_length _ rfl, ?_⟩, by decide +kernel⟩
  unfold State.submitCheck; rw [desc_crc]; decide +kernel

theorem wit_SubmitTakesOneDescriptor_admitted :
    ((subm served []).nextDesc 0 = some (ring0, 1, desc []) ∧
      ((subm served []).consume 0 ring0).submitCheck ring0 (desc []) ((subm served []).fetchInput ring0 (desc [])) = none) ∧
    meterRefuses (served.meter 28) (meterBoth (served.meter 28) (served.meter 0x10007) 100 10).1 = false ∧
    served.guardRed 7 0 = false ∧ descService (desc []) = 0 ∧
    ((subm served []).consume 0 ring0).pickSlot (((subm served []).consume 0 ring0).coreOf 0) = some 0 ∧
    ((subm served []).consume 0 ring0).staging 0 + 320 ≤ stagingLimit := by
  refine ⟨⟨served_next _ desc_length _ rfl, ?_⟩, by decide +kernel⟩
  unfold State.submitCheck; rw [desc_crc]; decide +kernel

/-- A CANCEL descriptor of subscriber 7 for tag 0x55, in ring 0. -/
def cancelDesc : List Byte := checked 256 [(4, 1, 1), (6, 2, 7), (0xC, 1, 1), (0x10, 8, 0x55)]

/-- A request of slot 0: a state of life and the fields of its descriptor. -/
def slot0 (x : Slot) : Slot := { x with desc := (rec0 256 descFlds), acceptNs := some 500000 }

/-- The module of `served` with one request in slot 0. -/
def held (x : Slot) : State := { served with req := { slots := [(0, slot0 x)] } }

/-- CANCEL of a tag that a DECODE request carries, and of a tag that none carries. -/
theorem wit_CancelMarksTheLiveRequest :
    (∀ s : State, s = held { state := .decode } ∨ s = served →
      (s.store .lpddr 0x1000 cancelDesc).nextDesc 0 = some (ring0, 1, cancelDesc)) ∧
    (descOp cancelDesc = 1 ∧ crcOk cancelDesc = true ∧ descVersion cancelDesc = 1 ∧ zeros cancelDesc 0xD 3 = true ∧
      descSub cancelDesc = ring0.bind) ∧
    ((held { state := .decode }).liveTag (descSub cancelDesc) (descTag cancelDesc) = some 0 ∧
      ((held { state := .decode }).slot 0).state = .decode) ∧
    served.liveTag (descSub cancelDesc) (descTag cancelDesc) = none := by
  have hl : cancelDesc.length = 256 := by rw [cancelDesc, checked, withCrc_length]; decide +kernel
  refine ⟨?_, ⟨by decide +kernel, checked_crc _ _, by decide +kernel, by decide +kernel, by decide +kernel⟩, by decide +kernel,
    by decide +kernel⟩
  rintro s (rfl | rfl)
  · exact served_next _ hl _ rfl
  · exact served_next _ hl _ rfl

/-- ADMIT_DURABLE with a new pair and with one taken by slot 9, FRONT_DURABLE of a service 0 and of a service 2 request, DONE_DURABLE. -/
theorem wit_DurableRecordsMoveARequestOn :
    (let s := held { state := .admitted };
      ((s.slot 0).state = .admitted ∧ (s.slot 0).admitDurable = false ∧ s.mayBeDurable 0 1 = true ∧
        s.compRing (descSub (s.slot 0).desc) = some 1) ∧
      s.dedupLookup (descSub (s.slot 0).desc) (descTag (s.slot 0).desc) = none ∧
      ({ s with req := { s.req with dedup := [{ sub := 7, tag := 0x55, slot := 9, acceptNs := 1 }] } } : State).dedupLookup
        (descSub (s.slot 0).desc) (descTag (s.slot 0).desc) = some (7, 9)) ∧
    (∀ v ∈ [0, 2], let s : State := { served with req := { slots := [(0, { slot0 { state := .front, frontJournaled := true, promptTokens := [1, 2] } with
        desc := rec0 256 (descFlds ++ [(8, 1, v)]) })] } };
      (s.slot 0).state = .front ∧ (s.slot 0).frontJournaled = true ∧ (s.slot 0).frontDurable = false ∧ s.mayBeDurable 0 2 = true ∧
        descService (s.slot 0).desc = v) ∧
    (let s := held { state := .draining };
      (s.slot 0).state = .draining ∧ (s.slot 0).doneDurable = false ∧ s.mayBeDurable 0 4 = true ∧
        s.compRing (descSub (s.slot 0).desc) = some 1 ∧ s.outPending 0 = false ∧ descService (s.slot 0).desc ≤ 1 ∧
        s.fenceOwed (s.slot 0) 1 = false) := by decide +kernel

/-- The journal records of an ended request at its 600 s and 1 ns before, and of a slot whose latest ADMIT record names the time; a pair
likewise, at its 600 s and 1 ns before. -/
theorem wit_JournalAndDedupAreKeptAsLongAsTheyMust :
    (let s (t : Nat) (x : Slot) : State := { held x with time := { boundNs := BitVec.ofNat 64 t } };
      (∀ t ∈ [600000499999, 600000500000], let u := s t { state := .done };
        (u.slot 0).live = false ∧ (u.slot 0).acceptNs.getD (u.admitTime 0) = 500000 ∧
        (500000 + 600000000000 ≤ u.nowNs ↔ t = 600000500000)) ∧
      (let u : State := { live with req := { slots := [(0, {})] }, time := { boundNs := 600000500000 } };
        (u.slot 0).live = false ∧ (u.slot 0).acceptNs = none ∧ u.admitTime 0 + 600000000000 ≤ u.nowNs)) ∧
    (let e : Dedup := { sub := 7, tag := 0x55, slot := 0, acceptNs := 500000 }
      let s (t : Nat) : State := { live with req := { slots := [(0, slot0 { state := .done })], dedup := [e] }, time := { boundNs := t } };
      (s 600000500000).dedupFind 7 (0x55 : Word64).toNat = some e ∧ ((s 600000500000).slot 0).live = false ∧
        e.acceptNs + 600000000000 ≤ (s 600000500000).nowNs ∧ (s 600000499999).dedupFind 7 (0x55 : Word64).toNat = some e ∧
        (s 600000499999).nowNs < e.acceptNs + 600000000000) := by decide +kernel

/-- A request in DECODE at its deadline, one stroke before, and at it within a stroke; a map of two records for a ring of two and one of
three. -/
theorem wit_DeadlineAndCitationMapTakeEffect :
    (let s (n us : Nat) : State := { live with
        req := { slots := [(0, { state := .decode, desc := rec0 256 [(0x30, 4, 4)], acceptNs := some 1, acceptStroke := 3 })] }
        time := { stroke := BitVec.ofNat 64 n, phaseUs := us } };
      (∀ e ∈ [(6, 0), (7, 0), (7, 1)], let x := (s e.1 e.2).slot 0;
        descDeadline x.desc ≠ 0 ∧ x.state = .decode ∧ x.acceptNs.isSome = true ∧ x.natural = none ∧
        ((s e.1 e.2).time.phaseUs = 0 ↔ e.2 = 0) ∧
        (x.acceptStroke + descDeadline x.desc ≤ (s e.1 e.2).strokeN + x.spent ↔ e.1 = 7))) ∧
    (let r : Ring := { kind := 6, base := 0x4000, bind := 7, log2 := 1 }
      let s (k : Nat) : State := { served with
        req := { slots := [(0, { desc := rec0 256 [(0x50, 4, 3)], mapPending := true, mapRecs := List.replicate k [] })] } };
      (∀ k ∈ [2, 3], ((s k).slot 0).mapPending = true ∧ ((s k).slot 0).mapRecs ≠ [] ∧ (s k).acceptPast ((s k).slot 0) 3 = true ∧
        Tbl.look (s k).nor.rings (descCit ((s k).slot 0).desc) = some r) ∧
      r.resv - r.cons + ((s 2).slot 0).mapRecs.length ≤ r.entries ∧
      r.entries < r.resv - r.cons + ((s 3).slot 0).mapRecs.length) := by decide +kernel

/-- A command message from the Pumphouse, its fields in range. -/
def msg (c : Nat) : CmdMsg := { cmd0 c with source := 3, serial := 1 }

/-- That message received in stroke 4 at a boundary of stroke 5. -/
def taking (s : State) (m : CmdMsg) : State :=
  { s with pad := { s.pad with recvd := [{ stroke := 4, msg := m }] }, time := { stroke := 5 } }

/-- The same message waiting for its re-plan boundary, which is this one with its staging complete. -/
def dueing (s : State) (m : CmdMsg) : State :=
  { s with pad := { s.pad with due := [{ stroke := 0, msg := m, key := 8 }] }, time := { stroke := 5 } }

/-- DRAIN of a RUNNING paddock, RESUME of a DRAINED one, SET_WHEEL with job 3 in the last entry of the host area; a command of the
Pumphouse that is not known yet. -/
theorem wit_PaddockStateAndWheelCommandsApply :
    (CmdTaken (taking served (msg 4)) (msg 4) 4 { stroke := 4, msg := msg 4 } ∧
      (((taking served (msg 4)).untaken { stroke := 4, msg := msg 4 }).paddock 0).state = .running) ∧
    (let s : State := taking { served with pad := { pads := [(0, { state := .drained })] } } (msg 5);
      CmdTaken s (msg 5) 5 { stroke := 4, msg := msg 5 } ∧ ((s.untaken { stroke := 4, msg := msg 5 }).paddock 0).state = .drained) ∧
    (let m : CmdMsg := { msg 3 with wheelLen := 1, wheelRef := 3840 * 1073741824 - 2 };
      let s : State := taking { served with cis := { served.cis with hostGib := 1 }, mem := [(3840 * 1073741824 - 2, 3)] } m;
      let u := s.untaken { stroke := 4, msg := m };
      CmdTaken s m 3 { stroke := 4, msg := m } ∧ u.inHost m.wheelRef (2 * m.wheelLen) = true ∧
      (∀ j ∈ u.wheelEntries m, (u.paddock m.paddock).jobs.contains j = true ∧ u.usesTillers j = true)) ∧
    (∀ c ∈ [1, 2, 3, 4, 5, 6, 7, 8], let m := msg c;
      m.source = 3 ∧ served.dueOf m = none ∧ (∀ r ∈ served.pad.recvd, r.msg ≠ m) ∧ served.isHeld m = false ∧ m.cmd = c) := by
  unfold CmdTaken; decide +kernel

/-- LOAD_JOB of a staged bulk plan and RESIZE of paddock 0 to Tillers 0 and 1, each taken and then due; REMOVE_JOB of job 3; a paddock that
loses its only job. -/
theorem wit_JobCommandsApply :
    (let s : State := { served with cis := { plans := [(4, { plan3 [(6, 1, 2)] with loaded := none })] }, pad := {} };
      let m : CmdMsg := { msg 1 with job := 4 };
      CmdTaken (taking s m) m 1 { stroke := 4, msg := m } ∧
      (let d : Due := { stroke := 0, msg := m, key := 8 }; let u := (dueing s m).undue d;
        CmdDue (dueing s m) m 1 d ∧ u.loadCheck m true = 0 ∧ u.plan m.job = some { plan3 [(6, 1, 2)] with loaded := none })) ∧
    (let m : CmdMsg := { msg 2 with job := 3 }; let s := taking served m; let u := s.untaken { stroke := 4, msg := m };
      CmdTaken s m 2 { stroke := 4, msg := m } ∧ u.plan m.job = some (plan3 []) ∧ (plan3 []).loaded = some m.paddock ∧
      ((u.clearJob m.paddock m.job).plan m.job).isSome = true) ∧
    (let s : State := { served with til := { tillers := [(0, { role := .inService }), (1, { role := .inService, pad := some 0 })] } };
      let m : CmdMsg := { msg 6 with tillers := 3, sprintSlots := 1 };
      CmdTaken (taking s m) m 6 { stroke := 4, msg := m } ∧
      (let d : Due := { stroke := 0, msg := m, key := 8 };
        CmdDue (dueing s m) m 6 d ∧ (((dueing s m).undue d).doResize m true).2.1 = 0)) ∧
    (let q : Paddock := { jobs := [3], occupant := 3 }; (q.without 3).jobs = [] ∧ q.occupant = 3) := by
  unfold CmdTaken CmdDue; decide +kernel

/-- RETIRE_TILLER of Tiller 5 with spare 67 and of the spare itself, taken and then due; READMIT_TILLER of the retired Tiller 67. -/
theorem wit_TillerCommandsApply :
    (let s : State := { served with til := { tillers := [(5, { role := .inService, pad := some 0 }), (67, { role := .spare })] } };
      ∀ x ∈ [5, 67], let m : CmdMsg := { msg 7 with tillers := 2 ^ x }; let d : Due := { stroke := 0, msg := m, key := 8 };
      let u := (dueing s m).undue d;
      maskTillers m.tillers = [x] ∧ CmdTaken (taking s m) m 7 { stroke := 4, msg := m } ∧ CmdDue (dueing s m) m 7 d ∧
        (x = 5 → (u.tiller x).role = .inService ∧ (u.tiller x).pad = some m.paddock ∧ u.nextSpare = some 67) ∧
        (x = 67 → (u.tiller x).role = .spare ∧ u.pad.promos = [])) ∧
    (let s : State := { served with til := { tillers := [(67, { role := .retired })] } };
      let m : CmdMsg := { msg 8 with tillers := 2 ^ 67 }; let u := (taking s m).untaken { stroke := 4, msg := m };
      maskTillers m.tillers = [67] ∧ CmdTaken (taking s m) m 8 { stroke := 4, msg := m } ∧ (u.tiller 67).role = .retired ∧
        u.returning 67 = false ∧ u.flt.permanent.contains 67 = false) := by
  unfold CmdTaken CmdDue; decide +kernel

/-- A fault of Tiller 67, a promotion one stroke old at a boundary, a halted paddock without one, a quarantine at its 20,000 strokes and
one stroke before, a spare, a re-plan at a boundary and within a stroke. -/
theorem wit_TillerFailureAndReturnRunTheirCourse :
    (let s : State := { served with til := { tillers := [(67, { role := .inService, pad := some 0 })] } };
      67 < 68 ∧ (s.tiller 67).role = .inService ∧ (s.tiller 67).pad = some 0 ∧ (∀ p ∈ s.pad.promos, p.failed ≠ 67)) ∧
    (let p : Promo := { failed := 1, spare := some 67, paddock := 0, detect := 4, transient := false };
      let s : State := { served with pad := { pads := [(0, { state := .halted })], promos := [p] }, time := { stroke := 5 } };
      s.time.phaseUs = 0 ∧ (∃ p ∈ s.pad.promos, p.paddock = 0) ∧ (∀ p ∈ s.pad.promos, p.paddock = 0 → p.detect < s.strokeN) ∧
      (s.paddock 0).state = .halted ∧ (s.paddock 0).noHost = false ∧
      (∀ p ∈ ({ s with pad := { s.pad with promos := [] } } : State).pad.promos, p.paddock ≠ 0)) ∧
    (let q : Quar := { tiller := 67, since := 1, cmd := none };
      ∀ n ∈ [20000, 20001], let s : State := { served with pad := { quars := [q] }, time := { stroke := BitVec.ofNat 64 n } };
      s.pad.quars.find? (fun y => decide (y.tiller = 67)) = some q ∧ (q.since + 20000 ≤ s.strokeN ↔ n = 20001)) ∧
    (let s : State := { served with til := { tillers := [(67, { role := .spare })] } };
      67 < 68 ∧ (s.tiller 67).role = .spare ∧ s.til.leaving.contains 67 = false) ∧
    (∀ us ∈ [0, 49], let s : State := { served with time := { phaseUs := us } }; s.time.phaseUs = 0 ↔ us = 0) := by
  decide +kernel

/-- A KV descriptor of R181 with share set. -/
def kvShared : List Byte := rec0 64 [(5, 1, 8)]

/-- PREFILL_COMPLETE with nothing to hold and with a pool that lacks the page, PARK, PAGE_WAIT_PARK at the 8th stroke, a marked request at
a boundary, SHARE_LOOKUP in PREFILL and in REPLAY, the grace time at its end and one stroke before. -/
theorem wit_RequestsMoveThroughPrefillDecodeAndParking :
    (let s := held { state := .prefill, tokDone := true };
      (s.slot 0).state = .prefill ∧ (s.slot 0).tokDone = true ∧ (s.kvd (descJob (s.slot 0).desc)).isEmpty = true) ∧
    (let s : State := { held { state := .prefill, tokDone := true, promptTokens := [1] } with
        cis := { plans := [(3, { plan3 [] with kvd := rec0 64 [] })] } };
      (s.slot 0).state = .prefill ∧ (s.slot 0).tokDone = true ∧ (s.kvd (descJob (s.slot 0).desc)).isEmpty = false ∧
      s.kvFits 0 ((s.slot 0).promptTokens.length - (s.slot 0).rows) = false) ∧
    (let s := held { state := .decode }; (s.slot 0).state = .decode ∧ s.wdl.readOnly = false) ∧
    (let s : State := { held { state := .decode, waitStrokes := 8 } with cis := { plans := [(3, plan3 [(6, 1, 2)])] } };
      s.plan 3 = some (plan3 [(6, 1, 2)]) ∧ (plan3 [(6, 1, 2)]).sprint = false ∧ s.wdl.readOnly = false ∧
      (∃ i ∈ s.slotsOf 3, 8 ≤ (s.slot i).waitStrokes) ∧ (∀ i ∈ s.slotsOf 3, (s.slot i).parkDue = false) ∧
      minBy (fun n => (16384 - s.ownPages (s.slot n)) * 32768 + (32767 - n))
        ((s.slotsOf 3).filter (fun n => decide ((s.slot n).state = .decode))) = some 0) ∧
    (let s := held { state := .decode, parkDue := true, waitStrokes := 8 };
      (s.slot 0).parkDue = true ∧ (s.slot 0).state = .decode ∧ (s.slot 0).natural = none ∧ (s.slot 0).removed = false ∧
      (s.slot 0).cancel = false ∧ s.deadlineDue (s.slot 0) = false ∧ s.wdl.readOnly = false) ∧
    (let s (x : Slot) : State := { held x with cis := { plans := [(3, { plan3 [] with kvd := kvShared })] } };
      (((s { state := .prefill }).slot 0).state = .prefill ∧
        kvShare ((s { state := .prefill }).kvd (descJob ((s { state := .prefill }).slot 0).desc)) = true ∧
        ((s { state := .prefill }).slot 0).kv = []) ∧
      (let x : Slot := { state := .replay, kv := [{ page := 0, fill := 1, shared := true, promptOnly := true }] };
        ((s x).slot 0).state = .replay ∧ kvShare ((s x).kvd (descJob ((s x).slot 0).desc)) = true ∧ ((s x).slot 0).kv ≠ [])) ∧
    (let s (n : Nat) : State := { held { state := .replay } with cis := {}, time := { stroke := BitVec.ofNat 64 n } };
      (∀ n ∈ [19999, 20000], (s n).boot.ready = true ∧ ((s n).slot 0).state = .replay ∧ (s n).restored ((s n).slot 0) = false) ∧
      (s 20000).boot.firstStroke + 20000 ≤ (s 20000).strokeN ∧ (s 19999).strokeN < (s 19999).boot.firstStroke + 20000) := by
  decide +kernel

/-- DECODE_STEP_END of job 3 whose request chose token 9, in a halted paddock, with no open sprint step and with one that closes at and
past 40 us; model-service jobs, none and one; the replays of REPLAY_CATCH_UP, a regenerated token that differs, and a job that runs
nowhere. -/
theorem wit_StepsEndAndReplayCatchesUp :
    (let p : Plan := { plan3 [] with batch := [0] };
      let s (st : PadState) (o : Option Nat) : State := { held { state := .decode, opened := [9] } with
        cis := { plans := [(3, p)] }, pad := { pads := [(0, { state := st, jobs := [3], stepOpen := o })] } };
      (∀ st ∈ [PadState.running, .halted], ∀ o ∈ [none, some 0], (s st o).job 3 = some p ∧ p.loaded.getD 0 = 0 ∧
        (((s st o).paddock 0).state = .halted ↔ st = .halted) ∧ p.sprint = true ∧
        (((s st o).slotsOf 3).filter (fun n => decide (((s st o).slot n).state = .decode) &&
          (p.batch.contains n || !((s st o).slot n).opened.isEmpty))) = [0] ∧
        ((((s st o).commitOpen 0).paddock 0).stepOpen = none ↔ o = none)) ∧
      (((s .running none).commitOpen 0).slot 0).natural = none) ∧
    live.cis.plans.filter (fun e => e.2.loaded.isSome && planKind e.2.hdr == 0) = [] ∧
    served.cis.plans.filter (fun e => e.2.loaded.isSome && planKind e.2.hdr == 0) = [(3, plan3 [])] ∧
    (let s (d : List (Nat × Nat × Nat)) (x : Slot) : State := { served with req := { slots := [(0, { x with
        state := .replay, tokDone := true, desc := rec0 256 (descFlds ++ d) })] } };
      (∀ d ∈ [[], [(8, 1, 2)]], ((s d {}).slot 0).state = .replay ∧ ((s d {}).replayPrompt 0).isSome = true) ∧
      1 < descService ((s [(8, 1, 2)] {}).slot 0).desc ∧
      (let t := s [] { history := [{ w := 1, quiet := 0, stepStart := true, token := 9 }] };
        (t.slot 0).state = .replay ∧ (t.replayPrompt 0).isSome = true ∧ descService (t.slot 0).desc ≤ 1 ∧
        t.jobRuns (descJob (t.slot 0).desc) = true ∧ (t.slot 0).history ≠ [] ∧
        ¬ ([[8]] : List (List Nat)).flatten.take (t.slot 0).history.length <+: (t.slot 0).history.map Hist.token ∧
        (t.slot 0).opened = [] ∧ (t.slot 0).natural = none) ∧
      (let t := s [] { suppress := 1 };
        (t.slot 0).state = .replay ∧ (t.replayPrompt 0).isSome = true ∧ descService (t.slot 0).desc ≤ 1 ∧
        t.jobRuns (descJob (t.slot 0).desc) = true ∧ (t.slot 0).history = [] ∧ 0 < (t.slot 0).suppress) ∧
      (let t : State := { s [] {} with pad := {} };
        (t.slot 0).state = .replay ∧ (t.replayPrompt 0).isSome = true ∧ descService (t.slot 0).desc ≤ 1 ∧
        t.jobRuns (descJob (t.slot 0).desc) = false)) := by
  decide +kernel

/-- A started module, one in the safe state, one whose ring takes another stroke number, one whose saved time is 50,000 ns on, a stroke
not yet cut and one cut already. -/
theorem wit_StrokeBoundaryAdvancesTime :
    (live.boot.started = true ∧ live.flt.safe = false ∧ live.rhz.pausing = false) ∧
    ({ live with flt := { safe := true } } : State).flt.safe = true ∧ live.zio.takeStroke = none ∧
    (let s : State := { live with zio := { takeStroke := some (2 ^ 64 - 1) } }; s.zio.takeStroke = some (2 ^ 64 - 1) ∧ 2 ^ 64 - 1 < 2 ^ 64) ∧
    live.time.resume = none ∧
    (let s : State := { live with time := { boundNs := 1000000, resume := some 1050000 } };
      s.time.resume = some 1050000 ∧ s.time.boundNs.toNat + 50000 ≤ (1050000 : Word64).toNat) ∧
    (live.boot.ready = true ∧ live.boot.shutting = false ∧ live.time.cut ≠ some live.strokeN) ∧
    (let s : State := { live with time := { cut := some 0 } }; s.time.cut = some s.strokeN) := by
  decide +kernel

/-- A Winnow descriptor of R211 with its CRC: one FP32 entry at 0x1000, output at 0x2000. -/
def wdesc (es : List (Nat × Nat × Nat)) : List Byte := checked 64 ([(8, 4, 1), (0xC, 2, 1), (0x10, 4, 0x1000), (0x20, 4, 0x2000)] ++ es)

theorem wdesc_length (es : List (Nat × Nat × Nat)) (h : (rec0 64 ([(8, 4, 1), (0xC, 2, 1), (0x10, 4, 0x1000), (0x20, 4, 0x2000)] ++ es)).length = 64) :
    (wdesc es).length = 64 := by
  rw [wdesc, checked, withCrc_length, List.length_drop, h]

/-- The module of `served` in whose Tiller 67 a Winnow list begins at 0x100 with a descriptor; job 3 holds its Tillers, the
request of slot 0 has grammar 2, whose state 0 has mask 5. -/
def winnow (cached : List (Nat × Nat)) (gr : Nat) (d : List Byte) (w : Option (Nat × Nat) := none) : State :=
  State.store { served with
    smp := [(67, { at_ := some 0x100, cache := cached, waiting := w })]
    til := { tillers := [(67, { role := .inService, pad := some 0 })] }
    pad := { pads := [(0, { state := .running, jobs := [3], occupant := 3 })] }
    cat := { grm := [(2, { bytes := rec0 160 [(0x30, 8, 128), (128 + 0xC, 4, 5)] })] }
    req := { slots := [(0, { state := .decode, desc := rec0 256 (descFlds ++ [(0x24, 4, gr)]) })] } } (.sram 67) 0x100 d

/-- The list's first descriptor waits for no counter, so it may start. -/
theorem winnow_next (c : List (Nat × Nat)) (g : Nat) (d : List Byte) (h : d.length = 64) (hw : bitAt (fld d 0x2C 4) 31 = false)
    (w : Option (Nat × Nat) := none) : (winnow c g d w).winNext 67 = some (0x100, d) := by
  have e : (winnow c g d w).sram 67 0x100 64 = d := by rw [← h]; exact load_store_same _ _ _ _
  unfold State.winNext
  rw [show ((winnow c g d w).win 67).at_ = some 0x100 from rfl]
  simp only [e, hw, Bool.false_and, Bool.false_eq_true, if_false]

/-- SELECT of one entry (its checks pass) and of none (code 3); SAMPLE of a free request, of one whose mask is cached and of one
whose mask is not; END; a mask on its way. -/
theorem wit_WinnowCommandsTakeEffect_select :
    (((winnow [] 0 (wdesc [])).winNext 67 = some (0x100, wdesc []) ∧ wdOp (wdesc []) ≠ 1 ∧ wdOp (wdesc []) ≠ 2) ∧
      (winnow [] 0 (wdesc [])).wdCheck 67 (wdesc []) = 0) ∧
    (((winnow [] 0 (wdesc [(8, 4, 0)])).winNext 67 = some (0x100, wdesc [(8, 4, 0)]) ∧ wdOp (wdesc [(8, 4, 0)]) ≠ 1 ∧
      wdOp (wdesc [(8, 4, 0)]) ≠ 2) ∧ (winnow [] 0 (wdesc [(8, 4, 0)])).wdCheck 67 (wdesc [(8, 4, 0)]) = 3) := by
  refine ⟨⟨⟨winnow_next _ _ _ (wdesc_length _ (by decide +kernel)) (by decide +kernel), by decide +kernel⟩, ?_⟩,
    ⟨winnow_next _ _ _ (wdesc_length _ (by decide +kernel)) (by decide +kernel), by decide +kernel⟩, ?_⟩ <;>
  · unfold State.wdCheck; rw [wdesc, checked_crc]; decide +kernel

theorem wit_WinnowCommandsTakeEffect_sample : let d := wdesc [(4, 1, 1), (8, 4, 1000)]
    (∀ s : State, s = winnow [] 0 d ∨ s = winnow [(2, 5)] 2 d ∨ s = winnow [] 2 d →
      s.winNext 67 = some (0x100, d) ∧ s.wdCheck 67 d = 0) ∧ wdOp d = 1 ∧
    (winnow [] 0 d).maskKey ((winnow [] 0 d).slot (wdSlot d)) (wdPos d) = none ∧
    ((winnow [(2, 5)] 2 d).maskKey ((winnow [(2, 5)] 2 d).slot (wdSlot d)) (wdPos d) = some (2, 5) ∧
      ((winnow [(2, 5)] 2 d).win 67).cache.contains (2, 5) = true) ∧
    ((winnow [] 2 d).maskKey ((winnow [] 2 d).slot (wdSlot d)) (wdPos d) = some (2, 5) ∧
      ((winnow [] 2 d).win 67).cache.contains (2, 5) = false ∧ ((winnow [] 2 d).win 67).waiting = none) := by
  refine ⟨?_, by decide +kernel⟩
  rintro s (rfl | rfl | rfl) <;>
  · refine ⟨winnow_next _ _ _ (wdesc_length _ (by decide +kernel)) (by decide +kernel), ?_⟩
    unfold State.wdCheck; rw [wdesc, checked_crc]; decide +kernel

/-- The same SAMPLE once it waits for its mask; one refused for its slot (code 6), and one for a count of 0 (code 3). -/
theorem wit_WinnowCommandsTakeEffect_refused :
    (let d := wdesc [(4, 1, 1), (8, 4, 1000)]; let s := winnow [] 2 d (some (2, 5));
      s.winNext 67 = some (0x100, d) ∧ s.wdCheck 67 d = 0 ∧ s.maskKey (s.slot (wdSlot d)) (wdPos d) = some (2, 5) ∧
      (s.win 67).cache.contains (2, 5) = false ∧ (s.win 67).waiting ≠ none) ∧
    (let d := wdesc [(4, 1, 1), (8, 4, 1000), (0xC, 2, 1), (0x28, 1, 0), (0x24, 4, 9)];
      (winnow [] 0 d).winNext 67 = some (0x100, d) ∧ wdOp d = 1 ∧ (winnow [] 0 d).wdCheck 67 d = 6) ∧
    (let d := wdesc [(4, 1, 1), (8, 4, 0)];
      (winnow [] 0 d).winNext 67 = some (0x100, d) ∧ wdOp d = 1 ∧ (winnow [] 0 d).wdCheck 67 d = 3) := by
  refine ⟨⟨winnow_next _ _ _ (wdesc_length _ (by decide +kernel)) (by decide +kernel) _, ?_, by decide +kernel⟩,
    ⟨winnow_next _ _ _ (wdesc_length _ (by decide +kernel)) (by decide +kernel), by decide +kernel, ?_⟩,
    ⟨winnow_next _ _ _ (wdesc_length _ (by decide +kernel)) (by decide +kernel), by decide +kernel, ?_⟩⟩
  all_goals unfold State.wdCheck; rw [wdesc, checked_crc]; decide +kernel

theorem wit_WinnowCommandsTakeEffect_end : 
    (let d := wdesc [(4, 1, 2)]; (winnow [] 0 d).winNext 67 = some (0x100, d) ∧ wdOp d = 2 ∧ (winnow [] 0 d).wdCheck 67 d = 0) ∧
    (let d := wdesc [(4, 1, 2), (7, 1, 1)]; (winnow [] 0 d).winNext 67 = some (0x100, d) ∧ wdOp d = 2 ∧ (winnow [] 0 d).wdCheck 67 d = 2) ∧
    (∀ w ∈ [none, some (2, 5)], let s : State := { live with smp := [(67, { fetching := [(2, 5)], waiting := w })] };
      (s.win 67).fetching = (2, 5) :: [] ∧ (s.win 67).waiting = w) := by
  refine ⟨⟨winnow_next _ _ _ (wdesc_length _ (by decide +kernel)) (by decide +kernel), by decide +kernel, ?_⟩,
    ⟨winnow_next _ _ _ (wdesc_length _ (by decide +kernel)) (by decide +kernel), by decide +kernel, ?_⟩, by decide +kernel⟩ <;>
  · unfold State.wdCheck; rw [wdesc, checked_crc]; decide +kernel

/-- An excluded token of a mask, by which an entry drops out of the ranking. -/
theorem wit_RankingKeepsTheRowInOrder : tokenAllowed (some [0x02]) 0 = false ∧ tokenAllowed (some [0x02]) 1 = true := by decide +kernel

theorem store_pageLive (s : State) (sp : Space) (a d p : Nat) (b : List Byte) (q : Requester) :
    (s.store sp a b).pageLive q d p = s.pageLive q d p := rfl
theorem store_cmdBusy (s : State) (sp : Space) (a d p o : Nat) (b : List Byte) : (s.store sp a b).cmdBusy d p o = s.cmdBusy d p o := rfl
theorem store_cmdAddr (s : State) (sp : Space) (a p : Nat) (b : List Byte) : (s.store sp a b).cmdAddr p = s.cmdAddr p := rfl

/-- The Pumphouse's write to a live page is taken. -/
theorem gate_pumphouse {s : State} {die page cls : Nat} (h : s.pageLive .pumphouse die page = true) :
    s.gate .pumphouse die page cls = (s, true) := by unfold State.gate; rw [h]; rfl

/-- A grammar of one token and one state: the token stays in the state. -/
def grmBody : List Byte :=
  (rec0 128 [(4, 4, 1), (8, 4, 1), (0xC, 4, 1), (0x10, 4, 1), (0x14, 4, 1), (0x18, 4, 1), (0x24, 4, 128), (0x28, 8, 128), (0x30, 8, 160),
    (0x38, 8, 192), (0x40, 8, 208), (0x48, 8, 336)]).drop 4 ++ rec0 208 [(36, 4, 1), (52, 4, 1), (80, 1, 1)]

theorem grm_tables : grmHdrOk (withCrc grmBody) = true ∧ grmTablesOk (withCrc grmBody) = true := by decide +kernel
theorem grm_masks : (grmMaskTails (withCrc grmBody) && (List.range 1).all (grmStateExact (withCrc grmBody))) = true := by decide +kernel

/-- The host's GiB of LPDDR ends the device space; a command page of the catalogue holds its address, and its result state. -/
def catal (page st : Nat) : State := { served with
  cis := { served.cis with hostGib := 1 }
  pg := { regs := [(regKey 120 page 0x100, 0xC0000000), (regKey 120 page 0x104, 0x3BF), (regKey 120 page 0x10C, BitVec.ofNat 32 (st * 2 ^ 28))] } }

/-- A grammar that passes every check, and an id of 0 that does not. -/
theorem wit_CatalogueCommandsTakeEffect_register :
    (let s := (catal 4 0).store .lpddr (3839 * 2 ^ 30) (withCrc grmBody);
      1 < 4096 ∧ s.gate .pumphouse 120 4 1 = (s, true) ∧ s.cmdBusy 120 4 0x10C = false ∧
      s.grmRegister 1 (s.cmdAddr 4) = (0, withCrc grmBody)) ∧
    (0 < 4096 ∧ (catal 4 0).gate .pumphouse 120 4 1 = (catal 4 0, true) ∧ (catal 4 0).cmdBusy 120 4 0x10C = false ∧
      (catal 4 0).grmRegister 0 ((catal 4 0).cmdAddr 4) = (2, [])) := by
  refine ⟨⟨by decide, gate_pumphouse (by decide +kernel), by decide +kernel, ?_⟩, by decide, gate_pumphouse (by decide +kernel),
    by decide +kernel⟩
  have hl : (withCrc grmBody).length = 336 := by rw [withCrc_length]; decide +kernel
  have hn : ∀ s : State, s.load .lpddr (3839 * 2 ^ 30) 128 = (s.load .lpddr (3839 * 2 ^ 30) 336).take 128 := fun s =>
    Memory.readBytes_take _ 128 208 _
  have hw : ((catal 4 0).store .lpddr (3839 * 2 ^ 30) (withCrc grmBody)).load .lpddr (3839 * 2 ^ 30) 336 = withCrc grmBody := by
    rw [← hl]; exact load_store_same _ _ _ _
  have hb : grmBytes ((withCrc grmBody).take 128) = 336 := by decide +kernel
  have hm : ((grmMaskTails (withCrc grmBody) && (List.range (grmStates (withCrc grmBody))).all (grmStateExact (withCrc grmBody)))) = true := by
    rw [show grmStates (withCrc grmBody) = 1 by decide +kernel]; exact grm_masks
  have hc : grmCheck (withCrc grmBody) = 0 := by
    unfold grmCheck
    rw [crcOk_withCrc, grm_tables.1, grm_tables.2, hm]
    decide +kernel
  rw [show ((catal 4 0).store .lpddr (3839 * 2 ^ 30) (withCrc grmBody)).cmdAddr 4 = 3839 * 2 ^ 30 by decide +kernel]
  unfold State.grmRegister
  rw [if_neg (by decide), show (Tbl.look ((catal 4 0).store .lpddr (3839 * 2 ^ 30) (withCrc grmBody)).cat.grm 1).isSome = false from rfl,
    if_neg (by decide), if_neg (by decide +kernel)]
  simp only [hn, hw, hb, hc]
  rw [if_neg (by decide +kernel), if_neg (by decide), if_neg ?_]
  rw [show ((catal 4 0).store .lpddr (3839 * 2 ^ 30) (withCrc grmBody)).cat.grm = [] from rfl]
  decide

/-- A free and a used grammar, tokenizer table and recipe; closed ones that nothing names and that a request still names; a command under
way on each page; a REGISTER of id 0. -/
theorem wit_CatalogueCommandsTakeEffect_unregister :
    let s (gr rc tk : Nat) : State := { catal 4 0 with
      cat := { grm := [(2, {})], tok := [(2, {})], rcp := [(2, {})] }
      cis := { plans := [(3, plan3 [(0x21, 1, tk)])] }
      req := { slots := [(0, slot0 { state := .decode }), (1, { state := .decode, desc := rec0 256 [(0x24, 4, gr), (0x20, 4, rc)] })] } };
    (∀ p ∈ [4, 5, 7], (s 0 0 0).pageLive .pumphouse 120 p = true ∧ (s 0 0 0).cmdBusy 120 p 0x10C = false) ∧
    (s 0 0 0).grammar 0 = none ∧ Tbl.look (s 0 0 0).cat.tok 0 = none ∧ (s 0 0 0).recipe 0 = none ∧
    (s 0 0 0).grammar 2 = some {} ∧ (s 0 0 0).grmUsed 2 = false ∧ (s 2 0 0).grammar 2 = some {} ∧ (s 2 0 0).grmUsed 2 = true ∧
    Tbl.look (s 0 0 0).cat.tok 2 = some {} ∧ (s 0 0 0).tokUsed 2 = false ∧ (s 0 0 2).tokUsed 2 = true ∧
    (s 0 0 0).recipe 2 = some {} ∧ (s 0 0 0).rcpUsed 2 = false ∧ (s 0 2 0).recipe 2 = some {} ∧ (s 0 2 0).rcpUsed 2 = true ∧
    (∀ n ∈ [0, 2], let t : State := { s n n 0 with cat := { grm := [(2, { closed := true })], rcp := [(2, { closed := true })] } };
      Tbl.look t.cat.grm 2 = some { closed := true } ∧ (t.grmUsed 2 = false ↔ n = 0) ∧
      Tbl.look t.cat.rcp 2 = some { closed := true } ∧ (t.rcpUsed 2 = false ↔ n = 0)) ∧
    (∀ p ∈ [4, 5, 7], ∀ r ∈ [1, 2], (catal p r).pageLive .pumphouse 120 p = true ∧ (catal p r).cmdBusy 120 p 0x10C = true) ∧
    (catal 5 0).tokRegister 0 0 = (2, []) ∧ (catal 7 0).rcpRegister 0 0 = (2, []) := by
  decide +kernel

/-- A disabled service meter, an enabled one beside a disabled aggregate, and a request that passes. -/
theorem wit_DisabledMetersColourAsStated :
    (meter1 false 256).enable = false ∧ ((meter1 true 0).enable = true ∧ (meter1 false 256).enable = false) ∧
    meterRefuses (meter1 true 256) (meterBoth (meter1 true 256) (meter1 false 0) 1 1).1 = false := by decide +kernel

/-- A full bucket and one of size 0, accumulators at their largest, enabled and disabled meters, a red colour. -/
theorem wit_RefillIsExactOverManyStrokes :
    (256 ≤ 256 ∧ 19999 < 20000) ∧ (0 ≤ 0 ∧ 0 < 20000) ∧ (meter1 true 256).enable = true ∧ (meter1 false 256).enable = false ∧
    (meterColour true false 0 0 0 1).1 = 2 := by decide +kernel

/-- A meter that holds one request and refills one token a second (20,000 strokes), empty; one that never refills. -/
theorem wit_RedWaitIsTheFewestStrokes :
    (let m : Meter := { w := [0x90000000, 1, 1, 1, 1, 0, 0, 0] };
      m.enable = true ∧ passesAfter m (meter1 false 0) 1 1 0 = false ∧ passesAfter m (meter1 false 0) 1 1 (2 ^ 48) = true ∧
        redWait m (meter1 false 0) false 1 1 < 0xFFFFFFFF) ∧
    passesAfter (meter1 true 0) (meter1 false 0) 1 1 (2 ^ 48) = false := by decide +kernel

/-- An egress queue of slice 3, port 3, service 3 with a record; the round robin at a burst of 512; empty queues; a calendar's microsecond
and the one that empties an overflow slot; the sampling strokes 1,024 and 1,025, halved and not; a telemetry ring with room, a full one, and
none. -/
theorem wit_TrafficCommandsTakeEffect :
    (let s : State := { served with tmg := { queues := [(63, [{ slot := 0, ring := 2, bytes := [1, 2], stroke := 0 }])], deficit := [(63, 2)],
                                             shapers := [(63, { w := [0, 1] })] } };
      [0, 2, 3, 1].find? (fun v => !((s.takeWeights 3).readyQueues 3 3 v).isEmpty) = some 3 ∧
      ((s.takeWeights 3).egressPick 3 3 3).isSome = true) ∧
    (∀ v < 4, (served.takeWeights 3).readyQueues 3 3 v = []) ∧
    (∀ q ∈ [63], 1 ≤ (1 : Nat) ∧ (512 : Nat) ≤ 512) ∧
    (1 = live.calUs 3 + 1 ∧ 1 % 4096 ≠ 0) ∧
    (let s : State := { live with tmg := { calUs := [(3, 4095)] } }; 4096 = s.calUs 3 + 1 ∧ 4096 % 4096 = 0) ∧
    (let s : State := { live with time := { stroke := 1024 } };
      s.strokeN % 1024 = 0 ∧ s.time.phaseUs = 0 ∧ s.cis.halvedAt ≠ s.strokeN + 1 ∧
      ({ s with cis := { halvedAt := 1025 } } : State).cis.halvedAt = s.strokeN + 1) ∧
    (({ live with time := { stroke := 1025 } } : State).strokeN % 1024 ≠ 0) ∧
    (∀ k ∈ [0, 1], let r : Ring := { kind := 7, recBytes := 64, base := 0x5000, bind := 3, log2 := 1, prod := 2 * k };
      let s : State := { live with nor := { rings := [(9, r)] }, pg := { regs := [(regKey 3 11 0x100, 9)] } };
      (s.reg 3 11 0x100).toNat = 9 ∧ Tbl.look s.nor.rings 9 = some r ∧ (r.hasRoom = true ↔ k = 0)) ∧
    (live.reg 3 11 0x100).toNat = 0 := by decide +kernel

/-- A TOKENISE descriptor of R245 with its CRC. -/
def qdesc (es : List (Nat × Nat × Nat)) : List Byte := checked 64 ([(4, 1, 1), (6, 1, 9)] ++ es)

/-- The module of `served` with a table 9 and lane 15's ring. -/
def quern (ds : List (List Byte)) : State := { served with cat := { tok := [(9, {})] }, qrn := { lanes := [(15, ds)] } }

/-- A descriptor that passes, one of version 0 (code 2), an empty ring, a last token to detokenise; a refused descriptor of a live request
that wants its tokens. -/
theorem wit_QuernCommandsTakeEffect :
    (let d := qdesc [(0x20, 4, 1)]; (quern [d]).lane 15 = [d] ∧ (quern []).qrnCheck d = 0 ∧
      Tbl.look (quern [d]).cat.tok (fld d 6 1) = some {}) ∧
    (let d := qdesc [(0x20, 4, 0)]; (quern [d]).lane 15 = [d] ∧ (quern []).qrnCheck d = 2) ∧ (quern []).lane 0 = [] ∧
    ((held { state := .decode, detok := [(4, 9, true)] }).slot 0).detok = (4, 9, true) :: [] ∧ (8 : Nat) ≠ 9 ∧
    (let s := held { state := .prefill }; (s.slot 0).live = true ∧ (s.slot 0).tokDone = false ∧ (s.slot 0).state ≠ .admitted ∧
      s.coreLive (s.coreOf (s.slot 0).core) = true) := by
  refine ⟨⟨rfl, ?_, by decide +kernel⟩, ⟨rfl, ?_⟩, rfl, by decide +kernel, by decide, by decide +kernel⟩ <;>
  · unfold State.qrnCheck; rw [qdesc, checked_crc]; decide +kernel

/-- A tile descriptor of R128 with its CRC: BF16 by BF16, one row, one column, 64 deep. -/
def tdesc (es : List (Nat × Nat × Nat)) : List Byte :=
  checked 64 ([(5, 1, 8), (6, 1, 8), (8, 1, 1), (9, 1, 1), (0xC, 4, 64), (0x14, 4, 64)] ++ es)

/-- An epilogue entry of R149 with its CRC: version 1, no stage, part_expected 1. -/
def edesc (es : List (Nat × Nat × Nat)) : List Byte := checked 128 ([(4, 1, 1), (0x50, 4, 1)] ++ es)

/-- The module whose Tiller 0 runs array 0's list at 0x100. -/
def tiller0 : State := { served with
    til := { tillers := [(0, { role := .inService, pad := some 0, lists := [(3 * 65536, 0x100)] })] }
    pad := { pads := [(0, { state := .running, tillers := [0], ranks := [some 0], jobs := [3], occupant := 3 })] } }

/-- That module with entry 0 of the epilogue table at 0 and a descriptor at 0x100 of the Tiller's SRAM. -/
def tile0 (s : State) (e d : List Byte) : State := (s.store (.sram 0) 0 e).store (.sram 0) 0x100 d

theorem nextSource_mem (s : State) (m : Memory) (t a : Nat) : ({ s with mem := m } : State).nextSource t a = s.nextSource t a := rfl

theorem tile0_next (s : State) (e d : List Byte) (h : d.length = 64) (hs : s.nextSource 0 0 = some (0, 0, 0))
    (hl : Tbl.look (s.tiller 0).lists (listKey (s.jobOn 0) 0 0) = some 0x100) :
    (tile0 s e d).nextDescOf 0 0 = some (0, 0, 0, 0x100, d) := by
  have w : (tile0 s e d).sram 0 0x100 64 = d := by rw [← h]; exact load_store_same _ _ _ _
  have n : (tile0 s e d).nextSource 0 0 = some (0, 0, 0) := hs
  have l : Tbl.look ((tile0 s e d).tiller 0).lists (listKey ((tile0 s e d).jobOn 0) 0 0) = some 0x100 := hl
  unfold State.nextDescOf
  simp only [n, l, w]

theorem tile0_entry (s : State) (e d : List Byte) (h : e.length = 128) (hr : s.reg 8 13 0x100 = 0) : (tile0 s e d).epiEntry 0 0 0 = e := by
  have w : (tile0 s e d).epiEntry 0 0 0 = Memory.readBytes (tile0 s e d).mem
      ((Space.sram 0).key ((s.reg 8 13 0x100).toNat % 0x20000000 + 128 * 0)) 128 := rfl
  rw [w, hr]
  refine (Memory.readBytes_writeBytes_other _ _ _ _ (Or.inl (by decide +kernel))).trans ?_
  rw [← h]
  exact Memory.readBytes_writeBytes _ _ _

theorem tdesc_length (es : List (Nat × Nat × Nat))
    (h : (rec0 64 ([(5, 1, 8), (6, 1, 8), (8, 1, 1), (9, 1, 1), (0xC, 4, 64), (0x14, 4, 64)] ++ es)).length = 64) :
    (tdesc es).length = 64 := by rw [tdesc, checked, withCrc_length, List.length_drop, h]

theorem edesc_length (es : List (Nat × Nat × Nat)) (h : (rec0 128 ([(4, 1, 1), (0x50, 4, 1)] ++ es)).length = 128) :
    (edesc es).length = 128 := by rw [edesc, checked, withCrc_length, List.length_drop, h]

/-- What TILE_PRODUCT, TILE_PREPASS and TILE_END ask of the state and the next descriptor. -/
theorem tile0_fetch (es : List (Nat × Nat × Nat)) (e : List Byte)
    (h : (rec0 64 ([(5, 1, 8), (6, 1, 8), (8, 1, 1), (9, 1, 1), (0xC, 4, 64), (0x14, 4, 64)] ++ es)).length = 64) :
    (tile0 tiller0 e (tdesc es)).mayFetch 0 0 = true ∧
    (tile0 tiller0 e (tdesc es)).nextDescOf 0 0 = some (0, 0, 0, 0x100, tdesc es) :=
  ⟨by rfl, tile0_next _ _ _ (tdesc_length _ h) (by decide +kernel) (by decide +kernel)⟩

/-- TILE_PRODUCT: a descriptor and an entry that pass, one that need not wait and one that must; a descriptor of 65 rows (code 4);
an entry of version 2 (code 2). -/
theorem wit_ArrayCommandsRunTheirDescriptor_product :
    (∀ es ∈ [[], [(0x34, 4, 2 ^ 31 + 5), (0x38, 4, 1)]], let s := tile0 tiller0 (edesc []) (tdesc es);
      (s.mayFetch 0 0 = true ∧ s.nextDescOf 0 0 = some (0, 0, 0, 0x100, tdesc es)) ∧ tdOp (tdesc es) = 0 ∧
      s.epiEntry 0 0 (tdEpi (tdesc es)) = edesc [] ∧ tdCheck (tdesc es) 0 (((s.tiller 0).runner 0).isNone) = 0 ∧
      edCheck (edesc []) (tdesc es) = 0 ∧
      (s.tookDesc 0 0 0 0 0 0x100).mustWait (tdWait (tdesc es)) (tdWaitV (tdesc es)) = !es.isEmpty) ∧
    (let s := tile0 tiller0 (edesc []) (tdesc [(8, 1, 65)]);
      (s.mayFetch 0 0 = true ∧ s.nextDescOf 0 0 = some (0, 0, 0, 0x100, tdesc [(8, 1, 65)])) ∧
      s.epiEntry 0 0 (tdEpi (tdesc [(8, 1, 65)])) = edesc [] ∧
      tdCheck (tdesc [(8, 1, 65)]) 0 (((s.tiller 0).runner 0).isNone) = 4 ∧ edCheck (edesc []) (tdesc [(8, 1, 65)]) = 0) ∧
    (let s := tile0 tiller0 (edesc [(4, 1, 2)]) (tdesc []);
      (s.mayFetch 0 0 = true ∧ s.nextDescOf 0 0 = some (0, 0, 0, 0x100, tdesc [])) ∧
      s.epiEntry 0 0 (tdEpi (tdesc [])) = edesc [(4, 1, 2)] ∧ tdCheck (tdesc []) 0 (((s.tiller 0).runner 0).isNone) = 0 ∧
      edCheck (edesc [(4, 1, 2)]) (tdesc []) = 2 ∧
      (s.tookDesc 0 0 0 0 0 0x100).mustWait (tdWait (tdesc [])) (tdWaitV (tdesc [])) = false) := by
  have ee : ∀ (e : List Byte) (es : List (Nat × Nat × Nat)), e.length = 128 → tdEpi (tdesc es) = 0 →
      (tile0 tiller0 e (tdesc es)).epiEntry 0 0 (tdEpi (tdesc es)) = e := fun e es h k => by
    rw [k]; exact tile0_entry _ _ _ h (by decide +kernel)
  have tc : ∀ es : List (Nat × Nat × Nat), crcOk (tdesc es) = true := fun es => checked_crc _ _
  have ec : ∀ es : List (Nat × Nat × Nat), crcOk (edesc es) = true := fun es => checked_crc _ _
  refine ⟨?_, ?_, ?_⟩
  · intro es hes
    rcases List.mem_cons.1 hes with rfl | hes
    · refine ⟨tile0_fetch _ _ (by decide +kernel), by decide +kernel, ee _ _ (edesc_length _ (by decide +kernel)) (by decide +kernel), ?_, ?_,
        by decide +kernel⟩
      · unfold tdCheck; rw [tc]; decide +kernel
      · unfold edCheck; rw [ec]; decide +kernel
    · obtain rfl := List.mem_singleton.1 hes
      refine ⟨tile0_fetch _ _ (by decide +kernel), by decide +kernel, ee _ _ (edesc_length _ (by decide +kernel)) (by decide +kernel), ?_, ?_,
        by decide +kernel⟩
      · unfold tdCheck; rw [tc]; decide +kernel
      · unfold edCheck; rw [ec]; decide +kernel
  · refine ⟨tile0_fetch _ _ (by decide +kernel), ee _ _ (edesc_length _ (by decide +kernel)) (by decide +kernel), ?_, ?_⟩
    · unfold tdCheck; rw [tc]; decide +kernel
    · unfold edCheck; rw [ec]; decide +kernel
  · refine ⟨tile0_fetch _ _ (by decide +kernel), ee _ _ (edesc_length _ (by decide +kernel)) (by decide +kernel), ?_, ?_, by decide +kernel⟩
    · unfold tdCheck; rw [tc]; decide +kernel
    · unfold edCheck; rw [ec]; decide +kernel

/-- TILE_PREPASS of FP8 rows, waiting and not, and a refused one of 65 rows (code 4); TILE_END, and a refused one (code 2); a second pass
of a tile that the present job began, in its array and left over from a pre-emption; a NaN tile of an array with free shadow registers. -/
theorem wit_ArrayCommandsRunTheirDescriptor_other :
    (∀ es ∈ [[(4, 1, 1), (5, 1, 0), (6, 1, 0)], [(4, 1, 1), (5, 1, 0), (6, 1, 0), (0x34, 4, 2 ^ 31 + 5), (0x38, 4, 1)],
        [(4, 1, 1), (5, 1, 0), (6, 1, 0), (8, 1, 65), (9, 1, 1), (9, 1, 1), (9, 1, 1)]],
      let s := tile0 tiller0 (edesc []) (tdesc es);
      (s.mayFetch 0 0 = true ∧ s.nextDescOf 0 0 = some (0, 0, 0, 0x100, tdesc es)) ∧ tdOp (tdesc es) = 1 ∧
      tdCheck (tdesc es) 0 (((s.tiller 0).runner 0).isNone) = (if es.length = 7 then 4 else 0) ∧
      (s.tookDesc 0 0 0 0 0 0x100).mustWait (tdWait (tdesc es)) (tdWaitV (tdesc es)) = decide (es.length = 5)) ∧
    (∀ es ∈ [[(4, 1, 2)], [(4, 1, 2), (7, 1, 8)]], let s := tile0 tiller0 (edesc []) (tdesc es);
      (s.mayFetch 0 0 = true ∧ s.nextDescOf 0 0 = some (0, 0, 0, 0x100, tdesc es)) ∧ tdOp (tdesc es) = 2 ∧
      (tdCheck (tdesc es) 0 false = 0 ↔ es.length = 1)) ∧
    (let x : Tile := { addr := 0, desc := [], epi := [], nan := false, silent := false, job := 3 };
      (let s : State := { tiller0 with til := { tillers := [(0, { role := .inService, pad := some 0, arrays := [(95, { state := 4, tile := some x })] })] } };
        ((s.tiller 0).array 95).tile = some x ∧ ((s.tiller 0).array 95).state = 4 ∧ x.full = false ∧ x.job = s.jobOn 0 ∧
        ((s.tiller 0).array 95).shadow = none) ∧
      (let s : State := { tiller0 with til := { tillers := [(0, { role := .inService, pad := some 0, rests := [(3 * 65536 + 95, x)] })] } };
        ((s.tiller 0).array 95).tile = none ∧ ((s.tiller 0).array 95).state ≤ 1 ∧ s.restOf 0 95 = some (95, x) ∧
        ((s.tiller 0).array 95).shadow = none) ∧
      ({ x with nan := true } : Tile).nan = true ∧ ((tiller0.tiller 0).array 95).shadow = none) := by
  refine ⟨?_, ?_, by decide +kernel⟩
  · intro es hes
    refine ⟨tile0_fetch _ _ (by revert es; decide +kernel), by revert es; decide +kernel, ?_, by revert es; decide +kernel⟩
    unfold tdCheck; rw [tdesc, checked_crc]; revert es; decide +kernel
  · intro es hes
    refine ⟨tile0_fetch _ _ (by revert es; decide +kernel), by revert es; decide +kernel, ?_⟩
    unfold tdCheck; rw [tdesc, checked_crc]; revert es; decide +kernel

/-- A tile of an entry, and the module whose Tiller 67 has it in the shadow registers of array 95, next in order of readiness, and the
given chain 11. -/
def shadowed (x : Tile) (c : Chain) : State := { served with
  til := { tillers := [(67, { role := .inService, arrays := [(95, { shadow := some x })], chains := [(11, { c with order := [95] })] })] } }

/-- A tile whose entry names a partial and a gate mode. -/
def tileOf (e : List Byte) (nan : Bool) : Tile := { addr := 0, desc := [], epi := e, nan := nan, silent := false, job := 3 }

/-- TILE_DRAIN at once, deferred as the 4th, and not taken as the 5th; an array whose turn it is not; a drain that stands ready, a deferred
one whose gate came, the Tiller's own contribution and those of another's, an ADD whose counter is reached. -/
theorem wit_ChainCommandsDrainTiles :
    (∀ e ∈ [rec0 128 [], rec0 128 [(5, 1, 0x80)]], let x := tileOf e true; let s := shadowed x {};
      ((s.tiller 67).chain 11).order.find? (fun b => s.drainable 67 11 b) = some 95 ∧ ((s.tiller 67).array 95).shadow = some x ∧
      s.mustDefer 67 11 x = false) ∧
    (∀ k ∈ [3, 4], let x := tileOf (rec0 128 [(5, 1, 0x20)]) false; let s := shadowed x { deferred := List.replicate k 0 };
      ((s.tiller 67).array 95).shadow = some x ∧ s.mustDefer 67 11 x = true ∧ edPartial x.epi ≠ 2 ∧
      (((s.tiller 67).chain 11).order.find? (fun b => s.drainable 67 11 b) = some 95 ↔ k = 3) ∧ (4 ≤ s.heldItems 67 11 ↔ k = 4)) ∧
    (let x := tileOf (rec0 128 []) true; let s := shadowed x {};
      ((s.tiller 67).chain (94 / 8)).order.find? (fun b => s.drainable 67 (94 / 8) b) ≠ some 94) ∧
    (let c : Chain := { ready := [tileOf [] true] }; (((shadowed (tileOf [] true) c).tiller 67).chain 11).ready = tileOf [] true :: []) ∧
    (let x := tileOf (rec0 128 [(5, 1, 0x20)]) false; let c : Chain := { deferred := [95], tags := [(0, 0)] }; let s := shadowed x c;
      ((s.tiller 67).chain 11).deferred = [] ++ 95 :: [] ∧ ((s.tiller 67).array 95).shadow = some x ∧ s.mustDefer 67 11 x = false) ∧
    (∀ e ∈ [(false, 0), (true, 2 ^ 31), (true, 0)], let c : Contrib := { addr := 0, words := [(0, 0)], ctr := e.2, remote := e.1 };
      let s : State := { served with til := { tillers := [(67, { adder := [c] })] } };
      (s.tiller 67).adder = c :: [] ∧ c.remote = e.1 ∧ (bitAt c.ctr 31 = true ↔ e.2 ≠ 0)) ∧
    (let x := tileOf (rec0 128 [(0x4C, 4, 2 ^ 31 + 6), (0x50, 4, 1)]) false;
      let s : State := { shadowed x { finishes := [x] } with nor := { ctrs := [(6, 1)] } };
      (((s.tiller 67).chain 11).prompt ++ ((s.tiller 67).chain 11).finishes).find? (s.finishReady 67 11) = some x) := by
  decide +kernel

/-- The largest and the least sum that a partial word holds, and a buffer word that is empty or one's own. -/
theorem wit_ExactSumsDoNotDependOnOrder :
    (let a : Acc := { acc := 2 ^ 111 - 1, anchor := 511 }; -2 ^ 111 ≤ a.acc ∧ a.acc < 2 ^ 111 ∧ -512 ≤ a.anchor ∧ a.anchor < 512) ∧
    (let l : List Acc := [{ acc := -2 ^ 111, anchor := -512 }, { acc := 1, anchor := -512 }];
      (-512 : Int) ≤ -512 ∧ (-512 : Int) < 512 ∧ (∀ a ∈ l, a.anchor = -512 ∧ -2 ^ 111 ≤ a.acc ∧ a.acc < 2 ^ 111) ∧
      (2 ^ 127 = 2 ^ 127 ∨ ∃ a : Acc, 2 ^ 127 = a.word ∧ a.anchor = -512 ∧ -2 ^ 111 ≤ a.acc ∧ a.acc < 2 ^ 111)) := by
  refine ⟨by decide, by decide, by decide, by decide, Or.inl rfl⟩

/-- A packet of a kind on its channel to site 71. -/
def pkt (k v : Nat) : Packet := { pkt0 with kind := k, vc := v, dst := 71 }

/-- Packets of every kind with a proper header; an ADVANCE, its absence; counter operations, a WAIT met and not; a misaligned address and
a wrong channel; a dead destination; a link of its path that is down. -/
theorem wit_FabricPacketsTakeEffectOnArrival :
    (∀ p ∈ [pkt 0 0, { pkt 0 2 with tail := true, advEn := true }, pkt 1 0, pkt 2 1, pkt 3 3, pkt 5 1, pkt 6 0, pkt 7 1],
      packetHeaderOk p = true ∧ live.neverLeaves p = false ∧ (live.takePacket p).isSome = true) ∧
    ((pkt 0 0).tail && (pkt 0 0).advEn) = false ∧ packetTarget (pkt 1 0) = some (.sram 67, sramBytes) ∧
    (∀ op ∈ [0, 1, 2], let p := { pkt 4 0 with units := 1, advCtr := 131071, payload := leBytes 16 op };
      packetHeaderOk p = true ∧ live.neverLeaves p = false ∧ (live.takePacket p).isSome = true ∧ fld p.payload 0 4 = op ∧
      live.ctrMet p.advCtr (fld p.payload 4 4) = true) ∧
    (let p := { pkt 4 0 with units := 1, payload := rec0 16 [(0, 4, 2), (4, 4, 1)] };
      fld p.payload 0 4 = 2 ∧ live.ctrMet p.advCtr (fld p.payload 4 4) = false) ∧
    (packetHeaderOk { pkt 0 0 with addr := 1 } = false ∧ live.neverLeaves { pkt 0 0 with addr := 1 } = false) ∧
    (packetHeaderOk { pkt 0 0 with vc := 1 } = false ∧ live.neverLeaves { pkt 0 0 with vc := 1 } = false) ∧
    ({ live with rhz := { dead := [71] } } : State).neverLeaves (pkt 0 0) = true ∧
    (let s : State := { live with rhz := { down := [0, 1, 2, 3] } };
      packetHeaderOk (pkt 0 0) = true ∧ s.neverLeaves (pkt 0 0) = false ∧ s.takePacket (pkt 0 0) = none) := by decide +kernel

/-- A link with 8 retries and with 9; routers that pause, empty and with a packet on its way; failed routers of a Wellhead, and of Tillers
in service, spare and retired. -/
theorem wit_LinksAndRoutesFollowTheirFaults :
    (neighbour 70 1 = some 71 ∧ live.routerLive 70 = true ∧ live.rhz.down.contains (70 * 4 + 1) = false ∧ 8 ≤ 8 ∧ 8 < 9) ∧
    (let s : State := { live with rhz := { found := [31], pausing := true } }; s.rhz.pausing = true ∧ s.rhz.flight = []) ∧
    (let s : State := { live with rhz := { pausing := true, flight := [pkt 0 0], down := [2] } };
      s.rhz.pausing = true ∧ ∀ p ∈ s.rhz.flight, s.stuckAt p ≠ none) ∧
    (let s : State := { live with rhz := { pausing := true, flight := [pkt 0 0] } }; ∃ p ∈ s.rhz.flight, s.stuckAt p = none) ∧
    live.rhz.pausing = false ∧
    (live.routerLive 31 = true ∧ live.rhz.found.contains 31 = false ∧ siteDie 31 < 8) ∧
    (∀ r ∈ [Role.inService, .spare, .unknown, .retired], let s : State := { live with til := { tillers := [(67, { role := r })] } };
      s.rhz.found.contains 71 = false ∧ 8 ≤ siteDie 71 ∧ (s.tiller (siteDie 71 - 8)).role = r ∧
      (s.routerLive 71 = true ↔ r ≠ .retired)) := by
  decide +kernel

/-- A table descriptor of R253 with its CRC: BF16, read-only, one row of 16 bytes, job 3, zeros by default. -/
def sdescr (es : List (Nat × Nat × Nat)) : List Byte :=
  checked 64 ([(4, 1, 1), (5, 1, 8), (7, 1, 1), (8, 8, 1), (0x10, 4, 16), (0x14, 2, 3)] ++ es)

theorem sdescr_length (es : List (Nat × Nat × Nat))
    (h : (rec0 64 ([(4, 1, 1), (5, 1, 8), (7, 1, 1), (8, 8, 1), (0x10, 4, 16), (0x14, 2, 3)] ++ es)).length = 64) :
    (sdescr es).length = 64 := by rw [sdescr, checked, withCrc_length, List.length_drop, h]

/-- The edits that make it an SGD table: FP32, period 2, learning rate 1, feedback ring 5. -/
def sgd : List (Nat × Nat × Nat) := [(5, 1, 10), (6, 1, 1), (0x16, 2, 2), (0x30, 4, 0x3F800000), (0x38, 4, 2 ^ 31 + 5)]

/-- The module with a table 63 and a table command's descriptor in the host area. -/
def sheafed (x : ShfTable) (d : List Byte) : State :=
  ({ catal 6 0 with shf := { tables := [(63, x)] } } : State).store .lpddr (3839 * 2 ^ 30) d

theorem sheafed_desc (x : ShfTable) (es : List (Nat × Nat × Nat)) (hl : (sdescr es).length = 64) (hd : tableOk (sdescr es) = true)
    (hj : stJob (sdescr es) = 3) : (sheafed x (sdescr es)).tableDesc ((sheafed x (sdescr es)).cmdAddr 6) = (0, sdescr es) := by
  have ha : (sheafed x (sdescr es)).cmdAddr 6 = 3839 * 2 ^ 30 := by
    show ((catal 6 0).reg 120 6 0x100).toNat + ((catal 6 0).reg 120 6 0x104).toNat % 65536 * 4294967296 = _
    decide +kernel
  have hm : (sheafed x (sdescr es)).load .lpddr (3839 * 2 ^ 30) 64 = sdescr es := by rw [← hl]; exact load_store_same _ _ _ _
  have hk : ((sheafed x (sdescr es)).job 3).isNone = false := by show ((catal 6 0).job 3).isNone = false; decide +kernel
  have hi : (sheafed x (sdescr es)).inHost (3839 * 2 ^ 30) 64 = true := by show (catal 6 0).inHost (3839 * 2 ^ 30) 64 = true; decide +kernel
  unfold State.tableDesc
  rw [ha, if_neg (by rw [hi]; decide)]
  simp only [hm, hd, hj, hk, show crcOk (sdescr es) = true from checked_crc _ _]
  rfl

/-- SET of a free id, CLEAR, AMEND of a read-only and of an SGD table. -/
theorem wit_SheafTableCommandsTakeEffect_set :
    (let s := sheafed {} (sdescr []); 63 < 64 ∧ s.gate .pumphouse 120 6 1 = (s, true) ∧ s.cmdBusy 120 6 0x10C = false ∧
      s.tableDesc (s.cmdAddr 6) = (0, sdescr []) ∧ s.table 62 = none) ∧
    (let s : State := { sheafed {} [] with cis := {} }; s.pageLive .pumphouse 120 6 = true ∧ s.cmdBusy 120 6 0x10C = false ∧ s.table 63 = some {} ∧
      s.cis.plans.any (fun e => e.2.loaded.isSome && decide (e.1 ≠ stJob ({} : ShfTable).desc) && Config.planNamesTable e.2.image 63) =
        false) ∧
    (∀ es ∈ [[], sgd], let s := sheafed { desc := sdescr es } (sdescr es);
      s.pageLive .pumphouse 120 6 = true ∧ s.cmdBusy 120 6 0x10C = false ∧ s.table 63 = some { desc := sdescr es } ∧
      s.tableDesc (s.cmdAddr 6) = (0, sdescr es) ∧ amendSame (sdescr es) (sdescr es) = true ∧ (stRule (sdescr es) = 0 ↔ es = [])) := by
  refine ⟨⟨by decide, gate_pumphouse (by rfl), by rfl, sheafed_desc _ _ (sdescr_length _ (by decide +kernel)) (by decide +kernel) (by decide +kernel),
    by rfl⟩, ⟨by rfl, by rfl, by rfl, by rfl⟩, ?_⟩
  intro es hes
  rcases List.mem_cons.1 hes with rfl | hes
  · exact ⟨by rfl, by rfl, by rfl, sheafed_desc _ _ (sdescr_length _ (by decide +kernel)) (by decide +kernel) (by decide +kernel), by decide +kernel, by decide +kernel⟩
  · obtain rfl := List.mem_singleton.1 hes
    exact ⟨by rfl, by rfl, by rfl, sheafed_desc _ _ (sdescr_length _ (by decide +kernel)) (by decide +kernel) (by decide +kernel), by decide +kernel, by decide +kernel⟩

/-- A feedback event of R263 with its CRC: table 63, serial 1, row 0, an inline gradient. -/
def sevent (es : List (Nat × Nat × Nat)) : List Byte := checked 64 ([(4, 1, 1), (5, 1, 1), (6, 1, 63), (8, 8, 1)] ++ es)

/-- The feedback ring of table 63 with one event. -/
def ring5 : Ring := { kind := 8, base := 0x5000, bind := 63, prod := 1 }

/-- The module with that ring. -/
def fed (e : List Byte) : State := State.store { served with
  nor := { rings := [(5, ring5)] }, shf := { tables := [(63, { desc := sdescr sgd })] } } .lpddr 0x5000 e

/-- An event that is taken and one of a serial already seen; an apply boundary of stroke 2 met for the first and the second time; a
merge buffer one short of full and full. -/
theorem wit_SheafTableCommandsTakeEffect_events :
    (∀ es ∈ [[], [(8, 8, 0)]], let s := fed (sevent es); let x : ShfTable := { desc := sdescr sgd };
      s.table 63 = some x ∧ 5 = fld x.desc 0x38 4 % 0x20000 ∧ Tbl.look s.nor.rings 5 = some ring5 ∧ bitAt (fld x.desc 0x38 4) 31 = true ∧
      ring5.kind = 8 ∧ ring5.bind = 63 ∧ ring5.cons < ring5.prod ∧ sevent es = s.load .lpddr (ring5.addr ring5.cons) 64 ∧
      s.eventOk 63 x (sevent es) = es.isEmpty ∧ s.mergeFill (s.tableWh 63) < 65536) ∧
    (∀ a ∈ [none, some 2], let x : ShfTable := { desc := sdescr sgd, applied := a };
      let s : State := { served with shf := { tables := [(63, x)] }, time := { stroke := 2 } };
      s.table 63 = some x ∧ stRule x.desc ≠ 0 ∧ s.strokeN % stPeriod x.desc = 0 ∧ (x.applied ≠ some s.strokeN ↔ a = none)) ∧
    (∀ n ∈ [65535, 65536], ∃ s : State, s.mergeFill 3 = n) := by
  have hl : ∀ es ∈ [[], [(8, 8, 0)]], (sevent es).length = 64 := by
    intro es hes; rw [sevent, checked, withCrc_length]; revert es; decide +kernel
  have hr : ∀ es ∈ [[], [(8, 8, 0)]], (fed (sevent es)).load .lpddr (ring5.addr ring5.cons) 64 = sevent es := by
    intro es hes; rw [← hl es hes]; exact load_store_same _ _ _ _
  have hc : ∀ es, crcOk (sevent es) = true := fun es => checked_crc _ _
  refine ⟨?_, by decide +kernel, fun n _ => ⟨{ served with shf := { entries := List.replicate n (63 * 2 ^ 36, {}) } }, ?_⟩⟩
  · intro es hes
    refine ⟨by rfl, by decide +kernel, by rfl, by decide +kernel, by decide, by decide, by decide, (hr es hes).symm, ?_, by show (0 : Nat) < 65536; decide⟩
    unfold State.eventOk; rw [hc]; revert es; decide +kernel
  · unfold State.mergeFill
    rw [List.filter_eq_self.2 (fun x hx => by rw [(List.mem_replicate.1 hx).2]; show decide (served.tableWh 63 = 3) = true; decide +kernel),
      List.length_replicate]

/-- A Sheaf descriptor of R258 with its CRC: one row of table 63 in BF16. -/
def sheafDesc (es : List (Nat × Nat × Nat)) : List Byte := checked 64 ([(5, 1, 63), (6, 1, 8), (8, 4, 1), (0x28, 4, 16)] ++ es)

/-- A region of one page at address 0 (R329). -/
def region0 : Region :=
  { va := 0, pages := 1, place := 0, backing := 0, rank := 0, flags := 0, sramAddr := 0, srcId := 0, srcOff := 0 }

/-- Wellhead 3 with the read-only table 63, job 3's bag offsets 0 and 1 at its address 0, and the stroke of its latest batch list. -/
def gathering (b : Nat) : State := { served with
  shf := { tables := [(63, { desc := sdescr [] })], batch := [(3, b)] }, time := { stroke := 2 },
  cis := { plans := [(3, { plan3 [] with regions := [region0] })], ptes := [(3 * 2 ^ 32, { valid := true, tier := 2 })] },
  mem := [(4, 1)] }

/-- GATHER, GATHER_SUM, SCATTER and PREFETCH of one row whose checks pass, the last before and after its batch began; each with a
count of 0 (code 5); END, and one with a reserved byte set (code 2). -/
theorem wit_SheafDescriptorsRun :
    (∀ es ∈ [[], [(4, 1, 1), (0xC, 4, 1)], [(4, 1, 2)], [(4, 1, 3)]], ∀ b ∈ [1, 2],
      (gathering b).sheafNext 3 (sheafDesc es) = some (0, sheafDesc es) ∧ (gathering b).sdCheck 3 (sheafDesc es) = 0 ∧
      (((gathering b).sheafTook 3 0 (sheafDesc es)).table (sdTable (sheafDesc es))).isSome = true ∧
      Tbl.look ((gathering b).sheafTook 3 0 (sheafDesc es)).shf.batch 3 = some b ∧
      ((gathering b).sheafTook 3 0 (sheafDesc es)).strokeN = 2) ∧
    [[], [(4, 1, 1)], [(4, 1, 2)], [(4, 1, 3)], [(4, 1, 4)]].map (fun es => sdOp (sheafDesc es)) = [0, 1, 2, 3, 4] ∧
    (∀ es ∈ [[(8, 4, 0)], [(4, 1, 1), (8, 4, 0)], [(4, 1, 2), (8, 4, 0)], [(4, 1, 3), (8, 4, 0)]],
      (gathering 1).sheafNext 3 (sheafDesc es) = some (0, sheafDesc es) ∧ (gathering 1).sdCheck 3 (sheafDesc es) = 5) ∧
    (∀ es ∈ [[(4, 1, 4)], [(4, 1, 4), (7, 1, 1)]], (gathering 1).sheafNext 3 (sheafDesc es) = some (0, sheafDesc es) ∧
      ((gathering 1).sdCheck 0 (sheafDesc es) = 0 ↔ es.length = 1)) := by
  have hc : ∀ es, crcOk (sheafDesc es) = true := fun es => checked_crc _ _
  have hn : ∀ (b : Nat) (es : List (Nat × Nat × Nat)), ((rec0 64 ([(5, 1, 63), (6, 1, 8), (8, 4, 1), (0x28, 4, 16)] ++ es)).drop 4).length + 4 = 64 →
      bitAt (fld (sheafDesc es) 0x2C 4) 31 = false → (gathering b).sheafNext 3 (sheafDesc es) = some (0, sheafDesc es) := by
    intro b es h h'
    unfold State.sheafNext
    rw [if_neg (by decide), if_pos ⟨by rw [sheafDesc, checked, withCrc_length, h], by decide⟩]
    simp only [Option.bind_some, h', Bool.false_and, Bool.false_eq_true, if_false]
  refine ⟨?_, by decide +kernel, ?_, ?_⟩
  · intro es hes b hb
    refine ⟨hn _ _ (by revert es; decide +kernel) (by revert es; decide +kernel), ?_, by revert es b; decide +kernel, by revert es b; decide +kernel,
      by revert es b; decide +kernel⟩
    unfold State.sdCheck; rw [hc]; revert es b; decide +kernel
  · intro es hes
    refine ⟨hn _ _ (by revert es; decide +kernel) (by revert es; decide +kernel), ?_⟩
    unfold State.sdCheck; rw [hc]; revert es; decide +kernel
  · intro es hes
    refine ⟨hn _ _ (by revert es; decide +kernel) (by revert es; decide +kernel), ?_⟩
    unfold State.sdCheck; rw [hc]; revert es; decide +kernel

/-- A recipe image that names encoder 4 and reranker 5, which reranks one, and packs one passage. -/
def recipe9 : List Byte := rec0 128 [(0xA, 2, 4), (0xE, 2, 5), (0x13, 1, 1), (0x16, 2, 1), (0x1C, 1, 1), (0x32, 2, 1)]

/-- The module with recipe 9, loaded jobs whose batch holds slot 0, and a generation slot 0 of index job 6. -/
def fronted (x : Slot) : State := { served with
  cat := { rcp := [(9, { bytes := recipe9 })] }
  cis := { plans := [(4, { plan3 [] with batch := [0] }), (5, { plan3 [] with batch := [0] }), (6, plan3 [(5, 1, 1)])] }
  pad := { pads := [(0, { state := .running, jobs := [4, 5, 6], sounder := 1 })] }
  idx := { gens := [(0, { state := .active, extents := true, hdr := rec0 256 [(0xA, 2, 6), (0xC, 2, 32)] })] }
  req := { slots := [(0, { x with state := .front, desc := rec0 256 [(5, 1, 1), (8, 1, 1), (0x20, 4, 9)], genSlot := some 0 })] } }

/-- A candidate of one token. -/
def cand1 : Cand := { pid := 1, score := 0, tokens := [7] }

/-- FRONT_ENCODE of a text question and of a pixel tensor that fails, SEARCH_CALL with a slot free and, for service 3, behind another call,
FRONT_CANDIDATES, FRONT_RERANK, FRONT_PACK after the re-ranker and of service 3, each at its stage. -/
theorem wit_FrontStagesFollowOneAnother :
    (∀ x ∈ [({ tokDone := true } : Slot), { frontStage := 2 }, { frontStage := 3, search := some 0 }, { frontStage := 4, cands := [cand1] }, { frontStage := 5, cands := [cand1] }],
      ((fronted x).slot 0).state = .front ∧ (fronted x).rcpOf ((fronted x).slot 0) = recipe9) ∧
    (let s := fronted { tokDone := true }; let x := s.slot 0;
      x.frontStage = 0 ∧ x.tokDone = true ∧ descService x.desc ≤ 2 ∧ descKind x.desc ≠ 3 ∧ s.inBatch (encJob x recipe9) 0 = true ∧
      (List.replicate 32 (0 : Byte)).length = s.pinDim x) ∧
    (let s := fronted { tokDone := true }; let s : State := { s with req := { slots := [(0, { s.slot 0 with desc := rec0 256 [(5, 1, 3), (8, 1, 1), (0x20, 4, 9)] })] } };
      (s.slot 0).state = .front ∧ s.rcpOf (s.slot 0) = recipe9 ∧ descKind (s.slot 0).desc = 3 ∧ s.imageOk (s.slot 0) recipe9 = false) ∧
    (let s := fronted { frontStage := 2 };
      (s.slot 0).frontStage = 2 ∧ (s.slot 0).genSlot = some 0 ∧ (s.gen 0).extents = true ∧ s.idx.waiting.contains 0 = false ∧
      s.idx.waiting = [] ∧ s.genPad 0 = some 0 ∧ (0 < s.searchSlots ∧ s.search (8192 * slotWh 0 + 0) = none) ∧
      s.sounderUse 0 < (s.paddock 0).sounder) ∧
    (let s : State := { fronted { frontStage := 2 } with idx := { (fronted {}).idx with waiting := [9] } };
      (s.slot 0).frontStage = 2 ∧ (s.slot 0).genSlot = some 0 ∧ (s.gen 0).extents = true ∧ s.idx.waiting.contains 0 = false) ∧
    (let q : Search := { state := .done };
      let s : State := { fronted { frontStage := 3, search := some 0 } with idx := { (fronted {}).idx with searches := [(0, q)] } };
      (s.slot 0).frontStage = 3 ∧ descService (s.slot 0).desc ≤ 2 ∧ s.searchDone (s.slot 0) = some (0, q) ∧
      (let t : State := { s with req := { slots := [(0, { s.slot 0 with desc := rec0 256 [(5, 1, 1), (8, 1, 3), (0x20, 4, 9)] })] } };
        (t.slot 0).state = .front ∧ t.rcpOf (t.slot 0) = recipe9 ∧ (t.slot 0).frontJournaled = false ∧
        descService (t.slot 0).desc = 3 ∧ (t.slot 0).frontStage = 3 ∧ t.searchDone (t.slot 0) = some (0, q))) ∧
    (let s := fronted { frontStage := 4, cands := [cand1] };
      (s.slot 0).frontStage = 4 ∧ rcpReranker recipe9 ≠ 0 ∧ s.inBatch (rcpReranker recipe9) 0 = true) ∧
    (let s := fronted { frontStage := 5, cands := [cand1] };
      (s.slot 0).frontJournaled = false ∧ descService (s.slot 0).desc ≠ 3 ∧ (s.slot 0).frontStage = 5) := by
  decide +kernel

/-- A passage that fits exactly, and a limit of one passage a document. -/
theorem wit_PackerStaysWithinItsBudget : packGo recipe9 [cand1, cand1] [] 1 = ([(cand1, 1)], false) ∧ 0 < fld recipe9 0x1C 1 := by
  decide +kernel

/-- A search in slot 8192 × 3, queued or walking. -/
def searching (q : Search) (x : Slot) : State := { fronted x with idx := { (fronted {}).idx with searches := [(24576, q)] } }

/-- SEARCH_BUILD of the oldest call, SEARCH_ROUND with its reads answered and with one open, NODE_READ of the first read at its plane, of the
second, and of the first while an erase runs, HUB_WINDOW_CLOSE at a free plane and at one with a read, SEARCH_ABORT while its request is in
FRONT and after it, queued, walking, ending and done. -/
theorem wit_SearchCommandsWalkTheGraph :
    (let s := searching {} {}; s.search 24576 = some {} ∧ ({} : Search).state = .queued ∧
      (∀ e ∈ s.idx.searches, s.searchWh e.1 = s.searchWh 24576 → e.2.state = .queued → ({} : Search).order ≤ e.2.order) ∧
      s.tableFree (s.searchWh 24576) (genM (s.gen ({} : Search).gen).hdr) = true) ∧
    (∀ b ∈ [true, false], let q : Search := { state := .walk, picks := [{ node := 0, hub := none, answered := b }] };
      (searching q {}).search 24576 = some q ∧ q.state = .walk ∧ q.picks.all (fun p => p.answered) = b) ∧
    (let r (j : Nat) : NRead := { well := 31, search := 24576, pick := j, plane := 31 * 128 };
      ∀ e ∈ [(0, false), (1, false), (0, true)],
        let s : State := { live with idx := { nreads := [r 0, r 1] }, wdl := { planes := [(31 * 128, { erases := [1], running := e.2 })] } };
        s.idx.nreads.find? (fun x => decide (x.search = 24576) && decide (x.pick = e.1)) = some (r e.1) ∧
        ((s.planeReads (r e.1).plane).head? = some (r e.1) ↔ e.1 = 0) ∧ ((s.plane (r e.1).plane).held = true ↔ e.2 = true)) ∧
    (∀ n ∈ [0, 1], let h : NRead := { well := 31, search := 24576, pick := 2, hubPage := some 5, plane := 31 * 128 };
      let s : State := { live with idx := { nreads := h :: List.replicate n { h with hubPage := none } } };
      (s.idx.nreads.filter (fun r => decide (r.well = 31) && decide (r.hubPage = some 5))).take 256 = h :: [] ∧
      (s.planeServes h.plane = true ↔ n = 0)) ∧
    ((live.idx.nreads.filter (fun r => decide (r.well = 31) && decide (r.hubPage = some 5))).take 256 = []) ∧
    (let s := searching {} { search := some 24576 }; s.search 24576 = some {} ∧ (s.slot 0).state = .front ∧ (s.slot 0).search = some 24576) ∧
    (∀ st ∈ [SearchState.queued, .walk, .abort, .done], let q : Search := { state := st };
      let s : State := { searching q {} with req := {} }; s.search 24576 = some q ∧ (s.slot q.slot).state ≠ .front) := by decide +kernel

/-- A walk that has seen nothing. -/
theorem wit_WalkStaysWithinItsBounds : ({} : Search).seen.length ≤ 32768 ∧ ({} : Search).seen.Nodup ∧
    ({} : Search).res.length ≤ ({} : Search).out ∧ ({ reads := 4096 } : Search).reads ≤ 4096 := by decide

/-- A generation header of R292 with its CRC: one node, one hub, which is the entry; dimension 32 in 32 parts; its tables in the
host area. -/
def ghdr : List Byte := checked 256 [(4, 1, 1), (6, 1, 5), (8, 2, 1), (0xA, 2, 6), (0xC, 2, 32), (0xE, 1, 1), (0xF, 1, 1), (0x10, 8, 1),
  (0x18, 4, 1), (0x1C, 1, 32), (0x28, 8, 3839 * 2 ^ 30 + 0x10000), (0x30, 8, 3839 * 2 ^ 30), (0x40, 8, 2 ^ 63), (0x48, 120, 2 ^ 960 - 1)]

/-- The module with index job 6, generation slot 3 and an index command at 3,839 GiB. -/
def indexed (x : GenSlot) : State := { catal 8 0 with
  cis := { hostGib := 1, plans := [(6, plan3 [(5, 1, 1)])] }, idx := { gens := [(3, x)] } }

theorem store_indexJob (s : State) (sp : Space) (a j : Nat) (b : List Byte) : (s.store sp a b).indexJob j = s.indexJob j := rfl
theorem indexed_addr (x : GenSlot) : (indexed x).cmdAddr 8 = 3839 * 2 ^ 30 := by
  have h : (catal 8 0).cmdAddr 8 = 3839 * 2 ^ 30 := by decide +kernel
  exact h
theorem indexed_job (x : GenSlot) : (indexed x).indexJob 6 = true := by
  have h : (indexed {}).indexJob 6 = true := by decide +kernel
  exact h
theorem ghdr_crc : crcOk ghdr = true := checked_crc _ _

/-- INDEX_OPEN of a header that passes every check; INDEX_SEAL in a false state and of a slot that lost a Well; INDEX_DISCARD. -/
theorem wit_IndexCommandsMoveGenerationSlots_open :
    (let s := (indexed {}).store .lpddr (3839 * 2 ^ 30) ghdr; 3 < 4 ∧ s.gate .pumphouse 120 8 1 = (s, true) ∧ s.cmdBusy 120 8 0x10C = false ∧
      s.openCheck 3 (s.cmdAddr 8) = 0) ∧
    (indexed {}).pageLive .pumphouse 120 8 = true ∧ (indexed {}).cmdBusy 120 8 0x10C = false ∧ ((indexed {}).gen 3).state ≠ .loading ∧
    (let s := indexed { state := .loading, lost := true }; (s.gen 3).state = .loading ∧ (s.gen 3).lost = true) ∧
    (let s := indexed { state := .retiring }; (s.gen 3).state = .retiring ∧ s.genPins 3 = 0) := by
  refine ⟨⟨by decide, gate_pumphouse (by rfl), by rfl, ?_⟩, by decide +kernel⟩
  have hl : ghdr.length = 256 := by rw [ghdr, checked, withCrc_length]; decide +kernel
  have ha : ((indexed {}).store .lpddr (3839 * 2 ^ 30) ghdr).cmdAddr 8 = 3839 * 2 ^ 30 := by
    rw [store_cmdAddr, indexed_addr]
  have hm : ((indexed {}).store .lpddr (3839 * 2 ^ 30) ghdr).load .lpddr (3839 * 2 ^ 30) 256 = ghdr := by
    rw [← hl]; exact load_store_same _ _ _ _
  unfold State.openCheck
  simp only [ha, hm, ghdr_crc]
  decide +kernel

/-- INDEX_SEAL of a complete slot whose two groups lie in good blocks of Wells 0 and 1. -/
theorem wit_IndexCommandsMoveGenerationSlots_seal :
    (let x : GenSlot := { state := .loading, hdr := ghdr, ordNext := 1, hubNext := 1 };
      let s : State := { indexed x with
        wdl := { wells := [(0, { state := 2 }), (1, { state := 2 })] }
        mem := [(3839 * 2 ^ 30 + 64 + 3, 0x80), (3839 * 2 ^ 30 + 72 + 3, 0x80), (3839 * 2 ^ 30 + 76 + 3, 0x80)] };
      (s.gen 3).state = .loading ∧ (s.gen 3).lost = false ∧ (s.gen 3).ordNext = (genGroups (s.gen 3).hdr).1 ∧
      (s.gen 3).hubNext = (genGroups (s.gen 3).hdr).2.1 ∧ (s.gen 3).passNext = (genGroups (s.gen 3).hdr).2.2 ∧
      s.groupsGood (s.gen 3).hdr = true) := by
  decide +kernel

/-- The PQ header of R299 with its CRC that belongs to `ghdr`, and its extent table of R297. -/
def gpq : List Byte := checked 64 [(4, 1, 1), (5, 1, 32), (6, 2, 1), (8, 8, 1), (0x20, 2, 1)]
def gext : List Byte := checked 80 [(4, 1, 1), (5, 1, 3), (6, 2, 1), (8, 4, 1), (0xC, 4, 1), (0x14, 4, 9)]

/-- The module with both in the host area. -/
def tabled (x : GenSlot) : State :=
  ((indexed x).store .lpddr (3839 * 2 ^ 30) gext).store .lpddr (3839 * 2 ^ 30 + 0x10000) gpq

theorem tabled_pq (x : GenSlot) : (tabled x).pqOk ghdr = true := by
  have hl : gpq.length = 64 := by rw [gpq, checked, withCrc_length]; decide +kernel
  have hm : (tabled x).load .lpddr (genPq ghdr) 64 = gpq := by
    rw [show genPq ghdr = 3839 * 2 ^ 30 + 0x10000 by decide +kernel, ← hl]; exact load_store_same _ _ _ _
  unfold State.pqOk
  simp only [hm, show crcOk gpq = true from checked_crc _ _]
  decide +kernel

theorem tabled_ext (x : GenSlot) (hx : x.hdr = ghdr) (hs : x.serial = 9) : (tabled x).extOk 3 x (3839 * 2 ^ 30) = true := by
  have hl : gext.length = 80 := by rw [gext, checked, withCrc_length]; decide +kernel
  have hn : extBytes ghdr = 80 := by decide +kernel
  have hm : (tabled x).load .lpddr (3839 * 2 ^ 30) 80 = gext := by
    rw [tabled, load_store_other _ _ _ _ (by decide), ← hl]; exact load_store_same _ _ _ _
  unfold State.extOk
  simp only [hx, hs, hn, hm, show crcOk gext = true from checked_crc _ _]
  decide +kernel

/-- INDEX_ACTIVATE of a SEALED slot whose extents are loaded and INDEX_LOAD of one whose extents are not; an activation that waits
with another slot of its job ACTIVE; a slot that frees once nothing pins it, and one that a request pins. -/
theorem wit_IndexCommandsMoveGenerationSlots_activate :
    (let x : GenSlot := { state := .sealed, extents := true, hdr := ghdr }; let s := tabled x;
      s.gen 3 = x ∧ s.gate .pumphouse 120 8 1 = (s, true) ∧ s.cmdBusy 120 8 0x10C = false ∧ s.indexJob (genJob x.hdr) = true ∧
      s.pqOk x.hdr = true) ∧
    (let x : GenSlot := { state := .sealed, hdr := ghdr, serial := 9 }; let s := tabled x;
      s.gen 3 = x ∧ s.cmdAddr 8 % 4096 = 0 ∧ s.inHost (s.cmdAddr 8) (extBytes x.hdr) = true ∧ s.extOk 3 x (s.cmdAddr 8) = true ∧
      s.pqOk x.hdr = true) ∧
    (let s : State := { live with idx := { gens := [(2, { state := .active, hdr := rec0 256 [(0xA, 2, 6)] }), (3, { state := .sealed, pend := true, hdr := rec0 256 [(0xA, 2, 6)] })] } };
      3 < 4 ∧ (s.gen 3).pend = true ∧ (s.gen 2).state = .active ∧ genJob (s.gen 2).hdr = genJob (s.gen 3).hdr) ∧
    (∀ st ∈ [0, 2], let s : State := { live with
        idx := { gens := [(3, { state := .freeing })] }, pg := { regs := [(regKey 120 8 0x10C, BitVec.ofNat 32 (st * 2 ^ 28 + 3))] } };
      (s.gen 3).state = .freeing ∧ s.genPins 3 = 0 ∧ ((s.freeGen 3).cmdState 120 8 0x10C = 2 ↔ st = 2) ∧
      ((s.freeGen 3).reg 120 8 0x10C).toNat % 4 = 3) ∧
    (let s : State := { fronted {} with idx := { gens := [(0, { state := .retiring })] } };
      (s.gen 0).state = .retiring ∧ (s.gen 0).state ≠ .freeing ∧ s.genPins 0 ≠ 0) := by
  have ha : ∀ x : GenSlot, (tabled x).cmdAddr 8 = 3839 * 2 ^ 30 := fun x => by
    rw [tabled, store_cmdAddr, store_cmdAddr, indexed_addr]
  refine ⟨⟨by rfl, gate_pumphouse (by rfl), by rfl, ?_, tabled_pq _⟩, ⟨by rfl, by rw [ha]; decide, ?_, by rw [ha]; exact tabled_ext _ rfl rfl,
    tabled_pq _⟩, by decide +kernel⟩
  · rw [show genJob ({ state := .sealed, extents := true, hdr := ghdr } : GenSlot).hdr = 6 by decide +kernel, tabled, store_indexJob,
      store_indexJob, indexed_job]
  · rw [ha, show extBytes ({ state := .sealed, hdr := ghdr, serial := 9 } : GenSlot).hdr = 80 by decide +kernel]; decide +kernel

/-- PLAN_STAGE of job 0 (code 2); UNSTAGE of a plan not loaded and of a loaded one; FLUSH outside read-only and in it. -/
theorem wit_PlanAndTierCommandsTakeEffect_plans :
    (1023 < 1024 ∧ (catal 9 0).pageLive .pumphouse 120 9 = true ∧ (catal 9 0).cmdBusy 120 9 0x10C = false ∧
      (catal 9 0).stageCheck 0 ((catal 9 0).cmdAddr 9) = (2, {})) ∧
    ((catal 9 0).plan 3 = some (plan3 []) ∧ (plan3 []).loaded.isSome = true ∧ (catal 9 0).wdl.readOnly = false) ∧
    (let s : State := { catal 9 0 with cis := { plans := [(1023, {})] } }; s.plan 1023 = some {} ∧ ({} : Plan).loaded = none) ∧
    (let s : State := { catal 9 0 with wdl := { readOnly := true } }; s.plan 3 = some (plan3 []) ∧ s.wdl.readOnly = true) := by
  decide +kernel

/-- CIS_HOST of 16, of 3,840 and of 15 GiB with no job loaded, and with one loaded. -/
theorem wit_PlanAndTierCommandsTakeEffect_host :
    live.pageLive .pumphouse 120 9 = true ∧ live.noJobs = true ∧ 16 ≤ (16 : Word).toNat % 4096 ∧ (3840 : Word).toNat % 4096 ≤ 3840 ∧
    (15 : Word).toNat % 4096 < 16 ∧ 3840 < (3841 : Word).toNat % 4096 ∧ served.noJobs = false := by
  decide +kernel

/-- Job 3 with a region of one page whose entry is given. -/
def paged (e : Pte) (ms : List Move) : State := { served with
  cis := { plans := [(3, { plan3 [] with regions := [region0] })], ptes := [(3 * 2 ^ 32, e)], moves := ms } }

/-- MOVE_COMPLETE of a page that waits on the Windlass, moving and no longer, of the most urgent of the others, of a less urgent one, and
after 512 in the stroke; FLASH_PAGE_READ of a page of the flash tier with a backing and of an image page, at planes that serve it and that do
not. -/
theorem wit_PlanAndTierCommandsTakeEffect_pages :
    (∀ b ∈ [true, false], ∀ t ∈ [2, 3], let m : Move := { job := 3, vpn := 0, tier := 2, tiller := 0, kind := 1 };
      let s := paged { valid := true, tier := t, moving := b } [m];
      s.moveOf 3 0 = some m ∧ Tbl.val 0 s.cis.ranMoves 3 < 512 ∧
      (s.fromFlash m = true ∨ minBy (fun m => m.kind) (s.cis.moves.filter (fun x => decide (x.job % 4 = 3) && !s.fromFlash x)) = some m) ∧
      s.pte 3 0 = some { valid := true, tier := t, moving := b }) ∧
    (let m (v k : Nat) : Move := { job := 3, vpn := v, tier := 2, tiller := 0, kind := k }; let s := paged { valid := true, tier := 2 } [m 0 1, m 1 0];
      s.moveOf 3 0 = some (m 0 1) ∧ s.fromFlash (m 0 1) = false ∧
      minBy (fun m => m.kind) (s.cis.moves.filter (fun x => decide (x.job % 4 = 3) && !s.fromFlash x)) ≠ some (m 0 1) ∧
      512 ≤ Tbl.val 0 ({ s with cis := { s.cis with ranMoves := [(3, 512)] } } : State).cis.ranMoves 3) ∧
    (∀ b ∈ [0, 5], let e : Pte := { valid := true, tier := 3, backing := b }; let s := paged e [];
      s.pte 3 (65535 / tierPage) = some e ∧ e.tier = 3 ∧ e.valid = true ∧ e.backing = b ∧
      s.planesServe (s.flashLps 3 0 65535 1) = true) := by
  decide +kernel

/-- The module with a block (the last of Well 31), its plane's queue, and journal records. -/
def blocked (b : Block) (js : List JRec) (q : PlaneQ := {}) : State := { live with
  req := { journal := js }
  wdl := { mounted := true, wells := [(31, { state := 2 })], blocks := [(67108863, b)], planes := [(4095, q)] } }

/-- The loc of that block. -/
def loc31 : Nat := 2 ^ 31 + 67108863 * 32

/-- ERASE_INTENT of a RELEASED block and of a HALF_ERASED one, ERASE_ISSUE of either with its intent, of a strict journal too,
ERASE_COMPLETE while it erases, waits, and is suspended, and a block without an intent. -/
theorem wit_EraseGoesThroughItsIntentRecord :
    (∀ st ∈ [BlkState.released, .halfErased], let s := blocked { state := st } [];
      (s.block (locBlk loc31)).state = st ∧ (s.block (locBlk loc31)).intent = none ∧ s.wellWh (blkWell (locBlk loc31)) = s.whOf 3) ∧
    (∀ st ∈ [BlkState.released, .halfErased], ∀ p ∈ [false, true], let n := 3 * 72057594037927936 + 5;
      let s := blocked { state := st, intent := some n } [{ wh := 3, typ := 6, slot := 0, jserial := 5, bytes := [], programmed := p }];
      (s.block (locBlk loc31)).intent = some n ∧ (s.block (locBlk loc31)).state = st ∧
      ({ s with wdl := { s.wdl with mounted := false } } : State).strictJournal (n / 72057594037927936) = false ∧
      ((∀ r ∈ s.req.journal, r.isIntent n = true → r.programmed = true) ↔ p = true) ∧ s.dieUp (blkDie (locBlk loc31)) = true) ∧
    (∀ q ∈ [({ erases := [67108863], running := true } : PlaneQ), { erases := [67108863] }, { erases := [67108863], running := true, suspended := true }, { erases := [7, 67108863], running := true }],
      let s := blocked { state := .erasing, intent := some 7 } [] q;
      (s.block (locBlk loc31)).intent = some 7 ∧ (s.block (locBlk loc31)).state = .erasing ∧ s.dieUp (blkDie (locBlk loc31)) = true ∧
      s.plane (blkPlane (locBlk loc31)) = q ∧ (q.erases.head? = some (locBlk loc31) ↔ q.erases.length = 1)) ∧
    ((blocked {} []).block (locBlk loc31)).intent = none := by decide +kernel

/-- A block to verify whose page 3 was not used, partitions that reclaim nothing (not mapped, and half taken) and one that
reclaims, an open block whose program fails, and the entry of read-only. -/
theorem wit_BlocksAreKeptAndStateIsSaved_blocks :
    (∀ p ∈ [2, 3], let s := blocked { state := .verify, used := 3, part := p } []; (s.block (locBlk loc31)).state = .verify ∧
      [3].filter (fun p => p < (s.block (locBlk loc31)).used) = [] ∧ [2].filter (fun p => p < (s.block (locBlk loc31)).used) ≠ [] ∧
      (s.block (locBlk loc31)).part = p) ∧
    (3 ≠ 2 ∧ 3 ≠ 5) ∧
    (let s := blocked {} []; 32 * s.partBlocks 5 31 ≤ 50 * (32 * s.partBlocks 5 31 - s.partTaken 5 31)) ∧
    (let s : State := { blocked {} [] with wdl := { (blocked {} []).wdl with
        layout := { spill := 1 }, blocks := (List.range 32).map (fun i => (65011712 + i, ({ state := .sealed, part := 5 } : Block))), map := [(9, 1)] } };
      s.wellUp 31 = true ∧ 50 * (32 * s.partBlocks 5 31 - s.partTaken 5 31) < 32 * s.partBlocks 5 31 ∧
      (minBy (fun k => (s.keysIn k).length) ((s.wdl.blocks.filter (fun e => decide (blkWell e.1 = 31) &&
        decide (e.2.part = 5) && decide (e.2.state = .sealed))).map Prod.fst)).isSome = true) ∧
    (∀ p ∈ [2, 3, 4], let s := blocked { state := .opened, part := p } []; (s.block (locBlk loc31)).state = .opened ∧
      (s.block (locBlk loc31)).part = p ∧ s.dieUp (blkDie (locBlk loc31)) = true) ∧
    (let s := blocked { state := .erasing, intent := some 7 } [] { erases := [67108863], running := true };
      (s.block (locBlk loc31)).state = .erasing ∧ s.eraseRuns (locBlk loc31) = true ∧ s.dieUp (blkDie (locBlk loc31)) = true ∧
      (s.block (locBlk loc31)).intent = some 7) ∧
    (∀ d ∈ [true, false], let s : State := { live with wdl := { roDue := d } };
      s.wdl.roDue = d ∧ (s.well 31).spare = 0 ∧ s.wdl.readOnly = false) := by
  decide +kernel

/-- HOLDUP_FLUSH of a mounted module at its 30 ms and of one not mounted; a checkpoint due and one stroke early. -/
theorem wit_BlocksAreKeptAndStateIsSaved_saved :
    (let s := blocked {} []; s.boot.powered = true ∧ s.wdl.mounted = true ∧ 30000 ≤ 30000) ∧
    (live.boot.powered = true ∧ live.wdl.mounted = false) ∧
    (let s (n : Nat) : State := { live with wdl := { mounted := true, sinceCkpt := n } };
      (s 20000).wdl.mounted = true ∧ 20000 ≤ (s 20000).wdl.sinceCkpt ∧ (s 19999).wdl.sinceCkpt < 20000) ∧
    ((899 : Nat) < 900 ∧ ¬((900 : Nat) < 900)) := by decide +kernel

/-- An image command's descriptor of R367 with its CRC, and the module with it in the host area. -/
def idesc (es : List (Nat × Nat × Nat)) : List Byte := checked 32 ([(4, 4, 1)] ++ es)
def imaged (i : Tbl ModelImage) (es : List (Nat × Nat × Nat)) : State :=
  ({ catal 10 0 with cis := { hostGib := 1 }, wdl := { wells := [(0, { state := 2 })], images := i } } : State).store .lpddr (3839 * 2 ^ 30) (idesc es)

theorem imaged_desc (i : Tbl ModelImage) (es : List (Nat × Nat × Nat)) (h : (idesc es).length = 32) :
    (imaged i es).imgDesc = (0, idesc es) ∧ (imaged i es).gate .pumphouse 120 10 1 = (imaged i es, true) ∧
    (imaged i es).cmdBusy 120 10 0x10C = false := by
  have hb : (catal 10 0).cmdBusy 120 10 0x10C = false := by decide +kernel
  refine ⟨?_, gate_pumphouse (by rfl), hb⟩
  have ha : (imaged i es).cmdAddr 10 = 3839 * 2 ^ 30 := by
    have h : (catal 10 0).cmdAddr 10 = 3839 * 2 ^ 30 := by decide +kernel
    exact h
  have hm : (imaged i es).load .lpddr (3839 * 2 ^ 30) 32 = idesc es := by rw [← h]; exact load_store_same _ _ _ _
  have hi : (imaged i es).inHost (3839 * 2 ^ 30) 32 = true := by
    have h : (catal 10 0).inHost (3839 * 2 ^ 30) 32 = true := by decide +kernel
    exact h
  unfold State.imgDesc
  simp only [ha, hm, hi, show crcOk (idesc es) = true from checked_crc _ _]
  rfl

/-- IMAGE_CREATE of one page, IMAGE_WRITE of one page into it, IMAGE_SEAL of a whole image, IMAGE_DELETE, and an id that names no
image. -/
theorem wit_WellsAndImagesFollowTheirCommands_images :
    (let d := idesc [(8, 8, 16384)]; let s := imaged [] [(8, 8, 16384)];
      65535 < 65536 ∧ (s.imgDesc = (0, d) ∧ s.gate .pumphouse 120 10 1 = (s, true) ∧ s.cmdBusy 120 10 0x10C = false) ∧
      (65535 ≠ 0 ∧ s.wdl.readOnly = false ∧ fld d 4 4 = 1 ∧ 0 < fld d 8 8 ∧ fld d 8 8 % 16384 = 0 ∧ fld d 8 8 ≤ 8796093022208 ∧
        zeros d 0x10 16 = true ∧ s.image 65535 = none)) ∧
    (let e := [(0x10, 8, 3839 * 2 ^ 30 + 4096), (0x18, 4, 16384)]; let d := idesc e; let x : ModelImage := { bytes := 16384 };
      let s := imaged [(65535, x)] e;
      (s.imgDesc = (0, d) ∧ s.gate .pumphouse 120 10 1 = (s, true) ∧ s.cmdBusy 120 10 0x10C = false) ∧
      (s.wdl.readOnly = false ∧ fld d 4 4 = 1 ∧ fld d 8 8 % 16384 = 0 ∧ fld d 0x10 8 % 4096 = 0 ∧ 0 < fld d 0x18 4 ∧
        fld d 0x18 4 % 16384 = 0 ∧ fld d 0x18 4 ≤ 1073741824 ∧ s.inHost (fld d 0x10 8) (fld d 0x18 4) = true ∧ zeros d 0x1C 4 = true ∧
        s.image 65535 = some x ∧ x.ready = false ∧ fld d 8 8 + fld d 0x18 4 ≤ x.bytes)) ∧
    (let x : ModelImage := { bytes := 16384, written := [(0, 16384)] }; let s := imaged [(65535, x)] [];
      s.image 65535 = some x ∧ x.ready = false ∧ x.bytes ≤ reach x.written (x.written.length + 1) 0 ∧ s.imageUsed 65535 = false) ∧
    (imaged [] []).image 65535 = none := by
  refine ⟨⟨by decide, imaged_desc _ _ ?_, by decide +kernel⟩, ⟨imaged_desc _ _ ?_, by decide +kernel⟩, by decide +kernel⟩ <;>
  · rw [idesc, checked, withCrc_length]; decide +kernel

/-- The image created fits the model partition of a module whose 20 Wells are present; a LAYOUT of the largest sum. -/
theorem wit_WellsAndImagesFollowTheirCommands_room :
    fld (idesc [(8, 8, 16384)]) 8 8 ≤ (imaged [] [(8, 8, 16384)]).storeRoom ∧
    (let e := [(8, 2, 16), (0xA, 2, 16), (0xC, 2, 8939)]; let d := idesc e; let s := imaged [] e;
      s.imgDesc = (0, d) ∧ s.wdl.readOnly = false ∧ fld d 4 4 = 1 ∧ 16 ≤ fld d 8 2 ∧ 16 ≤ fld d 0xA 2 ∧ 16 ≤ fld d 0xC 2 ∧
      fld d 8 2 + fld d 0xA 2 + fld d 0xC 2 + 586 ≤ 9557 ∧ zeros d 0xE 18 = true ∧ s.layoutBusy = false) := by
  refine ⟨by decide +kernel, ?_, by decide +kernel⟩
  exact (imaged_desc [] _ (by rw [idesc, checked, withCrc_length]; decide +kernel)).1

/-- A Well that is present and fails, one that is not, one that returns, one in the last stroke of its quarantine and at its end. -/
theorem wit_WellsAndImagesFollowTheirCommands_wells :
    let s (k n : Nat) : State := { live with wdl := { wells := [(0, { state := k })] }, time := { stroke := BitVec.ofNat 64 n } };
    (s 2 0).wellUp 0 = true ∧ (s 4 0).wellUp 0 = false ∧ 0 < (s 4 0).wellCount ∧ ((s 4 0).well 0).state = 4 ∧ ((s 0 0).well 0).state = 0 ∧
    ((s 3 19999).well 0).state = 3 ∧ (s 3 19999).strokeN < ((s 3 19999).well 0).since + 20000 ∧
    ((s 3 20000).well 0).since + 20000 ≤ (s 3 20000).strokeN := by decide +kernel

/-- A descriptor of a wrong CRC for every image command; a WRITE to an image that is not there. -/
theorem wit_WellsAndImagesFollowTheirCommands_bad :
    (let s : State := { catal 10 0 with cis := { hostGib := 1 } };
      s.gate .pumphouse 120 10 1 = (s, true) ∧ s.cmdBusy 120 10 0x10C = false ∧ s.imgDesc.1 ≠ 0 ∧ s.wdl.readOnly = false) ∧
    (let e := [(0x10, 8, 3839 * 2 ^ 30 + 4096), (0x18, 4, 16384)]; (imaged [] e).imgDesc = (0, idesc e) ∧ (imaged [] e).image 65535 = none) := by
  refine ⟨⟨gate_pumphouse (by rfl), by decide +kernel⟩, ?_, by decide +kernel⟩
  exact (imaged_desc _ _ (by rw [idesc, checked, withCrc_length]; decide +kernel)).1

/-- A host port that carries traffic. -/
def upPort : HostPort := { released := true, cfgReady := true, pagesReady := true, linkUp := true }

/-- The module with ring 131071 at port 0, both ports up. -/
def ringed (r : Ring) : State := { live with nor := { rings := [(131070, { kind := 1, port := 1 }), (131071, r)] }, hp0 := upPort, hp1 := upPort }

/-- A submission and a command ring of 64 entries: doorbells at the least and greatest index they take, and one beyond each; a port that
serves no BAR, the safe states, a module before service; an id of no ring, a host ring, and a ring of the other port. -/
theorem wit_RingCommandsMoveTheirIndices_doorbell :
    (∀ k ∈ [0, 4], let r : Ring := { kind := k, prod := 5, cons := 3 }; let s := ringed r;
      0 < 2 ∧ 131071 < 131072 ∧ (s.hp 0).bars = true ∧ s.flt.safe = false ∧ s.boot.ready = true ∧ Tbl.look s.nor.rings 131071 = some r ∧
      deviceKind r.kind = true ∧ r.port = 0 ∧ r.port ≠ 1 ∧
      (r.prod ≤ (5 : Word64).toNat ∧ (67 : Word64).toNat ≤ r.cons + r.entries) ∧
      (4 : Word64).toNat < r.prod ∧ r.cons + r.entries < (68 : Word64).toNat) ∧
    (live.hp 1).bars = false ∧ ({ ringed {} with flt := { safe := true } } : State).flt.safe = true ∧
    (let s : State := { ringed {} with boot := {} }; (s.hp 1).bars = true ∧ s.flt.safe = false ∧ s.boot.ready = false) ∧
    Tbl.look (ringed {}).nor.rings 0 = none ∧ deviceKind ({ kind := 1, port := 1 } : Ring).kind = false := by decide +kernel

/-- The ring descriptor of R373 with its CRC: a completion ring of 64 entries. -/
def rdesc : List Byte := checked 64 [(4, 1, 1), (5, 1, 1), (6, 1, 2), (7, 1, 6), (0x1A, 2, 7)]

/-- The module with that descriptor in the host area and no ring. -/
def unringed : State := { catal 11 0 with nor := {} }

/-- RING_CREATE of an id the firmware does not reserve and of one whose descriptor lacks its CRC, RING_DESTROY of an unused ring and of
none. -/
theorem wit_RingCommandsMoveTheirIndices_create :
    (let t := unringed.store .lpddr (3839 * 2 ^ 30) rdesc;
      t.gate .pumphouse 120 11 1 = (t, true) ∧ t.cmdBusy 120 11 0x10C = false ∧ (t.createCheck 131071 (t.cmdAddr 11)).1 = 0) ∧
    (unringed.gate .pumphouse 120 11 1 = (unringed, true) ∧ unringed.cmdBusy 120 11 0x10C = false ∧
      (unringed.createCheck 131071 (unringed.cmdAddr 11)).1 ≠ 0 ∧ unringed.destroyCheck 131071 ≠ 0) ∧
    (ringed {}).destroyCheck 131071 = 0 := by
  have hb : unringed.cmdBusy 120 11 0x10C = false := by decide +kernel
  have hp : unringed.pageLive .pumphouse 120 11 = true := by decide +kernel
  refine ⟨⟨gate_pumphouse (by rw [store_pageLive, hp]), by rw [store_cmdBusy, hb], ?_⟩, ⟨gate_pumphouse hp, by decide +kernel⟩, by decide +kernel⟩
  have hl : rdesc.length = 64 := by rw [rdesc, checked, withCrc_length]; decide +kernel
  have ha : unringed.cmdAddr 11 = 3839 * 2 ^ 30 := by decide +kernel
  have hm : (unringed.store .lpddr (3839 * 2 ^ 30) rdesc).load .lpddr (3839 * 2 ^ 30) 64 = rdesc := by
    rw [← hl]; exact load_store_same _ _ _ _
  rw [store_cmdAddr, ha]
  unfold State.createCheck
  simp only [hm, show crcOk rdesc = true from checked_crc _ _]
  decide +kernel

/-- A consumer index to post and none; a host ring whose consumer index is read at its least and greatest value and beyond, and one that
wants none; a fence between rings of two ports, one already there, and two rings of one port. -/
theorem wit_RingCommandsMoveTheirIndices_indices :
    (∀ c ∈ [0, 1], let r : Ring := { kind := 8, cons := c, prod := 1 };
      Tbl.look (ringed r).nor.rings 131071 = some r ∧ deviceKind r.kind = true ∧ (r.postedCi ≠ r.cons ↔ c = 1)) ∧
    (let r : Ring := { kind := 1, cons := 2, prod := 4, filled := [(4, [])] }; let s := ringed r;
      Tbl.look s.nor.rings 131071 = some r ∧ deviceKind r.kind = false ∧ (s.hp r.port).readOk (r.idx + 8) = true ∧
      s.ringWants 131071 r = true ∧ (r.cons ≤ (2 : Word64).toNat ∧ (4 : Word64).toNat ≤ r.prod) ∧
      (1 : Word64).toNat < r.cons ∧ r.prod < (5 : Word64).toNat) ∧
    (let r : Ring := { kind := 1, cons := 2, prod := 4 }; let s := ringed r;
      Tbl.look s.nor.rings 131071 = some r ∧ (s.hp r.port).readOk (r.idx + 8) = true ∧ s.ringWants 131071 r = false) ∧
    (let s := ringed {}; Tbl.look s.nor.rings 131070 = some { kind := 1, port := 1 } ∧ Tbl.look s.nor.rings 131071 = some {} ∧
      ({ kind := 1, port := 1 } : Ring).port ≠ ({} : Ring).port ∧ (s.hp 1).readOk 0 = true ∧ s.nor.fenced.contains (131070, 131071) = false ∧
      (({ s with nor := { s.nor with fenced := [(131070, 131071)] } } : State).nor.fenced.contains (131070, 131071) = true)) ∧
    (let s := ringed { port := 1 }; Tbl.look s.nor.rings 131071 = some { port := 1 } ∧ ({ kind := 1, port := 1 } : Ring).port = ({ port := 1 } : Ring).port) := by
  decide +kernel

/-- A ring exactly full. -/
theorem wit_RingsWriteInPositionOrderWithinTheirRoom :
    let r : Ring := { prod := 64 }; Tbl.look (ringed r).nor.rings 131071 = some r ∧ r.prod - r.cons ≤ r.entries := by decide +kernel

/-- A live SYC page whose operation does not wait, and one whose WAIT does; a claim of a free counter and a release of one another owner
holds; counter windows of a served port, aligned, misaligned and of a false width; a port that serves no BAR, the safe states, and a
module before service. -/
theorem wit_CounterOperationsAreAtomic :
    (3 < 4 ∧ 15 < 16 ∧ live.gate .pumphouse 3 32 3 = (live, true) ∧ (live.syc 3 .pumphouse).state ≠ 1) ∧
    (let s := live.setSyc 3 .pumphouse { state := 1 }; s.gate .pumphouse 3 32 3 = (s, true) ∧ (s.syc 3 .pumphouse).state = 1) ∧
    ((2 ^ 32 - 1 < 2 ^ 32) ∧ live.ctr 5 = 0 ∧ ({ live with nor := { ctrs := [(5, 7)] } } : State).ctr 5 ≠ BitVec.ofNat 32 8) ∧
    (1 < 2 ∧ ((ringed {}).hp 1).bars = true ∧ (ringed {}).flt.safe = false ∧ (ringed {}).boot.ready = true ∧ 4 % 4 = 0 ∧ 5 % 4 ≠ 0 ∧
      8 ≠ 4) ∧
    (live.hp 1).bars = false ∧
    (let s : State := { ringed {} with flt := { safe := true } }; (s.hp 1).bars = true ∧ s.flt.safe = true) ∧
    (let s : State := { ringed {} with boot := {} }; (s.hp 1).bars = true ∧ s.flt.safe = false ∧ s.boot.ready = false) :=
  ⟨⟨by decide, by decide, gate_pumphouse (by decide +kernel), by decide +kernel⟩, ⟨gate_pumphouse (by decide +kernel), by decide +kernel⟩,
    by decide +kernel, by decide +kernel, by decide +kernel, by decide +kernel, by decide +kernel⟩

/-- A WAIT with room and one that is met; a unit whose WAIT is outstanding, parked or answered RETRY. -/
theorem wit_WaitsParkAndResume_park :
    (∀ p ∈ live.nor.parked ++ live.nor.retry, p.unit ≠ .winnow 67) ∧ live.ctrMet 131071 1 = false ∧
    (live.nor.parked.filter (fun q => live.ctrWh q.ctr = live.ctrWh 131071)).length < 16384 ∧ live.ctrMet 131071 0 = true ∧
    (let p : Park := { unit := .winnow 67, ctr := 131071, thr := 1 };
      p ∈ ({ parked := [p] } : NoriaSt).parked ++ ({ parked := [p] } : NoriaSt).retry ∧
      p ∈ ({ retry := [p] } : NoriaSt).parked ++ ({ retry := [p] } : NoriaSt).retry ∧ p.unit = .winnow 67) := by decide +kernel

/-- A WAIT with no room: 16,384 or more are parked at its Wellhead. -/
theorem wit_WaitsParkAndResume_full (n : Nat) (hn : 16384 ≤ n) :
    let s : State := { live with nor := { parked := List.replicate n { unit := .winnow 66, ctr := 131070, thr := 1 } } };
    (∀ p ∈ s.nor.parked ++ s.nor.retry, p.unit ≠ .winnow 67) ∧ s.ctrMet 131071 1 = false ∧
    16384 ≤ (s.nor.parked.filter (fun q => s.ctrWh q.ctr = s.ctrWh 131071)).length := by
  refine ⟨?_, by rfl, Nat.le_trans hn ?_⟩
  · intro p hp
    have e : p = { unit := .winnow 66, ctr := 131070, thr := 1 } := (List.mem_replicate.1 (by simpa [live] using hp)).2
    rw [e]; decide
  · show n ≤ ((List.replicate n ({ unit := .winnow 66, ctr := 131070, thr := 1 } : Park)).filter _).length
    rw [List.filter_eq_self.2 (fun x hx => by rw [(List.mem_replicate.1 hx).2]; exact decide_eq_true rfl), List.length_replicate]

/-- A parked WAIT that its counter satisfies and one that it does not; a WAIT answered RETRY, met and not. -/
theorem wit_WaitsParkAndResume_go :
    (let p : Park := { unit := .siphon 75 15, ctr := 131071, thr := 1 };
      let s (v : Word) : State := { live with nor := { parked := [p], ctrs := [(131071, v)] } };
      (s 1).nor.parked.find? (fun p => decide ((s 1).ctrWh p.ctr = 3) && (s 1).ctrMet p.ctr p.thr) = some p ∧
      (∀ p ∈ (s 0).nor.parked, (s 0).ctrWh p.ctr = 3 → (s 0).ctrMet p.ctr p.thr = false)) ∧
    (∀ v ∈ [0, 1], let p : Park := { unit := .siphon 75 15, ctr := 131071, thr := 1 };
      let s : State := { live with nor := { retry := [p], ctrs := [(131071, BitVec.ofNat 32 v)] } };
      s.nor.retry.find? (fun p => decide (s.ctrWh p.ctr = 3)) = some p ∧
      (({ s with nor := { s.nor with retry := s.nor.retry.erase p } } : State).ctrMet p.ctr p.thr = true ↔ v = 1)) := by
  decide +kernel

/-- A released and an unreleased port, with its link up and with none, and one with a failed read, its link up and down. -/
theorem wit_HostPortsComeUpAndGoDown :
    (1 < 2 ∧ (live.hp 1).released = false ∧ (live.hp 1).linkUp = false) ∧
    (((ringed {}).hp 1).released = true ∧ ((ringed {}).hp 1).linkUp = true) ∧
    (let s : State := { live with hp1 := { upPort with failed := [(64, 8)] } }; (s.hp 1).failed = (64, 8) :: [] ∧ (s.hp 1).up = true) ∧
    (let s : State := { live with hp1 := { failed := [(64, 8)] } }; (s.hp 1).failed = (64, 8) :: [] ∧ (s.hp 1).up = false) := by
  decide +kernel

/-- Configuration space before its release, before it is ready and after; the last and the first offset of the BAR2 windows, a write
that ends at the top of LPDDR and one that passes it; the host's own window register. -/
theorem wit_HostAccessesReachWhatTheirAddressNames :
    (live.hp 1).released = false ∧
    (let s : State := { live with hp1 := { released := true } }; (s.hp 1).released = true ∧ (s.hp 1).cfgReady = false) ∧
    ((ringed {}).hp 1).released = true ∧ ((ringed {}).hp 1).cfgReady = true ∧ ((ringed {}).hp 1).bars = true ∧ (ringed {}).boot.ready = true ∧
    (let s : State := { ringed {} with cis := { hostGib := 16 } };
      (s.hp 1).bars = true ∧ (s.hp 1).pagesReady = true ∧ s.flt.safe = false ∧ 2 ^ 34 - 4 < doorbellBase ∧
      s.windowAddr 1 (2 ^ 34 - 4) + ([1, 2, 3, 4] : List Byte).length ≤ 3840 * 1073741824 ∧
      3840 * 1073741824 < s.windowAddr 1 (2 ^ 34 - 4) + ([1, 2, 3, 4, 5] : List Byte).length) ∧
    doorbellBase + 0xFFFF8 < counterBase ∧ counterBase + 0x7FFFC < bar2Reserved ∧
    (live.pageLive .pumphouse 1 13 = true) := by
  decide +kernel

/-- The gate of the last: the Pumphouse's write to the HPT page of port 1. -/
theorem wit_HptWinWrite : live.gate .pumphouse 1 13 (writeClass 1 13 0x104 false .pumphouse) = (live, true) :=
  gate_pumphouse (by decide +kernel)

/-- A Siphon descriptor of R394 with its CRC: one line of 16 bytes from LPDDR to LPDDR. -/
def xdesc (es : List (Nat × Nat × Nat)) : List Byte :=
  checked 64 ([(4, 1, 1), (6, 1, 3), (7, 1, 3), (0x18, 4, 16), (0x20, 4, 1), (0x24, 4, 16), (0x2C, 4, 1)] ++ es)

/-- The edits that make it START array `a` of Tiller 67 and write into that Tiller's SRAM. -/
def starts (a : Nat) : List (Nat × Nat × Nat) := [(5, 1, 64), (7, 1, 1), (0x16, 1, 67), (0x32, 1, a), (0x33, 1, 67)]

/-- The module whose Tiller 67 is rank 0 of paddock 0. -/
def ranked : State := { served with
  til := { tillers := [(67, { role := .inService, pad := some 0 })] }
  pad := { pads := [(0, { state := .running, tillers := [67], ranks := [some 67], jobs := [3], occupant := 3 })] } }

theorem xdesc_check (es : List (Nat × Nat × Nat)) (c : Nat) (h : (if (!true) = true then 1
    else if fld (xdesc es) 4 1 ≠ 1 ∨ sipKind (xdesc es) = 3 ∨ fld (xdesc es) 5 1 % 64 ≠ 0 ∨ fld (xdesc es) 0x31 1 ≠ 0 ∨
      fld (xdesc es) 0xF 1 ≠ 0 ∨ fld (xdesc es) 0x17 1 ≠ 0 ∨ ctrFieldOk (sipWait (xdesc es)) = false ∨
      ctrFieldOk (sipDone (xdesc es)) = false ∨ 6 < sideLog false (xdesc es) ∨ 6 < sideLog true (xdesc es) then 2
    else if !(sipSpaceOk 3 (sipSrcSpace (xdesc es)) && sipSpaceOk 3 (sipDstSpace (xdesc es))) || !startSpaceOk 3 (xdesc es) ||
      (decide (sipSrcSpace (xdesc es) = 6) && decide (sideLog false (xdesc es) ≠ 2)) ||
      (decide (sipDstSpace (xdesc es) = 6) && decide (sideLog true (xdesc es) ≠ 2)) then 3
    else if !(sideShapeOk false (xdesc es) && sideShapeOk true (xdesc es)) ||
      decide (sideLine false (xdesc es) * sideLines false (xdesc es) ≠ sideLine true (xdesc es) * sideLines true (xdesc es)) ||
      decide (2 ^ 40 < sideLine false (xdesc es) * sideLines false (xdesc es)) then 4
    else if ranked.sipStrict 3 && !(sideAligned false (xdesc es) && sideAligned true (xdesc es)) then 5
    else if !(ranked.sideAddrOk false (xdesc es) && ranked.sideAddrOk true (xdesc es)) then 6
    else 0) = c) : ranked.sipCheck 3 (xdesc es) = c := by
  unfold State.sipCheck
  rw [show crcOk (xdesc es) = true from checked_crc _ _]
  exact h

theorem xdesc_next (es : List (Nat × Nat × Nat)) (h : (rec0 64 ([(4, 1, 1), (6, 1, 3), (7, 1, 3), (0x18, 4, 16), (0x20, 4, 1), (0x24, 4, 16),
    (0x2C, 4, 1)] ++ es)).length = 64) : ranked.sipNext 3 63 (xdesc es) = some (0, xdesc es) := by
  have hl : (xdesc es).length = 64 := by rw [xdesc, checked, withCrc_length, List.length_drop, h]
  unfold State.sipNext
  rw [if_neg (by decide +kernel), if_pos (by decide), if_pos hl]

/-- A transfer of channel 63 of Wellhead 3: lines of 0 bytes (code 4), a wait that is not met, a START of array 96 (code 7), one from a
host port that is down, one that moves its bytes; END. -/
theorem wit_SiphonsMoveBytesInTheirOrder_transfer :
    (∀ es ∈ [[(0x18, 4, 0)], [(0x34, 4, 2 ^ 31 + 5), (0x38, 4, 1)], starts 96, [(6, 1, 4)], []],
      ranked.sipNext 3 63 (xdesc es) = some (0, xdesc es) ∧ sipIsEnd (xdesc es) = false ∧
      ranked.sipCheck 3 (xdesc es) = (if es = [(0x18, 4, 0)] then 4 else 0)) ∧
    (let d := xdesc [(0x34, 4, 2 ^ 31 + 5), (0x38, 4, 1)];
      bitAt (sipWait d) 31 = true ∧ ranked.waitMet { unit := .siphon 3 63, ctr := sipWait d % 0x20000, thr := fld d 0x38 4 } = false) ∧
    (bitAt (sipWait (xdesc (starts 96))) 31 = false ∧ ranked.startOk 3 (xdesc (starts 96)) = false) ∧
    (ranked.startOk 3 (xdesc [(6, 1, 4)]) = true ∧ ranked.sideReady 3 (xdesc [(6, 1, 4)]) = false) ∧
    (bitAt (sipWait (xdesc [])) 31 = false ∧ ranked.startOk 3 (xdesc []) = true ∧ ranked.sideReady 3 (xdesc []) = true) ∧
    (ranked.sipNext 3 63 (xdesc [(6, 1, 15)]) = some (0, xdesc [(6, 1, 15)]) ∧ sipIsEnd (xdesc [(6, 1, 15)]) = true) := by
  have he : ∀ es, sipIsEnd (xdesc es) = (sipSrcSpace (xdesc es) == 15) := fun es => by
    unfold sipIsEnd; rw [show crcOk (xdesc es) = true from checked_crc _ _]; rfl
  refine ⟨?_, by decide +kernel, by decide +kernel, by decide +kernel, by decide +kernel, xdesc_next _ (by decide +kernel), by rw [he]; decide +kernel⟩
  intro es hes
  refine ⟨xdesc_next _ (by revert es; decide +kernel), by rw [he]; revert es; decide +kernel, xdesc_check _ _ ?_⟩
  revert es
  decide +kernel

/-- Completions: a COUNTER and STARTs of the last array and of one there is none of, whose bytes have landed, and one whose bytes are
still on their way. -/
theorem wit_SiphonsMoveBytesInTheirOrder_complete :
    (∀ d ∈ [rec0 64 [(7, 1, 3)], rec0 64 (starts 95), rec0 64 (starts 96)],
      let s : State := { ranked with sip := [(sipKey 3 63, { moved := some d })] };
      let u := (s.setSip 3 63 { s.sipChan 3 63 with moved := none }).bump 3 30 0x108 1;
      (s.sipChan 3 63).moved = some d ∧ s.sipThere 3 63 = true ∧ s.sipLanded 3 d = true ∧
      (u.startOk 3 d = true ↔ sipKind d = 0 ∨ sipArray d = 95)) ∧
    sipKind (rec0 64 [(7, 1, 3)]) = 0 ∧ (∀ a ∈ [95, 96], sipKind (rec0 64 (starts a)) = 1 ∧ sipArray (rec0 64 (starts a)) = a) ∧
    (let d := rec0 64 [(7, 1, 1), (0x16, 1, 67)];
      let s : State := { ranked with sip := [(sipKey 3 63, { moved := some d })], rhz := { flight := [{ pkt 0 0 with src := dieSite 3 }] } };
      (s.sipChan 3 63).moved = some d ∧ s.sipLanded 3 d = false) := by
  decide +kernel

/-- The module as node 1 with the given port 47 and pair 7. -/
def linked (z : ZioSt) : State := { live with zio := z, pg := { regs := [(regKey 120 13 0x100, 1)] } }

/-- Ports in service. -/
def upZ : ZioPort := { state := 3 }

/-- A message of op `op` to node 1 on port 47. -/
def zmsg (op : Nat) (m : ZioMsg) : ZioMsg := { m with port := 47, dst := 1, op := op }

/-- Messages whose turn it is and is not; a write to the host area at its last unit and one past it, one to the last Tiller and to one
past it, a message of another op or space, a partial, an addition, a command and a record whose stream's sequence wraps. -/
theorem wit_MessagesAreTakenInTheirOrderAndResent_take :
    let s : State := { linked { ports := [(47, upZ)], rxNext := [(3, 2 ^ 32 - 1)] } with cis := { hostGib := 1 } };
    (zmsg 0 (zio0 0)).dst = s.node ∧ s.zioTakes 47 = true ∧
    (zmsg 0 (zio0 0)).eseq % 4294967296 = Tbl.val 0 (s.zioArrived 47 1).zio.rxNext (0 * 4 + 0) ∧
    (zmsg 4 { zio0 4 with vc := 3, eseq := 2 ^ 32 - 1 }).eseq % 4294967296 = Tbl.val 0 (s.zioArrived 47 1).zio.rxNext (0 * 4 + 3) ∧
    (zmsg 0 { zio0 0 with eseq := 1 }).eseq % 4294967296 ≠ Tbl.val 0 (s.zioArrived 47 1).zio.rxNext (0 * 4 + 0) ∧
    (∀ op ∈ [0, 1, 2, 3, 4], (zmsg 5 (zio0 5)).op ≠ op ∧ (zmsg op (zio0 op)).op = op ∧ (zmsg op (zio0 op)).space = 0) ∧
    (let m := zmsg 0 { zio0 0 with space := 1 }; m.space ≠ 0 ∧ m.space ≠ 2) ∧
    (∀ b ∈ [true, false], let m := zmsg 0 { zio0 0 with space := 2, addr := 3840 * 2 ^ 30 - (if b then 16 else 0) };
      m.op = 0 ∧ m.space = 2 ∧ (s.zioArrived 47 1).inHost m.addr (m.payload.take (16 * m.length)).length = b) ∧
    (zmsg 1 { zio0 1 with tiller := 67 }).tiller < 68 ∧ 68 ≤ (zmsg 1 { zio0 1 with tiller := 68 }).tiller := by decide +kernel

/-- A message for node 2 on ring pair 7, which is joined and forwards; the packets of a leg to Tiller 67, which may all pass. -/
theorem wit_MessagesAreTakenInTheirOrderAndResent_legs :
    (let m : ZioMsg := { zio0 0 with port := 14, dst := 2 };
      let s := linked { ports := [(14, upZ), (15, upZ)], pairs := [(7, { state := 2, opened := true })] };
      m.dst ≠ s.node ∧ m.port < 16 ∧ m.port % 2 = 0 ∧ s.zioForwards (m.port / 2) = true) ∧
    (let ps := legPackets (zmsg 1 { zio0 1 with tiller := 67 }) 3 3;
      ps ≠ [] ∧ (∀ p ∈ ps, live.unreach p.src p.dst = false) ∧ ∀ p ∈ ps, live.stuckAt (live.routed p) = none) := by decide +kernel

/-- A control flit with and without a NAK from this node's stream and another's; a dropped header; messages to resend; a stream whose
100 ms have passed and one 1 ns short. -/
theorem wit_MessagesAreTakenInTheirOrderAndResent_resend :
    (let s := linked { ports := [(47, upZ)] }; s.zioCtrlTaken 47 = true ∧ 1 = s.node ∧ 2 ≠ s.node ∧ 47 < 48 ∧
      (s.zport 47).state = 3 ∧ (s.zport 47).dropping = false ∧ s.zioUp 47 = true) ∧
    (let o : ZioOut := { msg := { zmsg 0 (zio0 0) with dst := 2 } };
      let s (t : Nat) : State := { linked { out := [o], ackNs := [(8, 5)] } with time := { boundNs := BitVec.ofNat 64 t } };
      Tbl.look (s 0).zio.ackNs (2 * 4 + 0) = some 5 ∧ 5 + 100000000 ≤ (s 100000005).nowNs ∧ (s 100000004).nowNs < 5 + 100000000 ∧
      (s 0).zio.out.filter (fun o => decide (o.msg.dst = 2) && decide (o.msg.vc = 0) && decide (portWh o.msg.port = 3)) ≠ []) := by
  decide +kernel

/-- A mark sent on port 47, and the joining pair's ring-out port in a lengthened stroke; a mark received on ring pair 7 that does not time
the module, and one that does, 100 ns and 101 ns off. -/
theorem wit_RingsAreJoinedTimedAndLeft_marks :
    (16 ≤ 47 ∧ 47 < 48 ∧ 4 ≤ 4 ∧ ((linked { ports := [(47, upZ)] }).zport 47).state = 3) ∧
    (let s := linked { ports := [(15, upZ)], timing := some 7, takeStroke := some 9 };
      s.lengthened = true ∧ s.zio.timing = some (15 / 2) ∧ 15 < 16 ∧ 15 % 2 = 1 ∧ (s.zport 15).state = 3) ∧
    (∀ t ∈ [none, some 7], ∀ o ∈ [100, 101], let m := { mark0 with port := 14, offsetNs := o };
      let s := linked { ports := [(14, upZ)], pairs := [(7, { state := 2 })], timing := t };
      let u := s.zioArrived m.port 1;
      7 < 8 ∧ m.port = 2 * 7 ∧ (s.zport m.port).state = 3 ∧ (u.zpair 7).state = 2 ∧
      u.zio.timing = t ∧ u.lengthened = false ∧ (u.markAuthority m).1 = u.node ∧ ((u.markError m).natAbs ≤ 100 ↔ o = 100)) := by
  decide +kernel

/-- A pair that may join and one that may not, one that checks its first and its second mark, within the stroke of the check and past
it, one that begins to leave, joined and joining, one whose leave is over and one whose stream is not acknowledged; a timing pair with 15
and with 16 bad marks. -/
theorem wit_RingsAreJoinedTimedAndLeft_pairs :
    (let s (v : Word) : State := { linked {} with pg := { regs := [(regKey 120 13 0x100, 1), (regKey 3 33 0x104, v)] } };
      ((s 0x80000000).zpair 7).state = 0 ∧ (s 0x80000000).mayJoin 7 = true ∧ (s 0x80000000).atBoundary = true ∧ (s 0).mayJoin 7 = false) ∧
    (∀ c ∈ [none, some mark0], ∀ n ∈ [4, 5],
      let s : State := { linked { ports := [(14, upZ), (15, upZ)], pairs := [(7, { state := 1, checked := c, checkedAt := 4 })] } with time := { stroke := BitVec.ofNat 64 n } };
      (s.zpair 7).state = 1 ∧ (s.zpair 7).leave = false ∧ (s.zport (2 * 7)).state = 3 ∧ (s.zport (2 * 7 + 1)).state = 3 ∧ (s.zpair 7).checked = c ∧
      s.atBoundary = true ∧ ((s.zpair 7).checkedAt < s.strokeN ↔ n = 5)) ∧
    live.pageLive .pumphouse 3 33 = true ∧
    (∀ st ∈ [1, 2], let s := linked { pairs := [(7, { state := st, leave := true })] };
      (s.zpair 7).state = st ∧ (s.zpair 7).leave = true ∧ s.atBoundary = true) ∧
    (∀ n ∈ [0, 1], let s := linked { pairs := [(7, { state := 3, leftNs := n })], out := [{ msg := { zio0 0 with port := 15 }, sent := true }] };
      (s.zpair 7).state = 3 ∧ (s.leftLong 7 = true ↔ n = 0)) ∧
    (∀ n ∈ [15, 16], (linked { timing := some 7, badMarks := n }).zio.timing = some 7) := by decide +kernel

/-- A lane that drops with the other half clean and with neither; a failed port; a quarantine in its last stroke and over, at a boundary
and within a stroke, of a point-to-point port, and of a ring port whose pair failed, may join or not, or stands; training of 8 lanes and of
a clean half. -/
theorem wit_RingsAreJoinedTimedAndLeft_ports :
    (∀ g ∈ [255, 0x7F], let s := linked { ports := [(47, { state := 3, good := g })] };
      47 < 48 ∧ 0 < 8 ∧ (s.zport 47).state ≠ 4 ∧ bitAt (s.zport 47).good 0 = true ∧ (cleanHalf ((s.zport 47).good - 2 ^ 0) = true ↔ g = 255)) ∧
    ((linked { ports := [(47, { state := 4 })] }).zport 47).state = 4 ∧
    (∀ n ∈ [19999, 20000], ∀ ph ∈ [0, 1],
      let s : State := { linked { ports := [(47, { state := 2 })] } with time := { stroke := BitVec.ofNat 64 n, phaseUs := ph } };
      (s.zport 47).state = 2 ∧ (s.atBoundary = true ↔ ph = 0) ∧ (if n = 20000 then (s.zport 47).since + 20000 ≤ s.strokeN ∧ 16 ≤ 47 ∧ (s.zport 47).good = 255
        else s.strokeN < (s.zport 47).since + 20000)) ∧
    (∀ v ∈ [0, 0x80000000], ∀ st ∈ [0, 4],
      let s : State := { linked { ports := [(15, { state := 2 })], pairs := [(7, { state := st, failed := true })] } with
        time := { stroke := 20000 }, pg := { regs := [(regKey 120 13 0x100, 1), (regKey 3 33 0x104, BitVec.ofNat 32 v)] } };
      let u := s.setZport 15 { (s.zport 15).fresh with state := 1 };
      15 < 16 ∧ (s.zport 15).state = 2 ∧ (s.zport 15).since + 20000 ≤ s.strokeN ∧ s.atBoundary = true ∧ (s.zpair (15 / 2)).state = st ∧
      (s.zport (15 / 2 * 2 + (1 - 15 % 2))).state ≠ 4 ∧ (s.zport (15 / 2 * 2 + (1 - 15 % 2))).state ≠ 2 ∧ (u.mayJoin (15 / 2) = true ↔ v ≠ 0)) ∧
    ((live.zport 47).state ≠ 2 ∧ (live.zport 47).state ≠ 4 ∧ (live.zport 47).good = 255) ∧
    (let s := linked { ports := [(47, { good := 0xF0 })] }; (s.zport 47).state ≠ 2 ∧ (s.zport 47).state ≠ 4 ∧
      cleanHalf (s.zport 47).good = true) := by decide +kernel

/-- The module whose page of a die has a header record. -/
def pageSt (d g : Nat) (x : Page) : State := { live with pg := { hdr := [(pageKey d g, x)] } }

/-- An acknowledgement of an error at its own sequence, of a later one, and a field written. -/
theorem wit_AcknowledgementsClearWhatWasSeen :
    (let x : Page := { seq := 9, errCode := 1, errSeq := 9, errCount := 3, sq := [(0x118 * 32, 9)] }; let s := pageSt 120 4 x;
      4 < 256 ∧ s.pageLive .pumphouse 120 4 = true ∧ (s.page 120 4).errCode ≠ 0 ∧
      atOrBefore (s.page 120 4).errSeq ((0x09000000 : Word).toNat / 16777216) = true ∧
      atOrBefore (s.page 120 4).errSeq ((0x08000000 : Word).toNat / 16777216) = false) ∧
    (0x118 % 4 = 0 ∧ 0x100 ≤ 0x118 ∧ isStat (tableKey 120 4) 0x118 = true ∧ (pvBits (tableKey 120 4) 0x118).isSome = true) := by
  decide +kernel

/-- The gate's hypothesis for a page write of class 0 holds of the Pumphouse; SQ_FIELD_WRITE then answers a next state. -/
theorem wit_AcknowledgementsClearWhatWasSeen_gate : (pageSt 120 4 {}).gate .pumphouse 120 4 0 = (pageSt 120 4 {}, true) ∧
    ∃ t, exec (.sqFieldWrite .pumphouse (256 * 120 + 4) 0x118 0x01000001) (pageSt 120 4 {}) = .next t :=
  ⟨gate_pumphouse (by decide +kernel), by rw [exec]; exact ⟨_, rfl⟩⟩

/-- Pages with and without indirect words; a mailbox request of selector 0, one that names nothing; partial byte enables; a NODE
write in a module with no pair and no link. -/
theorem wit_PageRegistersAreReadAndWritten :
    (0 < indWords 0 14 ∧ indWords 120 4 = 0 ∧ live.pageLive .pumphouse 0 14 = true ∧ live.pageLive .pumphouse 120 4 = true ∧ live.portBlind .pumphouse = none ∧
      regThere 0 14 0x00C = true ∧ 14 < 15 ∧ regThere 0 14 0xFFC = false) ∧
    (∀ sel ∈ [0, 0xF0000000], let s := pageSt 0 14 { cPump := { req := some (BitVec.ofNat 32 sel) } };
      (s.ctxOf .pumphouse 0 14).req = some (BitVec.ofNat 32 sel) ∧ s.pageLive .pumphouse 0 14 = true ∧
      ((s.mboxValue 0 14 ((BitVec.ofNat 32 sel).toNat / 0x10000000) ((BitVec.ofNat 32 sel).toNat % 0x10000000)).1.isSome = decide (sel = 0))) ∧
    (live.pageLive .pumphouse 120 13 = true ∧ (254 : Word).toNat % 256 ≠ 255 ∧ (∀ i, i < 8 → (live.zpair i).state = 0) ∧
      (∀ p, 16 ≤ p → p < 48 → (live.zport p).state ≠ 3)) := by
  decide +kernel

/-- A request of selector 0, and of 1, on a live page. -/
theorem wit_CommonMailboxValueIsStrokeAndTime :
    ∀ sel ∈ [0, 1], let s := pageSt 0 14 { cPump := { req := some (BitVec.ofNat 32 sel) } };
      14 < 256 ∧ s.pageLive .pumphouse 0 14 = true ∧ (s.ctxOf .pumphouse 0 14).req = some (BitVec.ofNat 32 sel) ∧
      (BitVec.ofNat 32 sel).toNat / 0x10000000 = 0 ∧ (s.page 0 14).errFreeze = false := by decide +kernel

/-- The module whose clock records are given for every die, with one record apart. -/
def clocked (c : ClkDie) (d : Nat) (x : ClkDie) : State :=
  { live with clk := (d, x) :: (List.range 128).map (fun d => (d, c)) }

/-- A mux change asked for anew, and a domain's reset; a switch whose old clock lives and one whose does not; a hang after 20 strokes,
in the 19th, and reported already. -/
theorem wit_ClocksAndPowerFollowTheirRules_clocks :
    (live.pageLive .pumphouse 75 34 = true ∧ bitAt (((5 : Word).toNat % 8) ^^^ (live.clkDie 75).cur) 2 = true ∧
      bitAt (live.clkDie 75).pend 2 = false ∧ (4 : Word).toNat = 2 ^ 2) ∧
    (∀ b ∈ [true, false], ∀ n ∈ [24, 25], ∀ h ∈ [0, 1], ∀ c ∈ [0, 4],
      let s : State := { clocked {} 75 { cur := c, pend := 4, oscAlive := b, pllAlive := b, since := [(2, 5)], hung := List.replicate h 2 } with
        time := { stroke := BitVec.ofNat 64 n } };
      2 < 3 ∧ bitAt (s.clkDie 75).pend 2 = true ∧
      ((if bitAt (s.clkDie 75).cur 2 then (s.clkDie 75).pllAlive else (s.clkDie 75).oscAlive) = b) ∧ s.dieThere 75 = true ∧
      (Tbl.val 0 (s.clkDie 75).since 2 + 20 ≤ s.strokeN ↔ n = 25) ∧ (2 ∈ (s.clkDie 75).hung ↔ h = 1)) := by
  decide +kernel

/-- Oscillator, lock of a Tiller, a Wellhead and a Well with the others locked and not, trim source, and an input low at its bounds. -/
theorem wit_ClocksAndPowerFollowTheirRules_locks :
    (live.boot.powered = true ∧ live.dieThere 75 = true ∧ (live.clkDie 75).oscOk = false) ∧
    (∀ l ∈ [true, false], ∀ d ∈ [3, 75, 80],
      let s : State := { clocked { locked := l } d { oscOk := true, pllAlive := true } with
        boot := { powered := true }, wdl := { wells := [(0, { state := 2 })] } };
      (d < 4 ∨ 8 ≤ d) ∧ s.dieThere d = true ∧ (s.clkDie d).oscOk = true ∧ (s.clkDie d).locked = false ∧ (s.clkDie d).pllAlive = true ∧
      s.boot.started = false ∧ s.flt.safe = false ∧
      (({ s with clk := (d, { locked := true, sel := 7, cur := 7 }) :: s.clk } : State).allLocked = true ↔ l = true)) ∧
    (live.atBoundary = true ∧ 1 ≤ 1 ∧ 3 ≤ 3 ∧ 1 ≠ (live.clkDie 75).src ∧ 3 ≠ (live.clkDie 75).src) ∧
    ({ live with zio := { timing := some 7 } } : State).zio.timing ≠ none ∧ (4600 ≤ 4600 ∧ 4799 < 4800) := by
  decide +kernel

/-- The loss of a root: of Wellhead 3, of a Tiller in service and of a spare one, of Well 0. -/
theorem wit_ClocksAndPowerFollowTheirRules_roots :
    (∀ d ∈ [3, 75, 80], let s : State := { clocked { locked := true } d { locked := true } with wdl := { wells := [(0, { state := 2 })] } };
      s.boot.powered = true ∧ s.dieThere d = true ∧ (s.clkDie d).locked = true) ∧
    (∀ r ∈ [Role.inService, .spare], let s : State := { clocked {} 75 { locked := true } with til := { tillers := [(67, { role := r })] } };
      8 ≤ 75 ∧ 75 < 76 ∧ s.dieThere 75 = true ∧ (s.clkDie 75).locked = true ∧
      ((({ s with freeCount := s.freeCount + 1 } : State).setClk 75 { s.clkDie 75 with
        locked := false, oscOk := false, oscAlive := true, pllAlive := false, lost := true }).event 75 34 [sqBit 0x118 2] []).tiller 67 =
          { role := r }) := by
  decide +kernel

/-- Safe states with every die locked, with one not, and with Wellhead 3 unstable; a sequencer's change; a cap at its least and
greatest value and past both, ceilings of 4 and of 5; Tiller 67 at 80.0, 80.1, 83.9 and 84.0 degrees, hot before and not, in no paddock, its
paddock lowered 19 strokes ago, 20 ago, never, and at P4. -/
theorem wit_ClocksAndPowerFollowTheirRules_power :
    (∀ l ∈ [true, false], let s : State := { clocked { locked := l } 3 { locked := l } with flt := { safe := true } };
      s.flt.safe = true ∧ s.flt.failedWh.length < 2 ∧ s.allLocked = l ∧ (s.clkDie 3).locked = l) ∧
    (let s := clocked {} 75 { want := some (0, 8) }; 67 < 68 ∧ (s.tiller 67).role ≠ .retired ∧ (s.clkDie (8 + 67)).want = some (0, 8)) ∧
    (live.pageLive .pumphouse live.capDie 35 = true ∧ 2000 ≤ (2000 : Word).toNat % 65536 ∧ (16000 : Word).toNat % 65536 ≤ 16000 ∧
      (1999 : Word).toNat % 65536 < 2000 ∧ 16000 < (16001 : Word).toNat % 65536 ∧
      ceilOk (0x44444444 : Word).toNat = true ∧ ceilOk (0x50000000 : Word).toNat = false) ∧
    ((800 : Int) ≤ 800 ∧ (800 : Int) < 801 ∧ (839 : Int) < 840 ∧ (840 : Int) ≤ 840 ∧ 67 ∉ live.pwr.hot ∧
      67 ∈ ({ live with pwr := { hot := [67] } } : State).pwr.hot) ∧
    (live.tiller 67).pad = none ∧
    (let s (h : Tbl Nat) : State := { live with til := { tillers := [(67, { pad := some 15 })] }, time := { stroke := 25 }, pwr := { heatAt := h } };
      let u (s : State) : State := { s with pwr := { s.pwr with hot := insNat 67 s.pwr.hot } };
      ((s []).tiller 67).pad = some 15 ∧ Tbl.look (s [(15, 6)]).pwr.heatAt 15 = some 6 ∧ (s [(15, 6)]).strokeN < 6 + 20 ∧
      Tbl.look (s [(15, 5)]).pwr.heatAt 15 = some 5 ∧ 5 + 20 ≤ (s [(15, 5)]).strokeN ∧ Tbl.look (s []).pwr.heatAt 15 = none ∧
      max ((u (s [])).padPoint 15) (Tbl.val 0 (s []).pwr.allow 15) < 4 ∧
      4 ≤ max ((u { s [] with pwr := { allow := [(15, 4)] } }).padPoint 15) (Tbl.val 0 ({ s [] with pwr := { allow := [(15, 4)] } } : State).pwr.allow 15)) := by
  decide +kernel

/-- The module whose check-value unit 15 is given, with a scan descriptor's address in its registers and its context at word 29 of
the page. -/
def checking (x : ChkUnit) : State := { live with
  chk := [(15, x)]
  cis := { hostGib := 1 }
  pg := { hdr := [(pageKey 3 14, { cPump := { indAddr := 29 } })], regs := [(regKey 3 14 0x2D4, 0xC0000000), (regKey 3 14 0x2D8, 0x3BF)] } }

/-- A scan descriptor of R486 with its CRC: eight bytes at 64 past the start of the host area. -/
def scand (es : List (Nat × Nat × Nat)) : List Byte := checked 32 ([(4, 1, 1), (8, 8, 3839 * 2 ^ 30 + 64), (0x18, 4, 8)] ++ es)

theorem scand_length (es : List (Nat × Nat × Nat)) (h : (rec0 32 ([(4, 1, 1), (8, 8, 3839 * 2 ^ 30 + 64), (0x18, 4, 8)] ++ es)).length = 32) :
    (scand es).length = 32 := by rw [scand, checked, withCrc_length, List.length_drop, h]

/-- Feeds of a busy and of an idle unit; presets 10 and 11; widths 2, 3, 64 and 65. -/
theorem wit_CheckUnitsFeedAndScan_feeds :
    15 < 16 ∧ (checking {}).gate .pumphouse (15 / 4) 14 3 = (checking {}, true) ∧
    (((checking { busy := some (0, 0, 0) }).chkUnit 15).busy.isSome = true ∧ ((checking {}).chkUnit 15).busy = none) ∧
    ((0xA0000000 : Word).toNat / 0x10000000 = 10 ∧ (chkPreset 10).isSome = true ∧ 10 < (0xB0000000 : Word).toNat / 0x10000000) ∧
    ((2 : Word).toNat / 0x10000000 = 0 ∧ (2 : Word).toNat % 128 < 3 ∧ 64 < (65 : Word).toNat % 128 ∧ 3 ≤ (3 : Word).toNat % 128 ∧
      (64 : Word).toNat % 128 ≤ 64) :=
  ⟨by decide, gate_pumphouse (by decide +kernel), by decide +kernel⟩

/-- The address of the descriptor of unit 15. -/
theorem scan_addr (x : ChkUnit) (d : List Byte) : let s := (checking x).store .lpddr (3839 * 2 ^ 30) d;
    (s.reg (15 / 4) 14 (0x200 + 0x40 * (15 % 4) + 0x14)).toNat / 32 * 32 +
      (s.reg (15 / 4) 14 (0x200 + 0x40 * (15 % 4) + 0x18)).toNat % 65536 * 4294967296 = 3839 * 2 ^ 30 := by
  have h : ((checking {}).reg 3 14 0x2D4).toNat / 32 * 32 + ((checking {}).reg 3 14 0x2D8).toNat % 65536 * 4294967296 = 3839 * 2 ^ 30 := by
    decide +kernel
  exact h

theorem store_chkUnit (s : State) (sp : Space) (a u : Nat) (b : List Byte) : ((s.store sp a b).chkUnit u).busy = (s.chkUnit u).busy := rfl
theorem store_inHost (s : State) (sp : Space) (a x n : Nat) (b : List Byte) : (s.store sp a b).inHost x n = s.inHost x n := rfl
theorem store_scanCheck (s : State) (sp : Space) (a : Nat) (b d : List Byte) (k : Nat) :
    (s.store sp a b).scanCheck d k = s.scanCheck d k := rfl

/-- Scans of unit 15: COMPUTE, APPEND and VERIFY that pass, one of length 0 (code 3), and one whose descriptor lies below the host
area. -/
theorem wit_CheckUnitsFeedAndScan_scans :
    (∀ es ∈ [[], [(5, 1, 1)], [(5, 1, 2)], [(0x18, 4, 0)]], let s := (checking {}).store .lpddr (3839 * 2 ^ 30) (scand es);
      scand es = s.load .lpddr (3839 * 2 ^ 30) 32 ∧ (s.chkUnit 15).busy = none ∧ s.inHost (3839 * 2 ^ 30) 32 = true ∧
      s.scanCheck (scand es) ({} : ChkUnit).checkBytes = (if es = [(0x18, 4, 0)] then 3 else 0)) ∧
    [[], [(5, 1, 1)], [(5, 1, 2)]].map (fun es => fld (scand es) 5 1) = [0, 1, 2] ∧ live.inHost 0 32 = false := by
  refine ⟨?_, by decide +kernel, by decide +kernel⟩
  intro es hes
  have hl : (scand es).length = 32 := scand_length es (by revert es; decide +kernel)
  refine ⟨by rw [← hl]; exact (load_store_same _ _ _ _).symm, (store_chkUnit ..).trans (by decide +kernel), (store_inHost ..).trans (by decide +kernel), ?_⟩
  have hh : (checking {}).scanCheck (scand es) ({} : ChkUnit).checkBytes = (if es = [(0x18, 4, 0)] then 3 else 0) := by
    unfold State.scanCheck
    rw [show crcOk (scand es) = true from checked_crc _ _]
    revert es; decide +kernel
  rw [store_scanCheck]; exact hh

/-- A scan that ends with status 0, and with 1. -/
theorem wit_CheckUnitsFeedAndScan_done : ∀ st ∈ [0, 1], ((checking { busy := some (st, 8, 0) }).chkUnit 15).busy = some (st, 8, 0) := by
  decide +kernel

/-- The least and the greatest width; an append in place and a verify of what it wrote. -/
theorem wit_StoredChecksAreRightAlignedAndVerify :
    (3 ≤ ({ width := 3 } : ChkUnit).width ∧ ({ width := 64 } : ChkUnit).width ≤ 64) ∧
    (let d := rec0 32 [(5, 1, 1), (8, 8, 3839 * 2 ^ 30), (0x18, 4, 1)]; let e := rec0 32 [(5, 1, 2), (8, 8, 3839 * 2 ^ 30), (0x18, 4, 5)];
      fld d 5 1 = 1 ∧ fld d 0x10 8 = 0 ∧ fld e 5 1 = 2 ∧ fld e 0x10 8 = 0 ∧ fld e 8 8 = fld d 8 8 ∧
      fld e 0x18 4 = fld d 0x18 4 + ({} : ChkUnit).checkBytes ∧ fld d 8 8 + fld d 0x18 4 < 2 ^ 64) := by decide +kernel

/-- An idle unit, a preset, a width of preset 0, and a parameter word of unit 15 (word 29 is its word 5). -/
theorem wit_PresetsLoadEveryParameterAndGiveTheirCheck :
    15 < 16 ∧ ((checking {}).chkUnit 15).busy = none ∧ (0x70000000 : Word).toNat / 0x10000000 = 7 ∧ (64 : Word).toNat / 0x10000000 = 0 ∧
    (3 < 4 ∧ 5 < 6 ∧ 15 / 4 = 3 ∧ ((checking {}).ctxOf .pumphouse 3 14).indAddr = 8 * (15 % 4) + 5) := by decide +kernel

/-- Frames of Tiller 67: with none, 63 and 64 frames retired before; and a page that lies in another frame of that Tiller. -/
theorem wit_FailuresArePostedAndHandled_frames :
    ∀ n ∈ [0, 63, 64],
      let s : State := { live with
        til := { tillers := [(67, { role := .inService })] }
        cis := { hbmRetired := (List.range n).map (fun i => 67 * 16777216 + i)
                 ptes := [(4294967297, { valid := true, tier := 1, tiller := 67, loc := 392000 })] } };
      let u : State := { s with
        cis := { s.cis with hbmRetired := insNat (67 * 16777216 + 393215) s.cis.hbmRetired
                            hbmUsed := s.cis.hbmUsed.filter (fun k => k ≠ 67 * 16777216 + 393215) }
        mem := Memory.clear s.mem (Space.key (.hbm 67) (tierPage * 393215)) tierPage };
      67 < 68 ∧ 393215 < 393216 ∧ (s.tiller 67).role = .inService ∧ 67 * 16777216 + 393215 ∉ s.cis.hbmRetired ∧
      (∀ e ∈ s.cis.ptes, ¬ (e.2.valid = true ∧ e.2.tier = 1 ∧ e.2.tiller = 67 ∧ e.2.loc = 393215)) ∧
      ((u.cis.hbmRetired.filter (fun k => k / 16777216 = 67)).length ≤ 64 ↔ n ≤ 63) := by
  decide +kernel

/-- A Tiller in service and a spare one; a die; the first and the third failed channel of a Well. -/
theorem wit_FailuresArePostedAndHandled_media :
    (∀ r ∈ [Role.inService, Role.spare], let s : State := { live with til := { tillers := [(67, { role := r })] } };
      67 < 68 ∧ ((s.tiller 67).role = .inService ∨ (s.tiller 67).role = .spare)) ∧
    (∀ cs ∈ [[], [248, 249]],
      let s : State := { live with wdl := { wells := [(31, { state := 2, spare := 40000 })], deadChans := cs } };
      let u := s.postFault 6 (80 + 31) 7;
      let v := [0, 1, 2, 3].foldl (fun s i =>
        if s.wdl.deadDies.contains ((31 * 8 + 7) * 4 + i) then s else s.dieLoss ((31 * 8 + 7) * 4 + i))
          ({ u with wdl := { u.wdl with deadChans := insNat (31 * 8 + 7) u.wdl.deadChans } } : State);
      s.wellUp 31 = true ∧ 7 < 8 ∧ 3 < 4 ∧ 31 * 32 + 7 * 4 + 3 ∉ s.wdl.deadDies ∧ 31 * 8 + 7 ∉ s.wdl.deadChans ∧
      ((v.wdl.deadChans.filter (fun x => x / 8 = 31)).length < 3 ↔ cs = [])) := by
  decide +kernel

/-- A Wellhead's first report and its second; a core that lives and one that has failed; planner runs after 24 hours, of a Tiller in
service and of a spare one: whose least slack first suffices at step 2, which find the last column failing, and whose slack suffices
nowhere. -/
theorem wit_FailuresArePostedAndHandled_core :
    (3 < 4 ∧ 3 ∉ live.flt.failedWh ∧ 3 ∈ ({ live with flt := { failedWh := [3] } } : State).flt.failedWh) ∧
    (15 < 16 ∧ live.coreLive 15 = true ∧ ({ live with flt := { failedCores := [15] } } : State).coreLive 15 = false) ∧
    (∀ r ∈ [Role.inService, .spare], ∀ slack ∈ [[-40, -5, 15, 30], [-1]], let s : State := { live with
        til := { tillers := [(67, { role := r })] }
        time := { boundNs := BitVec.ofNat 64 hours24 }
        flt := { planners := [(67, { offset := 4 })] } };
      67 < 68 ∧ ((s.tiller 67).role = .inService ∨ (s.tiller 67).role = .spare) ∧ s.plannerDue 67 = true ∧
      marginStep slack = (if slack = [-1] then none else some 2) ∧
      max ((marginStep slack).getD 12) ((s.planner 67).offset - 1) = (if slack = [-1] then 12 else 3) ∧
      (95 < 96 ∧ 63 < 64 ∧ ((s.tiller 67).array 95).retired = false ∧ 63 ∉ ((s.tiller 67).array 95).bypass ∧
        63 ∉ ((s.tiller 67).array 95).pending) ∧ 67 ∉ s.til.leaving) := by
  decide +kernel

/-- A P-384 public key as an uncompressed point. -/
def fwKey : List Byte := [4] ++
  beBytes 48 0xC6F107BC5C777E93C0FC4B8F97C0E61A7BC027804DD04E1DE9BE6A8343D51CE747D79F30A74FEC4A877A6D1DBBD494F8 ++
  beBytes 48 0x3B3EBAD89FD25AFE84C24C2B9C18BF3118D7BC8D18472F9850F70DB206A127300723FFE2A281242346655C3F01473C06

/-- A firmware image of R511: its version, security version 3, 16 bytes of code, and a signature under that key. -/
def fwImg (v r s : Nat) : List Byte :=
  rec0 64 [(0, 4, 0x57464C59), (4, 4, 1), (8, 4, v), (0xC, 4, 3), (0x10, 8, 16)] ++ fwKey ++ List.replicate 31 0 ++
    beBytes 48 r ++ beBytes 48 s ++ List.replicate 224 0 ++ (List.range 16).map (BitVec.ofNat 8)

/-- Images of versions 1 and 2, signed outside the model. -/
def fwImg1 : List Byte := fwImg 1
  0xAC324F2EF2523BFBD46802DEB67119F53C10E3AC13B9A1829CD3F03C51E2D17C5112D86B71C171F8A18EFD97AFD0F49
  0x5E8ED020D7FF34BE79C4A2EE2CE17D08BAEE82C9E4F4C93F7CEDF0F6765A7A3D8030AD0C8A8B9E7A9723788F6DC8AE5

@[inherit_doc fwImg1] def fwImg2 : List Byte := fwImg 2
  0x139477603ECD5495451F86DC1D6A605CC4309D88A89FD8189569106AF5193818DE65F2CEF35328A5B058ABF53F59B8F1
  0x605BBFE7D9CC10CCDCFF39E81689E39D436B08166A10EE227EDDA335B81AECF82B1CF37072BB95A8FC6EF428BC276291

/-- Fuses that hold that key's hash (its first byte least significant) and a security version in force. -/
def fwFuses (n : Nat) : Fuses := { secMin := n
                                   fwKeyHash := 0x14415444D57E63017EFFA9EE858F684A558B76F8C85DFE55B6DDC531D459AD581D2C565D276B6B0F323CB2302E4978E }

/-- SHA-384 of "abc", as FIPS 180-4's example gives it. -/
theorem test_sha384_abc : beNat (sha384 [0x61, 0x62, 0x63]) =
    0xCB00753F45A35E8BB5A03D699AC65007272C32AB0EDED1631A8B605A43FF5BED8086072BA1E7CC2358BAECA134C825A7 := by decide +kernel

/-- Signed images are accepted at their security version; one above it refuses them with 7, an altered one with 6, and none with 2. -/
theorem test_fwCheck : fwCheck (fwFuses 3) fwImg1 = 0 ∧ fwCheck (fwFuses 3) fwImg2 = 0 ∧ fwCheck (fwFuses 4) fwImg1 = 7 ∧
    fwCheck (fwFuses 3) (patch fwImg1 [(0x208, 1, 9)]) = 6 ∧ fwCheck (fwFuses 3) [] = 2 := by decide +kernel

/-- Power, a start, fuses with Wellhead 0 failed or not, with and without a shadow, the phases from MOUNT to SERVICE, one whose
RECOVERY waits for a port, and an image kept to be persisted. -/
theorem wit_StartUpRunsThroughItsPhases_phases :
    State.reset.boot.powered = false ∧ live.boot.powered = true ∧ live.boot.restartDue = false ∧
    (let s : State := { boot := { powered := true, restartDue := true }, flt := { failedWh := [3] } };
      s.boot.restartDue = true ∧ s.boot.powered = true ∧ s.flt.failedWh.length < 2) ∧
    (∀ w ∈ [[], [0]], ∀ f ∈ [none, some (fwFuses 3)], let s : State := { boot := { powered := true, started := true, shadow := f }, flt := { failedWh := w } };
      s.boot.started = true ∧ s.boot.phase = 0 ∧ (0 ∈ s.flt.failedWh ↔ w = [0]) ∧ s.boot.shadow = f) ∧
    (let s : State := { boot := { started := true, phase := 2 } }; s.boot.phase = 2 ∧ s.boot.started = true) ∧
    ({ boot := { phase := 3 } } : State).boot.phase = 3 ∧
    (∀ b ∈ [true, false], ∀ r ∈ [[], [(0, { kind := 1 })]], let s : State := { boot := { phase := 4, phaseDone := b }, nor := { rings := r } };
      s.boot.phase = 4 ∧ s.boot.phaseDone = b ∧ (s.readBackWaits = true ↔ r ≠ [])) ∧
    (∀ m ∈ [true, false], let s : State := { boot := { persist := some [] }, wdl := { mounted := m } };
      s.boot.persist = some [] ∧ s.wdl.mounted = m) := by decide +kernel

/-- The boot ROM with the two images in its slots. -/
def romOf (a b : List Byte) : State := { boot := { phase := 1, applied := some (fwFuses 3), slotA := a, slotB := b } }

/-- Slot A of the higher version, and of the same one; slot B of the higher, and with a bad slot A; none that is good. -/
theorem wit_StartUpRunsThroughItsPhases_firmware :
    ((romOf [] []).boot.phase = 1 ∧ (romOf [] []).boot.applied.isSome = true) ∧
    (∀ b ∈ [fwImg1, fwImg2], let s := romOf fwImg2 b; fwVersion s.boot.slotB ≤ fwVersion s.boot.slotA) ∧
    fwCheck (romOf fwImg2 []).fusesNow fwImg2 = 0 ∧ fwVersion fwImg1 < fwVersion fwImg2 ∧
    fwCheck (romOf [] fwImg2).fusesNow [] ≠ 0 ∧ (romOf [] []).boot.fwHold = false := by decide +kernel

/-- The start commands' page is live with the Pumphouse at it: no shutdown, and one under way. -/
theorem wit_StartUpRunsThroughItsPhases_shutdown :
    ∀ n ∈ [0, 1], let s : State := { boot := { powered := true, started := true, ready := true, resetState := n } };
      s.gate .pumphouse 0 16 3 = (s, true) ∧ s.boot.resetState = n := by
  intro n hn
  exact ⟨gate_pumphouse (by revert n; decide +kernel), rfl⟩

/-- The FUS page with an address of the host area, 0xEF_C000_0000 plus `o`. -/
def fusing (b : BootSt) (o : Nat) : State := { live with
  boot := { b with powered := true, started := true, ready := true, upStrokes := 10 }
  cis := { hostGib := 1 }
  pg := { regs := [(regKey 0 15 0x110, BitVec.ofNat 32 (0xC0000000 + o)), (regKey 0 15 0x114, 0x3BF)] } }

/-- A permission record of R515, levels 2. -/
def permRec : List Byte := checked 32 [(4, 1, 1), (5, 1, 2), (8, 4, 0xFFFF000F), (0xC, 4, 1)]

theorem store_fusAddr (s : State) (sp : Space) (a : Nat) (b : List Byte) : (s.store sp a b).fusAddr = s.fusAddr := rfl
theorem store_boot (s : State) (sp : Space) (a : Nat) (b : List Byte) : (s.store sp a b).boot = s.boot := rfl
theorem store_fusesNow (s : State) (sp : Space) (a : Nat) (b : List Byte) : (s.store sp a b).fusesNow = s.fusesNow := rfl

/-- PROVISION of an unprovisioned and of a provisioned module. -/
theorem wit_StartUpRunsThroughItsPhases_provision :
    (let s := (fusing {} 0).store .lpddr (3839 * 2 ^ 30) permRec;
      s.gate .pumphouse 0 15 3 = (s, true) ∧ s.boot.fuses.provisioned = false ∧ s.fusAddr % 32 = 0 ∧ s.inHost s.fusAddr 32 = true ∧
      permRec = s.load .lpddr s.fusAddr 32 ∧ crcOk permRec = true) ∧
    (fld permRec 4 1 = 1 ∧ fld permRec 5 1 ≤ 2 ∧ zeros permRec 6 2 = true ∧ permitOk (fld permRec 8 4) = true ∧
      permitOk (fld permRec 0xC 4) = true ∧ zeros permRec 0x10 16 = true) ∧
    (let s := fusing { fuses := { provisioned := true } } 0; s.pageLive .pumphouse 0 15 = true ∧ s.boot.fuses.provisioned = true) := by
  have hl : permRec.length = 32 := by rw [permRec, checked, withCrc_length]; decide +kernel
  have ha : ((fusing {} 0).store .lpddr (3839 * 2 ^ 30) permRec).fusAddr = 3839 * 2 ^ 30 := by
    rw [store_fusAddr]; decide +kernel
  refine ⟨⟨gate_pumphouse ((store_pageLive ..).trans (by decide +kernel)), rfl, ?_, ?_, ?_, checked_crc _ _⟩, by decide +kernel,
    by decide +kernel⟩
  · rw [ha]; decide
  · rw [ha]; exact (store_inHost ..).trans (by decide +kernel)
  · rw [ha, ← hl]; exact (load_store_same _ _ _ _).symm

/-- Lock arguments past 2, not above the level, and above it; security versions not above sec_min, above the running image's, and not
above it; an address that no unit of 32 begins at. -/
theorem wit_StartUpRunsThroughItsPhases_raise :
    let s := fusing { fuses := { lock := 1, secMin := 2 }, runImage := fwImg1 } 16; let f := s.boot.fuses;
    s.pageLive .pumphouse 0 15 = true ∧ 2 < 255 ∧ (1 ≤ 2 ∧ 1 ≤ f.lock) ∧ (2 ≤ 2 ∧ f.lock < 2) ∧ 2 ≤ f.secMin ∧
    (f.secMin < 4 ∧ fwSec s.boot.runImage < 4) ∧ (f.secMin < 3 ∧ 3 ≤ fwSec s.boot.runImage) ∧ s.fusAddr % 32 ≠ 0 := by
  decide +kernel

/-- STORE_FW of a good image: during the hold, with flash read-only, and with slot A and slot B running. -/
theorem wit_StartUpRunsThroughItsPhases_store :
    (∀ s : State, s = fusing { fuses := fwFuses 3 } 0 →
      let t := s.store .lpddr (3839 * 2 ^ 30) fwImg2; let n := fwCode (t.load .lpddr t.fusAddr 512);
      t.gate .pumphouse 0 15 3 = (t, true) ∧ t.fusAddr % 32 = 0 ∧ t.inHost t.fusAddr 512 = true ∧ n ≤ 67108864 ∧
      t.inHost t.fusAddr (512 + n) = true ∧ fwImg2 = t.load .lpddr t.fusAddr (512 + n) ∧
      fwCheck { t.fusesNow with secMin := t.boot.fuses.secMin } fwImg2 = 0) ∧
    (∀ h ∈ [true, false], ∀ r ∈ [true, false], ∀ k ∈ [0, 1], let s : State := { fusing { fwHold := h, running := k } 0 with wdl := { readOnly := r } };
      s.boot.fwHold = h ∧ s.wdl.readOnly = r ∧ s.boot.running = k) := by
  refine ⟨?_, by decide +kernel⟩
  rintro s rfl
  have hl : fwImg2.length = 528 := by decide +kernel
  have ha : ((fusing { fuses := fwFuses 3 } 0).store .lpddr (3839 * 2 ^ 30) fwImg2).fusAddr = 3839 * 2 ^ 30 := by
    rw [store_fusAddr]; decide +kernel
  have hw : ((fusing { fuses := fwFuses 3 } 0).store .lpddr (3839 * 2 ^ 30) fwImg2).load .lpddr (3839 * 2 ^ 30) 528 = fwImg2 := by
    rw [← hl]; exact load_store_same _ _ _ _
  have hn : ((fusing { fuses := fwFuses 3 } 0).store .lpddr (3839 * 2 ^ 30) fwImg2).load .lpddr (3839 * 2 ^ 30) 512 = fwImg2.take 512 :=
    (Memory.readBytes_take _ 512 16 _).trans (congrArg (List.take 512) hw)
  have hc : fwCode (fwImg2.take 512) = 16 := by decide +kernel
  have hf : fwCheck { (fusing { fuses := fwFuses 3 } 0).fusesNow with secMin := 3 } fwImg2 = 0 := by decide +kernel
  simp only [ha, hn, hc, hw, store_boot, store_fusesNow]
  refine ⟨gate_pumphouse ((store_pageLive ..).trans (by decide +kernel)), by decide, (store_inHost ..).trans (by decide +kernel), by decide,
    (store_inHost ..).trans (by decide +kernel), trivial, hf⟩

/-- The time commands' page is live. -/
theorem wit_StartUpRunsThroughItsPhases_time : live.gate .pumphouse 120 1 3 = (live, true) := gate_pumphouse (by decide +kernel)

/-- The debug port open: core 15 there, running, halted, and halted with a claim forced from it; a trigger on stores to an address
that core 15 matches; register numbers, sizes and addresses at their bounds. -/
theorem wit_DebugReachesHartsAndClaims_open :
    live.portOpen = true ∧ 15 < 16 ∧ live.coreThere 15 = true ∧ 15 ∉ live.dbg.halted ∧
    (∀ f ∈ [[], [15]], let s : State := { live with dbg := { halted := [3, 15], forced := f } };
      s.portOpen = true ∧ 15 ∈ s.dbg.halted ∧ (15 ∈ s.dbg.forced ↔ f = [15])) ∧
    (let s : State := { live with dbg := { trig := [(63, (6 * 2 ^ 60 + 2 ^ 12 + 2, 0x80))] } };
      s.portOpen = true ∧ 15 ∉ s.dbg.halted ∧ s.coreThere 15 = true ∧
      trigMatch (Tbl.val (0, 0) s.dbg.trig (15 * 4 + 7 % 4)).1 (Tbl.val (0, 0) s.dbg.trig (15 * 4 + 7 % 4)).2 1 0x80 = true) ∧
    (regnoOk 0x103F = true ∧ regnoOk 0x1040 = false) ∧
    ((0x3FFFFFFFFF8 % 8 = 0 ∧ lpddrOk 0x3FFFFFFFFF8 8 = true) ∧ (0x3FFFFFFFFFC % 4 = 0 ∧ lpddrOk 0x3FFFFFFFFFC 4 = true) ∧
      (4 % 8 ≠ 0 ∧ 0x40000000000 % 8 = 0 ∧ lpddrOk 0x40000000000 8 = false)) := by decide +kernel

/-- The port closed; a claim scan and a forced claim, of counter 131,071 owned by core 15: the owner as expected, and another; the end
of a scan. -/
theorem wit_DebugReachesHartsAndClaims_claims :
    ({ live with boot := { live.boot with lock := 2 } } : State).portOpen = false ∧
    (∀ o ∈ [0x2F000001, 0x2F000002],
      let s : State := { live with nor := { ctrs := [(131071, 0x2F000001)] }
                                   pg := { regs := [(regKey 0 16 0x10C, 131071), (regKey 0 16 0x110, BitVec.ofNat 32 o)] } };
      let r := s.ctrOp 3 ((s.reg 0 16 0x10C).toNat % 131072) (s.reg 0 16 0x110).toNat 0 0;
      s.gate .pumphouse 0 16 3 = (s, true) ∧ (r.2.2 = 0 ↔ o = 0x2F000001) ∧
      (s.reg 0 16 0x110).toNat / 268435456 = 2 ∧ (s.reg 0 16 0x110).toNat / 16777216 % 16 = 15) ∧
    ({ live with dbg := { scan := some 0x2F } } : State).dbg.scan = some 0x2F := by
  refine ⟨by decide +kernel, ?_, rfl⟩
  intro o ho
  exact ⟨gate_pumphouse (by revert o; decide +kernel), by revert o; decide +kernel⟩

/-- The TAP of a module that is powered and of one that is not; the port open, and shut down, and closed; EXTEST under way; pages that
a level reaches and does not. -/
theorem wit_TapAndManagementBusAnswer_tap :
    live.tapLive = true ∧ State.reset.tapLive = false ∧ live.regReached 0 15 = true ∧ live.portOpen = true ∧ live.boot.resetState ≠ 2 ∧
    (let s : State := { live with boot := { live.boot with resetState := 2 } }; s.tapLive = true ∧ s.portOpen = true ∧ s.boot.resetState = 2) ∧
    (let s : State := { live with dbg := { extest := true } }; s.tapLive = true ∧ s.dbg.extest = true) ∧
    (let s : State := { live with boot := { live.boot with lock := 1 } };
      s.tapLive = true ∧ s.portOpen = false ∧ s.regReached 0 15 = false ∧ s.regReached 120 0 = false ∧ s.regReached 75 34 = true ∧ s.regReached 0 16 = true) := by
  decide +kernel

/-- An unlock that succeeds, over the nonce and the serial, and one that fails: the seventh and the eighth. -/
theorem wit_TapAndManagementBusAnswer_unlock :
    (let s : State := { live with boot := { live.boot with
                                    lock := 1
                                    fuses := { serial := 0x99, dbgKeyHash := (fwFuses 0).fwKeyHash } }
                                  dbg := { nonce := 0x1122334455667788 } };
      s.tapLive = true ∧ s.unlockReached = true ∧ s.dbg.barred = false ∧ s.unlockOk fwKey
        (beBytes 48 0x5F860D93899FB1951D33F0889E6BB96E40E7F64E5C62ACB3100540468D067DA0261D4F2FD3BE94F7672E0ED6EFB3FBDC ++
          beBytes 48 0xA9D396AC95A2FEACD062FABFD7C8290794F883F08D504B4F110E954C1CA8BAD71DA5934B1F0B692D1A9E9E769A9F1722) = true) ∧
    (∀ n ∈ [6, 7], let s : State := { live with dbg := { failures := n } };
      s.tapLive = true ∧ s.unlockReached = true ∧ s.dbg.barred = false ∧ s.unlockOk [] [] = false ∧ (8 ≤ s.dbg.failures + 1 ↔ n = 7)) := by
  decide +kernel

/-- The management bus 200 and 1,200 strokes after power, in the first phase and after it, with a sample of the input power and none. -/
theorem wit_TapAndManagementBusAnswer_bus :
    ∀ n ∈ [200, 1200], ∀ p ∈ [0, 5], ∀ w ∈ [[], [900]],
      let s : State := { live with boot := { live.boot with upStrokes := n, phase := p }, pwr := { watts := w } };
      s.tapLive = true ∧ 200 ≤ s.boot.upStrokes ∧ (1200 ≤ s.boot.upStrokes ↔ n = 1200) ∧ (s.boot.phase = 0 ↔ p = 0) ∧
      (s.pwr.watts = [] ↔ w = []) := by decide +kernel

/-- A queue that is empty; and a state that lists a byte of memory, in its canonical form, whose step answers a next state. -/
theorem wit_EveryStepKeepsTheMemoryCanonical :
    State.reset.pending = [] ∧
    (let s : State := { State.reset with mem := [⟨5, 1⟩], pending := [.powerOn] }; s.memOk ∧ ∃ t, step s = .next t) :=
  ⟨rfl, by unfold State.memOk; decide +kernel, ⟨_, rfl⟩⟩

/-- Chapter 10's worked example: the draw of seed 0 at seq 0 is 6,694,888 / 2^24 (R227). -/
theorem test_draw : drawU 0 0 = rn (.fin false 6694888 (-24)) := by decide +kernel

/-- The same example's selection: token 1,033 of four kept (R226). -/
theorem test_drawToken :
    let sel := [(0x40C00000, 412), (0x40B00000, 1033), (0x40B00000, 9077), (0x40A00000, 20310)];
    (drawToken 0x3F666666 0 0 sel (sel.map (fun e => winTerm true 0x40C00000 e.1))).map (fun r => (r.1, r.2.1)) = some (1033, 4) := by
  decide +kernel

/-- Chapter 11's worked example: "the" and " thee" under the toy table's merges become 257 and 258 101, in 2 and 3 merges (R243). -/
theorem test_merge :
    let ms := [(116, 104, 256), (256, 101, 257), (32, 257, 258), (101, 101, 259), (256, 259, 260)];
    let run := fun (l : List Nat) => let r := mergeChunk ms 8 (l.map (fun b => (b, 1))) 0; (r.1.map Prod.fst, r.2);
    run [116, 104, 101] = ([257], 2) ∧ run [32, 116, 104, 101, 101] = ([258, 101], 3) := by decide +kernel

/-- Chapter 12's worked example: ADAGRAD_ROW on [1, 0.25, −0.5, 0] with g = [0.75, 0.25, 0.5, 0] (R265). -/
theorem test_adagrad :
    updateRow (rec0 128 [(5, 1, 10), (6, 1, 2), (0x10, 4, 16), (0x30, 4, 0x3E000000), (0x34, 4, 0x3D000000)])
      [0x3F800000, 0x3E800000, 0xBF000000, 0] [0x3F400000, 0x3E800000, 0x3F000000, 0] 0 =
    ([0x3F500000, 0x3E400000, 0xBF200000, 0], 0x3E600000) := by decide +kernel

/-- Chapter 8's worked example: with site 13 dead, site 4 reaches site 58 by site 3, and its table reads 0xC000_0003 (R168). -/
theorem test_route : routeOf [13] 4 58 = (2, 3) ∧ routeWord [13] 4 58 = 0xC0000003 := by decide +kernel

/-- Chapter 22's worked example: "123456789" under preset 1 gives 0xE306_9283, laid least significant byte first, and under preset 7
0x29B1, laid most significant byte first (R482). -/
theorem test_check :
    let run := fun n => (((({} : ChkUnit).load n).restart).feeds ((List.range 9).map (fun i => BitVec.ofNat 8 (0x31 + i)))).check;
    run 1 = [0x83, 0x92, 0x06, 0xE3] ∧ run 7 = [0x29, 0xB1] := by decide +kernel

/-- Chapter 19's worked example: the mark checked in local stroke 40 lies 18,048 ns before that stroke's opening; at the boundary that opens
stroke 41 the module waits 31,952 ns for ring stroke 8,400,123 (R51). -/
theorem test_join : joinAlign { mark0 with stroke := 8400120, offsetNs := -18048 } 40 41 = (8400123, 31952) := by decide +kernel

/-- Chapter 4's worked example: cost 1,424; green, green, yellow, yellow, red; the fifth is told to wait 560 strokes (R73 to R75). -/
theorem test_meter :
    let m : Meter := { w := [0x80000000, 20000, 40000, 3000, 6000, 64 * 65536 + 256, 0, 0], tc := 3000 * 256, tp := 6000 * 256 };
    let go := fun (n : Nat) => (List.range n).foldl (fun (a : List Nat × Meter) _ =>
      let r := meterBoth a.2 {} 4096 400; (a.1 ++ [r.1], r.2.1)) ([], m);
    m.cost 4096 400 = 1424 * 256 ∧ (go 5).1 = [0, 0, 1, 1, 2] ∧ redWait (go 4).2 {} false 4096 400 = 560 := by decide +kernel

/-- Chapter 20's worked example: acknowledging TIL_STAT at 0x2D clears split (0x2B) and keeps refused (0x2E); the error is kept until
acknowledged at 0x2E (R450, R451). -/
theorem test_ack :
    let p : Page := { seq := 0x2E, errCode := 8, errSeq := 0x2E, errCount := 2, sq := [(sqBit 0x118 1, 0x2B), (sqBit 0x118 0, 0x2E)] };
    (p.sqWrite 0x118 0x2D000003).sqWord 0x118 = 1 ∧ (p.errAck 0x2D).errWord = 0x2E020008 ∧ (p.errAck 0x2E).errWord = 0x2E000000 := by
  decide +kernel

/-- Chapter 23's worked example: the least step with 15 ps of slack (R503). -/
theorem test_margin : marginStep [-13, -7, -1, 5, 11, 17] = some 5 := by decide +kernel

end Sys2Proof.Tests
end

section
/-! PROOFS. The life of a question: what each of the family's commands runs, and how the shared operations of a request's slot,
its rings and its journal act on the fields that the statements speak of. -/

namespace Sys2Proof.Machine

/-! ### The meaning that a command runs -/

section
variable (s : State) (req : Requester)
@[simp] theorem exec_submit (r : Nat) : exec (.submit r) s = .next (submit s r) := rfl
@[simp] theorem exec_cancel (r : Nat) : exec (.cancel r) s = .next (cancel s r) := rfl
@[simp] theorem exec_admitDurable (n : Nat) : exec (.admitDurable n) s = .next (admitDurable s n) := rfl
@[simp] theorem exec_frontDurable (n : Nat) : exec (.frontDurable n) s = .next (frontDurable s n) := rfl
@[simp] theorem exec_doneDurable (n : Nat) : exec (.doneDurable n) s = .next (doneDurable s n) := rfl
@[simp] theorem exec_citationMapPost (n : Nat) : exec (.citationMapPost n) s = .next (citationMapPost s n) := rfl
@[simp] theorem exec_journalProgrammed (w k : Nat) : exec (.journalProgrammed w k) s = .next (journalProgrammed s w k) := rfl
@[simp] theorem exec_dedupExpiry (sub : Nat) (tag : Word64) : exec (.dedupExpiry sub tag) s = .next (dedupExpiry s sub tag.toNat) := rfl
@[simp] theorem exec_journalRetentionExpiry (n : Nat) :
    exec (.journalRetentionExpiry n) s = .next (journalRetentionExpiry s n) := rfl
@[simp] theorem exec_deadlineExpiry (n : Nat) : exec (.deadlineExpiry n) s = .next (deadlineExpiry s n) := rfl
@[simp] theorem exec_prefillComplete (n : Nat) : exec (.prefillComplete n) s = .next (prefillComplete s n) := rfl
@[simp] theorem exec_park (n : Nat) : exec (.park n) s = .next (park s n) := rfl
@[simp] theorem exec_pageWaitPark (j : Nat) : exec (.pageWaitPark j) s = .next (pageWaitPark s j) := rfl
@[simp] theorem exec_shareLookup (n : Nat) : exec (.shareLookup n) s = .next (shareLookup s n) := rfl
@[simp] theorem exec_catalogueGraceExpiry (n : Nat) :
    exec (.catalogueGraceExpiry n) s = .next (catalogueGraceExpiry s n) := rfl
@[simp] theorem exec_decodeStepEnd (j us ns : Nat) (bad : List Nat) :
    exec (.decodeStepEnd j us ns bad) s = .next (decodeStepEnd s j (1000 * us + ns) bad) := rfl
@[simp] theorem exec_batchListWrite : exec .batchListWrite s = .next (batchListWrite s) := rfl
@[simp] theorem exec_replayCatchUp (n : Nat) (steps : List (List Nat)) (bad : List Nat) (t : Nat) :
    exec (.replayCatchUp n steps bad t) s = .next (replayCatchUp s n steps bad t) := rfl
@[simp] theorem exec_consumerIndexPost (r : Nat) : exec (.consumerIndexPost r) s = .next (consumerIndexPost s r) := rfl
@[simp] theorem exec_consumerIndexRead (r : Nat) (v : Word64) :
    exec (.consumerIndexRead r v) s = .next (consumerIndexRead s r v.toNat) := rfl
@[simp] theorem exec_crossPortFence (a b : Nat) : exec (.crossPortFence a b) s = .next (crossPortFence s a b) := rfl
@[simp] theorem exec_powerOn : exec .powerOn s = .next (powerOn s) := rfl
@[simp] theorem exec_restart : exec .restart s = .next (restart s) := rfl
@[simp] theorem exec_fuseLoad (ok : Bool) : exec (.fuseLoad ok) s = .next (fuseLoad s ok) := rfl
@[simp] theorem exec_firmwareLoad : exec .firmwareLoad s = .next (firmwareLoad s) := rfl
@[simp] theorem exec_mount (dj : Nat) (wells : List Nat) : exec (.mount dj wells) s = .next (mount s dj wells) := rfl
@[simp] theorem exec_rebuild : exec .rebuild s = .next (rebuild s) := rfl
@[simp] theorem exec_recovery : exec .recovery s = .next (recovery s) := rfl
@[simp] theorem exec_serviceEntry : exec .serviceEntry s = .next (serviceEntry s) := rfl
@[simp] theorem exec_firmwarePersist : exec .firmwarePersist s = .next (firmwarePersist s) := rfl
@[simp] theorem exec_shutdown : exec (.shutdown req) s = .next (shutdown s req) := rfl
@[simp] theorem exec_dbgReset : exec (.dbgReset req) s = .next (dbgReset s req) := rfl
@[simp] theorem exec_provision : exec (.provision req) s = .next (provision s req) := rfl
@[simp] theorem exec_storeFw : exec (.storeFw req) s = .next (storeFw s req) := rfl
@[simp] theorem exec_timeStage : exec (.timeStage req) s = .next (timeStage s req) := rfl
@[simp] theorem exec_timeCancel : exec (.timeCancel req) s = .next (timeCancel s req) := rfl
end

/-! Operands wider than their field are cut; within it they are taken as they are. -/

section
variable (s : State) (req : Requester)
theorem exec_doorbellWrite {port rid : Nat} (v : Word64) (al : Bool) (hp : port < 2) (hr : rid < 131072) :
    exec (.doorbellWrite port rid v al) s = .next (doorbellWrite s port rid v.toNat al) := by
  show Host.Outcome.next (doorbellWrite s (port % 2) (rid % 131072) v.toNat al) = _
  rw [Nat.mod_eq_of_lt hp, Nat.mod_eq_of_lt hr]

theorem exec_ringCreate {rid : Nat} (hr : rid < 131072) : exec (.ringCreate req rid) s = .next (ringCreate s req rid) := by
  show Host.Outcome.next (ringCreate s req (rid % 131072)) = _
  rw [Nat.mod_eq_of_lt hr]

theorem exec_ringDestroy {rid : Nat} (hr : rid < 131072) : exec (.ringDestroy req rid) s = .next (ringDestroy s req rid) := by
  show Host.Outcome.next (ringDestroy s req (rid % 131072)) = _
  rw [Nat.mod_eq_of_lt hr]

theorem exec_raiseLock {arg : Nat} (h : arg < 256) : exec (.raiseLock req arg) s = .next (raiseLock s req arg) := by
  show Host.Outcome.next (raiseLock s req (arg % 256)) = _
  rw [Nat.mod_eq_of_lt h]

theorem exec_raiseSec {arg : Nat} (h : arg < 256) : exec (.raiseSec req arg) s = .next (raiseSec s req arg) := by
  show Host.Outcome.next (raiseSec s req (arg % 256)) = _
  rw [Nat.mod_eq_of_lt h]
end

/-! ### Slots, rings and journal -/

@[simp] theorem State.reserve_req (s : State) (rid : Nat) : (s.reserve rid).2.req = s.req := by
  unfold State.reserve
  split <;> rfl

@[simp] theorem State.consume_req (s : State) (rid : Nat) (r : Ring) : (s.consume rid r).req = s.req := rfl

theorem State.look_consume (s : State) (rid : Nat) (r : Ring) :
    Tbl.look (s.consume rid r).nor.rings rid = some { r with cons := r.cons + 1 } :=
  Tbl.look_put_same _ _ _

/-- A slot is read from the request table alone. -/
theorem State.slot_of_req {s t : State} (h : t.req = s.req) (n : Nat) : t.slot n = s.slot n := by
  unfold State.slot
  rw [h]

@[simp] theorem State.slot_journalAdd (s : State) (k typ : Nat) (b : List Byte) (n : Nat) :
    (s.journalAdd k typ b).slot n = s.slot n := rfl

/-- A journal record joins the journal at its end, not yet durable (R44). -/
theorem State.journal_journalAdd (s : State) (n typ : Nat) (b : List Byte) :
    ∃ j : JRec, (s.journalAdd n typ b).req.journal = s.req.journal ++ [j] ∧ j.slot = n ∧ j.typ = typ ∧ j.durable = false :=
  ⟨_, rfl, rfl, rfl, rfl⟩

/-! ### SUBMIT (R28) -/

section
variable {s : State} {rid : Nat} {r : Ring} {comp : Nat} {d : List Byte}

/-- A descriptor that SUBMIT takes and that fails a check is refused with the check's code; a full de-duplication set raises its event
besides (R32). -/
theorem submit_of_failed (hd : s.nextDesc rid = some (r, comp, d)) (hop : ¬(descOp d = 1 ∧ crcOk d = true))
    (hin : descInline d = true ∨ (s.hp r.port).readOk (descInAddr d) = true) {code aux : Nat}
    (hc : (s.consume rid r).submitCheck r d (s.fetchInput r d) = some (code, aux)) :
    submit s rid = (if code = 0xC then (s.consume rid r).event ((s.consume rid r).whOf (descSub d % 4)) 0 [sqBit 0x110 1] []
      else s.consume rid r).postRefuse comp d code aux := by
  have hread : (!descInline d && !(s.hp r.port).readOk (descInAddr d) && crcOk d) = false := by
    rcases hin with h | h <;> simp [h]
  simp only [submit, hd, if_neg hop, hread, Bool.false_eq_true, if_false, hc]

/-- One that fails none goes on to the meters. -/
theorem submit_of_passed (hd : s.nextDesc rid = some (r, comp, d)) (hop : ¬(descOp d = 1 ∧ crcOk d = true))
    (hin : descInline d = true ∨ (s.hp r.port).readOk (descInAddr d) = true)
    (hc : (s.consume rid r).submitCheck r d (s.fetchInput r d) = none) :
    submit s rid = (s.consume rid r).submitMeter r comp d (s.fetchInput r d) := by
  have hread : (!descInline d && !(s.hp r.port).readOk (descInAddr d) && crcOk d) = false := by
    rcases hin with h | h <;> simp [h]
  simp only [submit, hd, if_neg hop, hread, Bool.false_eq_true, if_false, hc]
end

/-- The colour that metering gives a descriptor: red where the delay ceiling guards its service (R74, R80). -/
def State.meterHue (s : State) (d : List Byte) : Nat :=
  if s.guardRed (descSub d) (descService d) then 2
  else (meterBoth (s.meter (svcKey (descSub d) (descService d))) (s.meter (aggKey (descSub d))) (descMaxPrompt d) (descMaxNew d)).1

section
variable {s : State} {r : Ring} {d inp : List Byte}

theorem State.submitMeter_of_red (comp : Nat) (h : meterRefuses (s.meter (svcKey (descSub d) (descService d))) (s.meterHue d) = true) :
    ∃ q, s.submitMeter r comp d inp = ((s.noteActive q).noteRed (descSub d) (descService d)).postRefuse comp d 9
      (redWait (s.meter (svcKey (descSub d) (descService d))) (s.meter (aggKey (descSub d)))
        (s.guardRed (descSub d) (descService d)) (descMaxPrompt d) (descMaxNew d)) := by
  unfold State.meterHue at h
  simp only [State.submitMeter, h, if_true]
  exact ⟨_, rfl⟩

/-- A service 0 request that the meters pass is enrolled where a slot and staging room are found: no slots are kept from it (R29). -/
theorem State.submitMeter_of_room (comp : Nat) {n : Nat}
    (h : meterRefuses (s.meter (svcKey (descSub d) (descService d))) (s.meterHue d) = false)
    (hn : s.pickSlot (s.coreOf r.core) = some n) (h0 : descService d = 0)
    (hroom : s.staging (r.core / 4) + 320 + (if descInline d then 0 else (pad16 inp).length) ≤ stagingLimit) :
    ∃ q, s.submitMeter r comp d inp =
      ((s.noteActive q).bump ((s.noteActive q).sliceWh (descSub d)) 11 0x108 1).enrol d inp comp n (s.meterHue d) := by
  unfold State.meterHue at h ⊢
  have hpick (q w v : Nat) : (((s.noteActive q).bump w 11 0x108 v).pickSlot (((s.noteActive q).bump w 11 0x108 v).coreOf r.core)) =
      some n := hn
  have hstaging (q w v : Nat) : ¬ stagingLimit <
      ((s.noteActive q).bump w 11 0x108 v).staging (r.core / 4) + 320 + (if descInline d then 0 else (pad16 inp).length) :=
    Nat.not_lt.2 hroom
  rw [h0] at h
  simp only [State.submitMeter, h0, h, Bool.false_eq_true, if_false, hpick, ne_eq, not_true_eq_false, false_and, hstaging]
  exact ⟨_, rfl⟩
end

/-- Admission fills the slot with the descriptor and its input, not yet accepted (R29). -/
theorem State.slot_enrol (s : State) (d inp : List Byte) (comp n colour : Nat) :
    ((s.enrol d inp comp n colour).slot n).state = .admitted ∧ ((s.enrol d inp comp n colour).slot n).desc = d ∧
      ((s.enrol d inp comp n colour).slot n).input = inp ∧ ((s.enrol d inp comp n colour).slot n).acceptNs = none := by
  simp only [State.enrol, State.slot_journalAdd, State.slot_setSlot, and_self]

/-- Admission journals one record, the slot's ADMIT (R30, R31). -/
theorem State.journal_enrol (s : State) (d inp : List Byte) (comp n colour : Nat) :
    ∃ j : JRec, (s.enrol d inp comp n colour).req.journal = s.req.journal ++ [j] ∧ j.slot = n ∧ j.typ = 1 ∧ j.durable = false := by
  rw [← State.reserve_req s comp]
  exact State.journal_journalAdd _ n 1 _

/-- Settles O1: the descriptor is taken first, and every outcome is then a case of the checks, the meters and the room. -/
theorem submitTakesOneDescriptor : Obligations.SubmitTakesOneDescriptor := by
  intro s c rid r comp d inp hd hop hin hc hinp
  subst hc hinp
  refine ⟨by rw [State.look_consume]; rfl, ?_, ?_, ?_⟩
  · intro code aux hcheck hcode
    rw [exec_submit, submit_of_failed hd hop hin hcheck, if_neg hcode]
  · intro aux hcheck
    rw [exec_submit, submit_of_failed hd hop hin hcheck, if_pos rfl]
  · intro svc agg hcheck hsvc hagg
    subst hsvc hagg
    rw [exec_submit, submit_of_passed hd hop hin hcheck]
    refine ⟨fun hred => ?_, fun n hpass hn h0 hroom => ?_⟩
    · obtain ⟨q, hq⟩ := State.submitMeter_of_red (r := r) (inp := s.fetchInput r d) comp hred
      exact ⟨q, congrArg _ hq⟩
    · obtain ⟨q, hq⟩ := State.submitMeter_of_room (r := r) comp hpass hn h0 hroom
      obtain ⟨hstate, hdesc, hinput, haccept⟩ := State.slot_enrol
        (((s.consume rid r).noteActive q).bump (((s.consume rid r).noteActive q).sliceWh (descSub d)) 11 0x108 1)
        d (s.fetchInput r d) comp n ((s.consume rid r).meterHue d)
      exact ⟨_, congrArg _ hq, hstate, hdesc, hinput, haccept, State.journal_enrol _ _ _ _ _ _⟩

/-! ### CANCEL (R33) -/

section
variable {s : State} {rid : Nat} {r : Ring} {comp : Nat} {d : List Byte} (hd : s.nextDesc rid = some (r, comp, d))
  (hop : descOp d = 1) (hcrc : crcOk d = true) (hver : descVersion d = 1) (hzero : zeros d 0xD 3 = true) (hsub : descSub d = r.bind)
include hd hop hcrc hver hzero hsub

/-- A checked CANCEL that names no request of its subscriber is refused. -/
theorem cancel_of_unknown (hnone : s.liveTag (descSub d) (descTag d) = none) :
    cancel s rid = (s.consume rid r).postRefuse comp d 0xD 0 := by
  have hnone' : (s.consume rid r).liveTag (descSub d) (descTag d) = none := hnone
  simp only [cancel, hd, hop, hcrc, hver, hzero, ← hsub, hnone', and_self, not_true_eq_false, if_false, ne_eq, Bool.true_eq_false,
    or_self]

/-- One that names a request marks it, unless the request is ending already. -/
theorem cancel_of_known {n : Nat} (hlive : s.liveTag (descSub d) (descTag d) = some n) :
    cancel s rid = if (s.slot n).state = .draining ∨ (s.slot n).state = .done then s.consume rid r
      else (s.consume rid r).setSlot n { s.slot n with cancel := true } := by
  have hlive' : (s.consume rid r).liveTag (descSub d) (descTag d) = some n := hlive
  simp only [cancel, hd, hop, hcrc, hver, hzero, ← hsub, hlive', and_self, not_true_eq_false, if_false, ne_eq, Bool.true_eq_false,
    or_self, State.slot_of_req (State.consume_req s rid r)]
end

/-- Settles O2: past the checks, only the look-up of the tag decides. -/
theorem cancelMarksTheLiveRequest : Obligations.CancelMarksTheLiveRequest := by
  intro s rid r comp d hd hop hcrc hver hzero hsub
  refine ⟨fun n hlive hdrain hdone => ?_, fun hnone => ?_⟩
  · rw [exec_cancel, cancel_of_known hd hop hcrc hver hzero hsub hlive, if_neg (not_or.2 ⟨hdrain, hdone⟩)]
  · rw [exec_cancel, cancel_of_unknown hd hop hcrc hver hzero hsub hnone]

end Sys2Proof.Machine
end

section
/-! PROOFS. Durable records, the journal and the de-duplication set: each command's own case (R30 to R32, R41, R44, R45). -/

namespace Sys2Proof.Machine

/-! ### Durable records (R31, R41, R44) -/

section
variable {s : State} {n comp : Nat}

/-- An ADMIT record that becomes durable while its pair is new: the pair joins the set and ACCEPT takes its position (R31, R32). -/
theorem admitDurable_of_new (hst : (s.slot n).state = .admitted) (hdur : (s.slot n).admitDurable = false)
    (hmay : s.mayBeDurable n 1 = true) (hcomp : s.compRing (descSub (s.slot n).desc) = some comp)
    (hnew : s.dedupLookup (descSub (s.slot n).desc) (descTag (s.slot n).desc) = none) :
    admitDurable s n = ((((({ s with req := { s.req with dedup := s.req.dedup ++
      [{ sub := descSub (s.slot n).desc, tag := descTag (s.slot n).desc, slot := n, acceptNs := s.nowNs }] } } : State).journalDurable n 1).setSlot n
        { s.slot n with admitDurable := true }).fillRing comp (s.slot n).acceptPos
          (s.acceptRec n (s.slot n) (s.slot n).acceptPos)).settle) := by
  unfold admitDurable
  simp only [hst, hdur, hmay, hcomp, hnew, and_self, not_true_eq_false, if_false]
  rfl

/-- One whose pair has been taken meanwhile: its debits go back and REFUSE takes the position of its ACCEPT (R32, log entry 47). -/
theorem admitDurable_of_taken (hst : (s.slot n).state = .admitted) (hdur : (s.slot n).admitDurable = false)
    (hmay : s.mayBeDurable n 1 = true) (hcomp : s.compRing (descSub (s.slot n).desc) = some comp) {code aux : Nat}
    (htaken : s.dedupLookup (descSub (s.slot n).desc) (descTag (s.slot n).desc) = some (code, aux)) {a : State}
    (ha : a = ((s.restoreDebits (s.slot n)).journalDrop n 1).setSlot n { state := .done, desc := (s.slot n).desc, refused := true }) :
    admitDurable s n = (a.fillRing comp (s.slot n).acceptPos
      (a.refuseRec (s.slot n).desc code aux (s.slot n).acceptPos)).settle := by
  subst ha
  unfold admitDurable
  simp only [hst, hdur, hmay, hcomp, htaken, and_self, not_true_eq_false, if_false]

/-- A FRONT record that becomes durable: the prompt tokens not used go back once, and the request goes on to PREFILL, or ends where it
has no generation (R44, R77). -/
theorem frontDurable_of_journaled (hst : (s.slot n).state = .front) (hjour : (s.slot n).frontJournaled = true)
    (hdur : (s.slot n).frontDurable = false) (hmay : s.mayBeDurable n 2 = true) {a : State}
    (ha : a = if (s.slot n).promptRefunded then s.journalDurable n 2 else
      (s.journalDurable n 2).refundBoth (s.slot n) (descMaxPrompt (s.slot n).desc - (s.slot n).promptTokens.length) 0) {y : Slot}
    (hy : y = { s.slot n with frontDurable := true, promptRefunded := true, mapPending := descMap (s.slot n).desc }) :
    frontDurable s n = if descService (s.slot n).desc ≤ 1 then a.setSlot n { y with state := .prefill }
      else (a.setSlot n y).beginDrain n 6 := by
  subst ha hy
  unfold frontDurable
  simp only [hst, hjour, hdur, hmay, and_self, not_true_eq_false, if_false]

/-- A DONE record that becomes durable once the request's output and its map are written and no fence is owed: the tokens not made go
back once, and DONE takes its position (R37, R41, R77, R285, R380). -/
theorem doneDurable_of_written (hst : (s.slot n).state = .draining) (hdur : (s.slot n).doneDurable = false)
    (hmay : s.mayBeDurable n 4 = true) (hcomp : s.compRing (descSub (s.slot n).desc) = some comp) (hout : s.outPending n = false)
    (hmap : descService (s.slot n).desc ≤ 1 ∨ (s.slot n).mapPending = false) (hfence : s.fenceOwed (s.slot n) comp = false) {a : State}
    (ha : a = if (s.slot n).doneRefunded then s else s.refundBoth (s.slot n) 0 (descMaxNew (s.slot n).desc - (s.slot n).tokensOut)) :
    doneDurable s n = ((({ a.journalDurable n 4 with nor := { (a.journalDurable n 4).nor with
        fenced := a.nor.fenced.filter (fun e => e ≠ (descOut (s.slot n).desc, comp)) } } : State).setSlot n
        { s.slot n with doneDurable := true, doneRefunded := true }).fillRing comp (s.slot n).donePos
          (s.doneRec n (s.slot n) (s.slot n).donePos)).settle := by
  have hmap' : (decide (1 < descService (s.slot n).desc) && (s.slot n).mapPending) = false := by
    rcases hmap with h | h
    · simp [Nat.not_lt.2 h]
    · simp [h]
  subst ha
  unfold doneDurable
  simp only [hst, hdur, hmay, hcomp, hout, hmap', hfence, and_self, not_true_eq_false, if_false, Bool.or_self, Bool.false_eq_true]
  rfl
end

/-- Settles O3: each record's clause is its command's own case. -/
theorem durableRecordsMoveARequestOn : Obligations.DurableRecordsMoveARequestOn := by
  refine ⟨?_, ?_, ?_⟩
  · rintro s n comp x rfl hst hdur hmay hcomp
    refine ⟨fun hnew a ha => ?_, fun code aux htaken a ha => ?_⟩
    · rw [exec_admitDurable, admitDurable_of_new hst hdur hmay hcomp hnew, ha]
    · rw [exec_admitDurable, admitDurable_of_taken hst hdur hmay hcomp htaken ha]
  · rintro s n x rfl hst hjour hdur hmay a ha
    have hfront := frontDurable_of_journaled hst hjour hdur hmay ha rfl
    refine ⟨fun hsvc => ?_, fun hsvc => ?_⟩
    · rw [exec_frontDurable, hfront, if_pos hsvc]
    · rw [exec_frontDurable, hfront, if_neg (Nat.not_le.2 hsvc)]
  · rintro s n comp x rfl hst hdur hmay hcomp hout hmap hfence a ha
    rw [exec_doneDurable, doneDurable_of_written hst hdur hmay hcomp hout hmap hfence ha]

/-! ### Journal and de-duplication set with time (R32, R45) -/

/-- The ACCEPT time that a slot's records are kept from: its own, or where it names none that of its latest ADMIT record. -/
theorem journalRetentionExpiry_eq {s : State} {n : Nat} (hdead : (s.slot n).live = false) :
    journalRetentionExpiry s n = if s.nowNs < (s.slot n).acceptNs.getD (s.admitTime n) + 600000000000 then s
      else { s with req := { s.req with journal := s.req.journal.filter (fun r => r.slot ≠ n) } } := by
  unfold journalRetentionExpiry
  simp only [hdead, Bool.false_eq_true, false_or]
  cases (s.slot n).acceptNs <;> rfl

/-- DEDUP_EXPIRY of a pair in the set: it stays while its request is live and until its 600 s are over (R32). -/
theorem dedupExpiry_eq {s : State} {sub tag : Nat} {e : Dedup} (he : s.dedupFind sub tag = some e) :
    dedupExpiry s sub tag =
      if ((s.slot e.slot).live = true ∧ descSub (s.slot e.slot).desc = sub ∧ descTag (s.slot e.slot).desc = tag) ∨
        s.nowNs < e.acceptNs + 600000000000 then s
      else { s with req := { s.req with dedup := s.req.dedup.filter (fun d => !(decide (d.sub = sub) && decide (d.tag = tag))) } } := by
  unfold dedupExpiry
  simp only [he, Bool.and_eq_true, decide_eq_true_eq, and_assoc]
  rfl

/-- Settles O4: each expiry compares the time with its horizon and then filters. -/
theorem journalAndDedupAreKeptAsLongAsTheyMust : Obligations.JournalAndDedupAreKeptAsLongAsTheyMust := by
  refine ⟨exec_journalProgrammed, ?_, ?_⟩
  · rintro s n t hdead rfl
    simp only [exec_journalRetentionExpiry, journalRetentionExpiry_eq hdead]
    exact ⟨fun h => congrArg _ (if_neg (Nat.not_lt.2 h)), fun h => congrArg _ (if_pos h)⟩
  · intro s sub tag e he
    simp only [exec_dedupExpiry, dedupExpiry_eq he]
    refine ⟨fun hended hold => ?_, fun hyoung => congrArg _ (if_pos (.inr hyoung))⟩
    have hgo : ¬(((s.slot e.slot).live = true ∧ descSub (s.slot e.slot).desc = sub ∧ descTag (s.slot e.slot).desc = tag.toNat) ∨
        s.nowNs < e.acceptNs + 600000000000) := by
      rintro (⟨hlive, hsub, htag⟩ | hlt)
      · rcases hended with h | h | h
        · simp [h] at hlive
        · exact h hsub
        · exact h htag
      · exact absurd hold (Nat.not_le.2 hlt)
    rw [if_neg hgo]
    exact ⟨_, rfl, rfl, fun x => by simp [List.mem_filter, imp_iff_not_or]⟩

end Sys2Proof.Machine
end

section
/-! PROOFS. How a request ends, and how its citation map is posted (R33, R41, R42, R285). -/

namespace Sys2Proof.Machine

/-! ### Ends (R33, R41, R42) -/

/-- Whatever the slot held, it drains with the code that its end names (R41). -/
theorem State.slot_beginDrain (s : State) (n code : Nat) :
    ((s.beginDrain n code).slot n).state = .draining ∧ ((s.beginDrain n code).slot n).doneCode = some code := by
  unfold State.beginDrain
  split
  · simp only [State.slot_of_req (State.event_req _ _ _ _ _), State.slot_journalAdd, State.slot_setSlot, and_self]
  · simp only [State.slot_journalAdd, State.slot_setSlot, and_self]

/-- Composing an output record leaves a request's natural end (R38). -/
theorem State.natural_pushRec (s : State) (n : Nat) (rec : List Byte) : ((s.pushRec n rec).slot n).natural = (s.slot n).natural := by
  simp only [State.pushRec]
  split
  · simp only [State.slot_setSlot]
  · simp only [State.slot_of_req (State.noteActive_req _ _), State.slot_of_req (State.setQueue_req _ _ _), State.slot_setSlot]

theorem State.natural_composeTok (s : State) (n seq tok : Nat) (last : Bool) :
    ((s.composeTok n seq tok last).slot n).natural = (s.slot n).natural := by
  simp only [State.composeTok]
  split
  · simp only [State.slot_setSlot]
  · exact State.natural_pushRec _ _ _

/-- Delivering the tokens of a step leaves a request's natural end (R38, R53). -/
theorem State.natural_commitOpen (s : State) (n : Nat) : ((s.commitOpen n).slot n).natural = (s.slot n).natural := by
  have hfold : ∀ (l : List (Nat × Nat)) (seq : Nat) (last : Nat → Bool) (t : State),
      ((l.foldl (fun t e => t.composeTok n (seq + e.2) e.1 (last e.2)) t).slot n).natural = (t.slot n).natural := by
    intro l seq last
    induction l with
    | nil => intro t; rfl
    | cons e l ih => intro t; exact (ih _).trans (State.natural_composeTok _ _ _ _ _)
  unfold State.commitOpen
  exact (hfold _ _ (fun i => (s.slot n).natural.isSome && decide (i + 1 = (s.slot n).opened.length)) _).trans
    (by rw [State.slot_setSlot])

/-- A request without a natural end that an event from outside ends drains with that event's code (R33, R42). -/
theorem State.slot_endRequest {s : State} {n : Nat} (code : Nat) (h : (s.slot n).natural = none) :
    ((s.endRequest n code).slot n).state = .draining ∧ ((s.endRequest n code).slot n).doneCode = some code := by
  simp only [State.endRequest, State.natural_commitOpen, h]
  exact State.slot_beginDrain _ _ _

/-! ### The citation map (R285) -/

/-- The records of a map at the positions of its citation ring from `pos` on, each with its position and its CRC (R284, R285). -/
def fillMap (f : Tbl (List Byte)) (pos : Nat) (recs : List (List Byte)) : Tbl (List Byte) × Nat :=
  recs.foldl (fun a b => (Tbl.put a.1 a.2 (withCrc (b ++ leBytes 8 a.2)), a.2 + 1)) (f, pos)

theorem fillMap_pos (f : Tbl (List Byte)) (pos : Nat) (recs : List (List Byte)) : (fillMap f pos recs).2 = pos + recs.length := by
  induction recs generalizing f pos with
  | nil => rfl
  | cons b recs ih =>
    show (fillMap _ (pos + 1) recs).2 = _
    rw [ih, List.length_cons]
    omega

/-- A position before the first stays as it was. -/
theorem look_fillMap_before (f : Tbl (List Byte)) {pos p : Nat} (recs : List (List Byte)) (h : p < pos) :
    Tbl.look (fillMap f pos recs).1 p = Tbl.look f p := by
  induction recs generalizing f pos with
  | nil => rfl
  | cons b recs ih =>
    show Tbl.look (fillMap _ (pos + 1) recs).1 p = _
    rw [ih _ (by omega), Tbl.look_put_other _ _ (by omega)]

/-- Each record takes the next position. -/
theorem look_fillMap (f : Tbl (List Byte)) (pos : Nat) (recs : List (List Byte)) (i : Nat) (h : i < recs.length) :
    Tbl.look (fillMap f pos recs).1 (pos + i) = some (withCrc (recs[i] ++ leBytes 8 (pos + i))) := by
  induction recs generalizing f pos i with
  | nil => exact absurd h (Nat.not_lt_zero _)
  | cons b recs ih =>
    show Tbl.look (fillMap _ (pos + 1) recs).1 _ = _
    cases i with
    | zero => exact (look_fillMap_before _ _ (Nat.lt_add_one pos)).trans (Tbl.look_put_same _ _ _)
    | succ i =>
      rw [show pos + (i + 1) = pos + 1 + i by omega]
      exact ih _ _ i (Nat.lt_of_succ_lt_succ h)

/-- A pending map whose ring's ACCEPT is past is taken whole, or waits (R285). -/
theorem citationMapPost_eq {s : State} {n : Nat} {r : Ring} (hpend : (s.slot n).mapPending = true) (hne : (s.slot n).mapRecs ≠ [])
    (hpast : s.acceptPast (s.slot n) (descCit (s.slot n).desc) = true)
    (hr : Tbl.look s.nor.rings (descCit (s.slot n).desc) = some r) :
    citationMapPost s n = if r.entries < r.resv - r.cons + (s.slot n).mapRecs.length then s.ringWaits (descCit (s.slot n).desc) else
      ((s.setRing (descCit (s.slot n).desc) { r with
          filled := (fillMap r.filled r.resv (s.slot n).mapRecs).1, resv := (fillMap r.filled r.resv (s.slot n).mapRecs).2 }).setSlot n
        { s.slot n with mapPending := false }).drainRing (descCit (s.slot n).desc) := by
  have hgo : (!(s.slot n).mapPending || (s.slot n).mapRecs.isEmpty || !s.acceptPast (s.slot n) (descCit (s.slot n).desc)) = false := by
    simp [hpend, hpast, hne]
  simp only [citationMapPost, hgo, Bool.false_eq_true, if_false, hr]
  rfl

theorem State.ringWaits_eq {s : State} {rid : Nat} {r : Ring} (hr : Tbl.look s.nor.rings rid = some r) :
    s.ringWaits rid = if r.waiting then s else
      ((s.setRing rid { r with waiting := true }).bump (s.ringWh rid) 31 0x108 1).event (s.ringWh rid) 31 [sqBit 0x118 1] [] := by
  simp only [State.ringWaits, hr]

/-! ### DEADLINE_EXPIRY (R42) -/

/-- When a request that may end by its deadline has met it. -/
theorem State.deadlineDue_iff {s : State} {x : Slot} (hd : descDeadline x.desc ≠ 0)
    (hst : x.state = .front ∨ x.state = .prefill ∨ x.state = .decode ∨ x.state = .parked ∨ x.state = .replay)
    (hacc : x.acceptNs.isSome = true) (hnat : x.natural = none) :
    s.deadlineDue x = true ↔ x.acceptStroke + descDeadline x.desc ≤ s.strokeN + x.spent := by
  rcases hst with h | h | h | h | h <;> simp [State.deadlineDue, h, hd, hacc, hnat]

/-- Settles O5: the deadline is one comparison, the map one fold over its records. -/
theorem deadlineAndCitationMapTakeEffect : Obligations.DeadlineAndCitationMapTakeEffect := by
  refine ⟨?_, ?_⟩
  · rintro s n x rfl hd hst hacc hnat
    have hdue := State.deadlineDue_iff (s := s) hd hst hacc hnat
    simp only [exec_deadlineExpiry, deadlineExpiry, State.atBoundary, Bool.and_eq_true, decide_eq_true_eq, hdue]
    refine ⟨fun hphase hpast => ⟨_, congrArg _ (if_pos ⟨hphase, hpast⟩), State.slot_endRequest 4 hnat⟩, fun hearly => ?_⟩
    refine congrArg _ (if_neg fun h => ?_)
    rcases hearly with hphase | hlt
    · exact hphase h.1
    · exact Nat.not_lt.2 h.2 hlt
  · rintro s n rid x r rfl hpend hne rfl hpast hr
    rw [exec_citationMapPost, citationMapPost_eq hpend hne hpast hr, State.ringWaits_eq hr]
    refine ⟨fun hroom => ⟨_, ?_, look_fillMap r.filled r.resv _⟩, fun hfull => congrArg _ (if_pos hfull)⟩
    rw [if_neg (Nat.not_lt.2 hroom), fillMap_pos]

end Sys2Proof.Machine
end

section
/-! PROOFS. Prefill, parking, the share look-up and the catalogue's grace (R41, R47, R197 to R200, R235). -/

namespace Sys2Proof.Machine

/-! ### PREFILL, DECODE and parking (R41, R186, R197, R199, R200) -/

/-- PREFILL_COMPLETE of a request in PREFILL whose prompt is there: a job without KV has no rows to write; otherwise the rows are written
where the pool has their pages (R186, R199). -/
theorem slot_prefillComplete {s : State} {n : Nat} (hst : (s.slot n).state = .prefill)
    (hprompt : descRecipe (s.slot n).desc ≠ 0 ∨ (s.slot n).tokDone = true)
    (hroom : (s.kvd (descJob (s.slot n).desc)).isEmpty = true ∨
      s.kvFits n ((s.slot n).promptTokens.length - (s.slot n).rows) = true) :
    ((prefillComplete s n).slot n).state = .decode := by
  have hgo : ¬((s.slot n).state ≠ .prefill ∨ (descRecipe (s.slot n).desc = 0 ∧ (s.slot n).tokDone = false)) := by
    rintro (h | ⟨hrec, htok⟩)
    · exact h hst
    · rcases hprompt with h | h
      · exact h hrec
      · simp [htok] at h
  simp only [prefillComplete, if_neg hgo]
  by_cases hkv : (s.kvd (descJob (s.slot n).desc)).isEmpty = true
  · rw [if_pos hkv, State.slot_setSlot]
  · have hfits := hroom.resolve_left hkv
    simp only [hkv, hfits, Bool.false_eq_true, if_false, Bool.not_true, State.slot_setSlot]

theorem prefillComplete_of_short {s : State} {n : Nat} (hkv : (s.kvd (descJob (s.slot n).desc)).isEmpty = false)
    (hfits : s.kvFits n ((s.slot n).promptTokens.length - (s.slot n).rows) = false) : prefillComplete s n = s := by
  simp only [prefillComplete, hkv, hfits, Bool.false_eq_true, if_false, Bool.not_false, if_true, ite_self]

/-- A request lets go of every page it held (R42, R198). -/
theorem State.kv_kvRelease (s : State) (n : Nat) : ((s.kvRelease n).slot n).kv = [] := by
  simp only [State.kvRelease, State.slot_setSlot]

/-- A parked request holds no page and waits for none (R200). -/
theorem State.slot_parkSlot (s : State) (n : Nat) :
    ((s.parkSlot n).slot n).state = .parked ∧ ((s.parkSlot n).slot n).kv = [] ∧ ((s.parkSlot n).slot n).waitStrokes = 0 := by
  simp only [State.parkSlot, State.slot_setSlot, State.kv_kvRelease, and_self]

/-- A boundary parks a marked request in DECODE that neither a removal, a cancellation nor its deadline ends (R41, R200). -/
theorem State.boundarySlot_of_parkDue {s : State} {n : Nat} (hpark : (s.slot n).parkDue = true) (hst : (s.slot n).state = .decode)
    (hnat : (s.slot n).natural = none) (hrem : (s.slot n).removed = false) (hcan : (s.slot n).cancel = false)
    (hdl : s.deadlineDue (s.slot n) = false) (hro : s.wdl.readOnly = false) : s.boundarySlot n = s.parkSlot n := by
  simp only [State.boundarySlot, hpark, hst, hnat, hrem, hcan, hdl, hro, Bool.and_false, Bool.false_eq_true, if_false, if_true,
    and_self, reduceCtorEq]

/-- PAGE_WAIT_PARK marks the request that its rule puts first, once one has waited 8 strokes and none is marked (R199). -/
theorem pageWaitPark_of_waiting {s : State} {job n : Nat} {p : Plan} (hp : s.plan job = some p) (hsprint : p.sprint = false)
    (hro : s.wdl.readOnly = false) (hwait : ∃ i ∈ s.slotsOf job, 8 ≤ (s.slot i).waitStrokes)
    (hnone : ∀ i ∈ s.slotsOf job, (s.slot i).parkDue = false)
    (hmin : minBy (fun n => (16384 - s.ownPages (s.slot n)) * 32768 + (32767 - n))
      ((s.slotsOf job).filter (fun n => decide ((s.slot n).state = .decode))) = some n) :
    pageWaitPark s job = s.setSlot n { s.slot n with parkDue := true } := by
  have hw : (s.slotsOf job).any (fun n => decide (8 ≤ (s.slot n).waitStrokes)) = true := by
    obtain ⟨i, hi, h⟩ := hwait
    exact List.any_eq_true.2 ⟨i, hi, decide_eq_true h⟩
  have hm : (s.slotsOf job).any (fun n => (s.slot n).parkDue) = false :=
    List.any_eq_false.2 fun i hi => by simp [hnone i hi]
  simp only [pageWaitPark, hp, hsprint, hro, hw, hm, hmin, Bool.not_false, Bool.and_self, if_true]

/-- CATALOGUE_GRACE_EXPIRY of a replayed request that lacks its catalogue entries compares the strokes of service with 20,000 (R235). -/
theorem catalogueGraceExpiry_eq {s : State} {n : Nat} (hready : s.boot.ready = true)
    (hst : (s.slot n).state = .replay ∨ ((s.slot n).state = .front ∧ 0 < (s.slot n).replays)) (hres : s.restored (s.slot n) = false) :
    catalogueGraceExpiry s n = if s.boot.firstStroke + 20000 ≤ s.strokeN then s.endRequest n 7 else s := by
  have hst' : (decide ((s.slot n).state = .replay) || (decide ((s.slot n).state = .front) && decide (0 < (s.slot n).replays))) = true := by
    simpa using hst
  simp only [catalogueGraceExpiry, hready, hst', hres, Bool.true_and, Bool.and_true, Bool.not_false, decide_eq_true_eq]

/-- Settles O10: one clause per command, and one for the boundary that parks. -/
theorem requestsMoveThroughPrefillDecodeAndParking : Obligations.RequestsMoveThroughPrefillDecodeAndParking := by
  refine ⟨?_, ?_, ?_, ?_, ?_, ?_⟩
  · intro s n hst hprompt
    refine ⟨fun hroom => ⟨_, exec_prefillComplete s n, slot_prefillComplete hst hprompt hroom⟩, fun hkv hfits => ?_⟩
    rw [exec_prefillComplete, prefillComplete_of_short hkv hfits]
  · intro s n hst hro
    rw [exec_park, park, if_pos ⟨hst, hro⟩]
  · intro s job n p hp hsprint hro hwait hnone hmin
    rw [exec_pageWaitPark, pageWaitPark_of_waiting hp hsprint hro hwait hnone hmin]
  · intro s n hpark hst hnat hrem hcan hdl hro
    rw [State.boundarySlot_of_parkDue hpark hst hnat hrem hcan hdl hro]
    exact State.slot_parkSlot s n
  · intro s n hst
    rw [exec_shareLookup]
    refine ⟨fun hshare hkv => congrArg _ (if_pos ⟨hst, hkv, hshare⟩), fun hno => congrArg _ (if_neg ?_)⟩
    rintro ⟨-, hkv, hshare⟩
    rcases hno with h | h
    · simp [hshare] at h
    · exact h hkv
  · intro s n hready hst hres
    rw [exec_catalogueGraceExpiry, catalogueGraceExpiry_eq hready hst hres]
    exact ⟨fun h => congrArg _ (if_pos h), fun h => congrArg _ (if_neg (Nat.not_le.2 h))⟩

end Sys2Proof.Machine
end

section
/-! PROOFS. The end of a decode step, batch lists and replay (R47, R59, R191, R202, R262). -/

namespace Sys2Proof.Machine

/-! ### Posting a record leaves the requests (R379, R490) -/

@[simp] theorem State.hostWrite_req (s : State) (p a : Nat) (bs : List Byte) : (s.hostWrite p a bs).req = s.req := by
  unfold State.hostWrite
  split
  · rfl
  · exact State.setHp_req _ _ _

@[simp] theorem State.noteFull_req (s : State) (rid : Nat) : (s.noteFull rid).req = s.req := by
  unfold State.noteFull
  split
  · rfl
  · split <;> rfl

@[simp] theorem State.noteIssued_req (s : State) (rid : Nat) : (s.noteIssued rid).req = s.req := by
  unfold State.noteIssued
  split
  · rfl
  · split <;> rfl

theorem drainGo_req (fuel : Nat) (s : State) (rid n : Nat) : (drainGo fuel s rid n).1.req = s.req := by
  induction fuel generalizing s n with
  | zero => rfl
  | succ fuel ih =>
    unfold drainGo
    split
    · rfl
    · split
      · rfl
      · split
        · rw [ih, State.setRing_req, State.hostWrite_req]
        · rfl

@[simp] theorem State.drainRing_req (s : State) (rid : Nat) : (s.drainRing rid).req = s.req := by
  unfold State.drainRing
  split
  · rfl
  · simp only [State.noteFull_req]
    split
    · exact drainGo_req _ _ _ _
    · split
      · exact drainGo_req _ _ _ _
      · simp only [State.bumpWide_req, State.noteIssued_req, State.hostWrite_req, drainGo_req]

@[simp] theorem State.fillRing_req (s : State) (rid pos : Nat) (rec : List Byte) : (s.fillRing rid pos rec).req = s.req := by
  unfold State.fillRing
  split
  · rfl
  · rw [State.drainRing_req, State.setRing_req]

@[simp] theorem State.postRing_req (s : State) (rid : Nat) (mk : Nat → List Byte) : (s.postRing rid mk).req = s.req := by
  unfold State.postRing
  rw [State.fillRing_req, State.reserve_req]

@[simp] theorem State.faultTo_req (s : State) (port code aux0 aux1 flags : Nat) : (s.faultTo port code aux0 aux1 flags).req = s.req := by
  unfold State.faultTo
  split
  · rfl
  · split
    · rfl
    · split
      · rfl
      · split
        · rfl
        · exact State.postRing_req _ _ _

@[simp] theorem State.postFault_req (s : State) (code aux0 aux1 : Nat) : (s.postFault code aux0 aux1).req = s.req := by
  unfold State.postFault
  rw [State.faultTo_req, State.faultTo_req]

/-! ### DECODE_STEP_END (R59, R191) -/

/-- A step that delivers nothing for a halted paddock is lost (R60). -/
theorem decodeStepEnd_of_halted {s : State} {job ns : Nat} {bad : List Nat} {p : Plan} (hp : s.job job = some p)
    (hhalt : (s.paddock (p.loaded.getD 0)).state = .halted) : decodeStepEnd s job ns bad = s := by
  simp only [decodeStepEnd, hp, if_pos hhalt]

/-- The requests of a job that ran in the step: those in DECODE of its batch or with chosen tokens (R191). -/
def State.stepSlots (s : State) (job : Nat) (p : Plan) : List Nat :=
  (s.slotsOf job).filter (fun n => decide ((s.slot n).state = .decode) && (p.batch.contains n || !(s.slot n).opened.isEmpty))

/-- A request that reached a natural end begins to drain with its code (R41). -/
def State.drainEnded (s : State) (n : Nat) : State :=
  match (s.slot n).natural with
  | some c => s.beginDrain n c
  | none => s

/-- What a step leaves before its paddock's sprint step closes: pages lost, tokens delivered, natural ends begun, the batch empty. -/
def State.stepDone (s : State) (job : Nat) (p : Plan) (bad : List Nat) : State :=
  ((s.stepSlots job p).foldl State.drainEnded ((s.stepSlots job p).foldl (fun t n => (t.commitOpen n).kvStep n)
    (s.losePages job (bad.filter (fun v => (s.stepSlots job p).any (fun n => (s.kvVpns (s.slot n)).contains v)))))).putPlan job
      { p with batch := [], ran := 0 }

/-- The end of a step closes the sprint step that is open, and counts it if it is late (R59). -/
def State.closeStep (s : State) (pad ns : Nat) (sprint : Bool) : State :=
  match (s.paddock pad).stepOpen with
  | none => s
  | some o => if sprint then (s.noteLate pad ns o).setPaddock pad { s.paddock pad with stepOpen := none } else s

theorem State.closeStep_of_closed {s : State} {pad : Nat} (ns : Nat) {sprint : Bool}
    (h : (s.paddock pad).stepOpen = none ∨ sprint = false) : s.closeStep pad ns sprint = s := by
  unfold State.closeStep
  split
  · rfl
  · next o ho =>
    rw [ho] at h
    exact if_neg (by simpa using h)

theorem State.closeStep_of_open {s : State} {pad o : Nat} (ns : Nat) (h : (s.paddock pad).stepOpen = some o) :
    s.closeStep pad ns true = (s.noteLate pad ns o).setPaddock pad { s.paddock pad with stepOpen := none } := by
  simp only [State.closeStep, h, if_true]

/-- The end of a step delivers it and then closes it. -/
theorem decodeStepEnd_eq {s : State} {job ns : Nat} {bad : List Nat} {p : Plan} (hp : s.job job = some p)
    (hrun : (s.paddock (p.loaded.getD 0)).state ≠ .halted) :
    decodeStepEnd s job ns bad = (s.stepDone job p bad).closeStep (p.loaded.getD 0) ns p.sprint := by
  simp only [decodeStepEnd, hp, if_neg hrun]
  rfl

/-! ### BATCH_LIST_WRITE (R262) -/

/-- The list of one job is written, its stroke noted, and its batch counter advanced. -/
def State.writeBatch (s : State) (job : Nat) (p : Plan) : State :=
  let v := s.vaWrite (s.whOf (job % 4)) job (Config.planIndexList p.image) (s.batchList p)
  ({ v with shf := { v.shf with batch := Tbl.put v.shf.batch job v.strokeN } } : State).advanceFld (Config.planBatchCtr p.image) 1

theorem batchListWrite_eq (s : State) : batchListWrite s =
    (s.cis.plans.filter (fun e => e.2.loaded.isSome && planKind e.2.hdr == 0)).foldl (fun t e => t.writeBatch e.1 e.2) s := rfl

/-! ### REPLAY_CATCH_UP (R47, R202) -/

/-- What carries a request back to its prompt leaves its history and its natural end. -/
theorem State.slot_replayPrompt {s t : State} {n : Nat} (h : s.replayPrompt n = some t) :
    (t.slot n).history = (s.slot n).history ∧ (t.slot n).natural = (s.slot n).natural := by
  simp only [State.replayPrompt] at h
  split at h
  · split at h
    · cases h; exact ⟨rfl, rfl⟩
    · cases h
  · split at h
    · cases h
    · split at h
      · cases h; exact ⟨rfl, rfl⟩
      · split at h
        · cases h
        · cases h
          simp only [State.slot_setSlot, and_self]

/-- A regenerated token that differs from the surviving history ends the request with reason 8 (R47). -/
theorem State.slot_replayKept_of_differing {t : State} {n : Nat} {steps : List (List Nat)} (bad : List Nat) (tiller : Nat)
    (hdiff : ¬ steps.flatten.take (t.slot n).history.length <+: (t.slot n).history.map Hist.token) (hnat : (t.slot n).natural = none) :
    ((t.replayKept n steps bad tiller).slot n).state = .draining ∧ ((t.replayKept n steps bad tiller).slot n).doneCode = some 8 := by
  have hkept : t.replayKept n steps bad tiller =
      ((t.setSlot n { t.slot n with replayPos := 0 }).endRequest n 8).postFault 0xB (8 + tiller) n := by
    simp only [State.replayKept, List.length_map, if_pos hdiff]
  rw [hkept, State.slot_of_req (State.postFault_req _ _ _ _)]
  exact State.slot_endRequest 8 (by rw [State.slot_setSlot]; exact hnat)

section
variable {s t : State} {n : Nat} {steps : List (List Nat)} {bad : List Nat} {tiller : Nat}

/-- REPLAY_CATCH_UP of a request in REPLAY whose prompt is there again. -/
theorem replayCatchUp_eq (hst : (s.slot n).state = .replay) (ht : s.replayPrompt n = some t) :
    replayCatchUp s n steps bad tiller =
      if 1 < descService (s.slot n).desc then t.beginDrain n 6
      else if s.jobRuns (descJob (s.slot n).desc) = false then s
      else if (s.slot n).history = [] ∧ 0 < (s.slot n).suppress then t.replayFresh n steps
      else t.replayKept n steps bad tiller := by
  simp only [replayCatchUp, hst, ne_eq, not_true_eq_false, if_false, ht]
end

/-- Settles O11: the step's end in its order, the lists job by job, and the cases of a replay. -/
theorem stepsEndAndReplayCatchesUp : Obligations.StepsEndAndReplayCatchesUp := by
  refine ⟨?_, ?_, ?_⟩
  · rintro s l a b c job us ns pad p ran bad hp rfl rfl rfl rfl rfl hc
    refine ⟨fun hhalt => ?_, fun hrun => ?_⟩
    · rw [exec_decodeStepEnd, decodeStepEnd_of_halted hp hhalt]
    · have hend : decodeStepEnd s job (1000 * us + ns) bad = c.closeStep (p.loaded.getD 0) (1000 * us + ns) p.sprint := by
        rw [decodeStepEnd_eq hp hrun, hc]
        rfl
      rw [exec_decodeStepEnd, hend]
      exact ⟨fun hclosed => congrArg _ (State.closeStep_of_closed _ hclosed),
        fun o hopen hsprint => by rw [hsprint, State.closeStep_of_open _ hopen]; rfl⟩
  · intro one hone s
    have hwrite : one = State.writeBatch := funext fun t => funext fun job => funext fun p => hone t _ job p rfl
    rw [exec_batchListWrite, batchListWrite_eq, hwrite]
  · intro s t n steps bad tiller hst ht
    rw [exec_replayCatchUp, replayCatchUp_eq hst ht]
    obtain ⟨hhist, hnatural⟩ := State.slot_replayPrompt ht
    refine ⟨fun hsvc => congrArg _ (if_pos hsvc), fun hsvc hrun => ?_, fun hsvc hstop => ?_⟩
    · rw [if_neg (Nat.not_lt.2 hsvc), if_neg (by simp [hrun])]
      refine ⟨fun hkept => ?_, fun hempty hsup => congrArg _ (if_pos ⟨hempty, hsup⟩)⟩
      have hno : ¬((s.slot n).history = [] ∧ 0 < (s.slot n).suppress) := fun h =>
        hkept.elim (fun hne => hne h.1) (fun h0 => Nat.ne_of_gt h.2 h0)
      rw [if_neg hno]
      refine ⟨rfl, fun hdiff _ hnat => ⟨_, rfl, State.slot_replayKept_of_differing bad tiller ?_ (hnatural.trans hnat)⟩⟩
      rwa [hhist]
    · rw [if_neg (Nat.not_lt.2 hsvc), if_pos hstop]

end Sys2Proof.Machine
end

section
/-! PROOFS. Register commands past the gate, and the commands of the rings (R372 to R382, R410, R411). -/

namespace Sys2Proof.Machine

/-! ### Commands past the gate (R219, R415) -/

/-- A command whose write reaches its page runs. -/
theorem State.gated_of_pass {s : State} {req : Requester} {die page cls : Nat} (h : s.gate req die page cls = (s, true))
    (f : State → State) : s.gated req die page cls f = f s := by
  simp only [State.gated, h, if_true]

/-- A command of a MOD page runs past the gate while none is under way (R219). -/
theorem State.modCommand_of_idle {s : State} {req : Requester} {page : Nat} (h : s.gate req 120 page 1 = (s, true))
    (hbusy : s.cmdBusy 120 page 0x10C = false) (f : State → State) : s.modCommand req page f = f s := by
  simp only [State.modCommand, State.gated_of_pass h, hbusy, Bool.false_eq_true, if_false]

/-! ### Doorbells (R376, R411) -/

section
variable {s : State} {port rid v : Nat} {al : Bool}

/-- A doorbell of a port that serves no BARs, or in the safe state, does not reach the module (R410). -/
theorem doorbellWrite_of_unserved (h : (s.hp port).bars = false ∨ s.flt.safe = true) : doorbellWrite s port rid v al = s := by
  refine if_pos ?_
  rcases h with h | h <;> simp [h]

theorem doorbellWrite_of_early (hbars : (s.hp port).bars = true) (hsafe : s.flt.safe = false) (hready : s.boot.ready = false) :
    doorbellWrite s port rid v al = s.earlyDoorbell port := by
  simp only [doorbellWrite, hbars, hsafe, hready, Bool.not_true, Bool.or_self, Bool.false_eq_true, if_false, Bool.not_false, if_true]

section
variable (hbars : (s.hp port).bars = true) (hsafe : s.flt.safe = false) (hready : s.boot.ready = true)
include hbars hsafe hready

theorem doorbellWrite_of_absent (h : Tbl.look s.nor.rings rid = none) : doorbellWrite s port rid v al = s.err (s.ringWh rid) 31 2 := by
  simp only [doorbellWrite, hbars, hsafe, hready, Bool.not_true, Bool.or_self, Bool.false_eq_true, if_false, h]

/-- In service, a doorbell of a ring that is there: its kind, its port and its value are checked in this order (R376). -/
theorem doorbellWrite_of_ring {r : Ring} (h : Tbl.look s.nor.rings rid = some r) :
    doorbellWrite s port rid v al =
      if deviceKind r.kind = false then s.err (s.ringWh rid) 31 2
      else if r.port ≠ port then s.err (s.ringWh rid) 31 3
      else if al = false ∨ v < r.prod ∨ r.cons + r.entries < v then s.badIndex (s.ringWh rid) [1]
      else (if r.kind = 4 then s.handCommands r (v - r.prod) else s).setRing rid { r with prod := v } := by
  simp only [doorbellWrite, hbars, hsafe, hready, Bool.not_true, Bool.or_self, Bool.false_eq_true, if_false, h, Bool.not_eq_true']
end
end

/-! ### Making and removing rings (R382) -/

section
variable {s : State} {req : Requester} (rid : Nat) (h : s.gate req 120 11 1 = (s, true)) (hbusy : s.cmdBusy 120 11 0x10C = false)
include h hbusy

theorem ringCreate_of_idle : ringCreate s req rid =
    (if (s.createCheck rid (s.cmdAddr 11)).1 = 0 then
      ({ s.setRing rid (s.createCheck rid (s.cmdAddr 11)).2 with
        boot := { s.boot with rings := Tbl.put s.boot.rings rid (s.createCheck rid (s.cmdAddr 11)).2 } } : State) else s).cmdDone 11
      (s.createCheck rid (s.cmdAddr 11)).1 rid := by
  simp only [ringCreate, State.modCommand_of_idle h hbusy]

theorem ringDestroy_of_idle : ringDestroy s req rid =
    (if s.destroyCheck rid = 0 then ({ s with
        nor := { s.nor with rings := Tbl.del s.nor.rings rid }, boot := { s.boot with rings := Tbl.del s.boot.rings rid } } : State)
      else s).cmdDone 11 (s.destroyCheck rid) rid := by
  simp only [ringDestroy, State.modCommand_of_idle h hbusy]
end

/-! ### Indices and fences (R377, R378, R380) -/

theorem consumerIndexPost_eq {s : State} {rid : Nat} {r : Ring} (hr : Tbl.look s.nor.rings rid = some r)
    (hdev : deviceKind r.kind = true) : consumerIndexPost s rid = if r.postedCi = r.cons then s else
      ((s.setRing rid { r with postedCi := r.cons }).hostWrite r.port (r.idx + 8) (leBytes 8 r.cons)).bumpWide (s.ringWh rid) 31 3 0 1 := by
  simp only [consumerIndexPost, hr, hdev, Bool.not_true, Bool.false_or, beq_iff_eq]

/-- The read of the consumer index of a host ring that wants room: a value outside the cached index and the producer index is ignored
and counted (R378). -/
theorem consumerIndexRead_of_wanted {s u : State} {rid v : Nat} {r : Ring} (hr : Tbl.look s.nor.rings rid = some r)
    (hhost : deviceKind r.kind = false) (hread : (s.hp r.port).readOk (r.idx + 8) = true) (hwant : s.ringWants rid r = true)
    (hu : u = ((s.store (.host r.port) (r.idx + 8) (leBytes 8 v)).bump (s.ringWh rid) 31 0x110 1).bumpWide r.port 13 3 0 8) :
    consumerIndexRead s rid v = if r.prod < v ∨ v < r.cons then u.badIndex (s.ringWh rid) []
      else ((u.setRing rid { r with cons := v }).drainRing rid).settle := by
  subst hu
  simp only [consumerIndexRead, hr, hhost, hread, hwant, Bool.not_true, Bool.or_self, Bool.false_eq_true, if_false]

theorem consumerIndexRead_of_unwanted {s : State} {rid v : Nat} {r : Ring} (hr : Tbl.look s.nor.rings rid = some r)
    (hwant : s.ringWants rid r = false) : consumerIndexRead s rid v = s := by
  simp only [consumerIndexRead, hr, hwant, Bool.not_false, Bool.or_true, if_true]

/-- A fence of rings on different ports orders the ACCEPTs, and notes its pair once (R380). -/
theorem crossPortFence_of_ports {s u : State} {a b : Nat} {x y : Ring} (hx : Tbl.look s.nor.rings a = some x)
    (hy : Tbl.look s.nor.rings b = some y) (hport : x.port ≠ y.port) (hread : (s.hp x.port).readOk x.idx = true)
    (hu : u = (s.bumpWide x.port 13 3 0 16).fenceAccepts a b) :
    crossPortFence s a b = { u with nor := { u.nor with
      fenced := if u.nor.fenced.contains (a, b) then u.nor.fenced else u.nor.fenced ++ [(a, b)] } } := by
  subst hu
  simp only [crossPortFence, hx, hy, hport, hread, Bool.true_eq_false, or_self, if_false]

/-- Settles O38: every clause is one branch of its command. -/
theorem ringCommandsMoveTheirIndices : Obligations.RingCommandsMoveTheirIndices := by
  refine ⟨?_, ?_, ?_, ?_, ?_⟩
  · intro s port rid v al hport hrid
    rw [exec_doorbellWrite s v al hport hrid]
    refine ⟨fun h => congrArg _ (doorbellWrite_of_unserved h), fun hb hs hr => congrArg _ (doorbellWrite_of_early hb hs hr),
      fun hb hs hr => ⟨fun h => congrArg _ (doorbellWrite_of_absent hb hs hr h), fun r h => ?_⟩⟩
    rw [doorbellWrite_of_ring hb hs hr h]
    refine ⟨fun hk => congrArg _ (if_pos hk), fun hk hp => ?_, fun hk hp => ?_⟩
    · rw [if_neg (by simp [hk]), if_pos hp]
    · rw [if_neg (by simp [hk]), if_neg (not_not.2 hp)]
      refine ⟨fun hal hlo hhi => ?_, fun hbad => congrArg _ (if_pos hbad)⟩
      have hgood : ¬(al = false ∨ v.toNat < r.prod ∨ r.cons + r.entries < v.toNat) := by
        simp only [hal, Bool.true_eq_false, false_or]
        omega
      rw [if_neg hgood]
      exact ⟨fun hkind => by rw [if_neg hkind], fun hkind => by rw [if_pos hkind]⟩
  · intro s req rid hrid hgate hbusy
    rw [exec_ringCreate s req hrid, exec_ringDestroy s req hrid, ringCreate_of_idle rid hgate hbusy, ringDestroy_of_idle rid hgate hbusy]
    refine ⟨fun c r hcheck => ?_, fun hok => ?_, fun hbad => ?_⟩
    · rw [hcheck]
      exact ⟨fun hok => by rw [if_pos hok, hok], fun hbad => by rw [if_neg hbad]⟩
    · rw [if_pos hok, hok]
    · rw [if_neg hbad]
  · intro s rid r hr hdev
    rw [exec_consumerIndexPost, consumerIndexPost_eq hr hdev]
    exact ⟨fun hne => congrArg _ (if_neg hne), fun heq => congrArg _ (if_pos heq)⟩
  · intro s u rid v r hr hhost hread hu
    rw [exec_consumerIndexRead]
    refine ⟨fun hwant hlo hhi => ?_, fun hwant hout => ?_, fun hwant => congrArg _ (consumerIndexRead_of_unwanted hr hwant)⟩
    · rw [consumerIndexRead_of_wanted hr hhost hread hwant hu, if_neg (by omega)]
    · rw [consumerIndexRead_of_wanted hr hhost hread hwant hu, if_pos hout.symm]
  · intro s u a b x y hx hy
    rw [exec_crossPortFence]
    refine ⟨fun hport hread hu => ?_, fun hport => ?_⟩
    · rw [crossPortFence_of_ports hx hy hport hread hu]
      exact ⟨fun hnew => by rw [hnew]; rfl, fun hold => by rw [hold]; rfl⟩
    · simp only [crossPortFence, hx, hy, hport, true_or, if_true]

end Sys2Proof.Machine
end

section
/-! PROOFS. Start-up, fuses, firmware and module time (R507 to R530). -/

namespace Sys2Proof.Machine

/-! ### FUSE_LOAD and FIRMWARE_LOAD (R508, R512 to R515) -/

/-- With Wellhead 0 there, its rows are applied and kept as the shadow, or hold the phase (R514, R515). -/
theorem fuseLoad_of_present {s : State} (hstart : s.boot.started = true) (hphase : s.boot.phase = 0) (hwh : 0 ∉ s.flt.failedWh)
    (ok : Bool) : fuseLoad s ok = if ok then { s.applyFuses s.boot.fuses with
      boot := { (s.applyFuses s.boot.fuses).boot with shadow := some s.boot.fuses } } else s.holdFuses.err 0 15 0x10 := by
  have hc : s.flt.failedWh.contains 0 = false := by simpa using hwh
  cases ok <;>
    simp only [fuseLoad, hstart, hphase, hc, Bool.true_eq_false, ne_eq, not_true_eq_false, or_self, if_false, Bool.false_eq_true,
      Bool.not_false, Bool.not_true, if_true]

/-- With Wellhead 0 failed, a shadow stands in for its rows (R515). -/
theorem fuseLoad_of_shadow {s : State} (hstart : s.boot.started = true) (hphase : s.boot.phase = 0) (hwh : 0 ∈ s.flt.failedWh)
    {f : Fuses} (hf : s.boot.shadow = some f) (ok : Bool) : fuseLoad s ok = if ok then s.applyFuses f else s.holdFuses := by
  have hc : s.flt.failedWh.contains 0 = true := by simpa using hwh
  cases ok <;>
    simp only [fuseLoad, hstart, hphase, hc, hf, Bool.true_eq_false, ne_eq, not_true_eq_false, or_self, if_false, Bool.false_eq_true,
      Bool.not_false, Bool.not_true, if_true]

/-- Without a shadow the phase holds. -/
theorem fuseLoad_of_no_shadow {s : State} (hstart : s.boot.started = true) (hphase : s.boot.phase = 0) (hwh : 0 ∈ s.flt.failedWh)
    (hf : s.boot.shadow = none) (ok : Bool) : fuseLoad s ok = s.holdFuses := by
  have hc : s.flt.failedWh.contains 0 = true := by simpa using hwh
  simp only [fuseLoad, hstart, hphase, hc, hf, Bool.true_eq_false, ne_eq, not_true_eq_false, or_self, if_false, if_true]

/-- The images in the order in which they are tried: the higher version first, ties to slot A (R512). -/
def State.fwOrder (s : State) : List (Nat × List Byte) :=
  if fwVersion s.boot.slotA < fwVersion s.boot.slotB then [(1, s.boot.slotB), (0, s.boot.slotA)]
  else [(0, s.boot.slotA), (1, s.boot.slotB)]

section
variable {s : State} (hphase : s.boot.phase = 1) (happl : s.boot.applied.isSome = true)
include hphase happl

/-- The first image that passes its checks runs (R512). -/
theorem firmwareLoad_of_found {e : Nat × List Byte} (he : s.fwOrder.find? (fun e => fwCheck s.fusesNow e.2 == 0) = some e) :
    firmwareLoad s = { s with boot := { s.boot with running := e.1, runImage := e.2, phase := 2, fwHold := false } } := by
  have hgo : ¬(s.boot.phase ≠ 1 ∨ s.boot.applied = none) := by
    rintro (h | h)
    · exact h hphase
    · simp [h] at happl
  unfold State.fwOrder at he
  simp only [firmwareLoad, if_neg hgo, he]

/-- With none accepted the module holds and logs it (R512, R513). -/
theorem firmwareLoad_of_none (he : s.fwOrder.find? (fun e => fwCheck s.fusesNow e.2 == 0) = none) (hhold : s.boot.fwHold = false) :
    firmwareLoad s = ({ s with boot := { s.boot with fwHold := true } } : State).err 0 15 0x11 := by
  have hgo : ¬(s.boot.phase ≠ 1 ∨ s.boot.applied = none) := by
    rintro (h | h)
    · exact h hphase
    · simp [h] at happl
  unfold State.fwOrder at he
  simp only [firmwareLoad, if_neg hgo, he, hhold, Bool.false_eq_true, if_false]
end

theorem State.fwOrder_find_slotA {s : State} (hok : fwCheck s.fusesNow s.boot.slotA = 0)
    (hver : fwVersion s.boot.slotB ≤ fwVersion s.boot.slotA) :
    s.fwOrder.find? (fun e => fwCheck s.fusesNow e.2 == 0) = some (0, s.boot.slotA) := by
  rw [State.fwOrder, if_neg (Nat.not_lt.2 hver)]
  exact List.find?_cons_of_pos (by simpa using hok)

theorem State.fwOrder_find_slotB {s : State} (hok : fwCheck s.fusesNow s.boot.slotB = 0)
    (hver : fwVersion s.boot.slotA < fwVersion s.boot.slotB ∨ fwCheck s.fusesNow s.boot.slotA ≠ 0) :
    s.fwOrder.find? (fun e => fwCheck s.fusesNow e.2 == 0) = some (1, s.boot.slotB) := by
  unfold State.fwOrder
  split
  · exact List.find?_cons_of_pos (by simpa using hok)
  · next hlt =>
    rw [List.find?_cons_of_neg (by simpa using hver.resolve_left hlt)]
    exact List.find?_cons_of_pos (by simpa using hok)

theorem State.fwOrder_find_none {s : State} (ha : fwCheck s.fusesNow s.boot.slotA ≠ 0) (hb : fwCheck s.fusesNow s.boot.slotB ≠ 0) :
    s.fwOrder.find? (fun e => fwCheck s.fusesNow e.2 == 0) = none := by
  rw [List.find?_eq_none]
  unfold State.fwOrder
  split <;> simp [ha, hb]

/-! ### The later phases (R364, R508) -/

theorem mount_spec (dj : Nat) (wells : List Nat) {s : State} (hphase : s.boot.phase = 2) (hstart : s.boot.started = true) :
    (mount s dj wells).boot.phase = 3 ∧ (mount s dj wells).wdl.mounted = true ∧ (mount s dj wells).boot.bankCharged = true ∧
      (mount s dj wells).time.resume = if (mount s dj wells).time.bootNs = 0 then none else some (mount s dj wells).time.bootNs := by
  simp only [mount, hphase, hstart, ne_eq, not_true_eq_false, Bool.true_eq_false, or_self, if_false, and_self]

theorem rebuild_spec {s : State} (hphase : s.boot.phase = 3) : (rebuild s).boot.phase = 4 ∧ (rebuild s).rhz.gen = 1 := by
  simp only [rebuild, hphase, ne_eq, not_true_eq_false, if_false, and_self]

theorem recovery_spec {s : State} (hphase : s.boot.phase = 4) (hdone : s.boot.phaseDone = false) (hwait : s.readBackWaits = false) :
    (recovery s).boot.phaseDone = true := by
  simp only [recovery, hphase, hdone, hwait, ne_eq, not_true_eq_false, Bool.false_eq_true, or_self, if_false]

theorem recovery_of_waiting {s : State} (hwait : s.readBackWaits = true) : recovery s = s := by
  simp only [recovery, hwait, if_true, ite_self]

/-- Entry into service shows MOD_READY and the SERVICE indicator (R508, R542). -/
theorem serviceEntry_spec {s : State} (hphase : s.boot.phase = 4) (hdone : s.boot.phaseDone = true) :
    (serviceEntry s).boot.phase = 5 ∧ (serviceEntry s).boot.ready = true ∧ (serviceEntry s).til.capGen = 1 ∧
      (serviceEntry s).boot.firstStroke = s.strokeN ∧ (serviceEntry s).serviceLamp = .on := by
  simp only [serviceEntry, hphase, hdone, ne_eq, not_true_eq_false, Bool.true_eq_false, or_self, if_false, State.serviceLamp,
    State.event_boot, State.event_til, if_true, and_self]

theorem firmwarePersist_eq {s : State} {img : List Byte} (h : s.boot.persist = some img) : firmwarePersist s =
    if s.wdl.mounted then { s with boot := { s.boot with slotA := img, persist := none } } else s := by
  simp only [firmwarePersist, h]

/-! ### The FUS page (R513, R516) -/

section
variable {s : State} {req : Requester} (h : s.gate req 0 15 3 = (s, true))
include h

theorem provision_of_done (hprov : s.boot.fuses.provisioned = true) : provision s req = s.fusDone 3 := by
  simp only [provision, State.gated_of_pass h, hprov, if_true]

/-- A descriptor that passes every check of R516 programs the fuses. -/
theorem provision_of_checked {d : List Byte} {g : Fuses} (hprov : s.boot.fuses.provisioned = false) (hal : s.fusAddr % 32 = 0)
    (hin : s.inHost s.fusAddr 32 = true) (hd : d = s.load .lpddr s.fusAddr 32) (hcrc : crcOk d = true) (hver : fld d 4 1 = 1)
    (hlock : fld d 5 1 ≤ 2) (hz6 : zeros d 6 2 = true) (hp0 : permitOk (fld d 8 4) = true) (hp1 : permitOk (fld d 0xC 4) = true)
    (hz16 : zeros d 0x10 16 = true) (hg : g = { s.boot.fuses with
      lock := max s.boot.fuses.lock (fld d 5 1), permit0 := fld d 8 4, permit1 := fld d 0xC 4, provisioned := true }) :
    provision s req = ({ s with boot := { s.boot with fuses := g, lock := g.level } } : State).fusDone 0 := by
  subst hd hg
  simp only [provision, State.gated_of_pass h, hprov, hal, hin, hcrc, hver, hlock, hz6, hp0, hp1, hz16, Bool.false_eq_true, if_false,
    ne_eq, not_true_eq_false, Bool.true_eq_false, or_self, Bool.not_true, beq_self_eq_true, decide_true, Bool.and_self]

theorem raiseLock_of_gate (arg : Nat) : raiseLock s req arg =
    if 2 < arg then s.fusDone 2 else if arg ≤ s.boot.fuses.lock then s.fusDone 4
    else ({ s with boot := { s.boot with fuses := { s.boot.fuses with lock := arg }, lock := Fuses.level { s.boot.fuses with lock := arg } }
                   dbg := { s.dbg with unlocked := false } } : State).fusDone 0 := by
  simp only [raiseLock, State.gated_of_pass h]

theorem raiseSec_of_gate (arg : Nat) : raiseSec s req arg =
    if arg ≤ s.boot.fuses.secMin then s.fusDone 4 else if fwSec s.boot.runImage < arg then s.fusDone 5
    else ({ s with boot := { s.boot with fuses := { s.boot.fuses with secMin := arg } } } : State).fusDone 0 := by
  simp only [raiseSec, State.gated_of_pass h]

theorem storeFw_of_unaligned (hal : s.fusAddr % 32 ≠ 0) : storeFw s req = s.fusDone 2 := by
  simp only [storeFw, State.gated_of_pass h, ne_eq, hal, not_false_eq_true, true_or, if_true]

/-- An image in the host area that passes the checks of R512 runs at once in the hold, or goes to the slot not running (R513). -/
theorem storeFw_of_checked {b : List Byte} (hal : s.fusAddr % 32 = 0) (hin : s.inHost s.fusAddr 512 = true)
    (hsize : fwCode (s.load .lpddr s.fusAddr 512) ≤ 67108864)
    (hin' : s.inHost s.fusAddr (512 + fwCode (s.load .lpddr s.fusAddr 512)) = true)
    (hb : b = s.load .lpddr s.fusAddr (512 + fwCode (s.load .lpddr s.fusAddr 512)))
    (hcheck : fwCheck { s.fusesNow with secMin := s.boot.fuses.secMin } b = 0) : storeFw s req =
    if s.boot.fwHold = true then ({ s with boot := { s.boot with
      running := 3, runImage := b, persist := some b, fwHold := false, phase := 2 } } : State).fusDone 0
    else if s.wdl.readOnly = true then s.fusDone 8
    else ({ s with boot := if s.boot.running = 0 then { s.boot with slotB := b } else { s.boot with slotA := b } } : State).fusDone 0 := by
  have hplace : ¬(s.fusAddr % 32 ≠ 0 ∨ s.inHost s.fusAddr 512 = false) := by simp [hal, hin]
  have hwhole : ¬(67108864 < fwCode (s.load .lpddr s.fusAddr 512) ∨
      s.inHost s.fusAddr (512 + fwCode (s.load .lpddr s.fusAddr 512)) = false) :=
    not_or.2 ⟨Nat.not_lt.2 hsize, by rw [hin']; exact Bool.noConfusion⟩
  rw [storeFw, State.gated_of_pass h]
  simp only [if_neg hplace, if_neg hwhole, ← hb, hcheck, ne_eq, not_true_eq_false, if_false]
end

/-- Settles O55: each phase and each command takes the branch that its guards name. -/
theorem startUpRunsThroughItsPhases : Obligations.StartUpRunsThroughItsPhases := by
  refine ⟨fun s => ⟨?_, ?_, ?_, ?_, ?_, ?_, ?_, ?_, ?_, ?_, ?_, ?_, ?_⟩, ?_, ?_, ?_⟩
  · intro hoff
    rw [exec_powerOn, powerOn, if_neg (by simp [hoff])]
  · intro hon
    rw [exec_powerOn, powerOn, if_pos hon]
  · intro hdue hon hwh
    rw [exec_restart, restart, if_neg (by simp [hdue, hon, hwh])]
  · intro hdue
    rw [exec_restart, restart, if_pos (.inl hdue)]
  · intro hstart hphase hwh
    simp only [exec_fuseLoad, fuseLoad_of_present hstart hphase hwh]
    exact ⟨rfl, rfl⟩
  · intro hstart hphase hwh
    refine ⟨fun f hf => ?_, fun hf ok => congrArg _ (fuseLoad_of_no_shadow hstart hphase hwh hf ok)⟩
    simp only [exec_fuseLoad, fuseLoad_of_shadow hstart hphase hwh hf]
    exact ⟨rfl, rfl⟩
  · intro hphase happl
    rw [exec_firmwareLoad]
    exact ⟨fun ha hver => congrArg _ (firmwareLoad_of_found hphase happl (State.fwOrder_find_slotA ha hver)),
      fun hb hver => congrArg _ (firmwareLoad_of_found hphase happl (State.fwOrder_find_slotB hb hver)),
      fun ha hb hhold => congrArg _ (firmwareLoad_of_none hphase happl (State.fwOrder_find_none ha hb) hhold)⟩
  · exact fun dj wells hphase hstart => ⟨_, exec_mount s dj wells, mount_spec dj wells hphase hstart⟩
  · exact fun hphase => ⟨_, exec_rebuild s, rebuild_spec hphase⟩
  · exact fun hphase hdone hwait => ⟨_, exec_recovery s, recovery_spec hphase hdone hwait⟩
  · exact fun _ _ hwait => congrArg _ (recovery_of_waiting hwait)
  · exact fun hphase hdone => ⟨_, exec_serviceEntry s, serviceEntry_spec hphase hdone⟩
  · intro img himg
    rw [exec_firmwarePersist, firmwarePersist_eq himg]
    exact ⟨fun hm => congrArg _ (if_pos hm), fun hm => congrArg _ (if_neg (by simp [hm]))⟩
  · intro s req h
    rw [exec_dbgReset, exec_shutdown, dbgReset, shutdown, State.gated_of_pass h, State.gated_of_pass h]
    exact ⟨rfl, fun h0 => congrArg _ (if_neg (not_not.2 h0)), fun h0 => congrArg _ (if_pos h0)⟩
  · rintro s req f h rfl
    refine ⟨?_, ?_, fun arg harg => ?_, ?_, ?_⟩
    · intro d g hprov hal hin hd hcrc hver hlock hz6 hp0 hp1 hz16 hg
      rw [exec_provision, provision_of_checked h hprov hal hin hd hcrc hver hlock hz6 hp0 hp1 hz16 hg]
    · intro hprov
      rw [exec_provision, provision_of_done h hprov]
    · rw [exec_raiseLock s req harg, exec_raiseSec s req harg, raiseLock_of_gate h, raiseSec_of_gate h]
      refine ⟨fun hbig => congrArg _ (if_pos hbig), fun hok hlow => ?_, ?_, fun hlow => congrArg _ (if_pos hlow), fun hup himg => ?_,
        fun hup himg => ?_⟩
      · rw [if_neg (Nat.not_lt.2 hok), if_pos hlow]
      · rintro hok hup g rfl
        rw [if_neg (Nat.not_lt.2 hok), if_neg (Nat.not_le.2 hup)]
      · rw [if_neg (Nat.not_le.2 hup), if_pos himg]
      · rw [if_neg (Nat.not_le.2 hup), if_neg (Nat.not_lt.2 himg)]
    · intro hal
      rw [exec_storeFw, storeFw_of_unaligned h hal]
    · intro b hal hin hsize hin' hb hcheck
      rw [exec_storeFw, storeFw_of_checked h hal hin hsize hin' hb hcheck]
      refine ⟨fun hhold => congrArg _ (if_pos hhold), fun hhold hro => ?_, fun hhold hro hrun => ?_, fun hhold hro hrun => ?_⟩
      · rw [if_neg (by simp [hhold]), if_pos hro]
      · rw [if_neg (by simp [hhold]), if_neg (by simp [hro]), if_pos hrun]
      · rw [if_neg (by simp [hhold]), if_neg (by simp [hro]), if_neg hrun]
  · intro s req h
    rw [exec_timeStage, exec_timeCancel, timeStage, timeCancel, State.gated_of_pass h, State.gated_of_pass h]
    exact ⟨rfl, rfl⟩

end Sys2Proof.Machine
end

section
/-! PROOFS. The stroke: how counter and time advance, what a boundary does in order, and the composition cut (R50 to R53, R520), with
what each of the family's commands runs. -/

namespace Sys2Proof.Machine

/-! ### The meaning that a command runs -/

section
variable (s : State) (req : Requester) (m : CmdMsg)
@[simp] theorem exec_strokeBoundary (watts : Nat) (draw ready : List Nat) :
    exec (.strokeBoundary watts draw ready) s = .next (strokeBoundary s watts draw ready) := rfl
@[simp] theorem exec_compositionCut : exec .compositionCut s = .next (compositionCut s) := rfl
@[simp] theorem exec_loadJob : exec (.loadJob m) s = .next (s.cmdNow m 1) := rfl
@[simp] theorem exec_removeJob : exec (.removeJob m) s = .next (s.cmdNow m 2) := rfl
@[simp] theorem exec_setWheel : exec (.setWheel m) s = .next (s.cmdNow m 3) := rfl
@[simp] theorem exec_drain : exec (.drain m) s = .next (s.cmdNow m 4) := rfl
@[simp] theorem exec_resume : exec (.resume m) s = .next (s.cmdNow m 5) := rfl
@[simp] theorem exec_resize : exec (.resize m) s = .next (s.cmdNow m 6) := rfl
@[simp] theorem exec_retireTiller : exec (.retireTiller m) s = .next (s.cmdNow m 7) := rfl
@[simp] theorem exec_readmitTiller : exec (.readmitTiller m) s = .next (s.cmdNow m 8) := rfl
@[simp] theorem exec_tileProduct (t a : Nat) : exec (.tileProduct t a) s = .next (tileProduct s t a) := rfl
@[simp] theorem exec_tilePrepass (t a : Nat) : exec (.tilePrepass t a) s = .next (tilePrepass s t a) := rfl
@[simp] theorem exec_tileEnd (t a : Nat) : exec (.tileEnd t a) s = .next (tileEnd s t a) := rfl
@[simp] theorem exec_splitSecondPass (t a : Nat) : exec (.splitSecondPass t a) s = .next (splitSecondPass s t a) := rfl
@[simp] theorem exec_wellFailure (n : Nat) : exec (.wellFailure n) s = .next (s.wellFailure n) := rfl
@[simp] theorem exec_wellReturn (n : Nat) : exec (.wellReturn n) s = .next (wellReturn s n) := rfl
@[simp] theorem exec_layout : exec (.layout req) s = .next (layout s req) := rfl

variable {id : Nat} (hid : id < 65536)
include hid

theorem exec_imageCreate : exec (.imageCreate req id) s = .next (imageCreate s req id) := by
  show Host.Outcome.next (imageCreate s req (id % 65536)) = _
  rw [Nat.mod_eq_of_lt hid]

theorem exec_imageWrite : exec (.imageWrite req id) s = .next (imageWrite s req id) := by
  show Host.Outcome.next (imageWrite s req (id % 65536)) = _
  rw [Nat.mod_eq_of_lt hid]

theorem exec_imageSeal : exec (.imageSeal req id) s = .next (imageSeal s req id) := by
  show Host.Outcome.next (imageSeal s req (id % 65536)) = _
  rw [Nat.mod_eq_of_lt hid]

theorem exec_imageDelete : exec (.imageDelete req id) s = .next (imageDelete s req id) := by
  show Host.Outcome.next (imageDelete s req (id % 65536)) = _
  rw [Nat.mod_eq_of_lt hid]
end

/-- Settles O58: a step looks at the queue's front alone. -/
theorem aStepRunsTheFrontCommand : Obligations.AStepRunsTheFrontCommand :=
  ⟨fun _ _ _ => rfl, fun s h => by simp only [step, h]⟩

/-! ### Counter and time (R50, R51, R517, R520) -/

section
variable {s : State}

theorem State.stroke_advanceTime_of_free (h : s.zio.takeStroke = none) : s.advanceTime.time.stroke = s.time.stroke + 1 := by
  simp only [State.advanceTime, h]
  exact BitVec.eq_of_toNat_eq (by simp)

/-- After a lengthened stroke the ring's number is the module's (R51). -/
theorem State.strokeN_advanceTime_of_taken {v : Nat} (h : s.zio.takeStroke = some v) (hv : v < 2 ^ 64) : s.advanceTime.strokeN = v := by
  simp only [State.advanceTime, State.strokeN, h, BitVec.toNat_ofNat, Nat.mod_eq_of_lt hv]

theorem State.boundNs_advanceTime_of_running (h : s.time.resume = none) : s.advanceTime.time.boundNs = s.time.boundNs + 50000 := by
  simp only [State.advanceTime, h]
  exact BitVec.eq_of_toNat_eq (by simp)

/-- A saved time that the module's own has not passed is taken (R520). -/
theorem State.boundNs_advanceTime_of_saved {v : Word64} (h : s.time.resume = some v) (hv : s.time.boundNs.toNat + 50000 ≤ v.toNat) :
    s.advanceTime.time.boundNs = v := by
  have hmax : max v.toNat ((s.time.boundNs.toNat + 50000) % 18446744073709551616) = v.toNat :=
    max_eq_left ((Nat.mod_le _ _).trans hv)
  simp only [State.advanceTime, h, hmax, BitVec.ofNat_toNat, BitVec.setWidth_eq]
end

/-! ### The boundary and the cut (R52, R53) -/

/-- Settles O12: boundary and cut are each one guard over their steps, and the fields that time does not own stay as they are. -/
theorem strokeBoundaryAdvancesTime : Obligations.StrokeBoundaryAdvancesTime := by
  refine ⟨?_, ?_, ?_, ?_, ?_, ?_, ?_, ?_, ?_, ?_⟩
  · intro s watts draw ready hstart hsafe hpause
    refine ⟨_, _, _, rfl, rfl, rfl, ?_⟩
    rw [exec_strokeBoundary, strokeBoundary, if_neg (by simp [hstart, hsafe, hpause])]
  · intro s watts draw ready h
    rw [exec_strokeBoundary, strokeBoundary, if_pos h]
  · exact fun s ready => ⟨_, _, _, _, rfl, rfl, rfl, rfl, rfl⟩
  · exact fun s h => State.stroke_advanceTime_of_free h
  · exact fun s v h hv => ⟨State.strokeN_advanceTime_of_taken h hv, rfl⟩
  · exact fun s h => State.boundNs_advanceTime_of_running h
  · exact fun s v h hv => State.boundNs_advanceTime_of_saved h hv
  · exact fun s => ⟨rfl, rfl, rfl, rfl, rfl, rfl⟩
  · rintro s u hready hshut hcut rfl
    rw [exec_compositionCut, compositionCut, if_neg (by simp [hready, hshut, hcut])]
  · intro s h
    rw [exec_compositionCut, compositionCut, if_pos h]

end Sys2Proof.Machine
end
section
/-! PROOFS. The commands of paddocks: how a boundary takes them and applies those that wait, and what each leaves (R54 to R67). -/

namespace Sys2Proof.Machine

/-! ### Taking a command (R61, R62, R64, R65) -/

theorem mem_of_mem_sortBy {α : Type} {f : α → Nat} {x : α} {l : List α} (h : x ∈ sortBy f l) : x ∈ l := by
  have hins : ∀ (y : α) (l : List α), x ∈ sortBy.insByFront f y l → x = y ∨ x ∈ l := by
    intro y l
    fun_induction sortBy.insByFront f y l <;> grind
  induction l with
  | nil => exact h
  | cons y l ih => exact List.mem_cons.2 ((hins y _ h).imp_right ih)

theorem State.mem_recvd_of_firstTaken {s : State} {r : Recvd} (h : s.firstTaken = some r) : r ∈ s.pad.recvd :=
  List.mem_of_mem_filter (mem_of_mem_sortBy (List.mem_of_head? h))

section
variable {s : State} {m : CmdMsg} {cmd : Nat}

/-- A command that its boundary takes waits for a re-plan boundary if it changes placement, and takes effect at once otherwise (R61). -/
theorem State.cmdNow_of_taken {r : Recvd} (h : CmdTaken s m cmd r) : s.cmdNow m cmd =
    if CmdMsgReplan m && m.cmd != 8 then (s.untaken r).awaitDue m else (s.untaken r).applyCmd m true := by
  obtain ⟨hcmd, hdue, hfirst, rfl, hbound, hcheck, hhold⟩ := h
  have hin : s.pad.recvd.any (fun x => decide (x.msg = r.msg)) = true :=
    List.any_eq_true.2 ⟨r, State.mem_recvd_of_firstTaken hfirst, decide_eq_true rfl⟩
  simp only [State.cmdNow, hcmd, hdue, hin, hfirst, hbound, State.takeCmd, hcheck, hhold, ne_eq, not_true_eq_false, if_false, and_self,
    if_true, Bool.and_false, Bool.false_eq_true]

theorem State.cmdNow_of_taken_waits {r : Recvd} (h : CmdTaken s m cmd r) (hcmd : cmd = 1 ∨ cmd = 6 ∨ cmd = 7) :
    s.cmdNow m cmd = (s.untaken r).awaitDue m := by
  refine (State.cmdNow_of_taken h).trans (if_pos ?_)
  rcases hcmd with rfl | rfl | rfl <;> simp [CmdMsgReplan, h.1]

theorem State.cmdNow_of_taken_applies {r : Recvd} (h : CmdTaken s m cmd r) (hcmd : cmd = 2 ∨ cmd = 3 ∨ cmd = 4 ∨ cmd = 5 ∨ cmd = 8) :
    s.cmdNow m cmd = (s.untaken r).applyCmd m true := by
  refine (State.cmdNow_of_taken h).trans (if_neg ?_)
  rcases hcmd with rfl | rfl | rfl | rfl | rfl <;> simp [CmdMsgReplan, h.1]

/-- A command that waits is applied at its re-plan boundary, which raises cap_gen where the capability table changed (R65, R138). -/
theorem State.cmdNow_of_due {d : Due} (h : CmdDue s m cmd d) :
    s.cmdNow m cmd = ((s.undue d).applyCmd m true).bumpCap (s.undue d) := by
  obtain ⟨hcmd, hdue, hbound, hfirst, hhold⟩ := h
  simp only [State.cmdNow, hcmd, hdue, hbound, hfirst, hhold, ne_eq, not_true_eq_false, if_false, Bool.not_true, Bool.or_self,
    Bool.false_eq_true]

/-- A command of the Pumphouse that nothing knows yet is received (R62, log entry 11). -/
theorem State.cmdNow_of_unknown (hsrc : m.source = 3) (hdue : s.dueOf m = none) (hrec : ∀ r ∈ s.pad.recvd, r.msg ≠ m)
    (hheld : s.isHeld m = false) (hcmd : m.cmd = cmd) : s.cmdNow m cmd = s.receive m := by
  have hin : s.pad.recvd.any (fun x => decide (x.msg = m)) = false :=
    List.any_eq_false.2 fun r hr => by simp [hrec r hr]
  simp only [State.cmdNow, hcmd, hdue, hin, hsrc, hheld, ne_eq, not_true_eq_false, if_false, Bool.false_eq_true, and_self, if_true]

/-! ### What a command runs and posts (R61, R63) -/

variable {ready : Bool}

theorem State.applyCmd_load (h : m.cmd = 1) :
    s.applyCmd m ready = (s.doLoad m ready).1.cmdResult m (s.doLoad m ready).2.1 (s.doLoad m ready).2.2 := by
  simp only [State.applyCmd, h]

theorem State.applyCmd_remove (h : m.cmd = 2) :
    s.applyCmd m ready = ((s.doRemove m).1.cmdResult m (s.doRemove m).2.1 (s.doRemove m).2.2).unhalt m.paddock := by
  simp only [State.applyCmd, h]

theorem State.applyCmd_wheel (h : m.cmd = 3) :
    s.applyCmd m ready = (s.doWheel m).1.cmdResult m (s.doWheel m).2.1 (s.doWheel m).2.2 := by
  simp only [State.applyCmd, h]

theorem State.applyCmd_drain (h : m.cmd = 4) :
    s.applyCmd m ready = (s.doDrain m true).1.cmdResult m (s.doDrain m true).2.1 (s.doDrain m true).2.2 := by
  simp only [State.applyCmd, h]

theorem State.applyCmd_resume (h : m.cmd = 5) :
    s.applyCmd m ready = (s.doDrain m false).1.cmdResult m (s.doDrain m false).2.1 (s.doDrain m false).2.2 := by
  simp only [State.applyCmd, h]

theorem State.applyCmd_resize (h : m.cmd = 6) :
    s.applyCmd m ready = (s.doResize m ready).1.cmdResult m (s.doResize m ready).2.1 (s.doResize m ready).2.2 := by
  simp only [State.applyCmd, h]

theorem State.applyCmd_retire (h : m.cmd = 7) :
    s.applyCmd m ready = (s.doRetire m ready).1.cmdResult m (s.doRetire m ready).2.1 (s.doRetire m ready).2.2 := by
  simp only [State.applyCmd, h]

theorem State.applyCmd_readmit (h : m.cmd = 8) (hgo : (s.doReadmit m).2 = none) : s.applyCmd m ready = (s.doReadmit m).1 := by
  simp only [State.applyCmd, h, hgo]

/-! ### DRAIN, RESUME and SET_WHEEL (R57, R64) -/

theorem State.doDrain_of_active (drain : Bool) (h : (s.paddock m.paddock).state = .running ∨ (s.paddock m.paddock).state = .drained) :
    s.doDrain m drain =
      (s.setPaddock m.paddock { s.paddock m.paddock with state := if drain then .drained else .running }, 0, 0) := by
  rcases h with h | h <;> simp only [State.doDrain, h]

theorem State.doWheel_of_checked (hin : s.inHost m.wheelRef (2 * m.wheelLen) = true)
    (hes : ∀ j ∈ s.wheelEntries m, (s.paddock m.paddock).jobs.contains j = true ∧ s.usesTillers j = true) :
    s.doWheel m = (s.setPaddock m.paddock { s.paddock m.paddock with wheel := some (s.wheelEntries m), wheelPos := 0 }, 0, 0) := by
  have hall : (s.wheelEntries m).all (fun j => (s.paddock m.paddock).jobs.contains j && s.usesTillers j) = true :=
    List.all_eq_true.2 fun j hj => Bool.and_eq_true_iff.2 (hes j hj)
  simp only [State.doWheel, hin, hall, Bool.true_eq_false, or_self, if_false]

/-! ### LOAD_JOB, REMOVE_JOB and RESIZE (R55, R65) -/

theorem State.doLoad_of_checked {p : Plan} (hcheck : s.loadCheck m ready = 0) (hp : s.plan m.job = some p) {a : State}
    (ha : a = ({ s.putPlan m.job { p with loaded := some m.paddock, order := s.cis.loadSeq, batch := [], next := [], ran := 0 } with
      cis := { (s.putPlan m.job { p with
        loaded := some m.paddock, order := s.cis.loadSeq, batch := [], next := [], ran := 0 }).cis with
          loadSeq := s.cis.loadSeq + 1 } } : State)) :
    s.doLoad m ready = ((((a.setPaddock m.paddock (Paddock.rewheel { s.paddock m.paddock with
      state := if (s.paddock m.paddock).state = .empty then .running else (s.paddock m.paddock).state
      jobs := (s.paddock m.paddock).jobs ++ [m.job] })).placeJob m.job).publishSlots m.paddock).event 120 2 [padBit m.paddock 3] [],
        0, 0) := by
  subst ha
  simp only [State.doLoad, hcheck, hp, ne_eq, not_true_eq_false, if_false]
  rfl

theorem State.doRemove_of_loaded {p p' : Plan} (hp : s.plan m.job = some p) (hload : p.loaded = some m.paddock) {b : State}
    (hp' : (s.clearJob m.paddock m.job).plan m.job = some p')
    (hb : b = (s.clearJob m.paddock m.job).putPlan m.job { p' with loaded := none, batch := [], next := [], ran := 0 }) :
    s.doRemove m = ((((b.setPaddock m.paddock ((b.paddock m.paddock).without m.job)).rerank m.paddock).publishSlots
      m.paddock).event 120 2 [padBit m.paddock 3] [], 0, 0) := by
  subst hb
  simp only [State.doRemove, hp, hload, ne_eq, not_true_eq_false, if_false, State.unloadPlan, hp']

theorem Paddock.rewheel_spec (q : Paddock) :
    q.rewheel.jobs = q.jobs ∧ q.rewheel.wheel = q.wheel ∧ q.rewheel.stepOpen = q.stepOpen := by
  unfold Paddock.rewheel
  split <;> exact ⟨rfl, rfl, rfl⟩

/-- What a paddock without a job has lost (R56, R57). -/
theorem Paddock.without_spec (q : Paddock) (j : Nat) : (q.without j).jobs = q.jobs.filter (fun i => i ≠ j) ∧
    ((q.without j).jobs = [] → (q.without j).wheel = none) ∧ (q.occupant = j → (q.without j).stepOpen = none) := by
  obtain ⟨hjobs, hwheel, hopen⟩ := Paddock.rewheel_spec { q with
    jobs := q.jobs.filter (fun i => i ≠ j)
    wheel := if q.jobs.filter (fun i => i ≠ j) = [] then none else q.wheel, occupant := if q.occupant = j then 0 else q.occupant
    stepOpen := if q.occupant = j then none else q.stepOpen }
  refine ⟨hjobs, fun h => hwheel.trans (if_pos (hjobs.symm.trans h)), fun h => hopen.trans (if_pos h)⟩

/-- What RESIZE makes of a paddock: the ranks found for it, those of `q`, and the quotas of the message (R65). -/
def State.resizePad (s : State) (m : CmdMsg) (q : Paddock) : Paddock :=
  { q with
    state := if maskTillers m.tillers = [] ∧ (s.paddock m.paddock).jobs = [] then .empty
      else if (s.paddock m.paddock).state = .empty then .running else (s.paddock m.paddock).state
    lpddrGib := m.lpddrGib, sounder := m.sounderSlots, sprintS := m.sprintSlots }

/-- RESIZE first changes the paddock and gives the Tillers that join their role (R65). -/
def State.resizeJoin (s : State) (m : CmdMsg) (q : Paddock) : State :=
  ((maskTillers m.tillers).filter (fun t => !(s.paddock m.paddock).tillers.contains t)).foldl
    (fun b t => b.setRole t .inService (some m.paddock)) (s.setPaddock m.paddock (s.resizePad m q))

/-- It then has the Tillers `left` out give up pages, work and role, places the pages and publishes the sprint slots (R65). -/
def State.resizeLeave (s : State) (m : CmdMsg) (left : List Nat) : State :=
  ((left.foldl (fun c t => (c.idleUnits t).setRole t .inService none)
    (State.placePad (left.foldl (fun c t => c.evacuate t) s) m.paddock)).publishSlots m.paddock).event 120 2 [padBit m.paddock 3] []

theorem State.resizeJoin_eq (s : State) (m : CmdMsg) (q : Paddock) : s.resizeJoin m q = (maskTillers m.tillers).foldl
    (fun b t => if (s.paddock m.paddock).tillers.contains t then b else b.setRole t .inService (some m.paddock))
    (s.setPaddock m.paddock (s.resizePad m q)) := by
  rw [State.resizeJoin, List.foldl_filter]
  congr
  funext b t
  cases (s.paddock m.paddock).tillers.contains t <;> rfl

/-- RESIZE answers result 0 on one path alone: past its checks, with ranks found for the paddock (R65). -/
theorem State.doResize_of_applied (h : (s.doResize m true).2.1 = 0) : ∃ (q : Paddock) (c : State),
    s.rankPad m.paddock (maskTillers m.tillers) = some q ∧
    c = (s.resizeJoin m q).resizeLeave m
      ((s.paddock m.paddock).tillers.filter (fun t => !(maskTillers m.tillers).contains t)) ∧
    s.doResize m true = ((c.unhalt m.paddock).setPoints, 0, ((c.unhalt m.paddock).paddock m.paddock).sprintPub) := by
  unfold State.doResize at h ⊢
  dsimp only at h ⊢
  split at h
  · exact absurd h (by simp)
  · next hsprint =>
    split at h
    · exact absurd h (by simp)
    · next hroom =>
      split at h
      · exact absurd h (by simp)
      · next q hq =>
        refine ⟨q, _, hq, rfl, ?_⟩
        rw [if_neg hsprint, if_neg hroom]
        rfl

/-! ### RETIRE_TILLER and READMIT_TILLER (R65 to R67) -/

section
variable {x : Nat} (hx : maskTillers m.tillers = [x])
include hx

/-- A Tiller in service leaves for the spare that stands ready (R65). -/
theorem State.doRetire_of_inService {sp : Nat} (hrole : (s.tiller x).role = .inService) (hpad : (s.tiller x).pad = some m.paddock)
    (hsp : s.nextSpare = some sp) {q : Paddock} (hq : q = s.paddock m.paddock) {b : State}
    (hb : b = State.placePad (((s.setPaddock m.paddock { q with
        tillers := insNat sp (q.tillers.filter (fun y => y ≠ x))
        ranks := q.ranks.map (fun y => if y = some x then some sp else y)
        hosted := q.hosted.map (fun e => if e.2 = x then (e.1, sp) else e) }).setRole sp .inService
          (some m.paddock)).evacuate x) m.paddock) :
    s.doRetire m true = (((b.powerOff x).event 120 2 [padBit m.paddock 3] []).setPoints, 0, 0) := by
  subst hq hb
  simp only [State.doRetire, hx, hrole, hpad, State.depart, hsp, reduceCtorEq, ne_eq, not_true_eq_false, or_self, if_false, if_true]

theorem State.doRetire_of_spare (hrole : (s.tiller x).role = .spare) (hpromos : s.pad.promos = []) : s.doRetire m ready =
    ({ (s.powerOff x).setPoints with pad := { (s.powerOff x).setPoints.pad with promos := [] } }, 0, 0) := by
  simp only [State.doRetire, hx, hrole, hpromos, if_true, List.map_nil, List.foldl_nil]

theorem State.doReadmit_of_retired (hrole : (s.tiller x).role = .retired) (hret : s.returning x = false)
    (hperm : s.flt.permanent.contains x = false) : s.doReadmit m =
      ({ s with pad := { s.pad with quars := s.pad.quars ++ [{ tiller := x, since := s.strokeN, cmd := some m }] } }, none) := by
  simp only [State.doReadmit, hx, hrole, hret, hperm, ne_eq, not_true_eq_false, Bool.false_eq_true, or_self, if_false]
end
end

theorem State.role_powerOff (s : State) (t : Nat) : ((s.powerOff t).tiller t).role = .retired := by
  show (((s.idleUnits t).setRole t .retired none).tiller t).role = _
  rw [State.setRole, State.tiller_setTiller]

/-! ### The statements -/

/-- Settles O6: each command's taking, then its own effect. -/
theorem paddockStateAndWheelCommandsApply : Obligations.PaddockStateAndWheelCommandsApply := by
  refine ⟨?_, ?_⟩
  · rintro s u m r rfl
    refine ⟨fun h hst => ?_, fun h hst => ?_, fun h hin hes => ?_⟩
    · rw [exec_drain, State.cmdNow_of_taken_applies h (by decide), State.applyCmd_drain h.1, State.doDrain_of_active true hst, if_pos rfl]
    · rw [exec_resume, State.cmdNow_of_taken_applies h (by decide), State.applyCmd_resume h.1, State.doDrain_of_active false hst]
      rfl
    · rw [exec_setWheel, State.cmdNow_of_taken_applies h (by decide), State.applyCmd_wheel h.1, State.doWheel_of_checked hin hes]
  · intro s m hsrc hdue hrec hheld
    have hgo {cmd : Nat} := State.cmdNow_of_unknown (cmd := cmd) hsrc hdue hrec hheld
    simp only [exec_loadJob, exec_removeJob, exec_setWheel, exec_drain, exec_resume, exec_resize, exec_retireTiller, exec_readmitTiller]
    refine ⟨?_, ?_, ?_, ?_, ?_, ?_, ?_, ?_⟩ <;> exact fun h => congrArg _ (hgo h)

/-- Settles O7: what waits is applied at its boundary, and each command's effect is its own lemma. -/
theorem jobCommandsApply : Obligations.JobCommandsApply := by
  refine ⟨?_, Paddock.without_spec, ?_⟩
  · rintro s u m r rfl
    refine ⟨fun h => ?_, fun h => ?_, ?_⟩
    · rw [exec_loadJob, State.cmdNow_of_taken_waits h (by decide)]
    · rw [exec_resize, State.cmdNow_of_taken_waits h (by decide)]
    · rintro p p' a b h hp hload rfl hp' hb
      rw [exec_removeJob, State.cmdNow_of_taken_applies h (by decide), State.applyCmd_remove h.1,
        State.doRemove_of_loaded hp hload hp' hb]
  · rintro s u m d rfl
    refine ⟨?_, fun h happl => ?_⟩
    · rintro p a q h hcheck hp ha rfl
      rw [exec_loadJob, State.cmdNow_of_due h, State.applyCmd_load h.1, State.doLoad_of_checked hcheck hp ha]
    · obtain ⟨q, c, hq, hc, hres⟩ := State.doResize_of_applied happl
      refine ⟨q, _, hq, State.resizeJoin_eq _ m q, c, hc, ?_⟩
      rw [exec_resize, State.cmdNow_of_due h, State.applyCmd_resize h.1, hres]

/-- Settles O8: as for the job commands; a Tiller that is powered off reads back as retired. -/
theorem tillerCommandsApply : Obligations.TillerCommandsApply := by
  refine ⟨?_, ?_, State.role_powerOff⟩
  · rintro s u m r x rfl hx
    refine ⟨fun h => ?_, fun h hrole hret hperm => ?_⟩
    · rw [exec_retireTiller, State.cmdNow_of_taken_waits h (by decide)]
    · have hdo := State.doReadmit_of_retired hx hrole hret hperm
      rw [exec_readmitTiller, State.cmdNow_of_taken_applies h (by decide), State.applyCmd_readmit h.1 (by rw [hdo]), hdo]
  · rintro s u m d x rfl hx
    refine ⟨fun sp q b h hrole hpad hsp hq hb => ?_, fun h hrole hpromos => ?_⟩
    · rw [exec_retireTiller, State.cmdNow_of_due h, State.applyCmd_retire h.1, State.doRetire_of_inService hx hrole hpad hsp hq hb]
    · rw [exec_retireTiller, State.cmdNow_of_due h, State.applyCmd_retire h.1, State.doRetire_of_spare hx hrole hpromos]

end Sys2Proof.Machine
end

section
/-! PROOFS. What an array does with its next descriptor, and the second pass of a split tile (R58, R128, R131 to R136, R148, R158). -/

namespace Sys2Proof.Machine

/-! ### The next descriptor (R128, R132, R148, R158) -/

section
variable {s u v w : State} {t a rank list idx addr c k : Nat} {d e : List Byte} {x : Tile} (hmay : s.mayFetch t a = true)
  (hnext : s.nextDescOf t a = some (rank, list, idx, addr, d))

section
variable (hc : c = tdCheck d list (((s.tiller t).runner a).isNone)) (he : e = s.epiEntry t (a / 8) (tdEpi d))
  (hk : k = if c = 1 then 0 else edCheck e d) (hu : u = s.tookDesc t a rank list idx addr)
  (hv : v = if c = 0 then u else u.tileRefuse t addr c) (hw : w = if k = 0 then v else v.epiRefuse t (a / 8) (tdEpi d) k)
include hmay hnext hc he hk hu hv hw

/-- TILE_PRODUCT of an array that may fetch: what has been taken and logged is `w`; a good descriptor then waits for its counter or runs,
a refused one runs as a NaN tile at once (R132, R158, log entry 67). -/
theorem tileProduct_of_next (h1 : tdOp d ≠ 1) (h2 : tdOp d ≠ 2)
    (hx : x = { addr := addr, desc := d, epi := e, nan := decide (c ≠ 0 ∨ k ≠ 0), silent := decide (c = 1), job := w.jobOn t }) :
    tileProduct s t a = if c = 0 ∧ w.mustWait (tdWait d) (tdWaitV d) = true then w.arrayWaits t a x
      else (w.passWait c (tdWait d)).runTile t a x := by
  subst hc he hk hu hv hw hx
  simp only [tileProduct, hmay, hnext, h1, h2, or_self, if_false, Bool.not_true, Bool.false_eq_true]

/-- TILE_PREPASS likewise: a checked one computes its anchors, a refused one drains as a NaN tile (R131, R132). -/
theorem tilePrepass_of_next (h1 : tdOp d = 1)
    (hx : x = { addr := addr, desc := d, epi := e, nan := decide (c ≠ 0), silent := decide (c = 1), job := w.jobOn t }) :
    tilePrepass s t a = if c ≠ 0 then w.runTile t a x
      else if w.mustWait (tdWait d) (tdWaitV d) then w.arrayWaits t a x
      else (w.noteWait (tdWait d)).runPrepass t a x := by
  subst hc he hk hu hv hw hx
  simp only [tilePrepass, hmay, hnext, h1, ne_eq, not_true_eq_false, if_false, Bool.not_true, Bool.false_eq_true]
end

include hmay hnext

/-- TILE_END, refused or not, stops the array and its list (R128). -/
theorem tileEnd_of_next (h2 : tdOp d = 2)
    (hv : v = if tdCheck d list false = 0 then s else s.tileRefuse t addr (tdCheck d list false)) :
    tileEnd s t a = v.setTiller t { v.tiller t with
      lists := Tbl.del (v.tiller t).lists (listKey (v.jobOn t) rank list)
      arrays := Tbl.set {} (v.tiller t).arrays a { ((v.tiller t).array a).to 0 with turn := idx + 1 } } := by
  subst hv
  simp only [tileEnd, hmay, hnext, h2, ne_eq, not_true_eq_false, if_false, Bool.not_true, Bool.false_eq_true]
end

/-! ### The shadow registers (R122, R124, R135) -/

section
variable (s : State) (t a : Nat)

@[simp] theorem State.array_setArray (x : MatArray) : ((s.setArray t a x).tiller t).array a = x := by
  rw [State.setArray, State.tiller_setTiller]
  exact Tbl.val_set _ _ _ _

/-- A chain of a Tiller is apart from its arrays. -/
@[simp] theorem State.array_modChain (g : Nat) (f : Chain → Chain) :
    ((s.modChain t g f).tiller t).array a = ((s.tiller t).array a) := by
  simp only [State.modChain, State.setChain, State.tiller_setTiller, Tiller.array]

theorem State.tiller_of_til {s u : State} (h : u.til = s.til) (t : Nat) : u.tiller t = s.tiller t := by
  unfold State.tiller
  rw [h]

@[simp] theorem State.noteAdopted_til : (s.noteAdopted t a).til = s.til := by
  unfold State.noteAdopted
  dsimp only
  split
  · exact State.event_til _ _ _ _ _
  · rfl

theorem State.noteAdopted_til_if {c : Prop} [Decidable c] : (if c then s.noteAdopted t a else s).til = s.til := by
  split
  · exact State.noteAdopted_til s t a
  · rfl

/-- A width change leaves what the shadow registers hold (R135). -/
theorem State.shadow_applyWidth : (((s.applyWidth t a).tiller t).array a).shadow = ((s.tiller t).array a).shadow := by
  unfold State.applyWidth
  dsimp only
  split
  · rfl
  · rw [State.tiller_of_til ((State.noteAdopted_til_if _ _ _).trans (State.event_til _ _ _ _ _)), State.array_setArray]

theorem State.shadow_intoShadow (x : Tile) : (((s.intoShadow t a x).tiller t).array a).shadow = some x := by
  simp only [State.intoShadow, State.shadow_applyWidth, State.array_modChain, State.array_setArray]

/-- A tile whose last product is in takes the shadow registers if they are free (R127). -/
theorem State.shadow_toShadow (x : Tile) (h : ((s.tiller t).array a).shadow = none) :
    (((s.toShadow t a x).tiller t).array a).shadow = some x := by
  have hfree : (((s.bumpWide (8 + t) (1 + a / 8) 3 (a % 8) 1).tiller t).array a).shadow.isSome = false := by
    rw [State.tiller_of_til (State.bumpWide_til _ _ _ _ _ _), h]
    rfl
  simp only [State.toShadow, hfree, Bool.false_eq_true, if_false, State.shadow_intoShadow]
end

/-! ### The second pass (R133) -/

section
variable {s v : State} {t a b : Nat} {x : Tile}

theorem State.secondTile_of_held (htile : ((s.tiller t).array a).tile = some x) (hst : ((s.tiller t).array a).state = 4)
    (hfull : x.full = false) (hjob : x.job = s.jobOn t) : s.secondTile t a = some (a, x) := by
  simp only [State.secondTile, htile, hst, hfull, hjob, and_self, if_true]

theorem State.secondTile_of_left (htile : ((s.tiller t).array a).tile = none) (hst : ((s.tiller t).array a).state ≤ 1)
    (hrest : s.restOf t a = some (b, x)) : s.secondTile t a = some (b, x) := by
  simp only [State.secondTile, htile, hst, hrest, if_true]

theorem splitSecondPass_of_tile (hsec : s.secondTile t a = some (b, x)) (hsh : ((s.tiller t).array a).shadow = none)
    (hv : v = s.setTiller t { s.tiller t with rests := Tbl.del (s.tiller t).rests (listKey (s.jobOn t) 0 b) })
    {p : State × List (List Nat)} (hp : p = v.tilePass t a x.desc x.cols.length (tdN x.desc - x.cols.length)) :
    ∃ n, splitSecondPass s t a = (p.1.bumpWide (8 + t) (1 + a / 8) 1 (a % 8) n).toShadow t a { x with cols := x.cols ++ p.2 } := by
  subst hv hp
  simp only [splitSecondPass, hsec, hsh, Option.isSome_none, Bool.false_eq_true, if_false]
  exact ⟨_, rfl⟩
end

/-- Settles O22: each command's own equation, then the branch that its code and its counter choose. -/
theorem arrayCommandsRunTheirDescriptor : Obligations.ArrayCommandsRunTheirDescriptor := by
  refine ⟨?_, ?_, ?_, ?_⟩
  · intro s u v w t a rank list idx addr c k d e x hmay hnext hc he hk hu hv hw
    refine ⟨fun h1 h2 hx => ?_, fun h1 hx => ?_⟩
    · rw [exec_tileProduct, tileProduct_of_next hmay hnext hc he hk hu hv hw h1 h2 hx]
      refine ⟨fun hgood hwait => ?_, fun hgood hmet => ?_, fun hbad => ?_⟩
      · rw [if_pos ⟨hgood, hwait⟩]
      · rw [if_neg (by simp [hmet]), State.passWait, if_pos hgood]
      · rw [if_neg (fun h => hbad h.1), State.passWait, if_neg hbad]
    · rw [exec_tilePrepass, tilePrepass_of_next hmay hnext hc he hk hu hv hw h1 hx]
      refine ⟨fun hgood hwait => ?_, fun hgood hmet => ?_, fun hbad => ?_⟩
      · rw [if_neg (not_not.2 hgood), if_pos hwait]
      · rw [if_neg (not_not.2 hgood), if_neg (by simp [hmet])]
      · rw [if_pos hbad]
  · intro s t a x hnan hfree
    rw [State.runTile, if_pos hnan]
    exact State.shadow_toShadow s t a _ hfree
  · intro s v t a rank list idx addr d hmay hnext h2 hv
    rw [exec_tileEnd, tileEnd_of_next hmay hnext h2 hv]
  · intro s v t a b x htile hsh hv p hp
    have hsec : s.secondTile t a = some (b, x) := by
      rcases htile with ⟨hheld, hst, hfull, hjob, rfl⟩ | ⟨hnone, hst, hrest⟩
      · exact State.secondTile_of_held hheld hst hfull hjob
      · exact State.secondTile_of_left hnone hst hrest
    obtain ⟨n, hn⟩ := splitSecondPass_of_tile hsec hsh hv hp
    exact ⟨n, congrArg _ hn⟩

end Sys2Proof.Machine
end

section
/-! PROOFS. Wells that fail and return, the commands of model images, and the layout (R67, R219, R353, R365 to R367). -/

namespace Sys2Proof.Machine

/-! ### Wells (R365, R366) -/

/-- A Well that is back: its journal and spill blocks are released and its spill pages forgotten (R366). -/
def State.wellBack (s : State) (n : Nat) : State :=
  let u := s.setWell n { s.well n with state := 2 }
  { u with wdl := { u.wdl with
      blocks := s.wdl.blocks.map (fun e => if blkWell e.1 = n ∧ (e.2.part = 5 ∨ e.2.part = 1) ∧
        (e.2.state = .opened ∨ e.2.state = .verify ∨ e.2.state = .sealed) then (e.1, { e.2 with state := BlkState.released }) else e)
      map := s.wdl.map.filter (fun e => !(decide (e.1 / 36893488147419103232 = 5) && decide (blkWell (entryBlk e.2) = n))) } }

theorem State.well_wellBack (s : State) (n : Nat) : (s.wellBack n).well n = { s.well n with state := 2 } := by
  show (s.setWell n { s.well n with state := 2 }).well n = _
  exact State.well_setWell s n _

section
variable {s : State} {n : Nat} (hn : n < s.wellCount)
include hn

theorem wellReturn_of_gone (hst : (s.well n).state = 0 ∨ (s.well n).state = 4) :
    wellReturn s n = s.setWell n { s.well n with state := 3, since := s.strokeN } := by
  rw [wellReturn, if_neg (Nat.not_le.2 hn), if_pos hst]

theorem wellReturn_of_early (hst : (s.well n).state = 3) (hlt : s.strokeN < (s.well n).since + 20000) : wellReturn s n = s := by
  rw [wellReturn, if_neg (Nat.not_le.2 hn), if_neg (by simp [hst]), if_neg fun h => Nat.not_le.2 hlt h.2]

/-- A Well whose quarantine is over is back, and each generation looks for its stale groups there (R317, R366). -/
theorem wellReturn_of_ready (hst : (s.well n).state = 3) (hge : (s.well n).since + 20000 ≤ s.strokeN) :
    wellReturn s n = (List.range 4).foldl (fun s g => s.staleOn n g) (s.wellBack n) := by
  rw [wellReturn, if_neg (Nat.not_le.2 hn), if_neg (by simp [hst]), if_pos ⟨hst, hge⟩]
  simp only [Bool.and_eq_true, Bool.or_eq_true, decide_eq_true_eq, and_assoc, or_assoc]
  rfl
end

/-! ### Commands of the image page (R219, R367) -/

/-- A layout record replaced, its generation one higher: what the partitions but boot and journal held is released (R353). -/
def State.laidOut (s : State) (index passage spill : Nat) : State :=
  { s with wdl := { s.wdl with
      layout := { index := index, passage := passage, spill := spill, gen := s.wdl.layout.gen + 1 }
      blocks := s.wdl.blocks.map (fun e => if 2 ≤ e.2.part ∧ (e.2.state = .opened ∨ e.2.state = .verify ∨ e.2.state = .sealed) then
        (e.1, { e.2 with state := BlkState.released }) else e)
      map := [] } }

section
variable {s : State} {req : Requester} {id : Nat} {d : List Byte} (hgate : s.gate req 120 10 1 = (s, true))
  (hidle : s.cmdBusy 120 10 0x10C = false)
include hgate hidle

/-- A descriptor that fails its checks ends every command of the page with its code. -/
theorem imageCommands_of_failed {c : Nat} (hd : s.imgDesc = (c, d)) (hc : c ≠ 0) (hro : s.wdl.readOnly = false) :
    imageCreate s req id = s.cmdDone 10 c id ∧ imageWrite s req id = s.cmdDone 10 c id ∧ imageSeal s req id = s.cmdDone 10 c id ∧
      imageDelete s req id = s.cmdDone 10 c id ∧ layout s req = s.cmdDone 10 c 0 := by
  refine ⟨?_, ?_, ?_, ?_, ?_⟩
  · simp only [imageCreate, State.modCommand_of_idle hgate hidle, hd, hc, hro, Bool.false_eq_true, ne_eq, not_false_eq_true, if_false,
      if_true]
  · simp only [imageWrite, State.modCommand_of_idle hgate hidle, hd, hc, hro, Bool.false_eq_true, ne_eq, not_false_eq_true, if_false,
      if_true]
  · simp only [imageSeal, State.modCommand_of_idle hgate hidle, hd, hc, ne_eq, not_false_eq_true, if_true]
  · simp only [imageDelete, State.modCommand_of_idle hgate hidle, hd, hc, ne_eq, not_false_eq_true, if_true]
  · simp only [layout, State.modCommand_of_idle hgate hidle, hd, hc, hro, Bool.false_eq_true, ne_eq, not_false_eq_true, if_false, if_true]

variable (hd : s.imgDesc = (0, d))
include hd

theorem imageCreate_of_checked (hid : id ≠ 0) (hro : s.wdl.readOnly = false) (hver : fld d 4 4 = 1) (hpos : 0 < fld d 8 8)
    (hmod : fld d 8 8 % 16384 = 0) (hmax : fld d 8 8 ≤ 8796093022208) (hz : zeros d 0x10 16 = true) (hnone : s.image id = none)
    (hroom : fld d 8 8 ≤ s.storeRoom) : imageCreate s req id = (s.setImage id { bytes := fld d 8 8 }).cmdDone 10 0 id := by
  simp only [imageCreate, State.modCommand_of_idle hgate hidle, hd, hid, hro, hver, hpos, hmod, hmax, hz, hnone, Nat.not_lt.2 hroom,
    Bool.false_eq_true, ne_eq, not_true_eq_false, not_false_eq_true, if_false, if_true, decide_true, beq_self_eq_true, Bool.and_self,
    Bool.not_true, Option.isSome_none]

/-- IMAGE_WRITE with fields in range looks for its image; it copies and programs the range where it is there, not sealed and long
enough. -/
theorem imageWrite_of_checked {off src len : Nat} (hro : s.wdl.readOnly = false) (hver : fld d 4 4 = 1) (hoff : off = fld d 8 8)
    (hsrc : src = fld d 0x10 8) (hlen : len = fld d 0x18 4) (hoffm : off % 16384 = 0) (hsrcm : src % 4096 = 0) (hpos : 0 < len)
    (hlenm : len % 16384 = 0) (hmax : len ≤ 1073741824) (hin : s.inHost src len = true) (hz : zeros d 0x1C 4 = true) :
    (s.image id = none → imageWrite s req id = s.cmdDone 10 3 id) ∧
    (∀ x : ModelImage, s.image id = some x → x.ready = false → off + len ≤ x.bytes → ∃ (u : State) (single : Bool),
      u = (List.range (len / 16384)).foldl (fun s i => s.writeLogical 2 (lpImage id (off / 16384 + i)))
        { s with mem := Memory.copy s.mem (Space.key .lpddr src) (Space.key (.image id) off) len } ∧
      single = (x.single || !(List.range (len / 16384)).all (fun i => (u.copies 2 (lpImage id (off / 16384 + i))).length == 2)) ∧
      imageWrite s req id =
        (u.setImage id { x with written := x.written ++ [(off, off + len)], single := single }).cmdDone 10 0 id) := by
  subst hoff hsrc hlen
  refine ⟨fun hnone => ?_, fun x hx hready hbytes => ⟨_, _, rfl, rfl, ?_⟩⟩
  · simp only [imageWrite, State.modCommand_of_idle hgate hidle, hd, hro, hver, hoffm, hsrcm, hpos, hlenm, hmax, hin, hz, hnone,
      Bool.false_eq_true, ne_eq, not_true_eq_false, if_false, decide_true, beq_self_eq_true, Bool.and_self, Bool.not_true]
  · simp only [imageWrite, State.modCommand_of_idle hgate hidle, hd, hro, hver, hoffm, hsrcm, hpos, hlenm, hmax, hin, hz, hx, hready,
      Nat.not_lt.2 hbytes, Bool.false_eq_true, ne_eq, not_true_eq_false, if_false, decide_true, beq_self_eq_true, Bool.and_self,
      Bool.not_true]

theorem imageSeal_of_written {x : ModelImage} (hx : s.image id = some x) (hready : x.ready = false)
    (hreach : x.bytes ≤ reach x.written (x.written.length + 1) 0) :
    imageSeal s req id = (s.setImage id { x with ready := true }).cmdDone 10 0 id := by
  simp only [imageSeal, State.modCommand_of_idle hgate hidle, hd, hx, hready, Nat.not_lt.2 hreach, Bool.false_eq_true, or_self, ne_eq,
    not_true_eq_false, if_false]

theorem imageDelete_of_unused {x : ModelImage} (hx : s.image id = some x) (hused : s.imageUsed id = false) {u : State}
    (hu : u = s.discard 2 (fun lp => decide (lp / 4294967296 = id))) :
    imageDelete s req id = ({ u with wdl := { u.wdl with images := Tbl.del u.wdl.images id } } : State).cmdDone 10 0 id := by
  subst hu
  simp only [imageDelete, State.modCommand_of_idle hgate hidle, hd, hx, hused, Option.isNone_some, Bool.false_eq_true, ne_eq,
    not_true_eq_false, if_false]

theorem imageSealDelete_of_unknown (hnone : s.image id = none) :
    imageSeal s req id = s.cmdDone 10 3 id ∧ imageDelete s req id = s.cmdDone 10 3 id := by
  constructor
  · simp only [imageSeal, State.modCommand_of_idle hgate hidle, hd, hnone, ne_eq, not_true_eq_false, if_false]
  · simp only [imageDelete, State.modCommand_of_idle hgate hidle, hd, hnone, Option.isNone_none, ne_eq, not_true_eq_false, if_false,
      if_true]

/-- LAYOUT with fields in range and nothing using the partitions replaces the record and releases what the partitions held (R353). -/
theorem layout_of_checked (hro : s.wdl.readOnly = false) (hver : fld d 4 4 = 1) (hi : 16 ≤ fld d 8 2) (hp : 16 ≤ fld d 0xA 2)
    (hq : 16 ≤ fld d 0xC 2) (hsum : fld d 8 2 + fld d 0xA 2 + fld d 0xC 2 + 586 ≤ 9557) (hz : zeros d 0xE 18 = true)
    (hfree : s.layoutBusy = false) : layout s req = (s.laidOut (fld d 8 2) (fld d 0xA 2) (fld d 0xC 2)).cmdDone 10 0 0 := by
  have hfit : fld d 8 2 + fld d 0xA 2 + fld d 0xC 2 + 2 + 72 + 512 ≤ 9557 := hsum
  simp only [layout, State.modCommand_of_idle hgate hidle, hd, hro, hver, hi, hp, hq, hfit, hz, hfree, Bool.false_eq_true, ne_eq,
    not_true_eq_false, if_false, decide_true, beq_self_eq_true, Bool.and_self, Bool.not_true, Bool.and_eq_true, Bool.or_eq_true,
    decide_eq_true_eq, or_assoc, State.laidOut]
end

/-- Settles O37: each command's case is its own lemma; past the gate only the descriptor's checks decide. -/
theorem wellsAndImagesFollowTheirCommands : Obligations.WellsAndImagesFollowTheirCommands := by
  refine ⟨?_, ?_, ?_, ?_, ?_⟩
  · intro s n hup
    rw [exec_wellFailure, State.wellFailure, if_neg (by simp [hup])]
  · intro s n hdown
    rw [exec_wellFailure, State.wellFailure, if_pos hdown]
  · intro s n hn
    rw [exec_wellReturn]
    refine ⟨fun hst => ?_, fun hst hlt => ?_, fun hst hge => ?_⟩
    · rw [wellReturn_of_gone hn hst]
    · rw [wellReturn_of_early hn hst hlt]
    · rw [wellReturn_of_ready hn hst hge]
      exact ⟨s.wellBack n, State.well_wellBack s n, rfl, rfl, rfl, rfl⟩
  · intro s req id d hid hgate hidle
    rw [exec_imageCreate s req hid, exec_imageWrite s req hid, exec_imageSeal s req hid, exec_imageDelete s req hid, exec_layout]
    refine ⟨fun c hd hc hro => ?_, ?_, ?_, fun x hd hx hready hreach => ?_, fun x hd hx hused => ?_, fun hd hnone => ?_⟩
    · obtain ⟨hcreate, hwrite, hseal, hdelete, hlayout⟩ := imageCommands_of_failed (id := id) hgate hidle hd hc hro
      rw [hcreate, hwrite, hseal, hdelete, hlayout]
      exact ⟨rfl, rfl, rfl, rfl, rfl⟩
    · intro hd hid0 hro hver hpos hmod hmax hz hnone hroom
      rw [imageCreate_of_checked hgate hidle hd hid0 hro hver hpos hmod hmax hz hnone hroom]
    · intro off src len hd hro hver hoff hsrc hlen hoffm hsrcm hpos hlenm hmax hin hz
      obtain ⟨hnone, hsome⟩ := imageWrite_of_checked (id := id) hgate hidle hd hro hver hoff hsrc hlen hoffm hsrcm hpos hlenm hmax hin hz
      refine ⟨fun h => congrArg _ (hnone h), fun x hx hready hbytes => ?_⟩
      obtain ⟨u, single, hu, hsingle, hwrite⟩ := hsome x hx hready hbytes
      exact ⟨u, single, hu, hsingle, congrArg _ hwrite⟩
    · rw [imageSeal_of_written hgate hidle hd hx hready hreach]
    · exact ⟨_, rfl, congrArg _ (imageDelete_of_unused hgate hidle hd hx hused rfl)⟩
    · obtain ⟨hseal, hdelete⟩ := imageSealDelete_of_unknown hgate hidle hd hnone
      exact ⟨congrArg _ hseal, congrArg _ hdelete⟩
  · intro s req d hgate hidle hd hro hver hi hp hq hsum hz hfree
    rw [exec_layout, layout_of_checked hgate hidle hd hro hver hi hp hq hsum hz hfree]
    exact ⟨s.laidOut _ _ _, _, rfl, rfl, rfl⟩

end Sys2Proof.Machine
end
section
/-! PROOFS. The meters of the traffic manager: how colouring, refilling and the wait of METER_RED go with the buckets (R73 to R76, R79). -/

namespace Sys2Proof.Machine

/-! ### Colouring (R73) -/

section
variable (mode aware : Bool) (pre tc tp b : Nat)

theorem meterColour_buckets_le : (meterColour mode aware pre tc tp b).2.1 ≤ tc ∧ (meterColour mode aware pre tc tp b).2.2 ≤ tp := by
  unfold meterColour
  split_ifs <;> simp

theorem meterColour_le_red : (meterColour mode aware pre tc tp b).1 ≤ 2 := by
  unfold meterColour
  split_ifs <;> simp

theorem meterColour_of_red (h : (meterColour mode aware pre tc tp b).1 = 2) : (meterColour mode aware pre tc tp b).2 = (tc, tp) := by
  unfold meterColour at h ⊢
  split_ifs at h ⊢ <;> simp_all

/-- Fuller buckets and a better pre-colour never worsen the colour. -/
theorem meterColour_anti {pre' tc' tp' : Nat} (hred : pre ≤ 2) (hpre : pre' ≤ pre) (hc : tc ≤ tc') (hp : tp ≤ tp') :
    (meterColour mode aware pre' tc' tp' b).1 ≤ (meterColour mode aware pre tc tp b).1 := by
  unfold meterColour
  cases mode
  · simp only [Bool.false_eq_true, if_false]
    grind
  · simp only [if_true]
    grind
end

/-! ### Both meters (R74, R75) -/

section
variable {svc agg : Meter} (mp mn : Nat)

theorem meterBoth_of_disabled (h : svc.enable = false) : meterBoth svc agg mp mn = (2, svc, agg) := by
  simp [meterBoth, h]

theorem meterBoth_of_service (h : svc.enable = true) (ha : agg.enable = false) :
    (meterBoth svc agg mp mn).1 = (meterColour svc.mode false 0 svc.tc svc.tp (svc.cost mp mn)).1 ∧
      (meterBoth svc agg mp mn).2.2 = agg := by
  simp [meterBoth, h, ha]

theorem meterBoth_colour_of_enabled {c : Nat} (h : svc.enable = true) (ha : agg.enable = true)
    (hc : c = (meterColour svc.mode false 0 svc.tc svc.tp (svc.cost mp mn)).1) :
    (meterBoth svc agg mp mn).1 = if agg.aware then (meterColour agg.mode agg.aware c agg.tc agg.tp (agg.cost mp mn)).1
      else max c (meterColour agg.mode agg.aware c agg.tc agg.tp (agg.cost mp mn)).1 := by
  simp [meterBoth, h, ha, hc]

theorem enable_of_not_refused (h : meterRefuses svc (meterBoth svc agg mp mn).1 = false) : svc.enable = true := by
  by_contra hoff
  rw [Bool.not_eq_true] at hoff
  rw [meterBoth_of_disabled mp mn hoff] at h
  exact absurd h (by simp [meterRefuses])
end

/-- Settles O16: a disabled service meter colours red, and the wait looks at the same bit. -/
theorem disabledMetersColourAsStated : Obligations.DisabledMetersColourAsStated := by
  refine ⟨fun svc agg mp mn guard h => ?_, fun svc agg mp mn h ha => meterBoth_of_service mp mn h ha,
    fun svc agg mp mn h => enable_of_not_refused mp mn h⟩
  rw [meterBoth_of_disabled mp mn h]
  exact ⟨rfl, rfl, by simp [redWait, h]⟩

/-! ### Refilling (R76) -/

theorem refill1_le (r z x a : Nat) : (refill1 r z x a).1 ≤ z := min_le_right _ _

theorem refill1_acc_eq (r z x a : Nat) : (refill1 r z x a).2 = (a + r * 256) % 20000 := by
  simp only [refill1]
  omega

theorem refill1_acc_lt (r z x a : Nat) : (refill1 r z x a).2 < 20000 :=
  (refill1_acc_eq r z x a).trans_lt (Nat.mod_lt _ (by decide))

/-- Refills one after another carry what is left of the division, so together they divide the sum once. -/
theorem refill1_iterate {r z x a : Nat} (hx : x ≤ z) (ha : a < 20000) (n : Nat) :
    (fun e : Nat × Nat => refill1 r z e.1 e.2)^[n] (x, a) = (refillN n r z x a, (a + n * (r * 256)) % 20000) := by
  induction n with
  | zero => simp [refillN, Nat.div_eq_of_lt ha, Nat.mod_eq_of_lt ha, hx]
  | succ n ih =>
    rw [Function.iterate_succ_apply', ih, Nat.succ_mul]
    refine Prod.ext ?_ ?_
    · simp only [refill1, refillN, Nat.succ_mul]
      omega
    · rw [refill1_acc_eq]
      omega

theorem Meter.refill_bounds {m : Meter} (h : m.enable = true) :
    m.refill.tc ≤ m.zc ∧ m.refill.tp ≤ m.zp ∧ m.refill.accC < 20000 ∧ m.refill.accP < 20000 := by
  rw [Meter.refill, if_pos h]
  exact ⟨refill1_le _ _ _ _, refill1_le _ _ _ _, refill1_acc_lt _ m.zc m.tc _, refill1_acc_lt _ m.zp m.tp _⟩

theorem Meter.refill_of_disabled {m : Meter} (h : m.enable = false) : m.refill = m := by
  rw [Meter.refill, if_neg (by simp [h])]

/-- Settles O17: the accumulator carries each remainder on, by induction on the number of refills. -/
theorem refillIsExactOverManyStrokes : Obligations.RefillIsExactOverManyStrokes := by
  refine ⟨fun n r z x a hx ha => ?_, fun m h => Meter.refill_bounds h, fun m h => Meter.refill_of_disabled h,
    fun mode aware pre tc tp b => ?_⟩
  · rw [refill1_iterate hx ha]
  · obtain ⟨hc, hp⟩ := meterColour_buckets_le mode aware pre tc tp b
    exact ⟨hc, hp, meterColour_of_red mode aware pre tc tp b⟩

/-! ### The wait of METER_RED (R79) -/

theorem refillN_mono {n k : Nat} (h : n ≤ k) (r z x a : Nat) : refillN n r z x a ≤ refillN k r z x a := by
  have hadd : n * (r * 256) ≤ k * (r * 256) := Nat.mul_le_mul_right _ h
  unfold refillN
  omega

@[simp] theorem Meter.after_enable (m : Meter) (n : Nat) : (m.after n).enable = m.enable := rfl

theorem Meter.after_buckets_mono (m : Meter) {n k : Nat} (h : n ≤ k) :
    (m.after n).tc ≤ (m.after k).tc ∧ (m.after n).tp ≤ (m.after k).tp :=
  ⟨refillN_mono h _ _ _ _, refillN_mono h _ _ _ _⟩

section
variable {svc agg : Meter} {mp mn : Nat}

/-- A longer refill never worsens the colour that both meters give. -/
theorem meterBoth_after_anti {n k : Nat} (h : n ≤ k) :
    (meterBoth (svc.after k) (agg.after k) mp mn).1 ≤ (meterBoth (svc.after n) (agg.after n) mp mn).1 := by
  obtain ⟨hsc, hsp⟩ := svc.after_buckets_mono h
  obtain ⟨hac, hap⟩ := agg.after_buckets_mono h
  have hsvc := meterColour_anti svc.mode false 0 (svc.after n).tc (svc.after n).tp (svc.cost mp mn) (by decide) le_rfl hsc hsp
  have hagg := meterColour_anti agg.mode agg.aware _ (agg.after n).tc (agg.after n).tp (agg.cost mp mn)
    (meterColour_le_red svc.mode false 0 (svc.after n).tc (svc.after n).tp (svc.cost mp mn)) hsvc hac hap
  cases hs : svc.enable with
  | false => simp only [meterBoth_of_disabled, Meter.after_enable, hs, le_refl]
  | true =>
    have hson (j : Nat) : (svc.after j).enable = true := hs
    cases ha : agg.enable with
    | false =>
      have haoff (j : Nat) : (agg.after j).enable = false := ha
      rw [(meterBoth_of_service mp mn (hson k) (haoff k)).1, (meterBoth_of_service mp mn (hson n) (haoff n)).1]
      exact hsvc
    | true =>
      have haon (j : Nat) : (agg.after j).enable = true := ha
      rw [meterBoth_colour_of_enabled mp mn (hson k) (haon k) rfl, meterBoth_colour_of_enabled mp mn (hson n) (haon n) rfl]
      show (if agg.aware then _ else _) ≤ if agg.aware then _ else _
      split
      · exact hagg
      · exact max_le_max hsvc hagg

theorem meterBoth_colour_le_red : (meterBoth svc agg mp mn).1 ≤ 2 := by
  have h := meterColour_le_red svc.mode false 0 svc.tc svc.tp (svc.cost mp mn)
  unfold meterBoth
  split_ifs
  · exact le_rfl
  · exact h
  · exact meterColour_le_red _ _ _ _ _ _
  · exact max_le h (meterColour_le_red _ _ _ _ _ _)

theorem meterRefuses_mono {c c' : Nat} (hred : c' ≤ 2) (hc : c ≤ c') (h : meterRefuses svc c' = false) :
    meterRefuses svc c = false := by
  simp only [meterRefuses, Bool.or_eq_false_iff, Bool.and_eq_false_iff, beq_eq_false_iff_ne] at h ⊢
  grind

theorem passesAfter_mono {n k : Nat} (h : n ≤ k) (hn : passesAfter svc agg mp mn n = true) : passesAfter svc agg mp mn k = true := by
  rw [passesAfter, Bool.not_eq_true'] at hn ⊢
  exact meterRefuses_mono meterBoth_colour_le_red (meterBoth_after_anti h) hn

/-- Halving between a wait that does not suffice and one that does ends at the least that does. -/
theorem leastPass_spec (k : Nat) {lo : Nat} (hlo : passesAfter svc agg mp mn lo = false)
    (hhi : passesAfter svc agg mp mn (lo + 2 ^ k) = true) :
    passesAfter svc agg mp mn (leastPass svc agg mp mn k lo) = true ∧
      ∀ i < leastPass svc agg mp mn k lo, passesAfter svc agg mp mn i = false := by
  induction k generalizing lo with
  | zero =>
    refine ⟨hhi, fun i hi => ?_⟩
    by_contra hpass
    rw [passesAfter_mono (Nat.le_of_lt_succ hi) (by simpa using hpass)] at hlo
    cases hlo
  | succ k ih =>
    rw [leastPass]
    split
    · next hmid => exact ih hlo hmid
    · next hmid => exact ih (by simpa using hmid) (by rwa [Nat.add_assoc, ← Nat.two_mul, ← Nat.pow_succ'])

theorem redWait_of_passes (hs : svc.enable = true) (h : passesAfter svc agg mp mn (2 ^ 48) = true) :
    redWait svc agg false mp mn = min (leastPass svc agg mp mn 48 0) 0xFFFFFFFF := by
  rw [redWait, if_neg (by rw [hs, h]; decide)]

theorem redWait_of_none {guard : Bool} (h : guard = true ∨ passesAfter svc agg mp mn (2 ^ 48) = false) :
    redWait svc agg guard mp mn = 0xFFFFFFFF := by
  rw [redWait, if_pos]
  rcases h with h | h
  · rw [h]; rfl
  · rw [h, Bool.not_false, Bool.or_true]
end

/-- Settles O18: what passes goes on passing with more refills, so halving finds the least wait. -/
theorem redWaitIsTheFewestStrokes : Obligations.RedWaitIsTheFewestStrokes := by
  refine ⟨fun svc agg mp mn w hs h0 hmax hw => ?_, fun svc agg mp mn guard h => redWait_of_none h⟩
  obtain ⟨hpass, hleast⟩ := leastPass_spec 48 h0 (by rwa [Nat.zero_add])
  rw [redWait_of_passes hs hmax] at hw
  refine ⟨fun hfit => ?_, fun k hk => hleast k (by omega)⟩
  rwa [show w = leastPass svc agg mp mn 48 0 by omega]

end Sys2Proof.Machine
end

section
/-! PROOFS. The commands of the traffic manager and the halving of heat: egress grants and the deficit round robin, calendar passes and
telemetry samples (R84 to R87, R91, R333, R336). -/

namespace Sys2Proof.Machine

/-! ### The meaning that a command runs -/

section
variable (s : State)
theorem exec_egressGrant {w p : Nat} (hw : w < 4) (hp : p < 4) : exec (.egressGrant w p) s = .next (egressGrant s w p) := by
  show Host.Outcome.next (egressGrant s (w % 4) (p % 4)) = _
  rw [Nat.mod_eq_of_lt hw, Nat.mod_eq_of_lt hp]

theorem exec_calendarPass {w : Nat} (hw : w < 4) : exec (.calendarPass w) s = .next (calendarPass s w) := by
  show Host.Outcome.next (calendarPass s (w % 4)) = _
  rw [Nat.mod_eq_of_lt hw]

theorem exec_telemetrySample (w : Nat) : exec (.telemetrySample w) s = .next (telemetrySample s (w % 4)) := rfl
@[simp] theorem exec_heatHalving : exec .heatHalving s = .next (heatHalving s) := rfl
end

/-! ### EGRESS_GRANT (R86, R87) -/

section
variable {s : State} {w p : Nat}

theorem egressGrant_of_picked {v q : Nat} {d : Tbl Nat} (hv : (s.takeWeights w).egressService w p = some v)
    (hq : (s.takeWeights w).egressPick w p v = some (q, d)) : egressGrant s w p =
    ((({ s.takeWeights w with tmg := { (s.takeWeights w).tmg with deficit := d } } : State).grantQueue w q).roundAt
      ((w * 4 + p) * 4 + v) q) := by
  simp only [egressGrant, hv, hq]

theorem State.egressService_of_none_ready (h : ∀ v < 4, s.readyQueues w p v = []) : s.egressService w p = none := by
  refine List.find?_eq_none.2 fun v hv => ?_
  rw [h v (by simp at hv; omega)]
  decide

theorem egressGrant_of_none_ready (h : ∀ v < 4, (s.takeWeights w).readyQueues w p v = []) : egressGrant s w p = s.takeWeights w := by
  simp only [egressGrant, State.egressService_of_none_ready h]
end

/-! ### The deficit round robin (R86)

Each visit that does not grant gives a quantum of at least 64 bytes to the queue it comes to next, and a queue that holds 512 is granted.
So the quanta that the queues still lack, at most eight each, bound the visits. -/

/-- The quanta of 64 bytes that a queue lacks of the largest burst. -/
def quantaLacking (d : Tbl Nat) (q : Nat) : Nat := (512 - Tbl.val 0 d q + 63) / 64

theorem quantaLacking_le (d : Tbl Nat) (q : Nat) : quantaLacking d q ≤ 8 := by
  unfold quantaLacking
  omega

theorem quantaLacking_eq_zero {d : Tbl Nat} {q : Nat} : quantaLacking d q = 0 ↔ 512 ≤ Tbl.val 0 d q := by
  unfold quantaLacking
  omega

section
variable {weight need : Nat → Nat}

theorem quantaLacking_gainQuantum_le (d : Tbl Nat) (n q : Nat) : quantaLacking (gainQuantum weight d n) q ≤ quantaLacking d q := by
  unfold quantaLacking gainQuantum
  by_cases h : q = n
  · subst h
    rw [Tbl.val_set]
    omega
  · rw [Tbl.val_set_other _ _ _ h]

/-- A queue that lacks a quantum lacks fewer once it gains one. -/
theorem quantaLacking_gainQuantum_lt {d : Tbl Nat} {q : Nat} (hw : 1 ≤ weight q) (h : quantaLacking d q ≠ 0) :
    quantaLacking (gainQuantum weight d q) q < quantaLacking d q := by
  unfold quantaLacking gainQuantum at *
  rw [Tbl.val_set]
  omega

theorem drrPick_of_enough {fuel : Nat} (hfuel : fuel ≠ 0) {q : Nat} {t : List Nat} {d : Tbl Nat} (h : need q ≤ Tbl.val 0 d q) :
    drrPick weight need fuel (q :: t) d = some (q, d) := by
  obtain ⟨fuel, rfl⟩ := Nat.exists_eq_succ_of_ne_zero hfuel
  exact if_pos h

/-- A queue whose burst exceeds its deficit goes to the end, and the next one gains its quantum. -/
theorem drrPick_of_short {fuel q n : Nat} {t r : List Nat} {d : Tbl Nat} (h : ¬need q ≤ Tbl.val 0 d q) (hn : t ++ [q] = n :: r) :
    drrPick weight need (fuel + 1) (q :: t) d = drrPick weight need fuel (n :: r) (gainQuantum weight d n) := by
  refine (if_neg h).trans ?_
  cases t with
  | nil =>
    obtain ⟨rfl, rfl⟩ := List.cons.inj hn
    rfl
  | cons m t =>
    obtain ⟨rfl, rfl⟩ := List.cons.inj hn
    rfl

theorem drrPick_of_fuel {fuel : Nat} {qs : List Nat} {d : Tbl Nat} (hne : qs ≠ []) (hq : ∀ q ∈ qs, 1 ≤ weight q ∧ need q ≤ 512)
    (hfuel : (qs.map (quantaLacking d)).sum < fuel) :
    ∃ q d', drrPick weight need fuel qs d = some (q, d') ∧ q ∈ qs ∧ need q ≤ Tbl.val 0 d' q := by
  induction fuel generalizing qs d with
  | zero => exact absurd hfuel (Nat.not_lt_zero _)
  | succ fuel ih =>
    obtain ⟨q, t, rfl⟩ := List.exists_cons_of_ne_nil hne
    by_cases hgo : need q ≤ Tbl.val 0 d q
    · exact ⟨q, d, drrPick_of_enough (by simp) hgo, List.mem_cons_self, hgo⟩
    obtain ⟨n, r, hn⟩ := List.exists_cons_of_ne_nil (show t ++ [q] ≠ [] by simp)
    have hperm : (n :: r).Perm (q :: t) := hn ▸ List.perm_append_singleton q t
    obtain ⟨hweight, hneed⟩ := hq n (hperm.subset List.mem_cons_self)
    rw [drrPick_of_short hgo hn]
    by_cases hlack : quantaLacking d n = 0
    · have hn512 : need n ≤ Tbl.val 0 (gainQuantum weight d n) n := by
        have := quantaLacking_gainQuantum_le (weight := weight) d n n
        exact hneed.trans (quantaLacking_eq_zero.1 (by omega))
      have hqlack : quantaLacking d q ≠ 0 := fun h => hgo ((hq q List.mem_cons_self).2.trans (quantaLacking_eq_zero.1 h))
      rw [List.map_cons, List.sum_cons] at hfuel
      exact ⟨n, _, drrPick_of_enough (by omega) hn512, hperm.subset List.mem_cons_self, hn512⟩
    · have hless : ((n :: r).map (quantaLacking (gainQuantum weight d n))).sum < ((q :: t).map (quantaLacking d)).sum := by
        rw [← (hperm.map (quantaLacking d)).sum_eq]
        exact List.sum_lt_sum _ _ (fun x _ => quantaLacking_gainQuantum_le d n x)
          ⟨n, List.mem_cons_self, quantaLacking_gainQuantum_lt hweight hlack⟩
      obtain ⟨x, d', hpick, hx, henough⟩ := ih (d := gainQuantum weight d n) (List.cons_ne_nil n r)
        (fun x hx => hq x (hperm.subset hx)) (by omega)
      exact ⟨x, d', hpick, hperm.subset hx, henough⟩

theorem drrGo_isSome {pos : Nat} {qs : List Nat} {d : Tbl Nat} (hne : qs ≠ []) (hq : ∀ q ∈ qs, 1 ≤ weight q ∧ need q ≤ 512) :
    ∃ q d', drrGo weight need pos qs d = some (q, d') ∧ q ∈ qs ∧ need q ≤ Tbl.val 0 d' q := by
  obtain ⟨q, t, rfl⟩ := List.exists_cons_of_ne_nil hne
  refine drrPick_of_fuel hne hq (Nat.lt_succ_of_le ?_)
  refine (List.sum_le_card_nsmul _ 8 fun n hn => ?_).trans ?_
  · obtain ⟨x, -, rfl⟩ := List.mem_map.1 hn
    exact quantaLacking_le _ x
  · rw [List.length_map, smul_eq_mul, Nat.mul_comm]
    exact Nat.mul_le_mul_right _ (by decide)
end

/-! ### CALENDAR_PASS (R84, R87) -/

section
variable (s : State) (w : Nat)

/-- Taking staged weights changes shapers alone. -/
theorem State.takeWeights_eq : ∃ h : Tbl Shaper, s.takeWeights w = { s with tmg := { s.tmg with shapers := h } } := by
  unfold State.takeWeights
  generalize s.tmg.queues.filter _ = l
  induction l generalizing s with
  | nil => exact ⟨s.tmg.shapers, rfl⟩
  | cons e l ih => exact ih _

@[simp] theorem State.takeWeights_calUs : (s.takeWeights w).calUs w = s.calUs w := by
  obtain ⟨h, hs⟩ := s.takeWeights_eq w
  rw [hs]
  rfl

@[simp] theorem State.takeWeights_passes : (s.takeWeights w).tmg.passes = s.tmg.passes := by
  obtain ⟨h, hs⟩ := s.takeWeights_eq w
  rw [hs]
end

/-- The slice's microsecond moves on by one (R84). -/
def State.nextUs (s : State) (w : Nat) : State :=
  { s with
    tmg := { s.tmg with
      calUs := Tbl.set 0 s.tmg.calUs w (s.calUs w + 1)
      passes := Tbl.set 0 s.tmg.passes w (Tbl.val 0 s.tmg.passes w + 1) }
    time := { s.time with phaseUs := max s.time.phaseUs (min (Tbl.val 0 s.tmg.passes w + 1) (s.time.strokeNs / 1000 - 1)) } }

/-- The overflow slot of a microsecond is emptied into the calendar where it is due (R84). -/
def State.emptyOverflow (s : State) (w now : Nat) : State :=
  if now % 4096 = 0 then
    (s.calTake w (4096 + now / 4096 % 4096)).1.foldl (fun s e => s.calEnter w e.1 e.2) (s.calTake w (4096 + now / 4096 % 4096)).2
  else s

theorem calendarPass_eq {s v : State} {w now : Nat} (hnow : now = s.calUs w + 1)
    (hv : v = ((s.takeWeights w).nextUs w).emptyOverflow w now) :
    calendarPass s w = (v.calTake w (now % 4096)).1.foldl (fun s e => s.calDue w e) (v.calTake w (now % 4096)).2 := by
  rw [hv, hnow, ← State.takeWeights_calUs]
  rfl

/-! ### TELEMETRY_SAMPLE (R91) -/

/-- `f` reads none of the fields in which a ring's records are posted (R379): host memory, the rings, the ports and the counters. -/
structure ApartFromRings {α : Type} (f : State → α) : Prop where
  mem : ∀ s m, f { s with mem := m } = f s
  nor : ∀ s n, f { s with nor := n } = f s
  hp0 : ∀ s h, f { s with hp0 := h } = f s
  hp1 : ∀ s h, f { s with hp1 := h } = f s
  pg : ∀ s g, f { s with pg := g } = f s

namespace ApartFromRings

section
variable {α : Type} {f : State → α} (hf : ApartFromRings f) (s : State)
include hf

theorem hostWrite (p a : Nat) (bs : List Byte) : f (s.hostWrite p a bs) = f s := by
  unfold State.hostWrite
  split
  · exact (hf.pg _ _).trans (hf.mem _ _)
  · unfold State.setHp
    split
    · exact hf.hp0 _ _
    · exact hf.hp1 _ _

theorem noteFull (rid : Nat) : f (s.noteFull rid) = f s := by
  unfold State.noteFull
  split
  · rfl
  · split
    · exact (hf.pg _ _).trans ((hf.pg _ _).trans (hf.nor _ _))
    · rfl

theorem noteIssued (rid : Nat) : f (s.noteIssued rid) = f s := by
  unfold State.noteIssued
  split
  · rfl
  · split
    · exact hf.nor _ _
    · rfl

theorem drainGo (fuel rid n : Nat) : f (drainGo fuel s rid n).1 = f s := by
  induction fuel generalizing s n with
  | zero => rfl
  | succ fuel ih =>
    unfold Sys2Proof.Machine.drainGo
    split
    · rfl
    · split
      · rfl
      · split
        · exact (ih _ _).trans ((hf.nor _ _).trans (hf.hostWrite _ _ _ _))
        · rfl

theorem drainRing (rid : Nat) : f (s.drainRing rid) = f s := by
  unfold State.drainRing
  split
  · rfl
  · refine (hf.noteFull _ _).trans ?_
    split
    · exact hf.drainGo _ _ _ _
    · split
      · exact hf.drainGo _ _ _ _
      · exact (hf.pg _ _).trans ((hf.pg _ _).trans ((hf.noteIssued _ _).trans ((hf.hostWrite _ _ _ _).trans (hf.drainGo _ _ _ _))))

theorem reserve (rid : Nat) : f (s.reserve rid).2 = f s := by
  unfold State.reserve
  split
  · rfl
  · exact hf.nor _ _

theorem fillRing (rid pos : Nat) (rec : List Byte) : f (s.fillRing rid pos rec) = f s := by
  unfold State.fillRing
  split
  · rfl
  · exact (hf.drainRing _ _).trans (hf.nor _ _)

theorem postRing (rid : Nat) (mk : Nat → List Byte) : f (s.postRing rid mk) = f s :=
  (hf.fillRing _ _ _ _).trans (hf.reserve _ _)
end

end ApartFromRings

theorem apartFromRings_tmg : ApartFromRings State.tmg :=
  ⟨fun _ _ => rfl, fun _ _ => rfl, fun _ _ => rfl, fun _ _ => rfl, fun _ _ => rfl⟩

/-- A record that finds no room is dropped: counted, with its event (R91). -/
def State.telemDrop (s : State) (w : Nat) : State := (s.bump w 11 0x110 1).event w 11 [sqBit 0x118 2] []

section
variable {s : State} {w : Nat}

theorem State.telemPost_of_unbound (q : Nat) (h : (s.reg w 11 0x100).toNat = 0) : s.telemPost w q = s := by
  rw [State.telemPost, if_pos h]

theorem State.telemPost_of_ring (q : Nat) (h : (s.reg w 11 0x100).toNat ≠ 0) {r : Ring}
    (hr : Tbl.look s.nor.rings (s.reg w 11 0x100).toNat = some r) : s.telemPost w q =
      if r.kind = 7 ∧ r.bind = w ∧ r.hasRoom then s.postRing (s.reg w 11 0x100).toNat (fun _ => s.telemRec q) else s.telemDrop w := by
  simp only [State.telemPost, if_neg h, hr, State.telemDrop]

@[simp] theorem State.telemPost_tmg (s : State) (w q : Nat) : (s.telemPost w q).tmg = s.tmg := by
  simp only [State.telemPost]
  split
  · rfl
  · split
    · rfl
    · split
      · exact apartFromRings_tmg.postRing _ _ _
      · rfl

theorem State.foldl_telemPost_tmg (s : State) (w : Nat) (l : List Nat) : (l.foldl (fun s q => s.telemPost w q) s).tmg = s.tmg := by
  induction l generalizing s with
  | nil => rfl
  | cons q l ih => rw [List.foldl_cons, ih, State.telemPost_tmg]

theorem mem_insNat {q x : Nat} {l : List Nat} : q ∈ insNat x l ↔ q = x ∨ q ∈ l := by
  fun_induction insNat x l <;> grind

theorem mem_foldl_insNat {q : Nat} (l acc : List Nat) : q ∈ l.foldl (fun l q => insNat q l) acc ↔ q ∈ acc ∨ q ∈ l := by
  induction l generalizing acc with
  | nil => simp
  | cons x l ih =>
    rw [List.foldl_cons, ih, mem_insNat, List.mem_cons]
    tauto

theorem telemetrySample_of_other (h : s.strokeN % 1024 ≠ 0) (w : Nat) : telemetrySample s w = s := if_pos h

/-- The queues that stay active after a sample: those of other slices, and those of the slice that still hold records (R91). -/
def State.staysActive (s : State) (w : Nat) (act : List Nat) : List Nat :=
  ((s.tmg.active.filter (fun q => q / 16 % 4 ≠ w)) ++ (act.filter (fun q => !(s.queue q).isEmpty))).foldl (fun l q => insNat q l) []

theorem State.mem_staysActive {act : List Nat} (hact : act = s.tmg.active.filter (fun q => q / 16 % 4 = w)) (q : Nat) :
    q ∈ s.staysActive w act ↔ q ∈ s.tmg.active ∧ (q / 16 % 4 = w → q ∈ act ∧ s.queue q ≠ []) := by
  subst hact
  simp only [State.staysActive, mem_foldl_insNat, List.not_mem_nil, false_or, List.mem_append, List.mem_filter, decide_eq_true_eq,
    Bool.not_eq_true', List.isEmpty_eq_false_iff]
  tauto

theorem telemetrySample_of_due {u v : State} {act : List Nat} (h : s.strokeN % 1024 = 0)
    (hu : u = { s with tmg := { s.tmg with
      headDelay := (s.sampleQueues w).foldl (fun t q => Tbl.set 0 t q (s.headDelayNow q)) s.tmg.headDelay } })
    (hact : act = s.tmg.active.filter (fun q => q / 16 % 4 = w)) (hv : v = act.foldl (fun s q => s.telemPost w q) u) :
    telemetrySample s w = { v with tmg := { v.tmg with
      active := v.staysActive w act, refusedSince := v.tmg.refusedSince.filter (fun e => e.1 / 4 % 4 ≠ w) } } := by
  rw [telemetrySample, if_neg (by simp [h])]
  subst hv hact hu
  rfl
end

/-! ### HEAT_HALVING (R333, R336) -/

section
variable {s : State}

theorem heatHalving_of_other (h : s.strokeN % 1024 ≠ 0) : heatHalving s = s := if_pos (.inl h)

theorem heatHalving_of_done (h : s.cis.halvedAt = s.strokeN + 1) : heatHalving s = s := if_pos (.inr (.inr h))

theorem heatHalving_of_due (h : s.strokeN % 1024 = 0) (hb : s.time.phaseUs = 0) (hn : s.cis.halvedAt ≠ s.strokeN + 1) :
    heatHalving s = s.halveHeat := by
  rw [heatHalving, if_neg (by simp [h, hb, hn, State.atBoundary])]
end

/-- Settles O19: each command's own equation; the round robin ends since the quanta that are lacking fall. -/
theorem trafficCommandsTakeEffect : Obligations.TrafficCommandsTakeEffect := by
  refine ⟨?_, ?_, ?_, ?_, ?_, ?_, ?_, ?_⟩
  · rintro s u w p v q d hw hp rfl hv hq
    rw [exec_egressGrant s hw hp, egressGrant_of_picked hv hq]
  · intro s w p hw hp h
    rw [exec_egressGrant s hw hp, egressGrant_of_none_ready h]
  · exact fun weight need pos qs def_ hne hq => drrGo_isSome hne hq
  · intro s u v w now n hw hnow hn hu hplain hover
    have hnext : u = (s.takeWeights w).nextUs w := by
      rw [hu _ rfl, hnow, hn, State.nextUs, State.takeWeights_calUs, State.takeWeights_passes]
    rw [exec_calendarPass s hw, calendarPass_eq hnow (v := v)]
    rw [← hnext, State.emptyOverflow]
    split
    · next hdue => exact hover hdue
    · next hother => exact hplain hother
  · intro s u v w act hw h hu hact hv
    refine ⟨v.staysActive w act, fun q => State.mem_staysActive ?_ q, ?_⟩
    · rw [hact, hv, State.foldl_telemPost_tmg, hu]
    · rw [exec_telemetrySample, Nat.mod_eq_of_lt hw, telemetrySample_of_due h hu hact hv]
  · rintro s w q ring rfl
    refine ⟨State.telemPost_of_unbound q, fun hring => ⟨fun r hr hkind hbind hroom => ?_, fun r hr hroom => ?_⟩⟩
    · rw [State.telemPost_of_ring q hring hr, if_pos ⟨hkind, hbind, hroom⟩]
    · rw [State.telemPost_of_ring q hring hr, if_neg (by simp [hroom]), State.telemDrop]
  · intro s w h
    rw [exec_telemetrySample, exec_heatHalving, telemetrySample_of_other h, heatHalving_of_other h]
    exact ⟨rfl, rfl⟩
  · rintro s u v h hb rfl rfl
    refine ⟨fun hn => ?_, fun hdone => ?_⟩
    · rw [exec_heatHalving, heatHalving_of_due h hb hn, State.halveHeat]
    · rw [exec_heatHalving, heatHalving_of_done hdone]

end Sys2Proof.Machine
end

section
/-! PROOFS. Exact accumulation: sums that wrap at 112 bits, the word of an exact partial, and the buffer word that contributions
are applied to (R108, R111, R119, R153). -/

namespace Sys2Proof.Machine

/-! ### Two's complement words -/

theorem unsigned_lt (n : Nat) (x : Int) : unsigned n x < 2 ^ n :=
  (Int.toNat_lt' (by positivity)).2 (Int.emod_lt_of_pos x (by positivity))

theorem signed_unsigned {n : Nat} (hn : 0 < n) (x : Int) : signed n (unsigned n x) = Int.bmod x (2 ^ n) := by
  obtain ⟨k, rfl⟩ : ∃ k, n = k + 1 := ⟨n - 1, by omega⟩
  have hu : ((unsigned (k + 1) x : Nat) : Int) = x % (2 ^ (k + 1) : Nat) :=
    Int.toNat_of_nonneg (Int.emod_nonneg x (by positivity))
  have hhalf : ((2 ^ (k + 1) : Nat) + 1 : Int) / 2 = (2 ^ k : Nat) := by omega
  rw [signed, Nat.mod_eq_of_lt (unsigned_lt _ x), Int.bmod_def, ← hu, hhalf, Nat.add_sub_cancel]
  simp only [Nat.cast_lt]

theorem signed_unsigned_of_fits {n : Nat} (hn : 0 < n) {x : Int} (hlo : -2 ^ (n - 1) ≤ x) (hhi : x < 2 ^ (n - 1)) :
    signed n (unsigned n x) = x := by
  obtain ⟨k, rfl⟩ : ∃ k, n = k + 1 := ⟨n - 1, by omega⟩
  have hcast : ((2 ^ (k + 1) : Nat) : Int) = 2 * 2 ^ k := by push_cast; ring
  rw [Nat.add_sub_cancel] at hlo hhi
  rw [signed_unsigned hn]
  exact Int.bmod_eq_of_le (by omega) (by omega)

theorem wrap112_eq_bmod (x : Int) : wrap112 x = Int.bmod x (2 ^ 112) := signed_unsigned (by decide) x

@[simp] theorem wrap112_wrap112_add (x y : Int) : wrap112 (wrap112 x + y) = wrap112 (x + y) := by
  simp only [wrap112_eq_bmod, Int.bmod_add_bmod]

@[simp] theorem wrap112_add_wrap112 (x y : Int) : wrap112 (x + wrap112 y) = wrap112 (x + y) := by
  simp only [wrap112_eq_bmod, Int.add_bmod_bmod]

theorem wrap112_fits (x : Int) : -2 ^ 111 ≤ wrap112 x ∧ wrap112 x < 2 ^ 111 := by
  rw [wrap112_eq_bmod]
  exact ⟨Int.le_bmod (by decide), Int.bmod_lt (by decide)⟩

/-! ### What a product adds (R108) -/

/-- What one product does to the accumulators of an anchor. -/
inductive Addend where
  | nan
  | inf (neg : Bool)
  | units (v : Int)

/-- The addend of a product: units of the anchor's least significant bit, truncated toward zero, or a flag. -/
def Addend.ofProduct (anchor : Int) (p : Val × Val × Int × Bool) : Addend :=
  match p.1.mul p.2.1 with
  | .nan => .nan
  | .inf n => if p.2.2.2 then .nan else .inf n
  | .fin n m e =>
    let sh : Int := e + p.2.2.1 - (anchor - 87)
    let t : Nat := if 0 ≤ sh then m * 2 ^ sh.toNat else m / 2 ^ (-sh).toNat
    if p.2.2.2 then .nan else .units (if n then -(t : Int) else t)

/-- An addend taken into an accumulator. -/
def Acc.take (a : Acc) : Addend → Acc
  | .nan => { a with nan := true }
  | .inf true => { a with neg := true }
  | .inf false => { a with pos := true }
  | .units v => { a with acc := wrap112 (a.acc + v) }

theorem Acc.addProduct_eq_take (a : Acc) (p : Val × Val × Int × Bool) :
    a.addProduct p.1 p.2.1 p.2.2.1 p.2.2.2 = a.take (.ofProduct a.anchor p) := by
  rw [Acc.addProduct, Addend.ofProduct]
  rcases p.1.mul p.2.1 with _ | (_ | _) | ⟨n, m, e⟩ <;> cases p.2.2.2 <;> rfl

@[simp] theorem Acc.take_anchor (a : Acc) (t : Addend) : (a.take t).anchor = a.anchor := by
  rcases t with _ | (_ | _) | v <;> rfl

@[simp] theorem Acc.foldl_take_anchor (a : Acc) (l : List Addend) : (l.foldl Acc.take a).anchor = a.anchor := by
  induction l generalizing a with
  | nil => rfl
  | cons t l ih => rw [List.foldl_cons, ih, Acc.take_anchor]

theorem Acc.take_right_comm (a : Acc) (t u : Addend) : (a.take t).take u = (a.take u).take t := by
  rcases t with _ | (_ | _) | v <;> rcases u with _ | (_ | _) | w <;> simp [Acc.take, add_right_comm]

/-- A pass over products takes their addends one by one, for the anchor stays. -/
theorem Acc.foldl_addProduct (a : Acc) (l : List (Val × Val × Int × Bool)) :
    l.foldl (fun a p => a.addProduct p.1 p.2.1 p.2.2.1 p.2.2.2) a = (l.map (.ofProduct a.anchor)).foldl Acc.take a := by
  induction l generalizing a with
  | nil => rfl
  | cons p l ih => rw [List.foldl_cons, ih, Acc.addProduct_eq_take, Acc.take_anchor, List.map_cons, List.foldl_cons]

/-! ### Accumulators merged (R111) -/

@[simp] theorem Acc.merge_anchor (a b : Acc) : (a.merge b).anchor = a.anchor := rfl

theorem Acc.merge_comm {a b : Acc} (h : a.anchor = b.anchor) : a.merge b = b.merge a := by
  simp only [Acc.merge, h, add_comm, Bool.or_comm]

theorem Acc.merge_right_comm (a b c : Acc) : (a.merge b).merge c = (a.merge c).merge b := by
  simp [Acc.merge, add_right_comm, Bool.or_right_comm]

theorem Acc.merge_take (a b : Acc) (t : Addend) : a.merge (b.take t) = (a.merge b).take t := by
  rcases t with _ | (_ | _) | v <;> simp [Acc.take, Acc.merge, add_assoc]

theorem Acc.merge_foldl_take (a b : Acc) (l : List Addend) : a.merge (l.foldl Acc.take b) = l.foldl Acc.take (a.merge b) :=
  (List.foldl_hom a.merge fun b t => (a.merge_take b t).symm).symm

/-- An accumulator started empty holds a sum that fits already, so the empty one merges into it without effect. -/
theorem Acc.foldl_take_merge_empty (anchor : Int) (l : List Addend) :
    (l.foldl Acc.take { anchor := anchor }).merge { anchor := anchor } = l.foldl Acc.take { anchor := anchor } := by
  rw [Acc.merge_comm (Acc.foldl_take_anchor _ l), Acc.merge_foldl_take]
  rfl

/-! ### The word of an exact partial (R111) -/

theorem b2n_le_one (b : Bool) : b2n b ≤ 1 := by cases b <;> decide

@[simp] theorem b2n_beq_one (b : Bool) : (b2n b == 1) = b := by cases b <;> rfl

/-- The fields of a word, read at the places where `Acc.word` puts them. -/
theorem Acc.word_fields (a : Acc) :
    a.word % 2 ^ 112 = unsigned 112 a.acc ∧ a.word / 2 ^ 112 % 1024 = unsigned 10 a.anchor ∧
      bitAt a.word 122 = a.neg ∧ bitAt a.word 123 = a.pos ∧ bitAt a.word 124 = a.nan ∧ bitAt a.word 127 = false := by
  have hacc := unsigned_lt 112 a.acc
  have hanchor := unsigned_lt 10 a.anchor
  have hnan := b2n_le_one a.nan
  have hpos := b2n_le_one a.pos
  have hneg := b2n_le_one a.neg
  rw [← b2n_beq_one a.neg, ← b2n_beq_one a.pos, ← b2n_beq_one a.nan]
  simp only [bitAt, Nat.shiftRight_eq_div_pow]
  refine ⟨?_, ?_, congrArg (· == 1) ?_, congrArg (· == 1) ?_, congrArg (· == 1) ?_, congrArg (· == 1) (a₂ := 0) ?_⟩
  all_goals
    simp only [Acc.word]
    omega

/-- The empty bit of R153 is none of a partial's. -/
theorem Acc.word_not_empty (a : Acc) : bitAt a.word 127 = false := by
  obtain ⟨-, -, -, -, -, hempty⟩ := a.word_fields
  exact hempty

theorem Acc.ofWord_word {a : Acc} (hacc : -2 ^ 111 ≤ a.acc ∧ a.acc < 2 ^ 111) (hanchor : -512 ≤ a.anchor ∧ a.anchor < 512) :
    Acc.ofWord a.word = a := by
  obtain ⟨hsum, hplace, hneg, hpos, hnan, -⟩ := a.word_fields
  rw [Acc.ofWord, hsum, hplace, hneg, hpos, hnan, signed_unsigned_of_fits (by decide) hacc.1 hacc.2,
    signed_unsigned_of_fits (by decide) hanchor.1 hanchor.2]

/-! ### Contributions to a buffer word (R153) -/

theorem partialMerge_empty (w : Nat) : partialMerge (2 ^ 127) w = (w, false) := if_pos (by decide)

/-- An accumulator of an anchor whose sum fits 112 bits. -/
def Acc.PartialOf (anchor : Int) (a : Acc) : Prop := a.anchor = anchor ∧ -2 ^ 111 ≤ a.acc ∧ a.acc < 2 ^ 111

/-- A buffer word that is empty or holds a partial of an anchor. -/
def BufferOf (anchor : Int) (w : Nat) : Prop := w = 2 ^ 127 ∨ ∃ a : Acc, w = a.word ∧ a.PartialOf anchor

theorem Acc.PartialOf.merge {anchor : Int} {a b : Acc} (ha : a.PartialOf anchor) : (a.merge b).PartialOf anchor :=
  ⟨ha.1, wrap112_fits _⟩

section
variable {anchor : Int} (hanchor : -512 ≤ anchor ∧ anchor < 512) {w : Nat} {a b : Acc} {l l' : List Acc}
include hanchor

/-- Two partials of one anchor are added, and no mismatch is reported. -/
theorem partialMerge_word (ha : a.PartialOf anchor) (hb : b.PartialOf anchor) :
    partialMerge a.word b.word = ((a.merge b).word, false) := by
  obtain ⟨rfl, hacc⟩ := ha
  obtain ⟨heq, hbcc⟩ := hb
  rw [partialMerge, a.word_not_empty, Acc.ofWord_word hacc hanchor, Acc.ofWord_word hbcc (heq.symm ▸ hanchor)]
  exact if_pos heq.symm

/-- A contribution leaves a partial of its anchor, and reports nothing. -/
theorem partialMerge_of_buffer (hw : BufferOf anchor w) (ha : a.PartialOf anchor) :
    BufferOf anchor (partialMerge w a.word).1 ∧ (partialMerge w a.word).2 = false := by
  obtain rfl | ⟨o, rfl, ho⟩ := hw
  · rw [partialMerge_empty]
    exact ⟨.inr ⟨a, rfl, ha⟩, rfl⟩
  · rw [partialMerge_word hanchor ho ha]
    exact ⟨.inr ⟨_, rfl, ho.merge⟩, rfl⟩

theorem partialMerge_right_comm (hw : BufferOf anchor w) (ha : a.PartialOf anchor) (hb : b.PartialOf anchor) :
    (partialMerge (partialMerge w a.word).1 b.word).1 = (partialMerge (partialMerge w b.word).1 a.word).1 := by
  obtain rfl | ⟨o, rfl, ho⟩ := hw
  · simp only [partialMerge_empty, partialMerge_word hanchor ha hb, partialMerge_word hanchor hb ha,
      Acc.merge_comm (ha.1.trans hb.1.symm)]
  · simp only [partialMerge_word hanchor ho ha, partialMerge_word hanchor ho hb,
      partialMerge_word hanchor ho.merge hb, partialMerge_word hanchor ho.merge ha, o.merge_right_comm a b]

theorem foldl_partialMerge_perm (hp : l.Perm l') (hl : ∀ a ∈ l, a.PartialOf anchor) (hw : BufferOf anchor w) :
    l.foldl (fun w a => (partialMerge w a.word).1) w = l'.foldl (fun w a => (partialMerge w a.word).1) w := by
  induction hp generalizing w with
  | nil => rfl
  | cons a _ ih =>
    obtain ⟨ha, hrest⟩ := List.forall_mem_cons.1 hl
    exact ih hrest (partialMerge_of_buffer hanchor hw ha).1
  | swap a b l =>
    obtain ⟨hb, ha, -⟩ := List.forall_mem_cons.1 hl |>.imp_right List.forall_mem_cons.1
    simp only [List.foldl_cons, partialMerge_right_comm hanchor hw hb ha]
  | trans hp _ ih ih' => exact (ih hl hw).trans (ih' (fun a h => hl a (hp.mem_iff.2 h)) hw)
end

/-- Settles O21: addends commute and merge, and a word holds all of an accumulator whose sum and anchor fit. -/
theorem exactSumsDoNotDependOnOrder : Obligations.ExactSumsDoNotDependOnOrder := by
  refine ⟨fun a l l' hp => ?_, fun anchor l r => ?_, fun a hlo hhi halo hahi => ?_,
    fun anchor l l' old halo hahi hl hold hp => ?_⟩
  · simp only [Acc.foldl_addProduct]
    exact (hp.map _).foldl_eq' (fun t _ u _ a => a.take_right_comm t u) a
  · simp only [Acc.foldl_addProduct, List.foldl_append, Acc.foldl_take_anchor, Acc.merge_foldl_take, Acc.foldl_take_merge_empty]
  · exact ⟨Acc.ofWord_word ⟨hlo, hhi⟩ ⟨halo, hahi⟩, a.word_not_empty⟩
  · exact ⟨foldl_partialMerge_perm ⟨halo, hahi⟩ hp hl hold,
      fun a ha => (partialMerge_of_buffer ⟨halo, hahi⟩ hold (hl a ha)).2⟩

end Sys2Proof.Machine
end

section
/-! PROOFS. The commands of the epilogue chains: drains taken, deferred and run, the adder's contributions, and the finish of an ADD
(R124, R127, R143, R151 to R154, R171). -/

namespace Sys2Proof.Machine

/-! ### The meaning that a command runs -/

section
variable (s : State) (t g a : Nat)
@[simp] theorem exec_tileDrain : exec (.tileDrain t a) s = .next (tileDrain s t a) := rfl
@[simp] theorem exec_epilogueDrain : exec (.epilogueDrain t g) s = .next (epilogueDrain s t g) := rfl
@[simp] theorem exec_deferredDrain : exec (.deferredDrain t g) s = .next (deferredDrain s t g) := rfl
@[simp] theorem exec_partialApply : exec (.partialApply t) s = .next (partialApply s t) := rfl
@[simp] theorem exec_addFinish : exec (.addFinish t g) s = .next (addFinish s t g) := rfl
end

/-! ### TILE_DRAIN (R124, R127, R152) -/

section
variable {s u v : State} {t g a : Nat} {x : Tile}

/-- Only the array whose turn it is drains (R127). -/
theorem tileDrain_of_not_next (h : s.drainNext t (a / 8) ≠ some a) : tileDrain s t a = s := if_pos h

/-- A drain whose turn it is leaves the order of readiness: it is deferred and keeps the shadow registers, or leaves them into its
chain (R124, R152). -/
theorem tileDrain_of_next (hg : g = a / 8) (hnext : s.drainNext t g = some a) (hx : ((s.tiller t).array a).shadow = some x)
    (hu : u = s.modChain t g (fun c => { c with order := c.order.erase a }))
    (hv : v = if edPartial x.epi = 0 ∨ edPartial x.epi = 3 then u.useTag t g x else u) :
    tileDrain s t a = if s.mustDefer t g x && edPartial x.epi != 2 then u.modChain t g (fun c => { c with deferred := c.deferred ++ [a] })
      else (v.freeShadow t a).modChain t g (fun c => { c with ready := c.ready ++ [x] }) := by
  subst hg hu hv
  simp only [tileDrain, hnext, hx, ne_eq, not_true_eq_false, if_false]

theorem State.drainable_of_shadow (hx : ((s.tiller t).array a).shadow = some x) :
    s.drainable t g a = (!s.mustDefer t g x || decide (s.heldItems t g < 4)) := by
  simp only [State.drainable, hx]

/-- A drain that must be deferred is not taken while the chain holds four items (R152). -/
theorem State.drainable_of_full (hx : ((s.tiller t).array a).shadow = some x) (hwait : s.mustDefer t g x = true)
    (hfull : 4 ≤ s.heldItems t g) : s.drainable t g a = false := by
  rw [State.drainable_of_shadow hx, hwait, decide_eq_false (Nat.not_lt.2 hfull)]
  rfl
end

/-! ### EPILOGUE_DRAIN and DEFERRED_DRAIN (R143, R152) -/

section
variable {s : State} {t g a : Nat} {x : Tile}

theorem epilogueDrain_of_ready {rest : List Tile} (h : ((s.tiller t).chain g).ready = x :: rest) :
    epilogueDrain s t g = (s.setChain t g { (s.tiller t).chain g with ready := rest }).runDrain t g x := by
  simp only [epilogueDrain, h]

/-- The condition of the drain that an array's shadow registers hold lets it begin (R152). -/
def State.mayBegin (s : State) (t g a : Nat) : Bool :=
  match ((s.tiller t).array a).shadow with
  | none => false
  | some x => !s.mustDefer t g x

theorem State.mayBegin_of_shadow (hx : ((s.tiller t).array a).shadow = some x) : s.mayBegin t g a = !s.mustDefer t g x := by
  simp only [State.mayBegin, hx]

theorem State.not_mayBegin (h : ∀ y, ((s.tiller t).array a).shadow = some y → s.mustDefer t g y = true) :
    s.mayBegin t g a = false := by
  cases hy : ((s.tiller t).array a).shadow with
  | none => simp only [State.mayBegin, hy]
  | some y => rw [State.mayBegin_of_shadow hy, h y hy, Bool.not_true]

/-- The first deferred drain that may begin leaves the deferred items, uses its tag and runs (R152). -/
theorem deferredDrain_of_find (hfind : ((s.tiller t).chain g).deferred.find? (s.mayBegin t g) = some a)
    (hx : ((s.tiller t).array a).shadow = some x) :
    deferredDrain s t g = (((s.setChain t g { (s.tiller t).chain g with
      deferred := ((s.tiller t).chain g).deferred.erase a }).useTag t g x).freeShadow t a).runDrain t g x := by
  unfold deferredDrain
  dsimp only
  split
  next hnone => exact nomatch hfind.symm.trans hnone
  next b hb =>
    obtain rfl := Option.some.inj (hfind.symm.trans hb)
    rw [hx]

/-- The first that satisfies a predicate is found, and is the one erased. -/
theorem find?_erase_of_first {p : Nat → Bool} {before after : List Nat} (hbefore : ∀ b ∈ before, p b = false) (ha : p a = true) :
    (before ++ a :: after).find? p = some a ∧ (before ++ a :: after).erase a = before ++ after := by
  have hnot : a ∉ before := fun h => by simp [hbefore a h] at ha
  refine ⟨List.find?_eq_some_iff_append.2 ⟨ha, before, after, rfl, by simpa using hbefore⟩, ?_⟩
  rw [List.erase_append_right _ hnot, List.erase_cons_head]
end

/-! ### PARTIAL_APPLY (R153, R154, R171) -/

section
variable {s u : State} {t : Nat} {c : Contrib}

/-- One word of a contribution combined with the buffer word of its output; a mismatch of anchors is logged (R153). -/
def State.applyPartial (s : State) (t g addr : Nat) (w : Nat × Nat) : State :=
  let m := partialMerge (leNat (s.sram t (addr + 16 * w.1) 16)) w.2
  let s := s.sramWrite t (addr + 16 * w.1) (leBytes 16 m.1)
  if m.2 then s.event (8 + t) (13 + g) [sqBit 0x118 1] [4] else s

theorem partialApply_of_adder {rest : List Contrib} (h : (s.tiller t).adder = c :: rest) :
    partialApply s t = ((c.words.foldl (fun u w => u.applyPartial t ((s.tiller t).partialGroup c.addr) c.addr w)
      (s.setTiller t { s.tiller t with adder := rest })).bumpWide (8 + t) 13 3 0 c.words.length).contribAdvance t c := by
  simp only [partialApply, h]
  rfl

theorem State.contribAdvance_of_own (h : c.remote = false) : u.contribAdvance t c = u.advanceFld c.ctr 1 := by
  simp only [State.contribAdvance, h, Bool.not_false, if_true]

theorem State.contribAdvance_of_remote (h : c.remote = true) :
    u.contribAdvance t c = if bitAt c.ctr 31 then u.sendAdvance (8 + t) (c.ctr % 0x20000) else u := by
  simp only [State.contribAdvance, h, Bool.not_true, Bool.false_eq_true, if_false]
end

/-! ### ADD_FINISH (R154) -/

theorem addFinish_of_find {s u : State} {t g : Nat} {x : Tile} {c : Chain} (hc : c = (s.tiller t).chain g)
    (hfind : (c.prompt ++ c.finishes).find? (s.finishReady t g) = some x)
    (hu : u = (if c.prompt.contains x then s.setChain t g { c with prompt := c.prompt.erase x }
      else s.setChain t g { c with finishes := c.finishes.erase x })) :
    addFinish s t g =
      (((u.noteWait (fld x.epi 0x4C 4)).useTag t g x).emptyBuffer t (fld x.epi 0x48 4)).stagesTile t g x (u.bufferRows t x) := by
  subst hc hu
  simp only [addFinish, hfind]

/-- Settles O23: each command's own equation, then the branch that its drain or contribution chooses. -/
theorem chainCommandsDrainTiles : Obligations.ChainCommandsDrainTiles := by
  refine ⟨?_, ?_, ?_, ?_, ?_, ?_, ?_⟩
  · intro s u v t a g x hg hnext hx hu hv
    rw [exec_tileDrain, tileDrain_of_next hg hnext hx hu hv]
    refine ⟨fun hwait hadd => ?_, fun hgo => ?_⟩
    · rw [if_pos (by simp [hwait, hadd])]
    · rw [if_neg (by rcases hgo with hgo | hgo <;> simp [hgo])]
  · intro s t a hother
    rw [exec_tileDrain, tileDrain_of_not_next hother]
  · intro s t g a x hx hwait hfull
    exact State.drainable_of_full hx hwait hfull
  · intro s t g x rest hready
    rw [exec_epilogueDrain, epilogueDrain_of_ready hready]
  · intro s t g a x c before after hc hsplit hbefore hx hgo
    subst hc
    have hmay : s.mayBegin t g a = true := by rw [State.mayBegin_of_shadow hx, hgo, Bool.not_false]
    obtain ⟨hfind, herase⟩ := find?_erase_of_first (after := after) (fun b hb => State.not_mayBegin (hbefore b hb)) hmay
    rw [exec_deferredDrain, deferredDrain_of_find (hsplit ▸ hfind) hx, hsplit, herase]
  · intro s u t c rest hadder hu
    have happly : partialApply s t = u.contribAdvance t c := by
      rw [partialApply_of_adder hadder, hu]
      rfl
    rw [exec_partialApply, happly]
    refine ⟨fun hown => ?_, fun hremote hen => ?_, fun hremote hdis => ?_⟩
    · rw [State.contribAdvance_of_own hown]
    · rw [State.contribAdvance_of_remote hremote, if_pos hen]
    · rw [State.contribAdvance_of_remote hremote, if_neg (by simp [hdis])]
  · intro s u t g x c rows hc hfind hu hrows
    rw [exec_addFinish, addFinish_of_find hc hfind hu, hrows]
    rfl

end Sys2Proof.Machine
end

section
/-! PROOFS. The Rhizome: what a packet does as it arrives, and what faults of links and routers change (R163 to R165, R169 to R178,
R385, R389, R444). -/

namespace Sys2Proof.Machine

/-! ### The meaning that a command runs -/

section
variable (s : State) (p : Packet)
@[simp] theorem exec_fabricWrite : exec (.fabricWrite p) s = .next (fabricWrite s p) := rfl
@[simp] theorem exec_fabricReadReq : exec (.fabricReadReq p) s = .next (fabricReadReq s p) := rfl
@[simp] theorem exec_fabricReadResp : exec (.fabricReadResp p) s = .next (fabricReadResp s p) := rfl
@[simp] theorem exec_fabricPartial : exec (.fabricPartial p) s = .next (fabricPartial s p) := rfl
@[simp] theorem exec_ctrOp : exec (.ctrOp p) s = .next (ctrOpPacket s p) := rfl
@[simp] theorem exec_ctrResp : exec (.ctrResp p) s = .next (ctrResp s p) := rfl
@[simp] theorem exec_regReq (req : Requester) (wr : Bool) (v : Word) :
    exec (.regReq p req wr v) s = .next (regReq s p req wr v.toNat) := rfl
@[simp] theorem exec_regResp : exec (.regResp p) s = .next (regResp s p) := rfl
@[simp] theorem exec_linkRetry (site port retries : Nat) :
    exec (.linkRetry site port retries) s = .next (linkRetry s site port retries) := rfl
@[simp] theorem exec_routeSwitch (ns : Nat) : exec (.routeSwitch ns) s = .next (routeSwitch s ns) := rfl
@[simp] theorem exec_routerFailure (site : Nat) : exec (.routerFailure site) s = .next (routerFailure s site) := rfl
end

/-! ### The arrival of a packet (R169, R170, R174, R178) -/

/-- What a packet leaves behind that is discarded before it does anything: at its source, which it never leaves (R169), or at the router
that receives its bad header (R178). -/
def State.Discards (s : State) (p : Packet) (t : State) : Prop :=
  (s.neverLeaves p = true ∧ t = s.rhzDrop (siteDie (p.src % 72)) 2) ∨
    (s.neverLeaves p = false ∧ packetHeaderOk p = false ∧ t = s.event (siteDie (p.dst % 72)) 25 [sqBit 0x118 0] [4])

section
variable {s t : State} {p : Packet}

/-- A discarded packet does the same whatever its kind would have done. -/
theorem State.arrive_of_discards (h : s.Discards p t) (kind : Nat) (f : State → State) : s.arrive p kind f = t := by
  unfold State.arrive
  rcases h with ⟨hnever, rfl⟩ | ⟨hleaves, hbad, rfl⟩
  · rw [if_pos hnever]
  · rw [if_neg (by simp [hleaves]), if_pos (by simp [hbad])]

variable (hleaves : s.neverLeaves p = false) (hok : packetHeaderOk p = true) {kind : Nat} (hkind : p.kind = kind)
include hleaves hok hkind

/-- A good packet that cannot be taken yet waits, and nothing changes (R170, R174). -/
theorem State.arrive_of_waits (hwait : s.takePacket p = none) (f : State → State) : s.arrive p kind f = s := by
  unfold State.arrive
  rw [if_neg (by simp [hleaves]), if_neg (by simp [hok, hkind]), hwait]

/-- A good packet that is taken is counted and handed on (R165, R177). -/
theorem State.arrive_of_taken {u : State} (htake : s.takePacket p = some u) (f : State → State) :
    s.arrive p kind f = f (u.countFlits p) := by
  unfold State.arrive
  rw [if_neg (by simp [hleaves]), if_neg (by simp [hok, hkind]), htake]
end

/-! ### What each kind does once it is taken (R164, R165, R171, R385, R389, R444) -/

section
variable {s u v : State} {p : Packet} (hleaves : s.neverLeaves p = false) (hok : packetHeaderOk p = true)
  (htake : s.takePacket p = some u) (hv : v = u.countFlits p)
include hleaves hok htake hv

theorem fabricWrite_of_taken (hkind : p.kind = 0) :
    fabricWrite s p = if p.tail && p.advEn then (v.commit p).sendAdvance (siteDie p.dst) p.advCtr else v.commit p := by
  subst hv
  exact State.arrive_of_taken hleaves hok hkind htake _

theorem fabricReadReq_of_taken (hkind : p.kind = 1) {sp : Space} {n : Nat} (htarget : packetTarget p = some (sp, n)) :
    fabricReadReq s p = v.inject (responseOf p 2 (v.load sp p.addr (16 * p.units))) := by
  subst hv
  rw [fabricReadReq, State.arrive_of_taken hleaves hok hkind htake, htarget]

theorem fabricReadResp_of_taken (hkind : p.kind = 2) : fabricReadResp s p = v.answer (leNat p.payload) := by
  subst hv
  exact State.arrive_of_taken hleaves hok hkind htake _

theorem fabricPartial_of_taken (hkind : p.kind = 3) :
    fabricPartial s p = v.setTiller (siteDie p.dst - 8) { v.tiller (siteDie p.dst - 8) with
      adder := (v.tiller (siteDie p.dst - 8)).adder ++ [{
        addr := p.addr, words := (List.range p.units).foldl (fun m i => Tbl.put m i (fld p.payload (16 * i) 16)) []
        ctr := if p.tail && p.advEn then 0x80000000 + p.advCtr else 0, remote := true }] } := by
  subst hv
  exact State.arrive_of_taken hleaves hok hkind htake _

/-- A WAIT that is not met is parked (R389). -/
theorem ctrOpPacket_of_unmet (hkind : p.kind = 4) (hop : fld p.payload 0 4 = 2)
    (hunmet : v.ctrMet p.advCtr (fld p.payload 4 4) = false) :
    ctrOpPacket s p = v.park { unit := .packet p.src p.tag, ctr := p.advCtr, thr := fld p.payload 4 4 } := by
  subst hv
  rw [ctrOpPacket, State.arrive_of_taken hleaves hok hkind htake, if_pos ⟨hop, hunmet⟩]

/-- Any other operation is applied, and all but the posted ADD are answered (R171, R385). -/
theorem ctrOpPacket_of_met (hkind : p.kind = 4)
    (hmet : fld p.payload 0 4 = 2 → v.ctrMet p.advCtr (fld p.payload 4 4) = true) {r : State × Nat × Nat}
    (hr : r = v.ctrOp (fld p.payload 0 4) p.advCtr (fld p.payload 4 4) (fld p.payload 8 4) (fld p.payload 12 4)) :
    ctrOpPacket s p = if fld p.payload 0 4 = 1 then r.1
      else r.1.inject (ctrAnswer (siteDie p.dst) p.src p.tag r.2.1 r.2.2) := by
  subst hv hr
  rw [ctrOpPacket, State.arrive_of_taken hleaves hok hkind htake, if_neg (fun h => by simp [hmet h.1] at h)]

theorem ctrResp_of_taken (hkind : p.kind = 5) : ctrResp s p = v.answer (fld p.payload 0 8) := by
  subst hv
  exact State.arrive_of_taken hleaves hok hkind htake _

/-- A read is answered with the word read (R444). -/
theorem regReq_read_of_taken (hkind : p.kind = 6) {a : Nat} (ha : a = p.addr + p.headSkip) (req : Requester) (x : Nat)
    {r : Nat × State} (hr : r = v.readReg req (a / 0x100000) (a / 0x1000 % 256) (a % 0x1000) true) :
    regReq s p req false x = r.2.inject (responseOf p 7 (leBytes 4 r.1 ++ leBytes 12 0)) := by
  subst hv ha hr
  exact State.arrive_of_taken hleaves hok hkind htake _

/-- A write is answered with zero (R444). -/
theorem regReq_write_of_taken (hkind : p.kind = 6) {a : Nat} (ha : a = p.addr + p.headSkip) (req : Requester) (x : Nat) :
    regReq s p req true x = (v.writeReg req (a / 0x100000) (a / 0x1000 % 256) (a % 0x1000) x).inject
      (responseOf p 7 (leBytes 4 0 ++ leBytes 12 0)) := by
  subst hv ha
  exact State.arrive_of_taken hleaves hok hkind htake _

theorem regResp_of_taken (hkind : p.kind = 7) : regResp s p = v.answer (fld p.payload 0 4) := by
  subst hv
  exact State.arrive_of_taken hleaves hok hkind htake _
end

/-- Settles O24: an arrival discards, waits or takes; what a taken packet then does is its kind's own lemma. -/
theorem fabricPacketsTakeEffectOnArrival : Obligations.FabricPacketsTakeEffectOnArrival := by
  refine ⟨?_, ?_, ?_⟩
  · intro s u v p hok hleaves htake hv
    refine ⟨fun hkind hadv => ?_, fun hkind hadv => ?_, fun sp n hkind htarget => ?_, fun hkind => ?_, fun hkind words hwords => ?_,
      fun r op hkind hop hr => ?_, fun hkind => ?_, fun req w a hkind ha => ?_, fun hkind => ?_⟩
    · rw [exec_fabricWrite, fabricWrite_of_taken hleaves hok htake hv hkind, if_pos hadv]
    · rw [exec_fabricWrite, fabricWrite_of_taken hleaves hok htake hv hkind, if_neg (by simp [hadv])]
    · rw [exec_fabricReadReq, fabricReadReq_of_taken hleaves hok htake hv hkind htarget]
    · rw [exec_fabricReadResp, fabricReadResp_of_taken hleaves hok htake hv hkind]
    · rw [exec_fabricPartial, fabricPartial_of_taken hleaves hok htake hv hkind, hwords]
    · subst hop
      refine ⟨fun hadd => ?_, fun hwait hunmet => ?_, fun hadd hmet => ?_⟩
      · rw [exec_ctrOp, ctrOpPacket_of_met hleaves hok htake hv hkind (fun hwait => by omega) hr, if_pos hadd]
      · rw [exec_ctrOp, ctrOpPacket_of_unmet hleaves hok htake hv hkind hwait hunmet]
      · rw [exec_ctrOp, ctrOpPacket_of_met hleaves hok htake hv hkind hmet hr, if_neg hadd]
    · rw [exec_ctrResp, ctrResp_of_taken hleaves hok htake hv hkind]
    · refine ⟨fun r hr => ?_, ?_⟩
      · rw [exec_regReq, regReq_read_of_taken hleaves hok htake hv hkind ha req _ hr]
      · rw [exec_regReq, regReq_write_of_taken hleaves hok htake hv hkind ha]
    · rw [exec_regResp, regResp_of_taken hleaves hok htake hv hkind]
  · intro s t p req wr v hdiscards
    have hsame (kind f) : (.next (s.arrive p kind f) : Host.Outcome State Fault Refusal) = .next t :=
      congrArg _ (State.arrive_of_discards hdiscards kind f)
    exact ⟨hsame 0 _, hsame 1 _, hsame 2 _, hsame 3 _, hsame 4 _, hsame 5 _, hsame 6 _, hsame 7 _⟩
  · intro s p req wr v hleaves hok hwait
    have hsame (kind f) (hkind : p.kind = kind) : (.next (s.arrive p kind f) : Host.Outcome State Fault Refusal) = .next s :=
      congrArg _ (State.arrive_of_waits hleaves hok hkind hwait f)
    exact ⟨hsame 0 _, hsame 1 _, hsame 2 _, hsame 3 _, hsame 4 _, hsame 5 _, hsame 6 _, hsame 7 _⟩

/-! ### LINK_RETRY (R163, R175, R178) -/

/-- An end that was marked down is among those that are down. -/
theorem State.mem_down_linkEndDown (s : State) (site port : Nat) : site * 4 + port ∈ (s.linkEndDown site port).rhz.down := by
  unfold State.linkEndDown
  by_cases h : s.rhz.down.contains (site * 4 + port) = true
  · rw [if_pos h]
    exact List.contains_iff_mem.1 h
  · rw [if_neg h]
    exact mem_insNat.2 (.inl rfl)

/-- Retries of a live link end are counted; past the eighth of one flit both ends go down (R163). -/
theorem linkRetry_of_live {s u : State} {site port retries y : Nat} (hy : neighbour site port = some y)
    (hlive : s.routerLive site = true) (hsome : retries ≠ 0) (hup : s.rhz.down.contains (site * 4 + port) = false)
    (hu : u = (s.bumpWide (siteDie site) 25 3 port (min retries 8)).event (siteDie site) 25 [sqBit 0x118 1] []) :
    linkRetry s site port retries =
      if retries ≤ 8 then { u with rhz := { u.rhz with retrying := insNat (site * 4 + port) u.rhz.retrying } }
      else (State.linkEndDown { u with rhz := { u.rhz with
        retrying := u.rhz.retrying.filter (fun e => e ≠ site * 4 + port) } } site port).linkEndDown y ((port + 2) % 4) := by
  subst hu
  simp only [linkRetry, hy]
  rw [if_neg (by simp only [hlive, hsome, hup, Bool.not_true, decide_false, Bool.or_self, Bool.false_eq_true, not_false_eq_true])]

/-! ### ROUTE_SWITCH (R173, R174) -/

/-- Every router is empty but for packets that wait for a link that is down. -/
theorem State.routersEmpty_iff (s : State) : s.routersEmpty = true ↔ ∀ p ∈ s.rhz.flight, s.stuckAt p ≠ none := by
  simp [State.routersEmpty, Option.isSome_iff_ne_none]

/-- A packet that waits for a link that is down is discarded where it stands, any other is left (R174). -/
def State.discardStuck (s : State) (p : Packet) : State :=
  match s.stuckAt p with
  | none => s
  | some x => s.switchDiscard x p

/-- The link end `k` belongs to a link of one of the sites (R163). -/
def linkOf (sites : List Nat) (k : Nat) : Bool :=
  sites.contains (k / 4) || (match neighbour (k / 4) (k % 4) with | none => false | some y => sites.contains y)

/-- The tables of the dead sites `dead` in force: the links of sites that are back are up again, and injection goes on (R173). -/
def State.switchTables (s : State) (dead back : List Nat) : State :=
  { s with rhz := { s.rhz with
    gen := s.rhz.gen + 1, dead := dead, found := s.stillFound, down := s.rhz.down.filter (fun k => !linkOf back k), detect := none
    pausing := false, held := [] } }

/-- A live router notes how long it paused (R173, R178). -/
def State.notePause (ns : Nat) (s : State) (site : Nat) : State :=
  (s.setRegN (siteDie site) 25 0x110 (ns % 4294967296)).event (siteDie site) 25 [sqBit 0x118 3] []

/-- The tables switch once the paused routers are empty (R173). -/
theorem routeSwitch_of_empty {s v w : State} (ns : Nat) (hpause : s.rhz.pausing = true) (hempty : s.routersEmpty = true)
    (hw : w = s.rhz.flight.foldl State.discardStuck s)
    (hv : v = w.switchTables s.nextDead (s.rhz.dead.filter (fun x => !s.nextDead.contains x))) :
    routeSwitch s ns = w.rhz.held.foldl State.inject
      (((List.range 72).filter (fun x => v.routerLive x)).foldl (State.notePause ns) v) := by
  subst hv hw
  unfold routeSwitch
  rw [if_neg (by simp [hpause, hempty])]
  rfl

/-- Before that nothing changes. -/
theorem routeSwitch_of_busy {s : State} (ns : Nat) (h : s.rhz.pausing = false ∨ s.routersEmpty = false) : routeSwitch s ns = s :=
  if_pos (by rcases h with h | h <;> simp [h])

/-! ### ROUTER_FAILURE (R174) -/

section
variable {s : State} {site : Nat}

/-- A router that is down, or whose site was found dead before, fails no further. -/
theorem routerFailure_of_known (h : s.routerLive site = false ∨ s.rhz.found.contains site = true) : routerFailure s site = s :=
  if_pos (by rcases h with h | h <;> simp only [h, Bool.not_false, Bool.true_or, Bool.or_true])

variable (hlive : s.routerLive site = true) (hnew : s.rhz.found.contains site = false)
include hlive hnew

theorem routerFailure_of_wellhead (hdie : siteDie site < 8) : routerFailure s site = s.routerDown site := by
  simp only [routerFailure, hlive, hnew, hdie, Bool.not_true, Bool.or_self, Bool.false_eq_true, if_false, if_true]

/-! The router of a Tiller takes the Tiller with it, in the role that it has. -/

section
variable (hdie : 8 ≤ siteDie site)
include hdie

theorem routerFailure_of_inService (hrole : (s.tiller (siteDie site - 8)).role = .inService) :
    routerFailure s site = s.tillerFail (siteDie site - 8) false true := by
  simp only [routerFailure, hlive, hnew, Nat.not_lt.2 hdie, hrole, Bool.not_true, Bool.or_self, Bool.false_eq_true, if_false]

theorem routerFailure_of_spare (hrole : (s.tiller (siteDie site - 8)).role = .spare) :
    routerFailure s site = (s.routerDown site).spareFail (siteDie site - 8) false := by
  simp only [routerFailure, hlive, hnew, Nat.not_lt.2 hdie, hrole, Bool.not_true, Bool.or_self, Bool.false_eq_true, if_false]

theorem routerFailure_of_unknown (hrole : (s.tiller (siteDie site - 8)).role = .unknown) :
    routerFailure s site = s.routerDown site := by
  simp only [routerFailure, hlive, hnew, Nat.not_lt.2 hdie, hrole, Bool.not_true, Bool.or_self, Bool.false_eq_true, if_false]
end
end

/-- Settles O25: each command's guard, then the branch that the count, the packets in flight or the role chooses. -/
theorem linksAndRoutesFollowTheirFaults : Obligations.LinksAndRoutesFollowTheirFaults := by
  refine ⟨?_, ?_, ?_, ?_, ?_⟩
  · intro s u site port retries y k hy hlive hsome hk hup hu
    subst hk
    rw [exec_linkRetry, linkRetry_of_live hy hlive hsome hup hu]
    refine ⟨fun hfew => by rw [if_pos hfew], fun hmany => ?_⟩
    rw [if_neg (Nat.not_le.2 hmany)]
    exact ⟨_, _, rfl, rfl, rfl, State.mem_down_linkEndDown _ _ _, State.mem_down_linkEndDown _ _ _⟩
  · intro s w ns hpause hstuck hw
    refine ⟨w.switchTables s.nextDead (s.rhz.dead.filter (fun x => !s.nextDead.contains x)),
      rfl, rfl, rfl, rfl, rfl, rfl, rfl, rfl, ?_⟩
    rw [exec_routeSwitch, routeSwitch_of_empty ns hpause (s.routersEmpty_iff.2 hstuck) hw rfl]
    rfl
  · intro s ns hbusy
    have hwaits : s.rhz.pausing = false ∨ s.routersEmpty = false :=
      hbusy.imp_right fun ⟨p, hp, hmoves⟩ => Bool.eq_false_iff.2 fun hempty => s.routersEmpty_iff.1 hempty p hp hmoves
    rw [exec_routeSwitch, routeSwitch_of_busy ns hwaits]
  · intro s site hlive hnew
    refine ⟨fun hdie => ?_, fun hdie hrole => ?_, fun hdie hrole => ?_, fun hdie hrole => ?_⟩
    · rw [exec_routerFailure, routerFailure_of_wellhead hlive hnew hdie]
    · rw [exec_routerFailure, routerFailure_of_inService hlive hnew hdie hrole]
    · rw [exec_routerFailure, routerFailure_of_spare hlive hnew hdie hrole]
    · rw [exec_routerFailure, routerFailure_of_unknown hlive hnew hdie hrole]
  · intro s site hknown
    rw [exec_routerFailure, routerFailure_of_known hknown]

end Sys2Proof.Machine
end

section
/-! PROOFS. The commands of the Winnow's list: SELECT, SAMPLE, WINNOW_END and MASK_FETCH (R206, R210, R211, R213, R224 to R232). -/

namespace Sys2Proof.Machine

/-! ### The meaning that a command runs -/

section
variable (s : State) (t : Nat)
@[simp] theorem exec_select : exec (.select t) s = .next (winSelect s t) := rfl
@[simp] theorem exec_sample (ds : List Nat) : exec (.sample t ds) s = .next (winSample s t ds) := rfl
@[simp] theorem exec_winnowEnd : exec (.winnowEnd t) s = .next (winnowEnd s t) := rfl
@[simp] theorem exec_maskFetch : exec (.maskFetch t) s = .next (maskFetch s t) := rfl
end

/-! ### The next descriptor of a list, by its op (R206, R210, R213) -/

section
variable {s : State} {t a : Nat} {d : List Byte} (hnext : s.winNext t = some (a, d))
include hnext

/-- A descriptor that is neither a SAMPLE nor END is taken as a SELECT: run or refused. -/
theorem winSelect_of_next (hsample : wdOp d ≠ 1) (hend : wdOp d ≠ 2) :
    winSelect s t = if s.wdCheck t d = 0 then (s.winTook t a d).runSelect t d
      else ((s.winTook t a d).winRefuse t a (s.wdCheck t d)).refusedSelect t d := by
  simp only [winSelect, hnext, hsample, hend, or_self, if_false]

/-- END stops the unit, logged first where a check refuses it. -/
theorem winnowEnd_of_next (hop : wdOp d = 2) {v : State}
    (hv : v = if s.wdCheck t d = 0 then s else s.winRefuse t a (s.wdCheck t d)) :
    winnowEnd s t = v.setWin t { v.win t with at_ := none } := by
  subst hv
  simp only [winnowEnd, hnext, hop, ne_eq, not_true_eq_false, if_false]

/-! #### SAMPLE (R213, R224 to R230) -/

section
variable (hop : wdOp d = 1) (ds : List Nat)
include hop

section
variable (hcheck : s.wdCheck t d = 0) {x : Slot} (hx : x = s.slot (wdSlot d))
include hcheck hx

/-- A checked SAMPLE that needs no mask, or whose mask is in the cache, chooses its token and ends. -/
theorem winSample_of_cached
    (hcached : s.maskKey x (wdPos d) = none ∨ ∃ k, s.maskKey x (wdPos d) = some k ∧ (s.win t).cache.contains k = true)
    {c : State × Nat × Nat × Nat × Nat × Nat × Nat × Nat × Nat × Bool × Bool} {v : State}
    (hc : c = ((s.winTook t a d).maskAsk t (s.maskKey x (wdPos d))).chooseToken t d x
      (grmMaskOf (s.grmImage x) (x.ctxAt (wdPos d))) (x.seqAt (wdPos d)))
    (hv : v = ((c.1.winScan t (wdN d) c.2.2.2.2.2.2.2.2.1).bumpWide (8 + t) 26 4 0 1).bumpWide (8 + t) 26 3 0 (sampleCycles d x)) :
    winSample s t ds = (v.recordToken t d ds c.2).winDone t d := by
  subst hx hv hc
  rcases hcached with hkey | ⟨k, hkey, hin⟩
  · simp only [winSample, hnext, hop, hcheck, hkey, ne_eq, not_true_eq_false, if_false, if_true, Bool.not_true, Bool.false_eq_true]
  · simp only [winSample, hnext, hop, hcheck, hkey, hin, ne_eq, not_true_eq_false, if_false, if_true, Bool.not_true,
      Bool.false_eq_true]

/-- One whose mask is not in the cache waits: it asks for the mask when it is first tried, and after that changes nothing. -/
theorem winSample_of_uncached {k : Nat × Nat} (hkey : s.maskKey x (wdPos d) = some k) (hout : (s.win t).cache.contains k = false)
    {v : State} (hv : v = s.maskAsk t (some k)) :
    winSample s t ds = if (s.win t).waiting.isSome then s
      else ((v.setWin t { v.win t with waiting := some k }).bump (8 + t) 27 0x108 1).event (8 + t) 27 [sqBit 0x118 0] [] := by
  subst hx hv
  simp only [winSample, hnext, hop, hcheck, hkey, hout, ne_eq, not_true_eq_false, if_false, if_true, Bool.not_false]
end

section
variable {u : State} (hu : u = (s.winTook t a d).winRefuse t a (s.wdCheck t d))
include hu

/-- A SAMPLE whose slot no live request of the running job holds, and which fails nothing before that, records nothing. -/
theorem winSample_of_unheld (hcode : s.wdCheck t d = 6) : winSample s t ds = u.winDone t d := by
  subst hu
  simp only [winSample, hnext, hop, hcode, ne_eq, not_true_eq_false, if_false, if_true, OfNat.ofNat_ne_zero]

/-- One refused for another reason records a token that no row was drawn for: the values that the spec does not state are free (log
97). -/
theorem winSample_of_refused (hcheck : s.wdCheck t d ≠ 0) (hcode : s.wdCheck t d ≠ 6) :
    ∃ (f : State) (c : Nat × Nat × Nat × Nat × Nat × Nat × Nat × Nat × Bool × Bool),
      f = { u with freeCount := f.freeCount } ∧ c.2.1 = 0 ∧ c.2.2.2.2.2.2.2.2.2 = true ∧
      c.1 = (if u.wdSlotOk t d then
        degenerateTok (grmMaskOf (u.grmImage (s.slot (wdSlot d))) ((s.slot (wdSlot d)).ctxAt (wdPos d))) (u.vocabOn t) else 0) ∧
      winSample s t ds = (f.recordToken t d ds c).winDone t d := by
  simp only [winSample, hnext, hop, hcheck, hcode, ← hu, ne_eq, not_true_eq_false, if_false]
  exact ⟨_, _, rfl, rfl, rfl, rfl, rfl⟩
end
end
end

/-- The oldest mask on its way arrives; cycles of a SAMPLE's wait are counted only where the SAMPLE waits for that mask (R224,
R225). -/
theorem maskFetch_of_fetching {s u : State} {t : Nat} {k : Nat × Nat} {rest : List (Nat × Nat)}
    (hfetch : (s.win t).fetching = k :: rest) (hu : u = (s.setWin t { s.win t with fetching := rest }).cacheIn t k) :
    maskFetch s t = if (s.win t).waiting = some k then
        (u.bumpWide (8 + t) 27 2 0 (u.keyBytes k)).drawWord.2.bumpWide (8 + t) 27 1 0
          (u.bumpWide (8 + t) 27 2 0 (u.keyBytes k)).drawWord.1.toNat
      else u.bumpWide (8 + t) 27 2 0 (u.keyBytes k) := by
  subst hu
  simp only [maskFetch, hfetch]

/-- Settles O13: the op of the next descriptor chooses the command, its checks and the mask's place in the cache choose the branch. -/
theorem winnowCommandsTakeEffect : Obligations.WinnowCommandsTakeEffect := by
  refine ⟨?_, ?_, ?_, ?_, ?_⟩
  · intro s t a d hnext hsample hend
    rw [exec_select, winSelect_of_next hnext hsample hend]
    refine ⟨fun hok => by rw [if_pos hok], fun code hcode hcheck => ?_⟩
    subst hcheck
    rw [if_neg hcode]
  · intro s u t a d ds x key hnext hop hcheck hx hkey hu
    subst hkey hu
    refine ⟨fun hcached c v hc hv => ?_, fun k hkey hout => ⟨fun hfirst v hv => ?_, fun hagain => ?_⟩⟩
    · rw [exec_sample, winSample_of_cached hnext hop ds hcheck hx hcached hc hv]
    · rw [hkey] at hv ⊢
      rw [exec_sample, winSample_of_uncached hnext hop ds hcheck hx hkey hout hv, if_neg (by simp [hfirst])]
    · rw [exec_sample, winSample_of_uncached hnext hop ds hcheck hx hkey hout rfl, if_pos (Option.isSome_iff_ne_none.2 hagain)]
  · intro s u t a code d ds hnext hop hcode hbad hu
    subst hcode
    refine ⟨fun h6 => congrArg _ (winSample_of_unheld hnext hop ds hu h6), fun h6 => ?_⟩
    obtain ⟨f, c, hf, hkept, hdeg, htok, hrun⟩ := winSample_of_refused hnext hop ds hu hbad h6
    exact ⟨f, c, hf, hkept, hdeg, htok, congrArg _ hrun⟩
  · intro s v t a d hnext hop hv
    exact congrArg _ (winnowEnd_of_next hnext hop hv)
  · intro s u t k rest hfetch hu
    rw [exec_maskFetch, maskFetch_of_fetching hfetch hu]
    exact ⟨fun hother => by rw [if_neg hother], fun hsame => ⟨_, _, rfl, by rw [if_pos hsame]⟩⟩

end Sys2Proof.Machine
end

section
/-! PROOFS. The registries of grammars, tokenizer tables and recipes: REGISTER, UNREGISTER and CATALOGUE_FREED (R219, R220, R240,
R270). -/

namespace Sys2Proof.Machine

/-! ### The meaning that a command runs -/

/-- An operand within its field is taken as it is. -/
theorem next_mod_of_lt {k n : Nat} (h : k < n) (f : Nat → State) :
    (.next (f (k % n)) : Host.Outcome State Fault Refusal) = .next (f k) := by
  rw [Nat.mod_eq_of_lt h]

section
variable (s : State) (req : Requester) {id : Nat}
@[simp] theorem exec_catalogueFreed (recipe : Bool) (id : Nat) :
    exec (.catalogueFreed recipe id) s = .next (catalogueFreed s recipe id) := rfl

theorem exec_grammarRegister (h : id < 4096) : exec (.grammarRegister req id) s = .next (grammarRegister s req id) :=
  next_mod_of_lt h (grammarRegister s req)

theorem exec_grammarUnregister (h : id < 4096) : exec (.grammarUnregister req id) s = .next (grammarUnregister s req id) :=
  next_mod_of_lt h (grammarUnregister s req)

theorem exec_tokenizerRegister (h : id < 256) : exec (.tokenizerRegister req id) s = .next (tokenizerRegister s req id) :=
  next_mod_of_lt h (tokenizerRegister s req)

theorem exec_tokenizerUnregister (h : id < 256) : exec (.tokenizerUnregister req id) s = .next (tokenizerUnregister s req id) :=
  next_mod_of_lt h (tokenizerUnregister s req)

theorem exec_recipeRegister (h : id < 4096) : exec (.recipeRegister req id) s = .next (recipeRegister s req id) :=
  next_mod_of_lt h (recipeRegister s req)

theorem exec_recipeUnregister (h : id < 4096) : exec (.recipeUnregister req id) s = .next (recipeUnregister s req id) :=
  next_mod_of_lt h (recipeUnregister s req)
end

/-- A command written to a MOD page while one is under way there is dropped with error 0x01 (R219). -/
theorem State.modCommand_of_busy {s : State} {req : Requester} {page : Nat} (h : s.gate req 120 page 1 = (s, true))
    (hbusy : s.cmdBusy 120 page 0x10C = true) (f : State → State) : s.modCommand req page f = s.err 120 page 1 := by
  simp only [State.modCommand, State.gated_of_pass h, hbusy, if_true]

/-! ### REGISTER and UNREGISTER past the gate (R219, R220, R240, R270) -/

section
variable {s : State} {req : Requester} {id : Nat} {img : List Byte} {c : Nat}

section
variable (hgate : s.gate req 120 4 1 = (s, true)) (hidle : s.cmdBusy 120 4 0x10C = false)
include hgate hidle

theorem grammarRegister_of_checked (hr : s.grmRegister id (s.cmdAddr 4) = (c, img)) :
    grammarRegister s req id = (if c = 0 then
      ({ s with cat := { s.cat with grm := Tbl.put s.cat.grm id { bytes := img } } } : State) else s).cmdDone 4 c id := by
  simp only [grammarRegister, State.modCommand_of_idle hgate hidle, hr]

theorem grammarUnregister_of_unknown (h : s.grammar id = none) :
    grammarUnregister s req id = s.cmdDone 4 (if id = 0 then 2 else 8) id := by
  simp only [grammarUnregister, State.modCommand_of_idle hgate hidle, h]

/-- A grammar that is in use is closed, and its result stays PENDING. -/
theorem grammarUnregister_of_known {g : CatImg} (h : s.grammar id = some g) :
    grammarUnregister s req id = if s.grmUsed id then
        ({ s with cat := { s.cat with grm := Tbl.put s.cat.grm id { g with closed := true } } } : State).setResult 120 4 0x10C 2 0 id
      else (s.grmFree id).cmdDone 4 0 id := by
  simp only [grammarUnregister, State.modCommand_of_idle hgate hidle, h]
end

section
variable (hgate : s.gate req 120 5 1 = (s, true)) (hidle : s.cmdBusy 120 5 0x10C = false)
include hgate hidle

theorem tokenizerRegister_of_checked (hr : s.tokRegister id (s.cmdAddr 5) = (c, img)) :
    tokenizerRegister s req id = (if c = 0 then
      ({ s with cat := { s.cat with tok := Tbl.put s.cat.tok id { bytes := img } } } : State) else s).cmdDone 5 c id := by
  simp only [tokenizerRegister, State.modCommand_of_idle hgate hidle, hr]

theorem tokenizerUnregister_of_unknown (h : Tbl.look s.cat.tok id = none) :
    tokenizerUnregister s req id = s.cmdDone 5 (if id = 0 then 2 else 7) id := by
  simp only [tokenizerUnregister, State.modCommand_of_idle hgate hidle, h, Option.isNone_none, if_true]

/-- A tokenizer table that is in use is kept: the command is refused. -/
theorem tokenizerUnregister_of_known {g : CatImg} (h : Tbl.look s.cat.tok id = some g) :
    tokenizerUnregister s req id = if s.tokUsed id then s.cmdDone 5 8 id
      else ({ s with cat := { s.cat with tok := Tbl.del s.cat.tok id } } : State).cmdDone 5 0 id := by
  simp only [tokenizerUnregister, State.modCommand_of_idle hgate hidle, h, Option.isNone_some, Bool.false_eq_true, if_false]
end

section
variable (hgate : s.gate req 120 7 1 = (s, true)) (hidle : s.cmdBusy 120 7 0x10C = false)
include hgate hidle

theorem recipeRegister_of_checked (hr : s.rcpRegister id (s.cmdAddr 7) = (c, img)) :
    recipeRegister s req id = (if c = 0 then
      ({ s with cat := { s.cat with rcp := Tbl.put s.cat.rcp id { bytes := img } } } : State) else s).cmdDone 7 c id := by
  simp only [recipeRegister, State.modCommand_of_idle hgate hidle, hr]

theorem recipeUnregister_of_unknown (h : s.recipe id = none) :
    recipeUnregister s req id = s.cmdDone 7 (if id = 0 then 2 else 6) id := by
  simp only [recipeUnregister, State.modCommand_of_idle hgate hidle, h]

/-- A recipe that is in use is closed, and its result stays PENDING. -/
theorem recipeUnregister_of_known {g : CatImg} (h : s.recipe id = some g) :
    recipeUnregister s req id = if s.rcpUsed id then
        ({ s with cat := { s.cat with rcp := Tbl.put s.cat.rcp id { g with closed := true } } } : State).setResult 120 7 0x10C 2 0 id
      else ({ s with cat := { s.cat with rcp := Tbl.del s.cat.rcp id } } : State).cmdDone 7 0 id := by
  simp only [recipeUnregister, State.modCommand_of_idle hgate hidle, h]
end
end

/-! ### CATALOGUE_FREED (R220) -/

section
variable {s : State} {id : Nat} {g : CatImg} (hclosed : g.closed = true)
include hclosed

theorem catalogueFreed_of_grammar (h : Tbl.look s.cat.grm id = some g) :
    catalogueFreed s false id = if s.grmUsed id then s else (s.grmFree id).cmdDone 4 0 id := by
  simp only [catalogueFreed, h, hclosed, Bool.false_eq_true, if_false, Bool.true_and]
  cases s.grmUsed id <;> rfl

theorem catalogueFreed_of_recipe (h : Tbl.look s.cat.rcp id = some g) :
    catalogueFreed s true id = if s.rcpUsed id then s
      else ({ s with cat := { s.cat with rcp := Tbl.del s.cat.rcp id } } : State).cmdDone 7 0 id := by
  simp only [catalogueFreed, h, hclosed, if_true, Bool.true_and]
  cases s.rcpUsed id <;> rfl
end

/-- Settles O15: past the gate REGISTER has its checks and UNREGISTER its look-up and its use; a command under way stops both. -/
theorem catalogueCommandsTakeEffect : Obligations.CatalogueCommandsTakeEffect := by
  refine ⟨?_, ?_, ?_, ?_, ?_⟩
  · intro s req id img hid hgate hidle
    rw [exec_grammarRegister s req hid, exec_grammarUnregister s req hid]
    refine ⟨fun c hr => congrArg _ (grammarRegister_of_checked hgate hidle hr),
      fun hnone => congrArg _ (grammarUnregister_of_unknown hgate hidle hnone), fun g hg hfree => ?_, fun g hg hused => ?_⟩
    · rw [grammarUnregister_of_known hgate hidle hg, hfree]
      rfl
    · rw [grammarUnregister_of_known hgate hidle hg, if_pos hused]
  · intro s req id img hid hgate hidle
    rw [exec_tokenizerRegister s req hid, exec_tokenizerUnregister s req hid]
    refine ⟨fun c hr => congrArg _ (tokenizerRegister_of_checked hgate hidle hr),
      fun hnone => congrArg _ (tokenizerUnregister_of_unknown hgate hidle hnone), fun g hg hfree => ?_, fun g hg hused => ?_⟩
    · rw [tokenizerUnregister_of_known hgate hidle hg, hfree]
      rfl
    · rw [tokenizerUnregister_of_known hgate hidle hg, if_pos hused]
  · intro s req id img hid hgate hidle
    rw [exec_recipeRegister s req hid, exec_recipeUnregister s req hid]
    refine ⟨fun c hr => congrArg _ (recipeRegister_of_checked hgate hidle hr),
      fun hnone => congrArg _ (recipeUnregister_of_unknown hgate hidle hnone), fun g hg hfree => ?_, fun g hg hused => ?_⟩
    · rw [recipeUnregister_of_known hgate hidle hg, hfree]
      rfl
    · rw [recipeUnregister_of_known hgate hidle hg, if_pos hused]
  · intro s id g hclosed
    rw [exec_catalogueFreed, exec_catalogueFreed]
    refine ⟨fun hg => ?_, fun hr => ?_⟩
    · rw [catalogueFreed_of_grammar hclosed hg]
      exact ⟨fun hfree => by rw [hfree]; rfl, fun hused => by rw [if_pos hused]⟩
    · rw [catalogueFreed_of_recipe hclosed hr]
      exact ⟨fun hfree => by rw [hfree]; rfl, fun hused => by rw [if_pos hused]⟩
  · intro s req id
    have hdropped {page : Nat} (hgate : s.gate req 120 page 1 = (s, true)) (hbusy : s.cmdBusy 120 page 0x10C = true)
        (f : State → State) : (.next (s.modCommand req page f) : Host.Outcome State Fault Refusal) = .next (s.err 120 page 1) :=
      congrArg _ (State.modCommand_of_busy hgate hbusy f)
    exact ⟨fun hgate hbusy => ⟨hdropped hgate hbusy _, hdropped hgate hbusy _⟩,
      fun hgate hbusy => ⟨hdropped hgate hbusy _, hdropped hgate hbusy _⟩,
      fun hgate hbusy => ⟨hdropped hgate hbusy _, hdropped hgate hbusy _⟩⟩

end Sys2Proof.Machine
end

section
/-! PROOFS. The tables of the Sheaf: the commands that set, clear and amend them, feedback events, and updates applied on time and by
force (R219, R253, R255, R263 to R266). -/

namespace Sys2Proof.Machine

/-! ### The meaning that a command runs -/

section
variable (s : State) (req : Requester) {t : Nat}
@[simp] theorem exec_feedbackEvent (t : Nat) : exec (.feedbackEvent t) s = .next (feedbackEvent s t) := rfl
@[simp] theorem exec_sheafUpdateApply (t : Nat) : exec (.sheafUpdateApply t) s = .next (sheafUpdateApply s t) := rfl
@[simp] theorem exec_forcedApply (w : Nat) : exec (.forcedApply w) s = .next (forcedApply s w) := rfl

theorem exec_sheafTableSet (h : t < 64) : exec (.sheafTableSet req t) s = .next (sheafTableSet s req t) :=
  next_mod_of_lt h (sheafTableSet s req)

theorem exec_sheafTableClear (h : t < 64) : exec (.sheafTableClear req t) s = .next (sheafTableClear s req t) :=
  next_mod_of_lt h (sheafTableClear s req)

theorem exec_sheafTableAmend (h : t < 64) : exec (.sheafTableAmend req t) s = .next (sheafTableAmend s req t) :=
  next_mod_of_lt h (sheafTableAmend s req)
end

/-! ### SET, CLEAR and AMEND past the gate (R253, R255) -/

section
variable {s : State} {req : Requester} {t : Nat} {d : List Byte} (hgate : s.gate req 120 6 1 = (s, true))
  (hidle : s.cmdBusy 120 6 0x10C = false)
include hgate hidle

theorem sheafTableSet_of_idle {c : Nat} (hd : s.tableDesc (s.cmdAddr 6) = (c, d)) :
    sheafTableSet s req t = if c ≠ 0 then s.cmdDone 6 c t
      else if (s.table t).isSome then s.cmdDone 6 3 t else (s.setTable t { desc := d }).cmdDone 6 0 t := by
  simp only [sheafTableSet, State.modCommand_of_idle hgate hidle, hd]

theorem sheafTableClearAmend_of_unknown (hnone : s.table t = none) :
    sheafTableClear s req t = s.cmdDone 6 4 t ∧ sheafTableAmend s req t = s.cmdDone 6 4 t := by
  constructor
  · simp only [sheafTableClear, State.modCommand_of_idle hgate hidle, hnone]
  · simp only [sheafTableAmend, State.modCommand_of_idle hgate hidle, hnone]

section
variable {x : ShfTable} (hx : s.table t = some x)
include hx

theorem sheafTableClear_of_known : sheafTableClear s req t =
    if s.cis.plans.any (fun e => e.2.loaded.isSome && decide (e.1 ≠ stJob x.desc) && Config.planNamesTable e.2.image t) then
      s.cmdDone 6 5 t
    else (s.tableDrop t).cmdDone 6 0 t := by
  simp only [sheafTableClear, State.modCommand_of_idle hgate hidle, hx]

/-- An amendment takes effect at once where the table is read-only, and at its next apply boundary else. -/
theorem sheafTableAmend_of_checked (hd : s.tableDesc (s.cmdAddr 6) = (0, d)) :
    sheafTableAmend s req t = if amendSame x.desc d = false then s.cmdDone 6 2 t
      else if stRule x.desc = 0 then (s.setTable t { x with desc := d }).cmdDone 6 0 t
      else (s.setTable t { x with amended := some d }).cmdDone 6 0 t := by
  simp only [sheafTableAmend, State.modCommand_of_idle hgate hidle, hx, hd, ne_eq, not_true_eq_false, if_false, Bool.not_eq_true']
end
end

/-! ### FEEDBACK_EVENT (R263, R264, R266) -/

section
variable {s u : State} {t rid : Nat} {x : ShfTable} {r : Ring} {e : List Byte} (hx : s.table t = some x)
  (hrid : rid = fld x.desc 0x38 4 % 0x20000) (hr : Tbl.look s.nor.rings rid = some r) (hlive : bitAt (fld x.desc 0x38 4) 31 = true)
  (hkind : r.kind = 8) (hbind : r.bind = t) (hmore : r.cons < r.prod) (he : e = s.load .lpddr (r.addr r.cons) 64)
  (hu : u = (s.consume rid r).bumpWide (s.tableWh t) 28 2 0 1)
include hx hrid hr hlive hkind hbind hmore he hu

/-- The next event of a table's ring waits where it needs a new entry of a full merge buffer; else it is consumed, and merged where it
is good. -/
theorem feedbackEvent_of_next : feedbackEvent s t =
    if s.eventOk t x e = true ∧ Tbl.look s.shf.entries (entryKey t (fld e 0x10 8)) = none ∧ 65536 ≤ s.mergeFill (s.tableWh t) then s
    else if s.eventOk t x e then u.mergeEvent t x e else u.fbDrop (s.tableWh t) [7] := by
  subst hrid he hu
  simp only [feedbackEvent, hx, hr, hlive, hkind, hbind, Nat.not_le.2 hmore, Bool.not_true, bne_self_eq_false, decide_false, Bool.or_self,
    Bool.false_eq_true, if_false, Bool.and_eq_true, Option.isNone_iff_eq_none, decide_eq_true_eq, and_assoc]
end

/-! ### Updates applied (R265, R266) -/

section
variable {s : State} {t : Nat} {x : ShfTable} (hx : s.table t = some x)
include hx

theorem sheafUpdateApply_of_trained (hrule : stRule x.desc ≠ 0) : sheafUpdateApply s t =
    if s.strokeN % stPeriod x.desc ≠ 0 ∨ x.applied = some s.strokeN then s else s.applyTable t := by
  simp only [sheafUpdateApply, hx, hrule, false_or]

/-- An application takes an amendment in, notes the stroke, and then applies entry by entry. -/
theorem State.applyTable_of_known {u : State}
    (hu : u = s.setTable t { x with desc := x.amended.getD x.desc, amended := none, applied := some s.strokeN }) :
    s.applyTable t = (u.tableEntries t).foldl (fun s e => s.applyEntry t (x.amended.getD x.desc) e.1 e.2) u := by
  subst hu
  simp only [State.applyTable, hx]
end

/-- Settles O26: each table command has its checks in order, an event its place in the buffer, and an application its stroke. -/
theorem sheafTableCommandsTakeEffect : Obligations.SheafTableCommandsTakeEffect := by
  refine ⟨?_, ?_, ?_, ?_, ?_⟩
  · intro s req t d ht hgate hidle
    rw [exec_sheafTableSet s req ht, exec_sheafTableClear s req ht, exec_sheafTableAmend s req ht]
    refine ⟨fun c hd => ?_, fun hnone => ?_, fun x named hx hnamed => ?_, fun x hx hd => ?_⟩
    · rw [sheafTableSet_of_idle hgate hidle hd]
      refine ⟨fun hc => by rw [if_pos hc], fun hc hx => ?_, fun hc hfree => ?_⟩
      · rw [if_neg (not_not.2 hc), if_pos (Option.isSome_iff_ne_none.2 hx)]
      · rw [if_neg (not_not.2 hc), hfree]
        rfl
    · obtain ⟨hclear, hamend⟩ := sheafTableClearAmend_of_unknown (req := req) hgate hidle hnone
      exact ⟨congrArg _ hclear, congrArg _ hamend⟩
    · rw [sheafTableClear_of_known hgate hidle hx, ← hnamed]
      exact ⟨fun h => by rw [h]; rfl, fun h => by rw [if_pos h]⟩
    · rw [sheafTableAmend_of_checked hgate hidle hx hd]
      refine ⟨fun hdiff => by rw [if_pos hdiff], fun hsame hro => ?_, fun hsame htrained => ?_⟩
      · rw [if_neg (by simp [hsame]), if_pos hro]
      · rw [if_neg (by simp [hsame]), if_neg htrained]
  · intro s u t rid x r e hx hrid hr hlive hkind hbind hmore he hu
    rw [exec_feedbackEvent, feedbackEvent_of_next hx hrid hr hlive hkind hbind hmore he hu]
    refine ⟨fun hok hroom => ?_, fun hok hfull hnew => ?_, fun hbad => ?_⟩
    · have htaken : ¬(s.eventOk t x e = true ∧ Tbl.look s.shf.entries (entryKey t (fld e 0x10 8)) = none ∧
          65536 ≤ s.mergeFill (s.tableWh t)) :=
        fun ⟨_, hnew, hfull⟩ => hroom.elim (Nat.not_lt.2 hfull) (fun hold => hold hnew)
      rw [if_neg htaken, if_pos hok]
    · rw [if_pos ⟨hok, hnew, hfull⟩]
    · rw [if_neg (by simp [hbad]), if_neg (by simp [hbad])]
  · intro s t x hx hrule
    rw [exec_sheafUpdateApply, sheafUpdateApply_of_trained hx hrule]
    exact ⟨fun hdue hfirst => by rw [if_neg (by simp [hdue, hfirst])], fun hnot => by rw [if_pos hnot]⟩
  · intro s t x hx
    exact ⟨_, rfl, State.applyTable_of_known hx rfl⟩
  · intro s w
    rw [exec_forcedApply]
    exact ⟨fun hroom => congrArg _ (if_pos hroom), fun hfull => congrArg _ (if_neg (Nat.not_lt.2 hfull))⟩

end Sys2Proof.Machine
end

section
/-! PROOFS. The commands of the generation slots: OPEN, WRITE, SEAL, ACTIVATE, LOAD and DISCARD, and what a boundary and the last pin do
to a slot (R52, R219, R311, R314, R315). -/

namespace Sys2Proof.Machine

/-! ### The meaning that a command runs -/

section
variable (s : State) (req : Requester) {g : Nat} (h : g < 4)
include h

theorem exec_indexOpen : exec (.indexOpen req g) s = .next (indexOpen s req g) := next_mod_of_lt h (indexOpen s req)
theorem exec_indexWrite : exec (.indexWrite req g) s = .next (indexWrite s req g) := next_mod_of_lt h (indexWrite s req)
theorem exec_indexSeal : exec (.indexSeal req g) s = .next (indexSeal s req g) := next_mod_of_lt h (indexSeal s req)
theorem exec_indexActivate : exec (.indexActivate req g) s = .next (indexActivate s req g) := next_mod_of_lt h (indexActivate s req)
theorem exec_indexLoad : exec (.indexLoad req g) s = .next (indexLoad s req g) := next_mod_of_lt h (indexLoad s req)
theorem exec_indexDiscard : exec (.indexDiscard req g) s = .next (indexDiscard s req g) := next_mod_of_lt h (indexDiscard s req)
theorem exec_activationApply : exec (.activationApply g) s = .next (activationApply s g) := next_mod_of_lt h (activationApply s)
theorem exec_indexSlotFreed : exec (.indexSlotFreed g) s = .next (indexSlotFreed s g) := next_mod_of_lt h (indexSlotFreed s)
end

/-! ### What the end of a command leaves of slots and registers -/

section
variable (s : State)
@[simp] theorem State.gen_setRegN (die page off v i : Nat) : (s.setRegN die page off v).gen i = s.gen i := rfl
@[simp] theorem State.gen_event (die page i : Nat) (sqs errs : List Nat) : (s.event die page sqs errs).gen i = s.gen i := rfl
@[simp] theorem State.reg_event (die page d g off : Nat) (sqs errs : List Nat) :
    (s.event die page sqs errs).reg d g off = s.reg d g off := rfl
@[simp] theorem State.reg_setRegN (die page off v : Nat) : (s.setRegN die page off v).reg die page off = BitVec.ofNat 32 v :=
  s.reg_setReg die page off _

/-- A register written leaves the others of its page as they are. -/
theorem State.reg_setRegN_other {die page off o : Nat} (v : Nat) (h : o ≠ off) :
    (s.setRegN die page off v).reg die page o = s.reg die page o := by
  refine Tbl.val_set_other _ _ _ ?_
  simp only [regKey]
  omega

@[simp] theorem State.gen_idxDone (code g i : Nat) : (s.idxDone code g).gen i = s.gen i := by
  rw [State.idxDone, State.cmdDone, State.gen_event, State.setResult, State.gen_setRegN]

/-- The end of a command writes no register of the page but the result. -/
theorem State.reg_idxDone (code g : Nat) {o : Nat} (h : o ≠ 0x10C) : (s.idxDone code g).reg 120 8 o = s.reg 120 8 o := by
  rw [State.idxDone, State.cmdDone, State.reg_event, State.setResult, State.reg_setRegN_other s _ h]
end

/-! ### Commands past the gate (R311, R314, R315) -/

section
variable {s : State} {req : Requester} {g : Nat} {x : GenSlot} (hgate : s.gate req 120 8 1 = (s, true))
  (hidle : s.cmdBusy 120 8 0x10C = false)
include hgate hidle

theorem indexOpen_of_idle : indexOpen s req g = if s.openCheck g (s.cmdAddr 8) = 0 then
      (({ s with idx := { s.idx with openSerial := s.idx.openSerial + 1 } } : State).setGen g
        { state := .loading, hdr := s.load .lpddr (s.cmdAddr 8) 256, serial := s.idx.openSerial + 1 }).idxDone 0 g
    else s.idxDone (s.openCheck g (s.cmdAddr 8)) g := by
  simp only [indexOpen, State.modCommand_of_idle hgate hidle]
  rfl

theorem indexWrite_of_idle : indexWrite s req g =
    (s.indexWriteRun g (s.cmdAddr 8)).2.idxDone (s.indexWriteRun g (s.cmdAddr 8)).1 g := by
  simp only [indexWrite, State.modCommand_of_idle hgate hidle]

variable (hx : x = s.gen g)
include hx

/-! #### SEAL -/

theorem indexSeal_of_unloaded (hst : x.state ≠ .loading) : indexSeal s req g = s.idxDone 3 g := by
  subst hx
  simp only [indexSeal, State.modCommand_of_idle hgate hidle, hst, ne_eq, not_false_eq_true, if_true]

section
variable (hst : x.state = .loading)
include hst

theorem indexSeal_of_incomplete (hbad : x.lost = true ∨ x.ordNext ≠ (genGroups x.hdr).1 ∨ x.hubNext ≠ (genGroups x.hdr).2.1 ∨
    x.passNext ≠ (genGroups x.hdr).2.2 ∨ s.groupsGood x.hdr = false) : indexSeal s req g = s.idxDone 7 g := by
  subst hx
  simp only [indexSeal, State.modCommand_of_idle hgate hidle, hst, ne_eq, not_true_eq_false, if_false]
  rw [if_pos hbad]

/-- A complete slot is sealed: its extent table gets its header and crc, and the crc reads in a register (R297, R311). -/
theorem indexSeal_of_complete (hlost : x.lost = false) (hord : x.ordNext = (genGroups x.hdr).1)
    (hhub : x.hubNext = (genGroups x.hdr).2.1) (hpass : x.passNext = (genGroups x.hdr).2.2) (hgood : s.groupsGood x.hdr = true)
    {crc : Nat} (hcrc : crc = crc32c (extHeader x.hdr g x.serial ++ s.load .lpddr (genExt x.hdr + 64) (extBytes x.hdr - 64))) :
    indexSeal s req g =
      ((((((s.store .lpddr (genExt x.hdr) (withCrc (extHeader x.hdr g x.serial))).store .lpddr (genExt x.hdr)
        (leBytes 4 crc)).sealBlocks x.serial).setGen g { x with state := .sealed, extents := true, extCrc := crc }).setRegN
          120 8 0x110 crc).idxDone 0 g) := by
  subst hx hcrc
  simp only [indexSeal, State.modCommand_of_idle hgate hidle, hst, hlost, hord, hhub, hpass, hgood, ne_eq, not_true_eq_false,
    Bool.false_eq_true, Bool.true_eq_false, or_self, if_false]
end

/-! #### ACTIVATE and LOAD -/

theorem indexActivate_of_checked (hst : x.state = .sealed ∨ x.state = .retiring) (hext : x.extents = true)
    (hjob : s.indexJob (genJob x.hdr) = true) (hpq : s.pqOk x.hdr = true) :
    indexActivate s req g = (s.setGen g { x with pend := true }).setResult 120 8 0x10C 2 0 g := by
  subst hx
  have hguard : (!(decide ((s.gen g).state = .sealed) || decide ((s.gen g).state = .retiring)) || !(s.gen g).extents) = false := by
    rcases hst with hst | hst <;> simp [hst, hext]
  simp only [indexActivate, State.modCommand_of_idle hgate hidle, hguard, hjob, hpq, Bool.not_true, Bool.false_eq_true, if_false]

theorem indexLoad_of_checked (hst : x.state = .sealed ∨ x.state = .active ∨ x.state = .retiring) (hext : x.extents = false)
    (halign : s.cmdAddr 8 % 4096 = 0) (hin : s.inHost (s.cmdAddr 8) (extBytes x.hdr) = true)
    (hok : s.extOk g x (s.cmdAddr 8) = true) (hpq : s.pqOk x.hdr = true) :
    indexLoad s req g = (s.setGen g { x with
      extents := true, hdr := withCrc ((patch x.hdr 0x30 (leBytes 8 (s.cmdAddr 8))).drop 4) }).idxDone 0 g := by
  subst hx
  have hguard : (!(decide ((s.gen g).state = .sealed) || decide ((s.gen g).state = .active) || decide ((s.gen g).state = .retiring)) ||
      (s.gen g).extents) = false := by
    rcases hst with hst | hst | hst <;> simp [hst, hext]
  simp only [indexLoad, State.modCommand_of_idle hgate hidle, hguard, halign, hin, hok, hpq, ne_eq, not_true_eq_false, Bool.not_true,
    Bool.true_eq_false, Bool.false_eq_true, or_self, if_false]

/-! #### DISCARD -/

theorem indexDiscard_of_unpinned (hst : x.state = .loading ∨ x.state = .sealed ∨ (x.state = .retiring ∧ s.genPins g = 0)) :
    indexDiscard s req g = (s.freeGen g).idxDone 0 g := by
  subst hx
  rcases hst with hst | hst | ⟨hst, hpins⟩
  · simp only [indexDiscard, State.modCommand_of_idle hgate hidle, hst]
  · simp only [indexDiscard, State.modCommand_of_idle hgate hidle, hst]
  · simp only [indexDiscard, State.modCommand_of_idle hgate hidle, hst, hpins, if_true]

theorem indexDiscard_of_pinned (hst : x.state = .retiring) (hpins : s.genPins g ≠ 0) :
    indexDiscard s req g = (s.setGen g { x with state := .freeing, pend := false }).setResult 120 8 0x10C 2 0 g := by
  subst hx
  simp only [indexDiscard, State.modCommand_of_idle hgate hidle, hst, hpins, if_false]
end

/-! ### At the boundary, and when the last pin goes (R52, R314, R315) -/

section
variable {s u : State} {g : Nat}

/-- A slot that waits is activated once the ACTIVE slot of its job retires. -/
theorem activationApply_of_pending (hpend : (s.gen g).pend = true)
    (hu : u = (List.range 4).foldl (fun u i => if (u.gen i).state = .active ∧ genJob (u.gen i).hdr = genJob (s.gen g).hdr then
      u.setGen i { u.gen i with state := .retiring } else u) s) :
    activationApply s g =
      ((u.setGen g { s.gen g with state := .active, pend := false }).idxDone 0 g).event 120 8 [sqBit 0x118 2] [] := by
  subst hu
  simp only [activationApply, hpend, Bool.not_true, Bool.false_eq_true, if_false]

theorem indexSlotFreed_of_unpinned (hst : (s.gen g).state = .freeing) (hpins : s.genPins g = 0) :
    indexSlotFreed s g =
      if (s.freeGen g).cmdState 120 8 0x10C = 2 ∧ ((s.freeGen g).reg 120 8 0x10C).toNat % 4 = g then (s.freeGen g).idxDone 0 g
      else s.freeGen g :=
  if_pos ⟨hst, hpins⟩

theorem indexSlotFreed_of_kept (h : (s.gen g).state ≠ .freeing ∨ s.genPins g ≠ 0) : indexSlotFreed s g = s :=
  if_neg (not_and_or.2 h)
end

/-- Settles O32: each command has its lemma by the state of the slot; SEAL's register is not the one that its end writes. -/
theorem indexCommandsMoveGenerationSlots : Obligations.IndexCommandsMoveGenerationSlots := by
  refine ⟨?_, ?_, ?_⟩
  · intro s req g x hg hx hgate hidle
    rw [exec_indexOpen s req hg, exec_indexWrite s req hg, exec_indexSeal s req hg, exec_indexActivate s req hg,
      exec_indexLoad s req hg, exec_indexDiscard s req hg]
    refine ⟨fun hok => ⟨_, rfl, ?_⟩, fun hbad => ?_, fun r hr => ?_,
      fun hst => congrArg _ (indexSeal_of_unloaded hgate hidle hx hst),
      fun hst hbad => congrArg _ (indexSeal_of_incomplete hgate hidle hx hst hbad), ?_,
      fun hst hext hjob hpq => congrArg _ (indexActivate_of_checked hgate hidle hx hst hext hjob hpq),
      fun hst hext halign hin hok hpq => congrArg _ (indexLoad_of_checked hgate hidle hx hst hext halign hin hok hpq),
      fun hst => congrArg _ (indexDiscard_of_unpinned hgate hidle hx hst),
      fun hst hpins => congrArg _ (indexDiscard_of_pinned hgate hidle hx hst hpins)⟩
    · rw [indexOpen_of_idle hgate hidle, if_pos hok]
    · rw [indexOpen_of_idle hgate hidle, if_neg hbad]
    · rw [indexWrite_of_idle hgate hidle, hr]
    · intro hst hlost hord hhub hpass hgood crc hcrc
      refine ⟨_, congrArg _ (indexSeal_of_complete hgate hidle hx hst hlost hord hhub hpass hgood hcrc), ?_, ?_⟩
      · rw [State.gen_idxDone, State.gen_setRegN, State.gen_setGen]
      · rw [State.reg_idxDone _ _ _ (by decide), State.reg_setRegN]
  · intro s u g hg hpend hu
    rw [exec_activationApply s hg, activationApply_of_pending hpend hu]
  · intro s g hg
    rw [exec_indexSlotFreed s hg]
    refine ⟨fun hst hpins => ?_, fun hkept => congrArg _ (indexSlotFreed_of_kept hkept)⟩
    rw [indexSlotFreed_of_unpinned hst hpins]
    exact ⟨fun hother => congrArg _ (if_neg (not_and_or.2 hother)), fun hpending hsame => congrArg _ (if_pos ⟨hpending, hsame⟩)⟩

end Sys2Proof.Machine
end

section
/-! PROOFS. Plans and tiers: PLAN_STAGE, UNSTAGE and FLUSH, the host size, the end of a move, and a read of a page on flash (R219, R326,
R330, R338 to R341, R349, R351). -/

namespace Sys2Proof.Machine

/-! ### The meaning that a command runs -/

section
variable (s : State) (req : Requester) {job : Nat}
@[simp] theorem exec_cisHostWrite (v : Word) : exec (.cisHostWrite req v) s = .next (cisHostWrite s req v.toNat) := rfl
@[simp] theorem exec_moveComplete (job vpn : Nat) : exec (.moveComplete ⟨job, vpn⟩) s = .next (moveComplete s job vpn) := rfl
@[simp] theorem exec_flashPageRead (job va len : Nat) (bad : List Nat) :
    exec (.flashPageRead job va len bad) s = .next (flashPageRead s job va len bad) := rfl

theorem exec_planStage (h : job < 1024) : exec (.planStage req job) s = .next (planStage s req job) :=
  next_mod_of_lt h (planStage s req)

theorem exec_planUnstage (h : job < 1024) : exec (.planUnstage req job) s = .next (planUnstage s req job) :=
  next_mod_of_lt h (planUnstage s req)

theorem exec_planFlush (h : job < 1024) : exec (.planFlush req job) s = .next (planFlush s req job) :=
  next_mod_of_lt h (planFlush s req)
end

/-! ### Plans past the gate (R330) -/

section
variable {s : State} {req : Requester} {job : Nat} {p : Plan} (hgate : s.gate req 120 9 1 = (s, true))
  (hidle : s.cmdBusy 120 9 0x10C = false)
include hgate hidle

theorem planStage_of_checked {c : Nat} (hcheck : s.stageCheck job (s.cmdAddr 9) = (c, p)) :
    planStage s req job = (if c = 0 then (s.putPlan job p).fillStore job p else s).cmdDone 9 c job := by
  simp only [planStage, State.modCommand_of_idle hgate hidle, hcheck]
  by_cases hc : c = 0
  · rw [if_pos hc, if_pos hc, hc]
  · rw [if_neg hc, if_neg hc]

theorem planUnstageFlush_of_unstaged (hnone : s.plan job = none) :
    planUnstage s req job = s.cmdDone 9 6 job ∧ planFlush s req job = s.cmdDone 9 6 job := by
  constructor
  · simp only [planUnstage, State.modCommand_of_idle hgate hidle, hnone]
  · simp only [planFlush, State.modCommand_of_idle hgate hidle, hnone]

variable (hp : s.plan job = some p)
include hp

theorem planUnstage_of_staged :
    planUnstage s req job = if p.loaded.isSome then s.cmdDone 9 5 job else (s.dropPlan job).cmdDone 9 0 job := by
  simp only [planUnstage, State.modCommand_of_idle hgate hidle, hp]

theorem planFlush_of_staged :
    planFlush s req job = if s.wdl.readOnly then s.cmdDone 9 8 job else (s.flushJob job).cmdDone 9 0 job := by
  simp only [planFlush, State.modCommand_of_idle hgate hidle, hp]
end

/-! ### The host size (R326) -/

/-- A write of the host size past the gate takes effect where no job is loaded and the size is in range. -/
theorem cisHostWrite_of_pass {s : State} {req : Requester} (hgate : s.gate req 120 9 1 = (s, true)) (v : Nat) :
    cisHostWrite s req v = if s.noJobs = true ∧ 16 ≤ v % 4096 ∧ v % 4096 ≤ 3840 then
        { s with cis := { s.cis with hostGib := v % 4096 } }
      else s.err 120 9 2 := by
  rw [cisHostWrite, State.gated_of_pass hgate, State.cisHost]

/-! ### MOVE_COMPLETE (R338) -/

/-- The move that is found for a page is a move of that page. -/
theorem State.moveOf_page {s : State} {job vpn : Nat} {m : Move} (h : s.moveOf job vpn = some m) : m.job = job ∧ m.vpn = vpn := by
  simpa using List.find?_some h

/-- A move may be the next to end where its Wellhead has moves left in the stroke, and it waits on the Windlass or is the most urgent of
the others. -/
theorem State.moveNext_iff (s : State) (m : Move) : s.moveNext m = true ↔ Tbl.val 0 s.cis.ranMoves (m.job % 4) < 512 ∧
    (s.fromFlash m = true ∨
      minBy (fun m => m.kind) (s.cis.moves.filter (fun x => decide (x.job % 4 = m.job % 4) && !s.fromFlash x)) = some m) := by
  simp only [State.moveNext, Bool.and_eq_true, Bool.or_eq_true, decide_eq_true_eq]

section
variable {s : State} {job vpn : Nat} {m : Move} (hm : s.moveOf job vpn = some m)
include hm

/-- A move that may not be the next to end waits. -/
theorem moveComplete_of_waiting (hwait : ¬ s.moveNext m = true) : moveComplete s job vpn = s := by
  simp only [moveComplete, hm, Bool.eq_false_iff.2 hwait, if_true]

/-- One that may leaves the queue and is counted. -/
theorem moveComplete_of_next (hnext : s.moveNext m = true) {u : State}
    (hu : u = ({ s with cis := { s.cis with
      moves := s.cis.moves.filter (fun x => !(decide (x.job = job) && decide (x.vpn = vpn)))
      ranMoves := Tbl.set 0 s.cis.ranMoves (job % 4) (Tbl.val 0 s.cis.ranMoves (job % 4) + 1) } } : State)) :
    (∀ e, s.pte job vpn = some e → moveComplete s job vpn = if e.moving then u.runMove m else u) ∧
    (s.pte job vpn = none → moveComplete s job vpn = u) := by
  obtain ⟨rfl, rfl⟩ := State.moveOf_page hm
  have hpte : u.pte m.job m.vpn = s.pte m.job m.vpn := by rw [hu]; rfl
  refine ⟨fun e he => ?_, fun hnone => ?_⟩
  · rw [← hpte] at he
    simp only [moveComplete, hm, hnext, Bool.true_eq_false, if_false, ← hu, he]
  · rw [← hpte] at hnone
    simp only [moveComplete, hm, hnext, Bool.true_eq_false, if_false, ← hu, hnone]
end

/-! ### FLASH_PAGE_READ (R339, R348, R349, R351) -/

section
variable {s : State} {job va len : Nat} {bad : List Nat} {e : Pte} {n : Nat} {ls : List (Nat × Nat)}
  (he : s.pte job (va / tierPage) = some e) (htier : e.tier = 3) (hvalid : e.valid = true)
  (hn : n = min len (tierPage - va % tierPage)) (hls : ls = s.flashLps job (va / tierPage) (va % tierPage) n)
include he htier hvalid hn hls

/-- A read whose planes do not serve it waits (R349). -/
theorem flashPageRead_of_unserved (h : s.planesServe ls = false) : flashPageRead s job va len bad = s := by
  subst hn hls
  simp only [flashPageRead, he, htier, hvalid, h, or_true, if_true]

section
variable {u v : State} (hserve : s.planesServe ls = true)
  (hv : v = s.touch (8 + ((s.homeOf job (va / tierPage)).getD 0)) job (va / tierPage) false)
  (hu : u = ls.zipIdx.foldl (fun u l => u.readLogical (s.whOf (job % 4)) l.1.1 l.1.2 (badCopies bad l.2)) v)
include hserve hv hu

/-- Where a copy of each logical page reads, the bytes are answered. -/
theorem flashPageRead_of_good (hgood : ls.zipIdx.all (fun l => v.lpReads l.1.1 l.1.2 (badCopies bad l.2)) = true) :
    flashPageRead s job va len bad = u.answer (leNat (u.vaRead job va n)) := by
  subst hn hls hv hu
  simp only [flashPageRead, he, htier, hvalid, hserve, hgood, ne_eq, not_true_eq_false, Bool.true_eq_false, or_self, if_false, if_true]

variable (hgood : ls.zipIdx.all (fun l => v.lpReads l.1.1 l.1.2 (badCopies bad l.2)) = false)
include hgood

/-- Of an IMAGE page that does not read, the spec states no data. -/
theorem flashPageRead_of_image (hback : e.backing = 0) :
    flashPageRead s job va len bad = (u.drawBytes n).2.answer (leNat (u.drawBytes n).1) := by
  subst hn hls hv hu
  simp only [flashPageRead, he, htier, hvalid, hserve, hgood, hback, ne_eq, not_true_eq_false, Bool.true_eq_false, Bool.false_eq_true,
    or_self, if_false, if_true]

/-- A STORE or SCRATCH page that does not read is lost. -/
theorem flashPageRead_of_lost (hback : e.backing ≠ 0) {f : Pte} (hf : u.pte job (va / tierPage) = some f) :
    flashPageRead s job va len bad =
      ((u.setPte job (va / tierPage) { f with lost := true, dirty := 0 }).bump (s.whOf (job % 4)) 29 0x110 1).answer 0 := by
  subst hn hls hv hu
  simp only [flashPageRead, he, htier, hvalid, hserve, hgood, hback, hf, ne_eq, not_true_eq_false, Bool.true_eq_false,
    Bool.false_eq_true, or_self, if_false]
end
end

/-- Settles O34: each command of the page has its checks, a move its turn, and a read of flash its planes and its copies. -/
theorem planAndTierCommandsTakeEffect : Obligations.PlanAndTierCommandsTakeEffect := by
  refine ⟨?_, ?_, ?_, ?_⟩
  · intro s req job hjob hgate hidle
    rw [exec_planStage s req hjob, exec_planUnstage s req hjob, exec_planFlush s req hjob]
    refine ⟨fun c p hcheck => congrArg _ (planStage_of_checked hgate hidle hcheck), fun hnone => ?_, fun p hp => ?_⟩
    · obtain ⟨hunstage, hflush⟩ := planUnstageFlush_of_unstaged (req := req) hgate hidle hnone
      exact ⟨congrArg _ hunstage, congrArg _ hflush⟩
    · rw [planUnstage_of_staged hgate hidle hp, planFlush_of_staged hgate hidle hp]
      exact ⟨fun hfree => by rw [hfree]; rfl, fun hloaded => by rw [if_pos hloaded], fun hrw => by rw [hrw]; rfl,
        fun hro => by rw [if_pos hro]⟩
  · intro s req v hgate
    rw [exec_cisHostWrite, cisHostWrite_of_pass hgate]
    refine ⟨fun hno hlo hhi => by rw [if_pos ⟨hno, hlo, hhi⟩], fun hbad => ?_⟩
    have hout : ¬(s.noJobs = true ∧ 16 ≤ v.toNat % 4096 ∧ v.toNat % 4096 ≤ 3840) := by
      rintro ⟨hno, hlo, hhi⟩
      rcases hbad with h | h | h
      · simp [h] at hno
      · omega
      · omega
    rw [if_neg hout]
  · intro s u job vpn w ran m hm hw hran hu
    subst hw hran
    have hturn := s.moveNext_iff m
    rw [(State.moveOf_page hm).1] at hturn
    rw [exec_moveComplete]
    refine ⟨fun hroom hurgent => ?_, fun hwait => congrArg _ (moveComplete_of_waiting hm fun hnext => ?_)⟩
    · obtain ⟨hsome, hnone⟩ := moveComplete_of_next hm (hturn.2 ⟨hroom, hurgent⟩) hu
      refine ⟨fun e he hmoving => by rw [hsome e he, if_pos hmoving], fun hstill => ?_⟩
      cases he : s.pte job vpn with
      | none => rw [hnone he]
      | some e => rw [hsome e he, hstill e he]; rfl
    · obtain ⟨hroom, hurgent⟩ := hturn.1 hnext
      rcases hwait with hfull | ⟨hslow, hother⟩
      · omega
      · exact hurgent.elim (by simp [hslow]) hother
  · intro s u v job va len n bad e ls good he htier hvalid hn hls hv hgood hu
    subst hgood
    refine ⟨fun h => congrArg _ (flashPageRead_of_unserved he htier hvalid hn hls h), fun hserve => ⟨fun hg => ?_, fun hg hback => ?_,
      fun f hg hback hf => ?_⟩⟩
    · exact congrArg _ (flashPageRead_of_good he htier hvalid hn hls hserve hv hu hg)
    · exact congrArg _ (flashPageRead_of_image he htier hvalid hn hls hserve hv hu hg hback)
    · exact congrArg _ (flashPageRead_of_lost he htier hvalid hn hls hserve hv hu hg hback hf)

end Sys2Proof.Machine
end

section
/-! PROOFS. The Quern: what a lane does with the next descriptor of its work ring, and how a slot's next delivered token becomes records
(R241, R245, R247, R249, R251, R499). -/

namespace Sys2Proof.Machine

@[simp] theorem exec_tokenise (s : State) (l : Nat) : exec (.tokenise l) s = .next (tokenise s l) := rfl
@[simp] theorem exec_detokenise (s : State) (n tok : Nat) : exec (.detokenise n tok) s = .next (detokenise s n tok) := rfl

/-! ### A lane's next descriptor (R245, R247) -/

section
variable {s : State} {l : Nat}

theorem State.laneRun_of_empty (hempty : s.lane l = []) : s.laneRun l = (s, none) := by
  simp only [State.laneRun, hempty]

variable {u : State} {d : List Byte} {rest : List (List Byte)} (hlane : s.lane l = d :: rest)
  (hu : u = ({ s with qrn := { s.qrn with lanes := Tbl.set [] s.qrn.lanes l rest } } : State))
include hlane hu

/-- A descriptor that passes runs with the table it names and refuses nothing. -/
theorem State.laneRun_of_passed {tab : CatImg} (hpass : u.qrnCheck d = 0) (htab : Tbl.look s.cat.tok (fld d 6 1) = some tab) :
    s.laneRun l = (((u.runTokenise l d tab.bytes).advanceFld (fld d 0x24 4) 1).qrnWaiters, none) := by
  subst hu
  simp only [State.laneRun, hlane, hpass, htab, if_true, Option.map_some, Option.getD_some]

/-- One that fails a check is answered with its code, and the lane answers it as refused. -/
theorem State.laneRun_of_failed (hfail : u.qrnCheck d ≠ 0) :
    s.laneRun l = (((u.refuseTokenise l d (u.qrnCheck d)).advanceFld (fld d 0x24 4) 1).qrnWaiters, some d) := by
  subst hu
  simp only [State.laneRun, hlane, hfail, if_false]
end

/-! ### What a refusal costs the core that issued it (R247, R499) -/

section
variable {s v : State} {l : Nat}

theorem tokenise_of_unrefused (hrun : s.laneRun l = (v, none)) : tokenise s l = v := by
  simp only [tokenise, hrun]

/-- The core fails where the request and the core are live, and a request that still wants its tokens issues again. -/
theorem tokenise_of_refused {d : List Byte} (hrun : s.laneRun l = (v, some d)) {n core : Nat} (hn : n = fld d 8 4)
    (hcore : core = v.coreOf (v.slot n).core) {w : State}
    (hw : w = if (v.slot n).live && v.coreLive core then v.coreFail core else v) :
    tokenise s l =
      if (w.slot n).live && !(w.slot n).tokDone && decide ((w.slot n).state ≠ .admitted) then w.qrnIssue n else w := by
  subst hn hcore hw
  simp only [tokenise, hrun]
end

/-! ### A slot's next token (R249 to R251) -/

/-- A token is counted at one of the four lanes of the slot's Wellhead: the time it takes, the token, and its substitutions. -/
theorem State.detokCount_lane (s : State) (n tok subs : Nat) (g : List Byte) : ∃ lane < 4, s.detokCount n tok subs g =
    ((s.drawWord.2.bumpWide (s.whOf (slotWh n)) 10 3 lane (max 1 (ceilDiv (renderTok g tok).length 16))).bumpWide
      (s.whOf (slotWh n)) 10 4 lane 1).bumpWide (s.whOf (slotWh n)) 10 5 lane subs :=
  ⟨s.drawWord.1.toNat % 4, Nat.mod_lt _ (by decide), rfl⟩

theorem State.detokCount_req (s : State) (n tok subs : Nat) (g : List Byte) : (s.detokCount n tok subs g).req = s.req := rfl

theorem State.detokCount_mem (s : State) (n tok subs : Nat) (g : List Byte) : (s.detokCount n tok subs g).mem = s.mem := rfl

section
variable {s : State} {n seq tok : Nat} {last : Bool} {rest : List (Nat × Nat × Bool)}
  (hnext : (s.slot n).detok = (seq, tok, last) :: rest)
include hnext

/-- The next token is taken off and counted, and what its bytes release goes out as records. -/
theorem detokenise_of_next {fin : Bool} (hfin : fin = (last || ((s.slot n).doneCode.isSome && rest.isEmpty)))
    {r : List Byte × List Byte × Nat} (hr : r = detokStep (s.tokOf (s.slot n)) (s.slot n).heldBytes tok fin) :
    detokenise s n tok = (tokRecords seq tok fin r.1).foldl (fun s rec => s.pushRec n rec)
      ((s.detokCount n tok r.2.2 (s.tokOf (s.slot n))).setSlot n { s.slot n with
        detok := rest, heldBytes := r.2.1, lastTok := some (seq, tok, (tokRecords seq tok fin r.1).length) }) := by
  subst hfin hr
  simp only [detokenise, hnext, ne_eq, not_true_eq_false, if_false]

theorem detokenise_of_other {tok' : Nat} (hother : tok' ≠ tok) : detokenise s n tok' = s := by
  simp only [detokenise, hnext, ne_eq, hother.symm, not_false_eq_true, if_true]
end

/-- Settles O20: the check of the next descriptor chooses between a run and a refusal; the lane that counts a token is the one drawn. -/
theorem quernCommandsTakeEffect : Obligations.QuernCommandsTakeEffect := by
  refine ⟨?_, ?_, ?_⟩
  · intro s u l d rest hlane hu
    rw [exec_tokenise]
    refine ⟨fun tab hpass htab => congrArg _ (tokenise_of_unrefused (State.laneRun_of_passed hlane hu hpass htab)), ?_⟩
    intro c n core v w hc hcheck hv hn hcore hw
    subst hcheck hv
    exact congrArg _ (tokenise_of_refused (State.laneRun_of_failed hlane hu hc) hn hcore hw)
  · intro s l hempty
    rw [exec_tokenise, tokenise_of_unrefused (State.laneRun_of_empty hempty)]
  · intro s n seq tok last rest hnext
    refine ⟨fun r fin hfin hr => ?_, fun tok' hother => ?_⟩
    · obtain ⟨lane, hlane, hcount⟩ := s.detokCount_lane n tok r.2.2 (s.tokOf (s.slot n))
      refine ⟨_, lane, s.detokCount n tok r.2.2 (s.tokOf (s.slot n)), rfl, hlane, s.detokCount_req .., s.detokCount_mem .., hcount, ?_⟩
      rw [exec_detokenise, detokenise_of_next hnext hfin hr]
    · rw [exec_detokenise, detokenise_of_other hnext hother]

end Sys2Proof.Machine
end

section
/-! PROOFS. The Sheaf's own commands: what GATHER, GATHER_SUM, SCATTER, PREFETCH and SHEAF_END do with the next descriptor
(R256 to R258, R260, R262). -/

namespace Sys2Proof.Machine

/-! ### The meaning that a command runs -/

section
variable (s : State) (die : Nat)
@[simp] theorem exec_gather (fed : GatherFeed) :
    exec (.gather die fed) s = .next (gather s die fed.bytes fed.job fed.bad) := rfl
@[simp] theorem exec_gatherSum (fed : GatherFeed) :
    exec (.gatherSum die fed) s = .next (gatherSum s die fed.bytes fed.job fed.bad) := rfl
@[simp] theorem exec_scatter (fed : SheafFeed) : exec (.scatter die fed) s = .next (scatter s die fed.bytes fed.job) := rfl
@[simp] theorem exec_prefetch (fed : GatherFeed) :
    exec (.prefetch die fed) s = .next (prefetch s die fed.bytes fed.job fed.bad) := rfl
@[simp] theorem exec_sheafEnd (fed : List Byte) : exec (.sheafEnd die fed) s = .next (sheafEnd s die fed) := rfl
end

/-! ### The next descriptor, by its op (R256, R260) -/

section
variable {s u : State} {die a sent job : Nat} {fed d : List Byte} (hnext : s.sheafNext die fed = some (a, d))
  (hu : u = s.sheafTook die a d)
include hnext hu

section
variable (hjob : job = s.sheafJob die sent) {ops : Nat → Bool} (hop : ops (sdOp d) = true)
  (f : State → Nat → List Byte → List Byte → State)
include hjob hop

/-- The operation runs after the list has moved on, with the job and the table that the checks were made for. -/
theorem State.sheafRun_of_passed {x : ShfTable} (hpass : s.sdCheck job d = 0) (hx : u.table (sdTable d) = some x) :
    s.sheafRun die sent fed ops f = f u job d x.desc := by
  subst hjob hu
  simp only [State.sheafRun, hnext, hop, hpass, hx, Bool.not_true, Bool.false_eq_true, if_false]

/-- A failed check refuses whatever the operation is, with the table registered or not. -/
theorem State.sheafRun_of_failed {c : Nat} (hc : c ≠ 0) (hfail : s.sdCheck job d = c) :
    s.sheafRun die sent fed ops f = u.refuseSheaf die job a d c := by
  subst hjob hu
  simp only [State.sheafRun, hnext, hop, hfail, Bool.not_true, Bool.false_eq_true, if_false]
  split
  next => exact absurd rfl hc
  next => rfl
end

/-- END is checked for job 0, and stops the list whether or not it is refused first. -/
theorem sheafEnd_of_next (hop : sdOp d = 4) {v : State}
    (hv : v = if s.sdCheck 0 d = 0 then u else u.refuseSheaf die 0 a d (s.sdCheck 0 d)) :
    sheafEnd s die fed = { v with shf := { v.shf with lists := Tbl.del v.shf.lists die } } := by
  subst hu hv
  simp only [sheafEnd, hnext, hop, ne_eq, not_true_eq_false, if_false]

/-! ### PREFETCH (R262) -/

section
variable (hjob : job = s.sheafJob die sent) (hop : sdOp d = 3) (hpass : s.sdCheck job d = 0) {x : ShfTable}
  (hx : u.table (sdTable d) = some x) (bad : List Nat)
include hjob hop hpass hx

/-- A PREFETCH gathers, and is late where a batch list was written for its job in an earlier stroke. -/
theorem prefetch_of_passed : prefetch s die fed sent bad =
    if (Tbl.look u.shf.batch job).any (fun n => decide (n < u.strokeN)) = true then
      ((u.runGather die job bad d x.desc).bump die 28 0x10C 1).event die 28 [sqBit 0x118 1] []
    else u.runGather die job bad d x.desc := by
  rw [prefetch, State.sheafRun_of_passed hnext hu hjob (by rw [hop]; rfl) _ hpass hx]
  cases Tbl.look u.shf.batch job <;> rfl

theorem prefetch_of_onTime (hbatch : ∀ n, Tbl.look u.shf.batch job = some n → u.strokeN ≤ n) :
    prefetch s die fed sent bad = u.runGather die job bad d x.desc := by
  rw [prefetch_of_passed hnext hu hjob hop hpass hx, if_neg]
  simpa [Option.any_eq_true] using hbatch

theorem prefetch_of_late {n : Nat} (hbatch : Tbl.look u.shf.batch job = some n) (hlate : n < u.strokeN) :
    prefetch s die fed sent bad =
      ((u.runGather die job bad d x.desc).bump die 28 0x10C 1).event die 28 [sqBit 0x118 1] [] := by
  rw [prefetch_of_passed hnext hu hjob hop hpass hx, hbatch, if_pos (by simpa using hlate)]
end
end

/-- Settles O27: each command takes the descriptor whose op is its own, and the check's code chooses between its run and a refusal. -/
theorem sheafDescriptorsRun : Obligations.SheafDescriptorsRun := by
  intro s u die a sent job fed d bad hnext hjob hu
  refine ⟨fun x hpass hx => ⟨fun hop => ?_, fun hop => ?_, fun hop => ?_, fun hop hbatch => ?_, fun n hop hbatch hlate => ?_⟩,
    fun c hc hfail => ⟨fun hop => ?_, fun hop => ?_, fun hop => ?_, fun hop => ?_⟩, fun hop v hv => ?_⟩
  · rw [exec_gather, gather, State.sheafRun_of_passed hnext hu hjob (by rw [hop]; rfl) _ hpass hx]
  · rw [exec_gatherSum, gatherSum, State.sheafRun_of_passed hnext hu hjob (by rw [hop]; rfl) _ hpass hx]
  · rw [exec_scatter, scatter, State.sheafRun_of_passed hnext hu hjob (by rw [hop]; rfl) _ hpass hx]
  · rw [exec_prefetch, prefetch_of_onTime hnext hu hjob hop hpass hx bad hbatch]
  · rw [exec_prefetch, prefetch_of_late hnext hu hjob hop hpass hx bad hbatch hlate]
  · rw [exec_gather, gather, State.sheafRun_of_failed hnext hu hjob (by simpa using hop) _ hc hfail]
  · rw [exec_gatherSum, gatherSum, State.sheafRun_of_failed hnext hu hjob (by rw [hop]; rfl) _ hc hfail]
  · rw [exec_scatter, scatter, State.sheafRun_of_failed hnext hu hjob (by rw [hop]; rfl) _ hc hfail]
  · rw [exec_prefetch, prefetch, State.sheafRun_of_failed hnext hu hjob (by rw [hop]; rfl) _ hc hfail]
  · rw [exec_sheafEnd, sheafEnd_of_next hnext hu hop hv]

end Sys2Proof.Machine
end

section
/-! PROOFS. The runs of the packer, and the bounds that each of them keeps (R272, R282). -/

namespace Sys2Proof.Machine

/-! ### The packer's runs (R282) -/

/-- The packer may take a candidate: it has room for a passage more, of this document too, and the key is neither NaN nor below
min_score. -/
structure PackEligible (r : List Byte) (sel : List (Cand × Nat)) (c : Cand) : Prop where
  room : sel.length ≠ fld r 0x13 1
  key : fLt c.key (fld r 0x2C 4) = false ∧ fIsNaN c.key = false
  doc : 0 < fld r 0x1C 1 → (sel.filter (fun e => e.1.doc = c.doc)).length ≠ fld r 0x1C 1

/-- What the packer can do with the candidates left, what it has selected and the tokens still free: it stops, passes a candidate
over, packs it whole, or cuts it and stops. -/
inductive PackRun (r : List Byte) : List Cand → List (Cand × Nat) → Nat → List (Cand × Nat) × Bool → Prop
  | stop (cs sel avail) : PackRun r cs sel avail (sel, false)
  | skip (c) {cs sel avail out} (rest : PackRun r cs sel avail out) : PackRun r (c :: cs) sel avail out
  | whole {c cs sel avail out} (take : PackEligible r sel c) (fits : c.tokens.length + (rcpPass r - 1) ≤ avail)
      (rest : PackRun r cs (sel ++ [(c, c.tokens.length)]) (avail - (c.tokens.length + (rcpPass r - 1))) out) :
      PackRun r (c :: cs) sel avail out
  | cut {c cs sel avail} (take : PackEligible r sel c) (long : avail < c.tokens.length + (rcpPass r - 1))
      (fits : rcpPass r - 1 ≤ avail) : PackRun r (c :: cs) sel avail (sel ++ [(c, avail - (rcpPass r - 1))], true)

/-- The packer's answer is that of one of its runs. -/
theorem packGo_run (r : List Byte) (cs : List Cand) (sel : List (Cand × Nat)) (avail : Nat) :
    PackRun r cs sel avail (packGo r cs sel avail) := by
  induction cs generalizing sel avail with
  | nil => exact .stop _ _ _
  | cons c cs ih =>
    rw [packGo]
    split
    next => exact .stop _ _ _
    next hstop =>
      simp only [not_or, Bool.not_eq_true] at hstop
      obtain ⟨hroom, hkey⟩ := hstop
      split
      next => exact .skip c (ih _ _)
      next hdoc =>
        have take : PackEligible r sel c := ⟨hroom, hkey, not_and.1 hdoc⟩
        split
        next hfits => exact .whole take hfits (ih _ _)
        next hlong =>
          split
          next => exact .skip c (ih _ _)
          next =>
            split
            next hcut => exact .cut take (Nat.lt_of_not_le hlong) (by omega)
            next => exact .stop _ _ _

section
variable {r : List Byte} {cs : List Cand} {sel : List (Cand × Nat)} {avail : Nat} {out : List (Cand × Nat) × Bool}

/-- The order of the candidates is kept: what is selected joins what was selected before. -/
theorem PackRun.sublist (h : PackRun r cs sel avail out) : (out.1.map Prod.fst).Sublist (sel.map Prod.fst ++ cs) := by
  induction h with
  | stop => exact List.sublist_append_left _ _
  | skip c _ ih => exact ih.trans ((List.sublist_cons_self c _).append_left _)
  | whole _ _ _ ih => simpa using ih
  | cut => simp

theorem PackRun.length_le (h : PackRun r cs sel avail out) (hsel : sel.length ≤ fld r 0x13 1) : out.1.length ≤ fld r 0x13 1 := by
  induction h with
  | stop => exact hsel
  | skip _ _ ih => exact ih hsel
  | whole take _ _ ih => exact ih (by simpa using Nat.lt_of_le_of_ne hsel take.room)
  | cut take => simpa using Nat.lt_of_le_of_ne hsel take.room

/-- A passage more leaves its document, and every other, within per_doc_max. -/
theorem PackEligible.doc_length_le {c : Cand} (take : PackEligible r sel c) (hmax : 0 < fld r 0x1C 1) (n : Nat)
    (hsel : ∀ doc, (sel.filter (fun e => e.1.doc = doc)).length ≤ fld r 0x1C 1) (doc : Nat) :
    ((sel ++ [(c, n)]).filter (fun e => e.1.doc = doc)).length ≤ fld r 0x1C 1 := by
  by_cases hdoc : c.doc = doc
  · subst hdoc
    simpa using Nat.lt_of_le_of_ne (hsel c.doc) (take.doc hmax)
  · simpa [hdoc] using hsel doc

theorem PackRun.doc_length_le (h : PackRun r cs sel avail out) (hmax : 0 < fld r 0x1C 1)
    (hsel : ∀ doc, (sel.filter (fun e => e.1.doc = doc)).length ≤ fld r 0x1C 1) (doc : Nat) :
    (out.1.filter (fun e => e.1.doc = doc)).length ≤ fld r 0x1C 1 := by
  induction h with
  | stop => exact hsel doc
  | skip _ _ ih => exact ih hsel
  | whole take _ _ ih => exact ih (take.doc_length_le hmax _ hsel)
  | cut take => exact take.doc_length_le hmax _ hsel doc

/-- The tokens packed, with the overhead of each passage, come out of the tokens that were free. -/
theorem PackRun.sum_le (h : PackRun r cs sel avail out) :
    (out.1.map (fun e => e.2 + (rcpPass r - 1))).sum ≤ (sel.map (fun e => e.2 + (rcpPass r - 1))).sum + avail := by
  induction h with
  | stop => exact Nat.le_add_right _ _
  | skip _ _ ih => exact ih
  | whole _ fits _ ih =>
    simp only [List.map_append, List.map_singleton, List.sum_append, List.sum_singleton] at ih
    omega
  | cut _ _ fits =>
    simp only [List.map_append, List.map_singleton, List.sum_append, List.sum_singleton]
    omega

/-- A selected passage has no more tokens packed than it holds, and a key that min_score admits. -/
def PackSound (r : List Byte) (e : Cand × Nat) : Prop :=
  e.2 ≤ e.1.tokens.length ∧ fLt e.1.key (fld r 0x2C 4) = false ∧ fIsNaN e.1.key = false

theorem PackRun.sound (h : PackRun r cs sel avail out) (hsel : ∀ e ∈ sel, PackSound r e) : ∀ e ∈ out.1, PackSound r e := by
  induction h with
  | stop => exact hsel
  | skip _ _ ih => exact ih hsel
  | whole take _ _ ih => exact ih (List.forall_mem_append.2 ⟨hsel, List.forall_mem_singleton.2 ⟨le_rfl, take.key⟩⟩)
  | cut take long =>
    exact List.forall_mem_append.2 ⟨hsel, List.forall_mem_singleton.2 ⟨Nat.sub_le_of_le_add long.le, take.key⟩⟩

/-- All that is packed before a cut passage is packed whole. -/
theorem PackRun.whole_of_uncut (h : PackRun r cs sel avail out) (hsel : ∀ e ∈ sel, e.2 = e.1.tokens.length) :
    ∀ e ∈ (if out.2 then out.1.dropLast else out.1), e.2 = e.1.tokens.length := by
  induction h with
  | stop => exact hsel
  | skip _ _ ih => exact ih hsel
  | whole _ _ _ ih => exact ih (List.forall_mem_append.2 ⟨hsel, List.forall_mem_singleton.2 rfl⟩)
  | cut => simpa using hsel
end

/-- Settles O29: the packer makes one of its runs from an empty selection, and each bound is kept along a run. -/
theorem packerStaysWithinItsBudget : Obligations.PackerStaysWithinItsBudget := by
  intro r cs avail sel cut hgo
  have run : PackRun r cs [] avail (sel, cut) := hgo ▸ packGo_run r cs [] avail
  exact ⟨run.sublist, run.length_le (Nat.zero_le _), fun hmax => run.doc_length_le hmax (fun _ => Nat.zero_le _),
    by simpa using run.sum_le, run.sound (List.forall_mem_nil _), run.whole_of_uncut (List.forall_mem_nil _)⟩

end Sys2Proof.Machine
end

section
/-! PROOFS. The stages of FRONT: what FRONT_ENCODE, SEARCH_CALL, FRONT_CANDIDATES, FRONT_RERANK and FRONT_PACK do with a request at their stage (R275, R277
to R283, R305). -/

namespace Sys2Proof.Machine

/-! ### The meaning that a command runs -/

section
variable (s : State) (n : Nat)
@[simp] theorem exec_frontEncode (vec : List Byte) : exec (.frontEncode n vec) s = .next (frontEncode s n vec) := rfl
@[simp] theorem exec_searchCall : exec (.searchCall n) s = .next (searchCall s n) := rfl
@[simp] theorem exec_frontCandidates (unreadable : List Nat) :
    exec (.frontCandidates n unreadable) s = .next (frontCandidates s n unreadable) := rfl
@[simp] theorem exec_frontRerank (unreadable : List Nat) :
    exec (.frontRerank n unreadable) s = .next (frontRerank s n unreadable) := rfl
@[simp] theorem exec_frontPack : exec (.frontPack n) s = .next (frontPack s n) := rfl
end

/-! ### A call to the Sounder (R278, R305) -/

section
variable {s v : State}

theorem State.genPad_congr (hgens : v.idx.gens = s.idx.gens) (hcis : v.cis = s.cis) (g : Nat) : v.genPad g = s.genPad g := by
  simp only [State.genPad, State.job, State.plan, State.gen, hgens, hcis]

theorem State.search_congr (hsearches : v.idx.searches = s.idx.searches) : v.search = s.search := by
  funext i
  rw [State.search, State.search, hsearches]

theorem State.searchSlots_congr (hboot : v.boot = s.boot) : v.searchSlots = s.searchSlots := by
  rw [State.searchSlots, State.searchSlots, State.isS, State.isS, hboot]

theorem State.paddock_congr (hpad : v.pad = s.pad) (p : Nat) : v.paddock p = s.paddock p := by
  rw [State.paddock, State.paddock, hpad]

theorem State.sounderUse_congr (hsearches : v.idx.searches = s.idx.searches) (hpad : ∀ g, v.genPad g = s.genPad g) (pad : Nat) :
    v.sounderUse pad = s.sounderUse pad := by
  rw [State.sounderUse, State.sounderUse, hsearches]
  exact congrArg List.length (List.filter_congr fun e _ => by rw [hpad])
end

/-- The search that a call of slot `n`, with generation slot `g` pinned, asks for. -/
def State.calledSearch (s : State) (n g : Nat) : Search :=
  { slot := n, order := s.idx.nextCall, gen := g, l := fld (s.rcpOf (s.slot n)) 0x10 2, beam := fld (s.rcpOf (s.slot n)) 0x12 1
    out := fld (s.rcpOf (s.slot n)) 0x14 2, vec := (s.slot n).queryVec }

/-- A call is made where its slice has a free search slot and the quota of its paddock is not used up. -/
theorem State.callGo_of_room {s : State} {n g pad : Nat} (hgen : (s.slot n).genSlot = some g) (hpad : s.genPad g = some pad)
    (hfree : ∃ i < s.searchSlots, s.search (8192 * slotWh n + i) = none) (hquota : s.sounderUse pad < (s.paddock pad).sounder) :
    ∃ k u, s.callGo n = (u, true) ∧ u.idx.waiting = s.idx.waiting ∧ u.slot n = { s.slot n with search := some k, frontStage := 3 } ∧
      u.search k = some (s.calledSearch n g) := by
  obtain ⟨j, hj, hnone⟩ := hfree
  obtain ⟨i, hi⟩ : ∃ i, (List.range s.searchSlots).find? (fun i => (s.search (8192 * slotWh n + i)).isNone) = some i :=
    Option.isSome_iff_exists.1 (List.find?_isSome.2 ⟨j, List.mem_range.2 hj, by rw [hnone]; rfl⟩)
  simp only [State.callGo, hgen, hpad, hi, if_neg (Nat.not_le.2 hquota)]
  refine ⟨8192 * slotWh n + i, _, rfl, ?_⟩
  split <;> exact ⟨rfl, State.slot_setSlot _ _ _, Tbl.look_put_same _ _ _⟩

/-- The only call that waits, once made, leaves none waiting. -/
theorem State.callsGo_of_single {s u : State} {n : Nat} (hwait : s.idx.waiting = [n]) (hst : (s.slot n).state = .front)
    (hstage : (s.slot n).frontStage = 2) (hgo : s.callGo n = (u, true)) :
    s.callsGo = { u with idx := { u.idx with waiting := u.idx.waiting.erase n } } := by
  simp only [State.callsGo, hwait, List.foldl_cons, List.foldl_nil, hst, hstage, hgo, ne_eq, not_true_eq_false, or_self, if_false,
    if_true]

/-- The input of service 3 becomes its query vector, and the request stays in FRONT with its generation pinned. -/
theorem calledSlot_eq {x y : Slot} (hst : x.state = .front) (hy : y = (if descService x.desc = 3 ∧ x.frontStage = 0 then
    { x with queryVec := x.input, frontStage := 2 } else x)) : y.state = .front ∧ y.genSlot = x.genSlot := by
  subst hy
  split <;> exact ⟨hst, rfl⟩

section
variable {s : State} {n : Nat} {x y : Slot} {g : Nat} (hst : x.state = .front)
  (hy : y = (if descService x.desc = 3 ∧ x.frontStage = 0 then { x with queryVec := x.input, frontStage := 2 } else x))
  (hstage : y.frontStage = 2) (hgen : y.genSlot = some g)
include hst hy hstage hgen

/-- A call joins those that wait, and the calls that find their place are made. -/
theorem searchCall_of_ready (hx : s.slot n = x) (hext : (s.gen g).extents = true) (hnew : s.idx.waiting.contains n = false)
    {u : State} (hu : u = s.setSlot n y) :
    searchCall s n = ({ u with idx := { u.idx with waiting := u.idx.waiting ++ [n] } } : State).callsGo := by
  obtain ⟨hyst, hygen⟩ := calledSlot_eq hst hy
  subst hu
  simp only [searchCall, hx, ← hy, hyst, hstage, hgen, hext, hnew, ne_eq, not_true_eq_false, Bool.true_eq_false, Bool.false_eq_true,
    or_self, if_false]

/-- The only call that waits is made where there is room for it. -/
theorem State.callsGo_of_room {pad : Nat} (hwait : s.idx.waiting = []) (hpad : s.genPad g = some pad)
    (hfree : ∃ i < s.searchSlots, s.search (8192 * slotWh n + i) = none) (hquota : s.sounderUse pad < (s.paddock pad).sounder)
    {u : State} (hu : u = s.setSlot n y) :
    ∃ (t : State) (k : Nat) (q : Search), ({ u with idx := { u.idx with waiting := u.idx.waiting ++ [n] } } : State).callsGo = t ∧
      t.idx.waiting = [] ∧ (t.slot n).search = some k ∧ (t.slot n).frontStage = 3 ∧ t.search k = some q ∧ q.slot = n ∧ q.gen = g ∧
      q.vec = y.queryVec := by
  obtain ⟨v, hv⟩ : ∃ v : State, v = { u with idx := { u.idx with waiting := u.idx.waiting ++ [n] } } := ⟨_, rfl⟩
  have hvslot : v.slot n = y := by subst hv hu; exact State.slot_setSlot _ _ _
  have hvwait : v.idx.waiting = [n] := by simp only [hv, hu, State.setSlot_idx, hwait, List.nil_append]
  have hsearches : v.idx.searches = s.idx.searches := by simp only [hv, hu, State.setSlot_idx]
  have hboot : v.boot = s.boot := by simp only [hv, hu, State.setSlot_boot]
  have hpads : v.pad = s.pad := by simp only [hv, hu, State.setSlot_pad]
  have hgenPad : ∀ g, v.genPad g = s.genPad g := State.genPad_congr (by simp only [hv, hu, State.setSlot_idx])
    (by simp only [hv, hu, State.setSlot_cis])
  obtain ⟨k, t, hgo, htwait, htslot, htsearch⟩ := State.callGo_of_room (s := v) (hvslot ▸ hgen) (pad := pad)
    (by rwa [hgenPad])
    (by rwa [State.searchSlots_congr hboot, State.search_congr hsearches])
    (by rwa [State.sounderUse_congr hsearches hgenPad, State.paddock_congr hpads])
  rw [← hv, State.callsGo_of_single hvwait (hvslot ▸ (calledSlot_eq hst hy).1) (hvslot ▸ hstage) hgo]
  refine ⟨_, k, v.calledSearch n g, rfl, ?_, congrArg Slot.search htslot, congrArg Slot.frontStage htslot, htsearch, rfl, rfl,
    congrArg Slot.queryVec hvslot⟩
  simp only [htwait, hvwait, List.erase_cons_head]
end

/-! ### The other stages (R275, R277, R279 to R283) -/

section
variable {s : State} {n : Nat} {x : Slot} {r : List Byte} (hx : s.slot n = x) (hst : x.state = .front) (hr : s.rcpOf x = r)
include hx hst hr

section
variable (hstage : x.frontStage = 0) (htok : x.tokDone = true) (hserv : descService x.desc ≤ 2)
include hstage htok hserv

theorem frontEncode_of_good (himage : descKind x.desc ≠ 3 ∨ s.imageOk x r = true) (hbatch : s.inBatch (encJob x r) n = true)
    {vec : List Byte} (hdim : vec.length = s.pinDim x) :
    frontEncode s n vec = s.setSlot n { x with queryVec := vec, frontStage := 2 } := by
  have hgood : ¬(descKind x.desc = 3 ∧ s.imageOk x r = false) := by rcases himage with h | h <;> simp [h]
  simp only [frontEncode, hx, hst, hr, hstage, htok, Nat.not_lt.2 hserv, hgood, hbatch, hdim, ne_eq, not_true_eq_false,
    Bool.true_eq_false, or_self, if_false]

theorem frontEncode_of_bad_image (hkind : descKind x.desc = 3) (hbad : s.imageOk x r = false) (vec : List Byte) :
    frontEncode s n vec = (s.setSlot n { x with frontStage := 5, cands := [], returned := 0 }).event 120 7 [sqBit 0x118 2] [2] := by
  simp only [frontEncode, hx, hst, hr, hstage, htok, Nat.not_lt.2 hserv, hkind, hbad, ne_eq, not_true_eq_false,
    Bool.true_eq_false, or_self, and_self, if_false, if_true]
end

theorem frontCandidates_of_done {unreadable : List Nat} {i : Nat} {q : Search} {got : List (Option (Nat × Cand))} {cs : List Cand}
    {lost : Nat} (hstage : x.frontStage = 3) (hserv : descService x.desc ≤ 2) (hdone : s.searchDone x = some (i, q))
    (hgot : got = q.res.zipIdx.map (fun e => if unreadable.contains e.2 then none else s.candOf (s.gen q.gen).hdr e.1))
    (hlost : lost = (got.filter Option.isNone).length)
    (hcs : cs = (dedupCands [] (got.filterMap id)).map (fun c => { c with fused := s.fuse r x.question c })) :
    frontCandidates s n unreadable = ((s.frontGathers (s.whOf (slotWh n)) r x.question cs).setSlot n { x with
      cands := cs, returned := q.res.length, frontStage := if cs.isEmpty then 5 else 4, search := none, skipped := q.skipped + lost
      degraded := x.degraded || decide (0 < q.skipped + lost) }).freeSearch i := by
  subst hgot hlost hcs
  simp only [frontCandidates, hx, hst, hr, hstage, hdone, Nat.not_lt.2 hserv, ne_eq, not_true_eq_false, or_self, if_false]

theorem frontRerank_of_batch {top order kept : List Cand} {image : List Byte} {unreadable : List Nat} (hstage : x.frontStage = 4)
    (hjob : rcpReranker r ≠ 0) (hbatch : s.inBatch (rcpReranker r) n = true)
    (htop : top = (finalOrder x.cands).take (rcpRerankN r)) (himage : image = s.planImageOf (rcpReranker r))
    (horder : order = finalOrder (giveScores (finalOrder x.cands) (top.map (fun c => Config.planScore image (rerankSeq r x.question c)))))
    (hkept : kept = (order.zipIdx.filter (fun e => !unreadable.contains e.2)).map Prod.fst) :
    frontRerank s n unreadable = s.setSlot n { x with
      cands := kept, reranked := top.map Cand.pid, frontStage := 5, skipped := x.skipped + (order.length - kept.length)
      degraded := x.degraded || decide (kept.length < order.length) } := by
  subst htop himage horder hkept
  simp only [frontRerank, toRerank, hx, hst, hr, hstage, hjob, hbatch, ne_eq, not_true_eq_false, Bool.true_eq_false, or_self, if_false]

section
variable (hnew : x.frontJournaled = false)
include hnew

theorem frontPack_of_ordered {sel : List (Cand × Nat) × Bool} {ps : List (Cand × Nat)} {prompt : List Nat} {y : Slot}
    (hserv : descService x.desc ≠ 3) (hstage : x.frontStage = 5 ∨ (x.frontStage = 4 ∧ rcpReranker r = 0))
    (hsel : sel = packGo r (finalOrder x.cands) [] (packAvail r x.desc x.question.length)) (hps : ps = promptOrder r sel.1 sel.2)
    (hprompt : prompt = assemble r x.question (ps.map (fun e => e.1.tokens.take e.2)))
    (hy : y = { x with
      promptTokens := prompt, frontIds := ps.map (fun e => e.1.pid), frontJournaled := true
      mapRecs := mapOf n x r ps sel.2 prompt.length }) :
    frontPack s n = ((s.setSlot n y).frontRecord n prompt.length (ps.map (fun e => e.1.pid))).frontCounts y sel.2 := by
  subst hsel hps hprompt hy
  simp only [frontPack, hx, hst, hr, hnew, hserv, hstage, ne_eq, not_true_eq_false, Bool.false_eq_true, or_self, if_false, if_true]
end
end

/-- The slot of a service 3 request whose search `q` has answered (R278): the first 64 results, with no prompt. -/
def State.packedSearch (s : State) (n : Nat) (x : Slot) (q : Search) : Slot :=
  let y := { x with
    search := none, skipped := q.skipped, degraded := x.degraded || decide (0 < q.skipped), returned := q.res.length
    frontIds := (q.res.take 64).map SRes.pid, frontJournaled := true }
  { y with mapRecs := s.vecMap n y (q.res.take 64) }

theorem frontPack_of_search {s : State} {n : Nat} {x : Slot} {i : Nat} {q : Search} (hx : s.slot n = x) (hst : x.state = .front)
    (hnew : x.frontJournaled = false) (hserv : descService x.desc = 3) (hstage : x.frontStage = 3) (hdone : s.searchDone x = some (i, q))
    {f : State} (hf : f = { s with freeCount := s.freeCount + (q.res.take 64).length }) {y : Slot} (hy : y = s.packedSearch n x q) :
    frontPack s n = (((f.setSlot n y).frontRecord n 0 y.frontIds).frontCounts y false).freeSearch i := by
  subst hf hy
  simp only [frontPack, hx, hst, hnew, hserv, hstage, hdone, ne_eq, not_true_eq_false, Bool.false_eq_true, or_self, if_false, if_true,
    State.packedSearch]

/-- Settles O28: each command finds its request at its own stage, so none of its guards holds and its run is the stated one. -/
theorem frontStagesFollowOneAnother : Obligations.FrontStagesFollowOneAnother := by
  intro s n x r hx hst hr
  refine ⟨fun vec hstage htok hserv => ⟨fun himage hbatch hdim => ?_, fun hkind hbad => ?_⟩,
    fun y g u hy hstage hgen hext hnew hu => ?_, fun unreadable i q got cs lost hstage hserv hdone hgot hlost hcs => ?_,
    fun top order kept image unreadable hstage hjob hbatch htop himage horder hkept => ?_,
    fun sel ps prompt y hnew hserv hstage hsel hps hprompt hy => ?_, fun i q hnew hserv hstage hdone => ?_⟩
  · rw [exec_frontEncode, frontEncode_of_good hx hst hr hstage htok hserv himage hbatch hdim]
  · rw [exec_frontEncode, frontEncode_of_bad_image hx hst hr hstage htok hserv hkind hbad]
  · rw [exec_searchCall, searchCall_of_ready hst hy hstage hgen hx hext hnew hu]
    refine ⟨rfl, fun pad hwait hpad hfree hquota => ?_⟩
    obtain ⟨t, k, q, hgo, hmade⟩ := State.callsGo_of_room hst hy hstage hgen hwait hpad hfree hquota hu
    exact ⟨t, k, q, congrArg _ hgo, hmade⟩
  · rw [exec_frontCandidates, frontCandidates_of_done hx hst hr hstage hserv hdone hgot hlost hcs]
  · rw [exec_frontRerank, frontRerank_of_batch hx hst hr hstage hjob hbatch htop himage horder hkept]
  · rw [exec_frontPack, frontPack_of_ordered hx hst hr hnew hserv hstage hsel hps hprompt hy]
  · refine ⟨s.packedSearch n x q, { s with freeCount := s.freeCount + (q.res.take 64).length },
      rfl, rfl, rfl, rfl, rfl, rfl, hst, rfl, ?_⟩
    rw [exec_frontPack, frontPack_of_search hx hst hnew hserv hstage hdone rfl rfl]

end Sys2Proof.Machine
end

section
/-! PROOFS. What ACTIVATION_APPLY leaves of a job's generation slots: the one it activates is ACTIVE, and no other (R314, R315). -/

namespace Sys2Proof.Machine

/-! ### The ACTIVE slots of a job retire -/

/-- A generation slot once the ACTIVE slots of job `j` have become RETIRING. -/
def GenSlot.retiredFor (j : Nat) (x : GenSlot) : GenSlot :=
  if x.state = .active ∧ genJob x.hdr = j then { x with state := .retiring } else x

/-- One turn of `State.retireGens`: slot `i` retires if it is job `j`'s ACTIVE one. -/
def State.retireGen (j : Nat) (s : State) (i : Nat) : State :=
  if (s.gen i).state = .active ∧ genJob (s.gen i).hdr = j then s.setGen i { s.gen i with state := .retiring } else s

section
variable (j : Nat)

theorem GenSlot.retiredFor_not_active {x : GenSlot} (hst : (x.retiredFor j).state = .active) : genJob (x.retiredFor j).hdr ≠ j := by
  unfold GenSlot.retiredFor at hst ⊢
  split at hst
  case isTrue => cases hst
  case isFalse hother =>
    rw [if_neg hother]
    exact fun hjob => hother ⟨hst, hjob⟩

theorem GenSlot.retiredFor_of_other_job {x : GenSlot} (h : genJob x.hdr ≠ j) : x.retiredFor j = x :=
  if_neg fun ⟨_, hjob⟩ => h hjob

@[simp] theorem GenSlot.retiredFor_retiredFor (x : GenSlot) : (x.retiredFor j).retiredFor j = x.retiredFor j :=
  if_neg fun ⟨hst, hjob⟩ => GenSlot.retiredFor_not_active j hst hjob

variable (s : State)

theorem State.gen_retireGen (i k : Nat) : (s.retireGen j i).gen k = if k = i then (s.gen k).retiredFor j else s.gen k := by
  unfold State.retireGen GenSlot.retiredFor
  by_cases hk : k = i
  · subst hk
    rw [if_pos rfl]
    split
    · exact s.gen_setGen k _
    · rfl
  · rw [if_neg hk]
    split
    · exact s.gen_setGen_other _ hk
    · rfl

/-- Whatever slots have their turn, each of them retires and the others stay. -/
theorem State.gen_foldl_retireGen (is : List Nat) (k : Nat) :
    (is.foldl (State.retireGen j) s).gen k = if k ∈ is then (s.gen k).retiredFor j else s.gen k := by
  induction is generalizing s with
  | nil => rfl
  | cons i is ih =>
    rw [List.foldl_cons, ih, State.gen_retireGen]
    by_cases hk : k = i
    · rw [if_pos hk, GenSlot.retiredFor_retiredFor, ite_self, if_pos (List.mem_cons.2 (.inl hk))]
    · simp only [List.mem_cons, hk, false_or, if_false]

theorem State.gen_retireGens (k : Nat) : (s.retireGens j).gen k = if k < 4 then (s.gen k).retiredFor j else s.gen k := by
  have hfold : s.retireGens j = (List.range 4).foldl (State.retireGen j) s := rfl
  simp only [hfold, State.gen_foldl_retireGen, List.mem_range]
end

/-! ### The slots after an activation -/

section
variable {s : State} {g : Nat} (hpend : (s.gen g).pend = true)
include hpend

theorem activationApply_gen_self : (activationApply s g).gen g = { s.gen g with state := .active, pend := false } := by
  rw [activationApply_of_pending hpend rfl, State.gen_event, State.gen_idxDone, State.gen_setGen]

theorem activationApply_gen_other {i : Nat} (hi : i ≠ g) :
    (activationApply s g).gen i = (s.retireGens (genJob (s.gen g).hdr)).gen i := by
  rw [activationApply_of_pending hpend (u := s.retireGens (genJob (s.gen g).hdr)) rfl, State.gen_event, State.gen_idxDone,
    State.gen_setGen_other _ _ hi]
end

/-- Settles O33: every other slot is as the retirement of its job's ACTIVE slots leaves it. -/
theorem activationLeavesOneActiveSlotPerJob : Obligations.ActivationLeavesOneActiveSlotPerJob := by
  intro s g hg hpend
  have hself := activationApply_gen_self hpend
  refine ⟨activationApply s g, exec_activationApply s hg, by rw [hself], by rw [hself], by rw [hself], ?_, ?_⟩
  · intro i hi hother
    rw [activationApply_gen_other hpend hother, State.gen_retireGens, if_pos hi]
    exact GenSlot.retiredFor_not_active _
  · intro i hother hjob
    rw [activationApply_gen_other hpend hother, State.gen_retireGens, GenSlot.retiredFor_of_other_job _ hjob, ite_self]

end Sys2Proof.Machine
end

section
/-! PROOFS. The walk of a search: SEARCH_BUILD, SEARCH_ROUND, the reads at a plane and in a hub window, and SEARCH_ABORT (R300, R303 to
R310, R349). -/

namespace Sys2Proof.Machine

/-! ### The meaning that a command runs -/

section
variable (s : State) (i : Nat)
@[simp] theorem exec_searchBuild : exec (.searchBuild i) s = .next (searchBuild s i) := rfl
@[simp] theorem exec_searchRound : exec (.searchRound i) s = .next (searchRound s i) := rfl
@[simp] theorem exec_nodeRead (j : Nat) (unc : Bool) : exec (.nodeRead i j unc) s = .next (nodeRead s i j unc) := rfl
@[simp] theorem exec_hubWindowClose (well page : Nat) (unc : Bool) :
    exec (.hubWindowClose well page unc) s = .next (hubWindowClose s well page unc) := rfl
@[simp] theorem exec_searchAbort : exec (.searchAbort i) s = .next (searchAbort s i) := rfl
end

/-! ### Building a walk and its rounds (R300, R303, R306) -/

/-- The entry points of a generation (R292). -/
def entryPoints (h : List Byte) : List Nat := (List.range (fld h 0xF 1)).map (fun j => fld h (0x40 + 8 * j) 8)

/-- An entry point seen and put into the queue with its score (R303). -/
def State.enterPoint (s : State) (h : List Byte) (x : Search) (e : Nat) : Search :=
  { x with seen := if x.seen.contains (nbNode e) then x.seen else nbNode e :: x.seen
           q := insEnt { node := nbNode e, hub := nbHub e, score := s.pq h x.vec (nbNode e), read := false } x.q }

/-- A walk once the results of its round are in and their neighbours seen, and how many of these were scored (R303). -/
def State.roundSeen (s : State) (x : Search) : Search × Nat :=
  (x.picks.flatMap (fun p => if p.absent then [] else p.nbr)).foldl
    (seeNeighbour (s.pq (s.gen x.gen).hdr (x.picks.foldl applyPick x).vec)) (x.picks.foldl applyPick x, 0)

section
variable {s : State} {i : Nat} {x : Search} (hx : s.search i = some x)
include hx

theorem searchBuild_of_earliest (hst : x.state = .queued)
    (hfirst : ∀ e ∈ s.idx.searches, s.searchWh e.1 = s.searchWh i → e.2.state = .queued → x.order ≤ e.2.order)
    (hfree : s.tableFree (s.searchWh i) (genM (s.gen x.gen).hdr) = true) :
    searchBuild s i = (s.sndCount i 3 (entryPoints (s.gen x.gen).hdr).length).pickRound i
      { (entryPoints (s.gen x.gen).hdr).foldl (s.enterPoint (s.gen x.gen).hdr) x with state := .walk } := by
  have hnone : s.idx.searches.any (fun e => decide (s.searchWh e.1 = s.searchWh i) && decide (e.2.state = .queued) &&
      decide (e.2.order < x.order)) = false := by
    simp only [List.any_eq_false, Bool.and_eq_true, decide_eq_true_eq]
    exact fun e he ⟨⟨hwh, hqueued⟩, hlt⟩ => Nat.not_lt.2 (hfirst e he hwh hqueued) hlt
  simp only [searchBuild, hx, hst, hnone, hfree, ne_eq, not_true_eq_false, Bool.false_eq_true, Bool.true_eq_false, or_self, if_false]
  rfl

theorem searchRound_of_answered (hst : x.state = .walk) (hall : x.picks.all (fun p => p.answered) = true) :
    searchRound s i = (s.sndCount i 3 (s.roundSeen x).2).pickRound i
      { (s.roundSeen x).1 with q := (s.roundSeen x).1.q.take (x.picks.foldl applyPick x).l } := by
  simp only [searchRound, hx, hst, hall, ne_eq, not_true_eq_false, Bool.true_eq_false, or_self, if_false]
  rfl

theorem searchRound_of_open (hopen : x.picks.all (fun p => p.answered) = false) : searchRound s i = s := by
  simp only [searchRound, hx, hopen, or_true, if_true]

/-! ### Ending a search (R306) -/

theorem searchAbort_of_waiting (hfront : (s.slot x.slot).state = .front) (hsearch : (s.slot x.slot).search = some i) :
    searchAbort s i = s := by
  simp only [searchAbort, hx, hfront, hsearch, and_self, if_true]

/-- The request has left its search: what happens depends on the search's state alone. -/
theorem searchAbort_of_left (hleft : (s.slot x.slot).state ≠ .front ∨ (s.slot x.slot).search ≠ some i) :
    searchAbort s i = if x.state = .walk then (s.setSearch i { x with state := .abort }).abortDone i
      else if x.state = .abort then s.abortDone i else s.freeSearch i := by
  simp only [searchAbort, hx, if_neg (not_and_or.2 hleft)]
end

/-! ### Reads at a plane and in a hub window (R307, R309, R349) -/

section
variable {s : State} {rd : NRead}

theorem State.nextAtPlane_eq_true (hhead : (s.planeReads rd.plane).head? = some rd) (hheld : (s.plane rd.plane).held = false) :
    s.nextAtPlane rd = true := by
  simp only [State.nextAtPlane, hhead, hheld, decide_true, Bool.not_false, Bool.and_self]

theorem State.nextAtPlane_eq_false (h : (s.planeReads rd.plane).head? ≠ some rd ∨ (s.plane rd.plane).held = true) :
    s.nextAtPlane rd = false := by
  rcases h with hhead | hheld
  · simp only [State.nextAtPlane, hhead, decide_false, Bool.false_and]
  · simp only [State.nextAtPlane, hheld, Bool.not_true, Bool.and_false]

variable {unc : Bool}

section
variable {i j : Nat} (hfind : s.idx.nreads.find? (fun r => decide (r.search = i) && decide (r.pick = j)) = some rd)
include hfind

theorem nodeRead_of_next (hnext : s.nextAtPlane rd = true) :
    nodeRead s i j unc = ((s.walkerPage rd unc).1.answerRead rd (s.walkerPage rd unc).2).settlePlanes := by
  simp only [nodeRead, hfind, hnext, Bool.true_eq_false, if_false]

theorem nodeRead_of_waiting (hwait : s.nextAtPlane rd = false) : nodeRead s i j unc = s := by
  simp only [nodeRead, hfind, hwait, if_true]
end

/-- The reads that the next hub window of a page answers, in order of arrival (R309). -/
def State.hubWindow (s : State) (well page : Nat) : List NRead :=
  (s.idx.nreads.filter (fun r => decide (r.well = well) && decide (r.hubPage = some page))).take 256

variable {well page : Nat}

theorem hubWindowClose_of_empty (hnone : s.hubWindow well page = []) : hubWindowClose s well page unc = s := by
  unfold State.hubWindow at hnone
  simp only [hubWindowClose, hnone]

section
variable {t : List NRead} (hwindow : s.hubWindow well page = rd :: t)
include hwindow

theorem hubWindowClose_of_served (hserves : s.planeServes rd.plane = true) :
    hubWindowClose s well page unc =
      ((rd :: t).foldl (fun u e => u.answerRead e (s.walkerPage rd unc).2) (s.walkerPage rd unc).1).settlePlanes := by
  unfold State.hubWindow at hwindow
  simp only [hubWindowClose, hwindow, hserves, Bool.true_eq_false, if_false]

theorem hubWindowClose_of_busy (hbusy : s.planeServes rd.plane = false) : hubWindowClose s well page unc = s := by
  unfold State.hubWindow at hwindow
  simp only [hubWindowClose, hwindow, hbusy, if_true]
end
end

/-- Settles O30: the state of the search, the place of a read at its plane and the window's reads each choose a command's branch. -/
theorem searchCommandsWalkTheGraph : Obligations.SearchCommandsWalkTheGraph := by
  refine ⟨?_, ?_, ?_, ?_, ?_⟩
  · intro s i x h hx hst hh hfirst hfree
    subst hh
    exact ⟨entryPoints (s.gen x.gen).hdr, _, rfl, rfl, congrArg _ (searchBuild_of_earliest hx hst hfirst hfree)⟩
  · intro s i x r hx hst
    refine ⟨fun hall hr => ?_, fun hopen => congrArg _ (searchRound_of_open hx hopen)⟩
    subst hr
    exact congrArg _ (searchRound_of_answered hx hst hall)
  · intro s i j rd unc hfind
    refine ⟨fun hhead hheld r hr => ?_, fun hwait => congrArg _ (nodeRead_of_waiting hfind (State.nextAtPlane_eq_false hwait))⟩
    subst hr
    exact congrArg _ (nodeRead_of_next hfind (State.nextAtPlane_eq_true hhead hheld))
  · intro s well page unc l hl
    refine ⟨fun rd t r hcons hserves hr => ?_, ?_⟩
    · subst hr
      rw [exec_hubWindowClose, hubWindowClose_of_served (hl.symm.trans hcons) hserves, hcons]
    · rintro (hnone | ⟨rd, t, hcons, hbusy⟩)
      · exact congrArg _ (hubWindowClose_of_empty (hl.symm.trans hnone))
      · exact congrArg _ (hubWindowClose_of_busy (hl.symm.trans hcons) hbusy)
  · intro s i x hx
    refine ⟨fun hfront hsearch => congrArg _ (searchAbort_of_waiting hx hfront hsearch), fun hleft => ?_⟩
    rw [exec_searchAbort, searchAbort_of_left hx hleft]
    refine ⟨?_, fun hwalk => by rw [if_pos hwalk], fun habort => by simp only [habort, reduceCtorEq, if_false, if_true]⟩
    rintro (hqueued | hdone)
    · simp only [hqueued, reduceCtorEq, if_false]
    · simp only [hdone, reduceCtorEq, if_false]

end Sys2Proof.Machine
end

section
/-! PROOFS. The memory's canonical form, at reset and over a step: each command keeps it, by the lemma of its own meaning (R326, R444). -/

namespace Sys2Proof.Machine

/-- Every command answers a next state, with the memory in its canonical form. -/
theorem exec_memOk : ∀ (c : Instr) (s : State), s.memOk → ∃ t, exec c s = .next t ∧ t.memOk
  | .doorbellWrite .., _, h => ⟨_, rfl, doorbellWrite_memOk (h0 := h) ..⟩
  | .submit .., _, h => ⟨_, rfl, submit_memOk (h0 := h) ..⟩
  | .cancel .., _, h => ⟨_, rfl, cancel_memOk (h0 := h) ..⟩
  | .admitDurable .., _, h => ⟨_, rfl, admitDurable_memOk (h0 := h) ..⟩
  | .frontDurable .., _, h => ⟨_, rfl, frontDurable_memOk (h0 := h) ..⟩
  | .citationMapPost .., _, h => ⟨_, rfl, citationMapPost_memOk (h0 := h) ..⟩
  | .prefillComplete .., _, h => ⟨_, rfl, prefillComplete_memOk (h0 := h) ..⟩
  | .doneDurable .., _, h => ⟨_, rfl, doneDurable_memOk (h0 := h) ..⟩
  | .journalProgrammed .., _, h => ⟨_, rfl, journalProgrammed_memOk (h0 := h) ..⟩
  | .dedupExpiry .., _, h => ⟨_, rfl, dedupExpiry_memOk (h0 := h) ..⟩
  | .journalRetentionExpiry .., _, h => ⟨_, rfl, journalRetentionExpiry_memOk (h0 := h) ..⟩
  | .deadlineExpiry .., _, h => ⟨_, rfl, deadlineExpiry_memOk (h0 := h) ..⟩
  | .strokeBoundary .., _, h => ⟨_, rfl, strokeBoundary_memOk (h0 := h) ..⟩
  | .compositionCut, _, h => ⟨_, rfl, compositionCut_memOk (h0 := h) ..⟩
  | .batchListWrite, _, h => ⟨_, rfl, batchListWrite_memOk (h0 := h) ..⟩
  | .decodeStepEnd .., _, h => ⟨_, rfl, decodeStepEnd_memOk (h0 := h) ..⟩
  | .shareLookup .., _, h => ⟨_, rfl, shareLookup_memOk (h0 := h) ..⟩
  | .pageWaitPark .., _, h => ⟨_, rfl, pageWaitPark_memOk (h0 := h) ..⟩
  | .park .., _, h => ⟨_, rfl, park_memOk (h0 := h) ..⟩
  | .replayCatchUp .., _, h => ⟨_, rfl, replayCatchUp_memOk (h0 := h) ..⟩
  | .egressGrant .., _, h => ⟨_, rfl, egressGrant_memOk (h0 := h) ..⟩
  | .calendarPass .., _, h => ⟨_, rfl, calendarPass_memOk (h0 := h) ..⟩
  | .telemetrySample .., _, h => ⟨_, rfl, telemetrySample_memOk (h0 := h) ..⟩
  | .heatHalving, _, h => ⟨_, rfl, heatHalving_memOk (h0 := h) ..⟩
  | .loadJob .., _, h => ⟨_, rfl, State.cmdNow_memOk (h0 := h) ..⟩
  | .removeJob .., _, h => ⟨_, rfl, State.cmdNow_memOk (h0 := h) ..⟩
  | .setWheel .., _, h => ⟨_, rfl, State.cmdNow_memOk (h0 := h) ..⟩
  | .drain .., _, h => ⟨_, rfl, State.cmdNow_memOk (h0 := h) ..⟩
  | .resume .., _, h => ⟨_, rfl, State.cmdNow_memOk (h0 := h) ..⟩
  | .resize .., _, h => ⟨_, rfl, State.cmdNow_memOk (h0 := h) ..⟩
  | .retireTiller .., _, h => ⟨_, rfl, State.cmdNow_memOk (h0 := h) ..⟩
  | .readmitTiller .., _, h => ⟨_, rfl, State.cmdNow_memOk (h0 := h) ..⟩
  | .replanBoundary .., _, h => ⟨_, rfl, replanBoundary_memOk (h0 := h) ..⟩
  | .tillerFault .., _, h => ⟨_, rfl, tillerFault_memOk (h0 := h) ..⟩
  | .sparePromotion .., _, h => ⟨_, rfl, sparePromotion_memOk (h0 := h) ..⟩
  | .quarantineEnd .., _, h => ⟨_, rfl, quarantineEnd_memOk (h0 := h) ..⟩
  | .tileProduct .., _, h => ⟨_, rfl, tileProduct_memOk (h0 := h) ..⟩
  | .tilePrepass .., _, h => ⟨_, rfl, tilePrepass_memOk (h0 := h) ..⟩
  | .tileEnd .., _, h => ⟨_, rfl, tileEnd_memOk (h0 := h) ..⟩
  | .splitSecondPass .., _, h => ⟨_, rfl, splitSecondPass_memOk (h0 := h) ..⟩
  | .tileDrain .., _, h => ⟨_, rfl, tileDrain_memOk (h0 := h) ..⟩
  | .epilogueDrain .., _, h => ⟨_, rfl, epilogueDrain_memOk (h0 := h) ..⟩
  | .deferredDrain .., _, h => ⟨_, rfl, deferredDrain_memOk (h0 := h) ..⟩
  | .partialApply .., _, h => ⟨_, rfl, partialApply_memOk (h0 := h) ..⟩
  | .addFinish .., _, h => ⟨_, rfl, addFinish_memOk (h0 := h) ..⟩
  | .fabricWrite .., _, h => ⟨_, rfl, fabricWrite_memOk (h0 := h) ..⟩
  | .fabricReadReq .., _, h => ⟨_, rfl, fabricReadReq_memOk (h0 := h) ..⟩
  | .fabricReadResp .., _, h => ⟨_, rfl, fabricReadResp_memOk (h0 := h) ..⟩
  | .fabricPartial .., _, h => ⟨_, rfl, fabricPartial_memOk (h0 := h) ..⟩
  | .ctrOp .., _, h => ⟨_, rfl, ctrOpPacket_memOk (h0 := h) ..⟩
  | .ctrResp .., _, h => ⟨_, rfl, ctrResp_memOk (h0 := h) ..⟩
  | .regReq .., _, h => ⟨_, rfl, regReq_memOk (h0 := h) ..⟩
  | .regResp .., _, h => ⟨_, rfl, regResp_memOk (h0 := h) ..⟩
  | .linkRetry .., _, h => ⟨_, rfl, linkRetry_memOk (h0 := h) ..⟩
  | .routeSwitch .., _, h => ⟨_, rfl, routeSwitch_memOk (h0 := h) ..⟩
  | .routerFailure .., _, h => ⟨_, rfl, routerFailure_memOk (h0 := h) ..⟩
  | .select .., _, h => ⟨_, rfl, winSelect_memOk (h0 := h) ..⟩
  | .sample .., _, h => ⟨_, rfl, winSample_memOk (h0 := h) ..⟩
  | .winnowEnd .., _, h => ⟨_, rfl, winnowEnd_memOk (h0 := h) ..⟩
  | .maskFetch .., _, h => ⟨_, rfl, maskFetch_memOk (h0 := h) ..⟩
  | .grammarRegister .., _, h => ⟨_, rfl, grammarRegister_memOk (h0 := h) ..⟩
  | .grammarUnregister .., _, h => ⟨_, rfl, grammarUnregister_memOk (h0 := h) ..⟩
  | .catalogueFreed .., _, h => ⟨_, rfl, catalogueFreed_memOk (h0 := h) ..⟩
  | .catalogueGraceExpiry .., _, h => ⟨_, rfl, catalogueGraceExpiry_memOk (h0 := h) ..⟩
  | .tokenizerRegister .., _, h => ⟨_, rfl, tokenizerRegister_memOk (h0 := h) ..⟩
  | .tokenizerUnregister .., _, h => ⟨_, rfl, tokenizerUnregister_memOk (h0 := h) ..⟩
  | .tokenise .., _, h => ⟨_, rfl, tokenise_memOk (h0 := h) ..⟩
  | .detokenise .., _, h => ⟨_, rfl, detokenise_memOk (h0 := h) ..⟩
  | .sheafTableSet .., _, h => ⟨_, rfl, sheafTableSet_memOk (h0 := h) ..⟩
  | .sheafTableClear .., _, h => ⟨_, rfl, sheafTableClear_memOk (h0 := h) ..⟩
  | .sheafTableAmend .., _, h => ⟨_, rfl, sheafTableAmend_memOk (h0 := h) ..⟩
  | .gather .., _, h => ⟨_, rfl, gather_memOk (h0 := h) ..⟩
  | .gatherSum .., _, h => ⟨_, rfl, gatherSum_memOk (h0 := h) ..⟩
  | .scatter .., _, h => ⟨_, rfl, scatter_memOk (h0 := h) ..⟩
  | .prefetch .., _, h => ⟨_, rfl, prefetch_memOk (h0 := h) ..⟩
  | .sheafEnd .., _, h => ⟨_, rfl, sheafEnd_memOk (h0 := h) ..⟩
  | .feedbackEvent .., _, h => ⟨_, rfl, feedbackEvent_memOk (h0 := h) ..⟩
  | .sheafUpdateApply .., _, h => ⟨_, rfl, sheafUpdateApply_memOk (h0 := h) ..⟩
  | .forcedApply .., _, h => ⟨_, rfl, forcedApply_memOk (h0 := h) ..⟩
  | .recipeRegister .., _, h => ⟨_, rfl, recipeRegister_memOk (h0 := h) ..⟩
  | .recipeUnregister .., _, h => ⟨_, rfl, recipeUnregister_memOk (h0 := h) ..⟩
  | .frontEncode .., _, h => ⟨_, rfl, frontEncode_memOk (h0 := h) ..⟩
  | .searchCall .., _, h => ⟨_, rfl, searchCall_memOk (h0 := h) ..⟩
  | .frontCandidates .., _, h => ⟨_, rfl, frontCandidates_memOk (h0 := h) ..⟩
  | .frontRerank .., _, h => ⟨_, rfl, frontRerank_memOk (h0 := h) ..⟩
  | .frontPack .., _, h => ⟨_, rfl, frontPack_memOk (h0 := h) ..⟩
  | .searchBuild .., _, h => ⟨_, rfl, searchBuild_memOk (h0 := h) ..⟩
  | .searchRound .., _, h => ⟨_, rfl, searchRound_memOk (h0 := h) ..⟩
  | .nodeRead .., _, h => ⟨_, rfl, nodeRead_memOk (h0 := h) ..⟩
  | .hubWindowClose .., _, h => ⟨_, rfl, hubWindowClose_memOk (h0 := h) ..⟩
  | .searchAbort .., _, h => ⟨_, rfl, searchAbort_memOk (h0 := h) ..⟩
  | .indexOpen .., _, h => ⟨_, rfl, indexOpen_memOk (h0 := h) ..⟩
  | .indexWrite .., _, h => ⟨_, rfl, indexWrite_memOk (h0 := h) ..⟩
  | .indexSeal .., _, h => ⟨_, rfl, indexSeal_memOk (h0 := h) ..⟩
  | .indexActivate .., _, h => ⟨_, rfl, indexActivate_memOk (h0 := h) ..⟩
  | .activationApply .., _, h => ⟨_, rfl, activationApply_memOk (h0 := h) ..⟩
  | .indexLoad .., _, h => ⟨_, rfl, indexLoad_memOk (h0 := h) ..⟩
  | .indexDiscard .., _, h => ⟨_, rfl, indexDiscard_memOk (h0 := h) ..⟩
  | .indexSlotFreed .., _, h => ⟨_, rfl, indexSlotFreed_memOk (h0 := h) ..⟩
  | .planStage .., _, h => ⟨_, rfl, planStage_memOk (h0 := h) ..⟩
  | .planUnstage .., _, h => ⟨_, rfl, planUnstage_memOk (h0 := h) ..⟩
  | .planFlush .., _, h => ⟨_, rfl, planFlush_memOk (h0 := h) ..⟩
  | .cisHostWrite .., _, h => ⟨_, rfl, cisHostWrite_memOk (h0 := h) ..⟩
  | .moveComplete .., _, h => ⟨_, rfl, moveComplete_memOk (h0 := h) ..⟩
  | .flashPageRead .., _, h => ⟨_, rfl, flashPageRead_memOk (h0 := h) ..⟩
  | .eraseIntent .., _, h => ⟨_, rfl, eraseIntent_memOk (h0 := h) ..⟩
  | .eraseIssue .., _, h => ⟨_, rfl, eraseIssue_memOk (h0 := h) ..⟩
  | .eraseComplete .., _, h => ⟨_, rfl, eraseComplete_memOk (h0 := h) ..⟩
  | .blockVerify .., _, h => ⟨_, rfl, blockVerify_memOk (h0 := h) ..⟩
  | .reclaim .., _, h => ⟨_, rfl, reclaim_memOk (h0 := h) ..⟩
  | .programFail .., _, h => ⟨_, rfl, programFail_memOk (h0 := h) ..⟩
  | .readOnlyEntry .., _, h => ⟨_, rfl, readOnlyEntry_memOk (h0 := h) ..⟩
  | .holdupFlush .., _, h => ⟨_, rfl, holdupFlush_memOk (h0 := h) ..⟩
  | .holdupMeasure .., _, h => ⟨_, rfl, holdupMeasure_memOk (h0 := h) ..⟩
  | .mapCheckpoint, _, h => ⟨_, rfl, mapCheckpoint_memOk (h0 := h) ..⟩
  | .wellFailure .., _, h => ⟨_, rfl, State.wellFailure_memOk (h0 := h) ..⟩
  | .wellReturn .., _, h => ⟨_, rfl, wellReturn_memOk (h0 := h) ..⟩
  | .imageCreate .., _, h => ⟨_, rfl, imageCreate_memOk (h0 := h) ..⟩
  | .imageWrite .., _, h => ⟨_, rfl, imageWrite_memOk (h0 := h) ..⟩
  | .imageSeal .., _, h => ⟨_, rfl, imageSeal_memOk (h0 := h) ..⟩
  | .imageDelete .., _, h => ⟨_, rfl, imageDelete_memOk (h0 := h) ..⟩
  | .layout .., _, h => ⟨_, rfl, layout_memOk (h0 := h) ..⟩
  | .ringCreate .., _, h => ⟨_, rfl, ringCreate_memOk (h0 := h) ..⟩
  | .ringDestroy .., _, h => ⟨_, rfl, ringDestroy_memOk (h0 := h) ..⟩
  | .consumerIndexPost .., _, h => ⟨_, rfl, consumerIndexPost_memOk (h0 := h) ..⟩
  | .consumerIndexRead .., _, h => ⟨_, rfl, consumerIndexRead_memOk (h0 := h) ..⟩
  | .crossPortFence .., _, h => ⟨_, rfl, crossPortFence_memOk (h0 := h) ..⟩
  | .counterWindowRead .., _, h => ⟨_, rfl, counterWindowRead_memOk (h0 := h) ..⟩
  | .counterWindowAdd .., _, h => ⟨_, rfl, counterWindowAdd_memOk (h0 := h) ..⟩
  | .sycRead .., _, h => ⟨_, rfl, sycGo_memOk (h0 := h) ..⟩
  | .sycAdd .., _, h => ⟨_, rfl, sycGo_memOk (h0 := h) ..⟩
  | .sycWait .., _, h => ⟨_, rfl, sycGo_memOk (h0 := h) ..⟩
  | .sycCas .., _, h => ⟨_, rfl, sycGo_memOk (h0 := h) ..⟩
  | .sycClaim .., _, h => ⟨_, rfl, sycGo_memOk (h0 := h) ..⟩
  | .sycRelease .., _, h => ⟨_, rfl, sycGo_memOk (h0 := h) ..⟩
  | .waitPark .., _, h => ⟨_, rfl, waitPark_memOk (h0 := h) ..⟩
  | .waitSatisfied .., _, h => ⟨_, rfl, waitSatisfied_memOk (h0 := h) ..⟩
  | .waitReissue .., _, h => ⟨_, rfl, waitReissue_memOk (h0 := h) ..⟩
  | .siphonTransfer .., _, h => ⟨_, rfl, siphonTransfer_memOk (h0 := h) ..⟩
  | .siphonEnd .., _, h => ⟨_, rfl, siphonEnd_memOk (h0 := h) ..⟩
  | .siphonComplete .., _, h => ⟨_, rfl, siphonComplete_memOk (h0 := h) ..⟩
  | .perstRelease .., _, h => ⟨_, rfl, perstRelease_memOk (h0 := h) ..⟩
  | .configRequest .., _, h => ⟨_, rfl, configRequest_memOk (h0 := h) ..⟩
  | .bar2Access .., _, h => ⟨_, rfl, bar2Access_memOk (h0 := h) ..⟩
  | .hptWinWrite .., _, h => ⟨_, rfl, hptWinWrite_memOk (h0 := h) ..⟩
  | .portReset .., _, h => ⟨_, rfl, portReset_memOk (h0 := h) ..⟩
  | .hostReadFail .., _, h => ⟨_, rfl, hostReadFail_memOk (h0 := h) ..⟩
  | .zioWrite .., _, h => ⟨_, rfl, zioWrite_memOk (h0 := h) ..⟩
  | .zioPartial .., _, h => ⟨_, rfl, zioPartial_memOk (h0 := h) ..⟩
  | .zioCtrAdd .., _, h => ⟨_, rfl, zioCtrAdd_memOk (h0 := h) ..⟩
  | .zioCommand .., _, h => ⟨_, rfl, zioCommand_memOk (h0 := h) ..⟩
  | .zioRecord .., _, h => ⟨_, rfl, zioRecord_memOk (h0 := h) ..⟩
  | .zioCtrl .., _, h => ⟨_, rfl, zioCtrl_memOk (h0 := h) ..⟩
  | .headerCrcNak .., _, h => ⟨_, rfl, headerCrcNak_memOk (h0 := h) ..⟩
  | .e2eResend .., _, h => ⟨_, rfl, e2eResend_memOk (h0 := h) ..⟩
  | .streamTeardown .., _, h => ⟨_, rfl, streamTeardown_memOk (h0 := h) ..⟩
  | .frameMarkSend .., _, h => ⟨_, rfl, frameMarkSend_memOk (h0 := h) ..⟩
  | .frameMarkReceive .., _, h => ⟨_, rfl, frameMarkReceive_memOk (h0 := h) ..⟩
  | .pairJoin .., _, h => ⟨_, rfl, pairJoin_memOk (h0 := h) ..⟩
  | .joinClear .., _, h => ⟨_, rfl, joinClear_memOk (h0 := h) ..⟩
  | .pairLeave .., _, h => ⟨_, rfl, pairLeave_memOk (h0 := h) ..⟩
  | .timingLeave, _, h => ⟨_, rfl, timingLeave_memOk (h0 := h) ..⟩
  | .laneDrop .., _, h => ⟨_, rfl, laneDrop_memOk (h0 := h) ..⟩
  | .portTrainRetry .., _, h => ⟨_, rfl, portTrainRetry_memOk (h0 := h) ..⟩
  | .portQuarantineEnd .., _, h => ⟨_, rfl, portQuarantineEnd_memOk (h0 := h) ..⟩
  | .nodeWrite .., _, h => ⟨_, rfl, nodeWrite_memOk (h0 := h) ..⟩
  | .pgStatAck .., _, h => ⟨_, rfl, pgStatAck_memOk (h0 := h) ..⟩
  | .sqFieldWrite .., _, h => ⟨_, rfl, sqFieldWrite_memOk (h0 := h) ..⟩
  | .pgErrAck .., _, h => ⟨_, rfl, pgErrAck_memOk (h0 := h) ..⟩
  | .pgIndAddrWrite .., _, h => ⟨_, rfl, pgIndAddrWrite_memOk (h0 := h) ..⟩
  | .pgIndDataRead .., _, h => ⟨_, rfl, pgIndDataRead_memOk (h0 := h) ..⟩
  | .pgIndDataWrite .., _, h => ⟨_, rfl, pgIndDataWrite_memOk (h0 := h) ..⟩
  | .pgMboxReq .., _, h => ⟨_, rfl, pgMboxReq_memOk (h0 := h) ..⟩
  | .mboxSnapshot .., _, h => ⟨_, rfl, mboxSnapshot_memOk (h0 := h) ..⟩
  | .pgMboxData3Read .., _, h => ⟨_, rfl, pgMboxData3Read_memOk (h0 := h) ..⟩
  | .registerWrite .., _, h => ⟨_, rfl, registerWrite_memOk (h0 := h) ..⟩
  | .clkMuxSwitch .., _, h => ⟨_, rfl, clkMuxSwitch_memOk (h0 := h) ..⟩
  | .muxSwitchComplete .., _, h => ⟨_, rfl, muxSwitchComplete_memOk (h0 := h) ..⟩
  | .muxHang .., _, h => ⟨_, rfl, muxHang_memOk (h0 := h) ..⟩
  | .clkDomReset .., _, h => ⟨_, rfl, clkDomReset_memOk (h0 := h) ..⟩
  | .oscStable .., _, h => ⟨_, rfl, oscStable_memOk (h0 := h) ..⟩
  | .pllLockConfirm .., _, h => ⟨_, rfl, pllLockConfirm_memOk (h0 := h) ..⟩
  | .trimSourceSwitch .., _, h => ⟨_, rfl, trimSourceSwitch_memOk (h0 := h) ..⟩
  | .rootLoss .., _, h => ⟨_, rfl, rootLoss_memOk (h0 := h) ..⟩
  | .restartWait .., _, h => ⟨_, rfl, restartWait_memOk (h0 := h) ..⟩
  | .sequencerChange .., _, h => ⟨_, rfl, sequencerChange_memOk (h0 := h) ..⟩
  | .inputLow .., _, h => ⟨_, rfl, inputLow_memOk (h0 := h) ..⟩
  | .inputOvervoltage, _, h => ⟨_, rfl, inputOvervoltage_memOk (h0 := h) ..⟩
  | .pwrCapWrite .., _, h => ⟨_, rfl, pwrCapWrite_memOk (h0 := h) ..⟩
  | .hotspotHigh .., _, h => ⟨_, rfl, hotspotHigh_memOk (h0 := h) ..⟩
  | .hotspotTrip .., _, h => ⟨_, rfl, hotspotTrip_memOk (h0 := h) ..⟩
  | .chkFeed8 .., _, h => ⟨_, rfl, State.chkFeed_memOk (h0 := h) ..⟩
  | .chkFeed16 .., _, h => ⟨_, rfl, State.chkFeed_memOk (h0 := h) ..⟩
  | .chkFeed32 .., _, h => ⟨_, rfl, State.chkFeed_memOk (h0 := h) ..⟩
  | .chkRestart .., _, h => ⟨_, rfl, chkRestart_memOk (h0 := h) ..⟩
  | .chkCfgWrite .., _, h => ⟨_, rfl, chkCfgWrite_memOk (h0 := h) ..⟩
  | .chkScanCompute .., _, h => ⟨_, rfl, State.scanGo_memOk (h0 := h) ..⟩
  | .chkScanAppend .., _, h => ⟨_, rfl, State.scanGo_memOk (h0 := h) ..⟩
  | .chkScanVerify .., _, h => ⟨_, rfl, State.scanGo_memOk (h0 := h) ..⟩
  | .chkScanDone .., _, h => ⟨_, rfl, chkScanDone_memOk (h0 := h) ..⟩
  | .hbmFrameRetire .., _, h => ⟨_, rfl, hbmFrameRetire_memOk (h0 := h) ..⟩
  | .hbmStackFail .., _, h => ⟨_, rfl, hbmStackFail_memOk (h0 := h) ..⟩
  | .flashDieFail .., _, h => ⟨_, rfl, flashDieFail_memOk (h0 := h) ..⟩
  | .flashChannelFail .., _, h => ⟨_, rfl, flashChannelFail_memOk (h0 := h) ..⟩
  | .wellheadFailure .., _, h => ⟨_, rfl, State.wellheadFail_memOk (h0 := h) ..⟩
  | .coreFailure .., _, h => ⟨_, rfl, coreFailure_memOk (h0 := h) ..⟩
  | .marginPlannerRun .., _, h => ⟨_, rfl, marginPlannerRun_memOk (h0 := h) ..⟩
  | .powerOn, _, h => ⟨_, rfl, powerOn_memOk (h0 := h) ..⟩
  | .restart, _, h => ⟨_, rfl, restart_memOk (h0 := h) ..⟩
  | .fuseLoad .., _, h => ⟨_, rfl, fuseLoad_memOk (h0 := h) ..⟩
  | .firmwareLoad, _, h => ⟨_, rfl, firmwareLoad_memOk (h0 := h) ..⟩
  | .mount .., _, h => ⟨_, rfl, mount_memOk (h0 := h) ..⟩
  | .rebuild, _, h => ⟨_, rfl, rebuild_memOk (h0 := h) ..⟩
  | .recovery, _, h => ⟨_, rfl, recovery_memOk (h0 := h) ..⟩
  | .serviceEntry, _, h => ⟨_, rfl, serviceEntry_memOk (h0 := h) ..⟩
  | .shutdown .., _, h => ⟨_, rfl, shutdown_memOk (h0 := h) ..⟩
  | .dbgReset .., _, h => ⟨_, rfl, dbgReset_memOk (h0 := h) ..⟩
  | .provision .., _, h => ⟨_, rfl, provision_memOk (h0 := h) ..⟩
  | .raiseLock .., _, h => ⟨_, rfl, raiseLock_memOk (h0 := h) ..⟩
  | .raiseSec .., _, h => ⟨_, rfl, raiseSec_memOk (h0 := h) ..⟩
  | .storeFw .., _, h => ⟨_, rfl, storeFw_memOk (h0 := h) ..⟩
  | .firmwarePersist, _, h => ⟨_, rfl, firmwarePersist_memOk (h0 := h) ..⟩
  | .timeStage .., _, h => ⟨_, rfl, timeStage_memOk (h0 := h) ..⟩
  | .timeCancel .., _, h => ⟨_, rfl, timeCancel_memOk (h0 := h) ..⟩
  | .tapIdcode, _, h => ⟨_, rfl, tapIdcode_memOk (h0 := h) ..⟩
  | .tapSamplePreload .., _, h => ⟨_, rfl, tapSamplePreload_memOk (h0 := h) ..⟩
  | .tapExtest .., _, h => ⟨_, rfl, tapExtest_memOk (h0 := h) ..⟩
  | .tapDtmcs .., _, h => ⟨_, rfl, tapDtmcs_memOk (h0 := h) ..⟩
  | .tapDmi .., _, h => ⟨_, rfl, tapDmi_memOk (h0 := h) ..⟩
  | .tapRegacc .., _, h => ⟨_, rfl, tapRegacc_memOk (h0 := h) ..⟩
  | .tapUnlock .., _, h => ⟨_, rfl, tapUnlock_memOk (h0 := h) ..⟩
  | .tapBypass .., _, h => ⟨_, rfl, State.tapBypassed_memOk (h0 := h) ..⟩
  | .hartHalt .., _, h => ⟨_, rfl, hartHalt_memOk (h0 := h) ..⟩
  | .hartResume .., _, h => ⟨_, rfl, hartResume_memOk (h0 := h) ..⟩
  | .hartStep .., _, h => ⟨_, rfl, hartStep_memOk (h0 := h) ..⟩
  | .triggerHit .., _, h => ⟨_, rfl, triggerHit_memOk (h0 := h) ..⟩
  | .accessRegister .., _, h => ⟨_, rfl, accessRegister_memOk (h0 := h) ..⟩
  | .accessMemory .., _, h => ⟨_, rfl, accessMemory_memOk (h0 := h) ..⟩
  | .systemBusAccess .., _, h => ⟨_, rfl, systemBusAccess_memOk (h0 := h) ..⟩
  | .ndmreset, _, h => ⟨_, rfl, ndmreset_memOk (h0 := h) ..⟩
  | .dbgClaimScan .., _, h => ⟨_, rfl, dbgClaimScan_memOk (h0 := h) ..⟩
  | .claimScanDone, _, h => ⟨_, rfl, claimScanDone_memOk (h0 := h) ..⟩
  | .dbgClaimForce .., _, h => ⟨_, rfl, dbgClaimForce_memOk (h0 := h) ..⟩
  | .smbPresence, _, h => ⟨_, rfl, smbPresence_memOk (h0 := h) ..⟩
  | .smbInletTemp, _, h => ⟨_, rfl, State.smbSensor_memOk (h0 := h) ..⟩
  | .smbOutletTemp, _, h => ⟨_, rfl, State.smbSensor_memOk (h0 := h) ..⟩
  | .smbHotspot, _, h => ⟨_, rfl, smbHotspot_memOk (h0 := h) ..⟩
  | .smbInputPower, _, h => ⟨_, rfl, smbInputPower_memOk (h0 := h) ..⟩
  | .smbPhase, _, h => ⟨_, rfl, smbPhase_memOk (h0 := h) ..⟩
  | .smbSerial, _, h => ⟨_, rfl, smbSerial_memOk (h0 := h) ..⟩
  | .hostReadReissue .., _, h => ⟨_, rfl, hostReadReissue_memOk (h0 := h) ..⟩
  | .hostPortReturn .., _, h => ⟨_, rfl, hostPortReturn_memOk (h0 := h) ..⟩
  | .zioriPortTrained .., _, h => ⟨_, rfl, zioriPortTrained_memOk (h0 := h) ..⟩
  | .spareFailure .., _, h => ⟨_, rfl, spareFailure_memOk (h0 := h) ..⟩

/-- Settles O60: a step runs the front command, and each command keeps the form. -/
theorem everyStepKeepsTheMemoryCanonical : Obligations.EveryStepKeepsTheMemoryCanonical := by
  intro s t hs hstep
  unfold step at hstep
  split at hstep
  · cases hstep
    exact hs
  · next c rest _ =>
    obtain ⟨u, hu, hmem⟩ := exec_memOk c { s with pending := rest } hs
    rw [hu] at hstep
    cases hstep
    exact hmem

/-- Settles O59: at reset the memory lists no byte. -/
theorem resetMemoryIsCanonical : Obligations.ResetMemoryIsCanonical := rfl

end Sys2Proof.Machine
end

section
/-! PROOFS. Erases: the intent record, the issue behind it, and the end of the erase in progress at its plane (R349, R354, R358, R360). -/

namespace Sys2Proof.Machine

@[simp] theorem exec_eraseIntent (s : State) (w loc : Nat) : exec (.eraseIntent w loc) s = .next (eraseIntent s w loc) := rfl
@[simp] theorem exec_eraseIssue (s : State) (loc : Nat) : exec (.eraseIssue loc) s = .next (eraseIssue s loc) := rfl
@[simp] theorem exec_eraseComplete (s : State) (loc : Nat) (ok : Bool) :
    exec (.eraseComplete loc ok) s = .next (eraseComplete s loc ok) := rfl

/-! ### What the planes' bookkeeping leaves (R349) -/

/-- Two states with the same blocks read each block alike. -/
theorem State.block_congr {s t : State} (h : t.wdl.blocks = s.wdl.blocks) (k : Nat) : t.block k = s.block k := by
  unfold State.block
  rw [h]

theorem State.plane_congr {s t : State} (h : t.wdl.planes = s.wdl.planes) (p : Nat) : t.plane p = s.plane p := by
  unfold State.plane
  rw [h]

/-- The next state differs in its planes and in the counters of its register pages alone. -/
structure OnlyPlanes (s t : State) : Prop where
  req : t.req = s.req
  mem : t.mem = s.mem
  wdl : t.wdl = { s.wdl with planes := t.wdl.planes }

/-- Settling a plane leaves it, lets its erase begin or go on, or suspends it. -/
theorem State.settlePlane_cases (s : State) (p : Nat) : s.settlePlane p = s ∨
    (∃ q : PlaneQ, q.erases = (s.plane p).erases ∧ s.settlePlane p = s.setPlane p q) ∨ s.settlePlane p = s.suspendErase p := by
  simp only [State.settlePlane]
  split
  · exact .inl rfl
  · split
    · split
      · exact .inl rfl
      · exact .inr (.inl ⟨{ s.plane p with running := true }, rfl, rfl⟩)
    · split
      · split
        · exact .inl rfl
        · exact .inr (.inl ⟨{ s.plane p with suspended := false }, rfl, rfl⟩)
      · split
        · exact .inr (.inr rfl)
        · exact .inl rfl

namespace OnlyPlanes
variable {s t u : State}

theorem refl (s : State) : OnlyPlanes s s := ⟨rfl, rfl, rfl⟩

theorem trans (h : OnlyPlanes s t) (h' : OnlyPlanes t u) : OnlyPlanes s u :=
  ⟨h'.req.trans h.req, h'.mem.trans h.mem, by rw [h'.wdl, h.wdl]⟩

theorem blocks (h : OnlyPlanes s t) : t.wdl.blocks = s.wdl.blocks := by rw [h.wdl]

theorem setPlane (s : State) (p : Nat) (q : PlaneQ) : OnlyPlanes s (s.setPlane p q) := ⟨rfl, rfl, rfl⟩

theorem suspendErase (s : State) (p : Nat) : OnlyPlanes s (s.suspendErase p) := ⟨rfl, rfl, rfl⟩

theorem settlePlane (s : State) (p : Nat) : OnlyPlanes s (s.settlePlane p) := by
  rcases s.settlePlane_cases p with h | ⟨q, -, h⟩ | h
  · rw [h]
    exact refl s
  · rw [h]
    exact setPlane s p q
  · rw [h]
    exact suspendErase s p

theorem eraseQueue (s : State) (k : Nat) : OnlyPlanes s (s.eraseQueue k) := (setPlane s _ _).trans (settlePlane _ _)

theorem eraseLeaves (s : State) (k : Nat) : OnlyPlanes s (s.eraseLeaves k) := (setPlane s _ _).trans (settlePlane _ _)

end OnlyPlanes

/-- Settling a plane begins, suspends or resumes its erase and leaves the order of its erases. -/
theorem State.erases_settlePlane (s : State) (p : Nat) : ((s.settlePlane p).plane p).erases = (s.plane p).erases := by
  rcases s.settlePlane_cases p with h | ⟨q, hq, h⟩ | h
  · rw [h]
  · rw [h, State.plane_setPlane, hq]
  · rw [h]
    show ((s.setPlane p { s.plane p with suspended := true, suspends := (s.plane p).suspends + 1 }).plane p).erases = _
    rw [State.plane_setPlane]

theorem State.erases_eraseQueue (s : State) (k : Nat) :
    ((s.eraseQueue k).plane (blkPlane k)).erases = (s.plane (blkPlane k)).erases ++ [k] := by
  rw [State.eraseQueue, State.erases_settlePlane, State.plane_setPlane]

theorem State.erases_eraseLeaves (s : State) (k : Nat) :
    ((s.eraseLeaves k).plane (blkPlane k)).erases = (s.plane (blkPlane k)).erases.tail := by
  rw [State.eraseLeaves, State.erases_settlePlane, State.plane_setPlane]

theorem State.eraseRuns_iff (s : State) (k : Nat) : s.eraseRuns k = true ↔ (s.plane (blkPlane k)).erases.head? = some k ∧
    (s.plane (blkPlane k)).running = true ∧ (s.plane (blkPlane k)).suspended = false := by
  simp only [State.eraseRuns, PlaneQ.held, Bool.and_eq_true, decide_eq_true_eq, Bool.not_eq_true']

/-! ### ERASE_INTENT and ERASE_ISSUE -/

section
variable {s : State} {loc : Nat} (hst : (s.block (locBlk loc)).state = .released ∨ (s.block (locBlk loc)).state = .halfErased)
include hst

/-- The record of an intent, as it joins the journal of the Wellhead of the block's Well. -/
theorem eraseIntent_of_idle {w : Nat} (hnone : (s.block (locBlk loc)).intent = none) (hwell : s.wellWh (blkWell (locBlk loc)) = s.whOf w) :
    ∃ (j : JRec) (n : Nat), j.typ = 6 ∧ j.durable = false ∧
      n = blkWell (locBlk loc) % 4 * 72057594037927936 + Tbl.val 0 s.req.jserial (blkWell (locBlk loc) % 4) ∧
      (eraseIntent s w loc).req.journal = s.req.journal ++ [j] ∧
      (eraseIntent s w loc).block (locBlk loc) = { s.block (locBlk loc) with intent := some n } ∧ (eraseIntent s w loc).mem = s.mem := by
  have hstate : (decide ((s.block (locBlk loc)).state = .released) || decide ((s.block (locBlk loc)).state = .halfErased)) = true := by
    simpa using hst
  simp only [eraseIntent, hstate, hnone, hwell, Option.isSome_none, Bool.not_true, bne_self_eq_false, Bool.or_self, Bool.false_eq_true,
    if_false]
  exact ⟨_, _, rfl, rfl, rfl, rfl, State.block_setBlock _ _ _, rfl⟩

theorem eraseIssue_of_ready {n : Nat} (hintent : (s.block (locBlk loc)).intent = some n)
    (hprog : s.strictJournal (n / 72057594037927936) = false ∨ ∀ r ∈ s.req.journal, r.isIntent n = true → r.programmed = true)
    (hup : s.dieUp (blkDie (locBlk loc)) = true) :
    eraseIssue s loc = (({ s with req := { s.req with
        journal := s.req.journal.map (fun (r : JRec) => if r.isIntent n then { r with durable := true } else r) } } : State).setBlock
      (locBlk loc) { s.block (locBlk loc) with state := .erasing }).eraseQueue (locBlk loc) := by
  have hstate : (decide ((s.block (locBlk loc)).state = .released) || decide ((s.block (locBlk loc)).state = .halfErased)) = true := by
    simpa using hst
  have hstrict : (s.strictJournal (n / 72057594037927936) && s.req.journal.any (fun r => r.isIntent n && !r.programmed)) = false := by
    rcases hprog with h | h
    · rw [h, Bool.false_and]
    · have hany : s.req.journal.any (fun r => r.isIntent n && !r.programmed) = false := by
        simpa [List.any_eq_false] using h
      rw [hany, Bool.and_false]
  simp only [eraseIssue, hintent, hstate, hstrict, hup, Bool.not_true, Bool.or_self, Bool.false_eq_true, if_false]
end

/-- What the issue makes of a record of its intent is durable, and still that intent's. -/
theorem JRec.durable_of_issued (l : List JRec) (n : Nat) :
    ∀ r ∈ l.map (fun (r : JRec) => if r.isIntent n then { r with durable := true } else r), r.isIntent n = true → r.durable = true := by
  intro r hr hn
  obtain ⟨x, -, rfl⟩ := List.mem_map.1 hr
  by_cases hx : x.isIntent n = true
  · rw [if_pos hx]
  · rw [if_neg hx] at hn
    exact absurd hn hx

/-! ### ERASE_COMPLETE -/

/-- The erase in progress is over: its plane goes on to the next, the erase counts, and its intent record is let go. -/
def State.eraseOver (s : State) (k n : Nat) : State :=
  let u := (s.eraseLeaves k).countErase k (s.block k).tlc
  { u with req := { u.req with journal := u.req.journal.filter (fun r => !r.isIntent n) } }

theorem State.eraseOver_keeps (s : State) (k n : Nat) :
    (s.eraseOver k n).req.journal = s.req.journal.filter (fun r => !r.isIntent n) ∧ (s.eraseOver k n).mem = s.mem ∧
      ((s.eraseOver k n).plane (blkPlane k)).erases = (s.plane (blkPlane k)).erases.tail := by
  have h := OnlyPlanes.eraseLeaves s k
  refine ⟨?_, h.mem, ?_⟩
  · show (s.eraseLeaves k).req.journal.filter _ = _
    rw [h.req]
  · rw [← State.erases_eraseLeaves]
    exact congrArg PlaneQ.erases (State.plane_congr rfl _)

section
variable {s : State} {loc n : Nat} (hintent : (s.block (locBlk loc)).intent = some n) (hst : (s.block (locBlk loc)).state = .erasing)
  (hup : s.dieUp (blkDie (locBlk loc)) = true)
include hintent hst hup

theorem eraseComplete_of_running (hruns : s.eraseRuns (locBlk loc) = true) :
    eraseComplete s loc true = ({ s.eraseOver (locBlk loc) n with
      mem := Memory.clear (s.eraseOver (locBlk loc) n).mem (Space.key (.flash (locBlk loc)) 0) 25165824 } : State).setBlock (locBlk loc)
        { state := .erased, erases := (s.block (locBlk loc)).erases + 1, stamp := n } ∧
    eraseComplete s loc false = (((s.eraseOver (locBlk loc) n).setBlock (locBlk loc) { s.block (locBlk loc) with
      erases := (s.block (locBlk loc)).erases + 1 }).event (80 + blkWell (locBlk loc)) 0 [] [2]).retireBlock (locBlk loc) := by
  simp only [eraseComplete, hintent, hst, hruns, hup, ne_eq, not_true_eq_false, Bool.true_eq_false, or_self, if_false, if_true,
    Bool.false_eq_true]
  exact ⟨rfl, rfl⟩

omit hst hup in
theorem eraseComplete_of_waiting (hwait : s.eraseRuns (locBlk loc) = false) (ok : Bool) : eraseComplete s loc ok = s := by
  simp only [eraseComplete, hintent, hwait, true_or, or_true, if_true]
end

/-- Settles O35: each command's own case; the planes' bookkeeping leaves block, journal and memory. -/
theorem eraseGoesThroughItsIntentRecord : Obligations.EraseGoesThroughItsIntentRecord := by
  refine ⟨?_, ?_, ?_, ?_⟩
  · intro s w loc hst hnone hwell
    obtain ⟨j, n, htyp, hdur, hn, hjour, hblock, hmem⟩ := eraseIntent_of_idle hst hnone hwell
    exact ⟨_, j, n, rfl, hjour, htyp, hdur, hn, hblock, hmem⟩
  · rintro s loc n p hintent rfl hst hprog hup
    refine ⟨_, congrArg Host.Outcome.next (eraseIssue_of_ready hst hintent hprog hup), ?_, ?_, ?_, (OnlyPlanes.eraseQueue _ _).mem⟩
    · rw [State.block_congr (OnlyPlanes.eraseQueue _ _).blocks, State.block_setBlock]
    · rw [(OnlyPlanes.eraseQueue _ _).req]
      exact JRec.durable_of_issued s.req.journal n
    · exact State.erases_eraseQueue _ _
  · rintro s loc n p hintent hst rfl hup
    refine ⟨fun hhead hrun hsus => ?_, fun hwait ok => ?_⟩
    · obtain ⟨hgood, hbad⟩ := eraseComplete_of_running hintent hst hup ((State.eraseRuns_iff _ _).2 ⟨hhead, hrun, hsus⟩)
      obtain ⟨hjour, hmem, herases⟩ := s.eraseOver_keeps (locBlk loc) n
      refine ⟨⟨_, congrArg Host.Outcome.next hgood, State.block_setBlock _ _ _, hjour, herases, ?_⟩,
        ⟨_, hjour, hmem, herases, congrArg Host.Outcome.next hbad⟩⟩
      show Memory.clear (s.eraseOver (locBlk loc) n).mem _ _ = _
      rw [hmem]
    · refine congrArg _ (eraseComplete_of_waiting hintent (Bool.eq_false_iff.2 fun h => ?_) ok)
      obtain ⟨hhead, hrun, hsus⟩ := (State.eraseRuns_iff _ _).1 h
      rcases hwait with h | h | h
      · exact h hhead
      · simp [h] at hrun
      · simp [h] at hsus
  · intro s loc ok hnone
    simp only [exec_eraseIssue, exec_eraseComplete, eraseIssue, eraseComplete, hnone, and_self]

end Sys2Proof.Machine
end

section
/-! PROOFS. Blocks verified, reclaimed and failed, read-only entry, the hold-up flush and measurement, and the map checkpoint
(R349, R352, R354, R355, R357, R358, R360, R362, R363, R520). -/

namespace Sys2Proof.Machine

/-! ### The meaning that a command runs -/

section
variable (s : State)
@[simp] theorem exec_blockVerify (loc : Nat) (failing : List Nat) : exec (.blockVerify loc failing) s = .next (blockVerify s loc failing) := rfl
@[simp] theorem exec_reclaim (well part : Nat) : exec (.reclaim well part) s = .next (reclaim s well part) := rfl
@[simp] theorem exec_programFail (loc : Nat) (erase : Bool) : exec (.programFail loc erase) s = .next (programFail s loc erase) := rfl
@[simp] theorem exec_readOnlyEntry (n : Nat) : exec (.readOnlyEntry n) s = .next (readOnlyEntry s n) := rfl
@[simp] theorem exec_holdupFlush (us : Nat) : exec (.holdupFlush us) s = .next (holdupFlush s us) := rfl
@[simp] theorem exec_holdupMeasure (dj : Nat) : exec (.holdupMeasure dj) s = .next (holdupMeasure s dj) := rfl
@[simp] theorem exec_mapCheckpoint : exec .mapCheckpoint s = .next (mapCheckpoint s) := rfl
end

/-! ### BLOCK_VERIFY (R354, R355) -/

section
variable {s u : State} {loc k : Nat} {failing bad : List Nat} (hk : k = locBlk loc) (hst : (s.block k).state = .verify)
  (hbad : bad = failing.filter (fun p => p < (s.block k).used))
  (hu : u = (s.noteRebuilt k bad.length).setBlock k { s.block k with state := .sealed })
include hk hst hbad hu

theorem blockVerify_of_clean (hclean : bad = []) : blockVerify s loc failing = u := by
  subst hk hbad hu
  simp only [blockVerify, hst, hclean, ne_eq, not_true_eq_false, if_false, List.isEmpty_nil, if_true]

/-- Failing pages of an index or passage block: it moves whole, and is released. -/
theorem blockVerify_of_group (hfail : bad ≠ []) (hpart : (s.block k).part = 3 ∨ (s.block k).part = 4) :
    blockVerify s loc failing =
      (u.moveGroup k (blkWell k)).setBlock k { (u.moveGroup k (blkWell k)).block k with state := .released } := by
  have hempty : bad.isEmpty = false := by simpa using hfail
  subst hk hbad hu
  simp only [blockVerify, hst, hempty, hpart, ne_eq, not_true_eq_false, Bool.false_eq_true, if_false, if_true]

/-- Those of another block are programmed elsewhere. -/
theorem blockVerify_of_pages (hfail : bad ≠ []) (h3 : (s.block k).part ≠ 3) (h4 : (s.block k).part ≠ 4) :
    blockVerify s loc failing = u.moveKeys ((u.keysIn k).filter (fun key => match Tbl.look u.wdl.map key with
      | none => false
      | some e => bad.contains (entryPage e))) (blkWell k) := by
  have hempty : bad.isEmpty = false := by simpa using hfail
  subst hk hbad hu
  simp only [blockVerify, hst, hempty, h3, h4, ne_eq, not_true_eq_false, or_self, Bool.false_eq_true, if_false] <;> rfl
end

/-! ### RECLAIM (R354) -/

theorem reclaim_of_room {s : State} {well part : Nat} (h : (part ≠ 2 ∧ part ≠ 5) ∨ s.wellUp well = false ∨
    32 * s.partBlocks part well ≤ 50 * (32 * s.partBlocks part well - s.partTaken part well)) : reclaim s well part = s := by
  have hheld : (!(part == 2 || part == 5) || decide (32 * s.partBlocks part well ≤
      50 * (32 * s.partBlocks part well - s.partTaken part well)) || !s.wellUp well) = true := by
    rcases h with ⟨h2, h5⟩ | h | h <;> simp [*]
  simp only [reclaim, hheld, if_true]

/-- Below 2 % free, the sealed block with the fewest valid pages is copied, and released unless something still maps it. -/
theorem reclaim_of_scarce {s u : State} {well part k : Nat} (hpart : part = 2 ∨ part = 5) (hup : s.wellUp well = true)
    (hscarce : 50 * (32 * s.partBlocks part well - s.partTaken part well) < 32 * s.partBlocks part well)
    (hleast : minBy (fun k => (s.keysIn k).length) ((s.wdl.blocks.filter (fun e => decide (blkWell e.1 = well) &&
      decide (e.2.part = part) && decide (e.2.state = .sealed))).map Prod.fst) = some k)
    (hu : u = (s.moveKeys (s.keysIn k) well).bumpWide (s.wellWh well) 12 4 0 (s.keysIn k).length) :
    reclaim s well part = if u.mapped k then u else u.setBlock k { u.block k with state := .released } := by
  have hgo : (!(part == 2 || part == 5) || decide (32 * s.partBlocks part well ≤
      50 * (32 * s.partBlocks part well - s.partTaken part well)) || !s.wellUp well) = false := by
    have hpart' : (part == 2 || part == 5) = true := by simpa using hpart
    rw [hpart', hup, decide_eq_false (Nat.not_le.2 hscarce)]
    rfl
  subst hu
  simp only [reclaim, hgo, Bool.false_eq_true, if_false, hleast]

/-! ### PROGRAM_FAIL and READ_ONLY_ENTRY (R354, R357) -/

theorem programFail_of_open {s u : State} {loc k : Nat} (hk : k = locBlk loc) (hst : (s.block k).state = .opened)
    (hup : s.dieUp (blkDie k) = true)
    (hu : u = ((s.event (80 + blkWell k) 0 [] [1]).noteRebuilt k (s.block k).used).setBlock k { s.block k with state := .retired }) :
    programFail s loc false = (if (s.block k).part = 3 ∨ (s.block k).part = 4 then u.moveGroup k (blkWell k)
      else u.moveKeys (u.keysIn k) (blkWell k)).retireBlock k := by
  subst hk hu
  simp only [programFail, hst, hup, Bool.false_eq_true, Bool.true_eq_false, if_false, ne_eq, not_true_eq_false, false_and, or_self]

theorem programFail_of_erase {s u : State} {loc k n : Nat} (hk : k = locBlk loc) (hst : (s.block k).state = .erasing)
    (hruns : s.eraseRuns k = true) (hup : s.dieUp (blkDie k) = true) (hintent : (s.block k).intent = some n)
    (hu : u = (s.eraseLeaves k).event (80 + blkWell k) 0 [] [2]) :
    programFail s loc true =
      (((({ u with req := { u.req with journal := u.req.journal.filter (fun r => !r.isIntent n) } } : State).countErase k
        (s.block k).tlc).setBlock k { s.block k with erases := (s.block k).erases + 1 }).retireBlock k) := by
  subst hk hu
  simp only [programFail, hst, hruns, hup, hintent, Bool.true_eq_false, if_false, if_true, ne_eq, not_true_eq_false, and_false, or_self]

/-! ### HOLDUP_FLUSH (R362, R520) -/

section
variable {s : State} {us : Nat} (hpow : s.boot.powered = true)
include hpow

theorem holdupFlush_of_unmounted (hmount : s.wdl.mounted = false) :
    holdupFlush s us = { s.lose false with boot := { (s.lose false).boot with powered := false, flushed := false } } := by
  simp only [holdupFlush, hpow, hmount, Bool.true_eq_false, if_false, if_true]

variable (hmount : s.wdl.mounted = true) {u : State}
include hmount

/-- A flush in time writes the journal's durable records, the map checkpoint, module time and the marker. -/
theorem holdupFlush_of_inTime (hus : us ≤ 30000) (hu : u = ({ s with
      req := { s.req with journal := s.req.journal.map (fun r => if r.durable then { r with programmed := true } else r) }
      wdl := { s.wdl with ckpt := s.wdl.map }
      time := { s.time with bootNs := BitVec.ofNat 64 s.nowNs }
      boot := { s.boot with flushDone := true, flushUs := us, clean := false } } : State).lose false) :
    holdupFlush s us = { u with boot := { u.boot with powered := false, flushed := s.wdl.mounted } } := by
  have hfit : us % 4294967296 = us := Nat.mod_eq_of_lt (by omega)
  have hmount' : ¬ s.wdl.mounted = false := by simp [hmount]
  rw [hu]
  simp only [holdupFlush, hpow, hfit, hus, if_neg hmount', Bool.true_eq_false, if_false, decide_true, Bool.true_and, if_true]

/-- A flush past 30 ms has written none of it. -/
theorem holdupFlush_of_late (hus : 30000 < us) (hu : u = ({ s with
      boot := { s.boot with flushDone := false, flushUs := us % 4294967296, clean := false } } : State).lose false) :
    holdupFlush s us = { u with boot := { u.boot with powered := false, flushed := s.wdl.mounted } } := by
  have hlate : decide (us ≤ 30000) = false := decide_eq_false (Nat.not_le.2 hus)
  have hmount' : ¬ s.wdl.mounted = false := by simp [hmount]
  rw [hu]
  simp only [holdupFlush, hpow, hlate, if_neg hmount', Bool.true_eq_false, Bool.false_eq_true, if_false, Bool.false_and, List.map_id']
end

/-! ### HOLDUP_MEASURE (R363) -/

/-- One Wellhead's part of a measurement: the energy in its register, and the event of entering write-through. -/
def State.measured (dj : Nat) (enter : Bool) (s : State) (w : Nat) : State :=
  let u := s.setRegN w 12 0x104 (dj % 65536)
  if enter then u.event w 12 [sqBit 0x118 2] [] else u

theorem holdupMeasure_eq (s : State) (dj : Nat) : holdupMeasure s dj =
    [0, 1, 2, 3].foldl (State.measured dj (decide (dj < 900) && !s.wdl.writeThrough))
      { s with wdl := { s.wdl with writeThrough := decide (dj < 900) } } := rfl

theorem State.measured_keeps (dj : Nat) (enter : Bool) (s : State) (w : Nat) :
    (s.measured dj enter w).wdl = s.wdl ∧ (s.measured dj enter w).req = s.req ∧ (s.measured dj enter w).mem = s.mem := by
  unfold State.measured
  split
  · exact ⟨rfl, rfl, rfl⟩
  · exact ⟨rfl, rfl, rfl⟩

theorem State.reg_measured (dj : Nat) (enter : Bool) (s : State) (w v : Nat) :
    (s.measured dj enter w).reg v 12 0x104 = if v = w then BitVec.ofNat 32 (dj % 65536) else s.reg v 12 0x104 := by
  have hreg : (s.measured dj enter w).reg v 12 0x104 = (s.setRegN w 12 0x104 (dj % 65536)).reg v 12 0x104 := by
    unfold State.measured
    split
    · exact State.reg_event ..
    · rfl
  rw [hreg]
  split
  · next h => rw [h, State.reg_setRegN]
  · next h => exact Tbl.val_set_other _ _ _ (by simp only [regKey]; omega)

theorem State.reg_foldl_measured (dj : Nat) (enter : Bool) (ws : List Nat) (s : State) {v : Nat} (hv : v ∈ ws) :
    (ws.foldl (State.measured dj enter) s).reg v 12 0x104 = BitVec.ofNat 32 (dj % 65536) := by
  induction ws using List.reverseRecOn with
  | nil => simp at hv
  | append_singleton ws w ih =>
    rw [List.foldl_concat, State.reg_measured]
    split
    · rfl
    · next hne => exact ih (by simpa [hne] using hv)

theorem State.foldl_measured_keeps (dj : Nat) (enter : Bool) (ws : List Nat) (s : State) :
    (ws.foldl (State.measured dj enter) s).wdl = s.wdl ∧ (ws.foldl (State.measured dj enter) s).req = s.req ∧
      (ws.foldl (State.measured dj enter) s).mem = s.mem := by
  induction ws generalizing s with
  | nil => exact ⟨rfl, rfl, rfl⟩
  | cons w ws ih =>
    obtain ⟨hwdl, hreq, hmem⟩ := s.measured_keeps dj enter w
    rw [List.foldl_cons]
    exact hwdl ▸ hreq ▸ hmem ▸ ih _

/-! ### MAP_CHECKPOINT (R352, R520) -/

theorem mapCheckpoint_of_due {s : State} (hmount : s.wdl.mounted = true) (hdue : 20000 ≤ s.wdl.sinceCkpt) :
    mapCheckpoint s = { s with wdl := { s.wdl with ckpt := s.wdl.map, sinceCkpt := 0 }
                               time := { s.time with bootNs := s.time.boundNs } } := by
  rw [mapCheckpoint, if_neg (by simp [hmount, Nat.not_lt.2 hdue])]

/-- Settles O36: each command's cases, and the four Wellheads' registers of a measurement one by one. -/
theorem blocksAreKeptAndStateIsSaved : Obligations.BlocksAreKeptAndStateIsSaved := by
  refine ⟨⟨?_, ?_, ?_, ?_, ?_, ?_⟩, ?_, ?_, ?_, ?_, ?_⟩
  · intro s u loc k failing bad hk hst hbad hu
    rw [exec_blockVerify]
    exact ⟨fun hclean => congrArg _ (blockVerify_of_clean hk hst hbad hu hclean),
      fun hfail hpart => congrArg _ (blockVerify_of_group hk hst hbad hu hfail hpart),
      fun hfail h3 h4 => congrArg _ (blockVerify_of_pages hk hst hbad hu hfail h3 h4)⟩
  · intro s well part h
    rw [exec_reclaim, reclaim_of_room h]
  · intro s u well part k hpart hup hscarce hleast hu
    rw [exec_reclaim, reclaim_of_scarce hpart hup hscarce hleast hu]
    exact ⟨fun hfree => by rw [hfree]; rfl, fun hmapped => by rw [if_pos hmapped]⟩
  · intro s u loc k hk hst hup hu
    rw [exec_programFail, programFail_of_open hk hst hup hu]
    exact ⟨fun h3 h4 => by rw [if_neg (not_or.2 ⟨h3, h4⟩)], fun hpart => by rw [if_pos hpart]⟩
  · intro s u loc k n hk hst hruns hup hintent hu
    rw [exec_programFail, programFail_of_erase hk hst hruns hup hintent hu]
  · intro s n
    rw [exec_readOnlyEntry, readOnlyEntry]
    refine ⟨fun hdue hspare hrw => ?_, fun hheld => ?_⟩
    · rw [if_neg (by simp [hdue, hspare, hrw])]
    · rw [if_pos hheld]
  · intro s us hpow hmount
    refine ⟨fun hus u hu => ?_, fun hus u hu => ?_⟩
    · rw [exec_holdupFlush, holdupFlush_of_inTime hpow hmount hus hu, hmount]
    · rw [exec_holdupFlush, holdupFlush_of_late hpow hmount hus hu, hmount]
  · intro s us hpow hmount
    rw [exec_holdupFlush, holdupFlush_of_unmounted hpow hmount]
  · intro s dj
    obtain ⟨hwdl, hreq, hmem⟩ := State.foldl_measured_keeps dj (decide (dj < 900) && !s.wdl.writeThrough) [0, 1, 2, 3]
      { s with wdl := { s.wdl with writeThrough := decide (dj < 900) } }
    refine ⟨_, rfl, ?_, fun w hw => ?_, ?_, ?_, ?_⟩
    · rw [holdupMeasure_eq, hwdl, decide_eq_true_eq]
    · rw [holdupMeasure_eq, State.reg_foldl_measured _ _ _ _ (by simp; omega), BitVec.toNat_ofNat, Nat.mod_eq_of_lt (by omega)]
    · exact hwdl
    · exact hreq
    · exact hmem
  · intro s hmount hdue
    rw [exec_mapCheckpoint, mapCheckpoint_of_due hmount hdue]
  · intro s h
    rw [exec_mapCheckpoint, mapCheckpoint, if_pos h]

end Sys2Proof.Machine
end

section
/-! PROOFS. What draining a ring writes: the records at its producer index, one after another, while it has room (R374, R379, R381). -/

namespace Sys2Proof.Machine

/-! ### Entries of a table taken out -/

theorem Tbl.length_del_le {α : Type} (m : Tbl α) (k : Nat) : (Tbl.del m k).length ≤ m.length := by
  induction m with
  | nil => exact Nat.le_refl 0
  | cons e t ih =>
    simp only [Tbl.del]
    split
    · exact Nat.le_succ_of_le ih
    · exact Nat.succ_le_succ ih

theorem Tbl.length_del_lt {α : Type} {m : Tbl α} {k : Nat} {v : α} (h : Tbl.look m k = some v) : (Tbl.del m k).length < m.length := by
  induction m with
  | nil => simp [Tbl.look] at h
  | cons e t ih =>
    simp only [Tbl.look] at h
    simp only [Tbl.del]
    split at h
    · next hk => rw [if_pos hk]; exact Nat.lt_succ_of_le (Tbl.length_del_le t k)
    · next hk => rw [if_neg hk]; exact Nat.succ_lt_succ (ih h)

/-! ### The ring that a drain moves on -/

/-- `r'` is the ring `r` with records written from its producer index on, within its room. -/
structure Ring.Drains (r r' : Ring) : Prop where
  prod_le : r.prod ≤ r'.prod
  cons : r'.cons = r.cons
  resv : r'.resv = r.resv
  log2 : r'.log2 = r.log2
  room : r.prod - r.cons ≤ r.entries → r'.prod - r'.cons ≤ r'.entries
  taken : ∀ p, r.prod ≤ p → p < r'.prod → (Tbl.look r.filled p).isSome = true
  kept : ∀ p, r'.prod ≤ p → Tbl.look r'.filled p = Tbl.look r.filled p

/-- The ring has no record to write next, or no room for it. -/
def Ring.rests (r : Ring) : Prop := Tbl.look r.filled r.prod = none ∨ r.hasRoom = false

namespace Ring.Drains
variable {r r' r'' : Ring}

theorem refl (r : Ring) : r.Drains r :=
  ⟨Nat.le_refl _, rfl, rfl, rfl, id, fun _ hle hlt => absurd hlt (Nat.not_lt.2 hle), fun _ _ => rfl⟩

theorem trans (h : r.Drains r') (h' : r'.Drains r'') : r.Drains r'' where
  prod_le := h.prod_le.trans h'.prod_le
  cons := h'.cons.trans h.cons
  resv := h'.resv.trans h.resv
  log2 := h'.log2.trans h.log2
  room := h'.room ∘ h.room
  taken p hle hlt := by
    by_cases hp : p < r'.prod
    · exact h.taken p hle hp
    · rw [← h.kept p (Nat.not_lt.1 hp)]
      exact h'.taken p (Nat.not_lt.1 hp) hlt
  kept p hp := (h'.kept p hp).trans (h.kept p (h'.prod_le.trans hp))

/-- What a drain notes beside the queue: the index write issued and the wait of a full ring. -/
theorem mark (r : Ring) (i : Nat) (w : Bool) : r.Drains { r with issued := i, waiting := w } :=
  ⟨Nat.le_refl _, rfl, rfl, rfl, id, fun _ hle hlt => absurd hlt (Nat.not_lt.2 hle), fun _ _ => rfl⟩

/-- One record written. -/
theorem write {rec : List Byte} (hrec : Tbl.look r.filled r.prod = some rec) (hroom : r.hasRoom = true) :
    r.Drains { r with prod := r.prod + 1, filled := Tbl.del r.filled r.prod, waiting := false } where
  prod_le := Nat.le_succ _
  cons := rfl
  resv := rfl
  log2 := rfl
  room _ := by
    have hlt : r.prod - r.cons < r.entries := of_decide_eq_true hroom
    show r.prod + 1 - r.cons ≤ r.entries
    omega
  taken p hle hlt := by
    have hp : p = r.prod := Nat.le_antisymm (Nat.le_of_lt_succ hlt) hle
    rw [hp, hrec]
    rfl
  kept p hp := Tbl.look_del_other _ (Nat.ne_of_gt hp)

end Ring.Drains

/-! ### The rings of the state -/

@[simp] theorem State.hostWrite_nor (s : State) (p a : Nat) (bs : List Byte) : (s.hostWrite p a bs).nor = s.nor := by
  unfold State.hostWrite
  split
  · rfl
  · exact State.setHp_nor _ _ _

theorem State.look_setRing (s : State) (rid : Nat) (r : Ring) : Tbl.look (s.setRing rid r).nor.rings rid = some r :=
  Tbl.look_put_same _ _ _

theorem State.look_setRing_other (s : State) {rid k : Nat} (r : Ring) (h : k ≠ rid) :
    Tbl.look (s.setRing rid r).nor.rings k = Tbl.look s.nor.rings k :=
  Tbl.look_put_other _ _ h

/-- From `s` to `t` the ring drains to `r'`, and every other ring is as it was. -/
structure RingDrained (s t : State) (rid : Nat) (r r' : Ring) : Prop where
  look : Tbl.look t.nor.rings rid = some r'
  drains : r.Drains r'
  other : ∀ k, k ≠ rid → Tbl.look t.nor.rings k = Tbl.look s.nor.rings k

theorem RingDrained.trans {s t u : State} {rid : Nat} {r r' r'' : Ring} (h : RingDrained s t rid r r')
    (h' : RingDrained t u rid r' r'') : RingDrained s u rid r r'' :=
  ⟨h'.look, h.drains.trans h'.drains, fun k hk => (h'.other k hk).trans (h.other k hk)⟩

/-- The records whose turn it is, with fuel for each record handed over: the ring rests afterwards. -/
theorem drainGo_drained (fuel : Nat) {s : State} {rid : Nat} (n : Nat) {r : Ring} (hr : Tbl.look s.nor.rings rid = some r)
    (hfuel : r.filled.length ≤ fuel) : ∃ r', RingDrained s (drainGo fuel s rid n).1 rid r r' ∧ r'.rests := by
  induction fuel generalizing s n r with
  | zero =>
    have hempty : r.filled = [] := List.length_eq_zero_iff.1 (Nat.le_zero.1 hfuel)
    exact ⟨r, ⟨hr, .refl r, fun _ _ => rfl⟩, .inl (by rw [hempty]; rfl)⟩
  | succ fuel ih =>
    simp only [drainGo, hr]
    split
    · next hnone => exact ⟨r, ⟨hr, .refl r, fun _ _ => rfl⟩, .inl hnone⟩
    · next rec hrec =>
      split
      · next hroom =>
        have hstep : RingDrained s ((s.hostWrite r.port (r.addr r.prod) rec).setRing rid
            { r with prod := r.prod + 1, filled := Tbl.del r.filled r.prod, waiting := false }) rid r _ :=
          ⟨State.look_setRing _ rid _, .write hrec hroom, fun k hk => by rw [State.look_setRing_other _ _ hk, State.hostWrite_nor]⟩
        have hdel : (Tbl.del r.filled r.prod).length ≤ fuel := by
          have hlt := Tbl.length_del_lt hrec
          omega
        obtain ⟨r', hdrained, hrests⟩ := ih (n + 1) hstep.look hdel
        exact ⟨r', hstep.trans hdrained, hrests⟩
      · next hfull => exact ⟨r, ⟨hr, .refl r, fun _ _ => rfl⟩, .inr (Bool.eq_false_iff.2 hfull)⟩

theorem State.noteIssued_drained {s : State} {rid : Nat} {r : Ring} (hr : Tbl.look s.nor.rings rid = some r) :
    ∃ i w, RingDrained s (s.noteIssued rid) rid r { r with issued := i, waiting := w } := by
  simp only [State.noteIssued, hr]
  split
  · exact ⟨r.prod, r.waiting, State.look_setRing _ _ _, .mark r _ _, fun k hk => State.look_setRing_other _ _ hk⟩
  · exact ⟨r.issued, r.waiting, hr, .mark r _ _, fun _ _ => rfl⟩

theorem State.noteFull_drained {s : State} {rid : Nat} {r : Ring} (hr : Tbl.look s.nor.rings rid = some r) :
    ∃ i w, RingDrained s (s.noteFull rid) rid r { r with issued := i, waiting := w } := by
  simp only [State.noteFull, hr]
  split
  · exact ⟨r.issued, true, State.look_setRing _ _ _, .mark r _ _, fun k hk => State.look_setRing_other _ _ hk⟩
  · exact ⟨r.issued, r.waiting, hr, .mark r _ _, fun _ _ => rfl⟩

/-- Settles O39: the drain itself by induction on its fuel; what follows it marks the ring and leaves its queue. -/
theorem ringsWriteInPositionOrderWithinTheirRoom : Obligations.RingsWriteInPositionOrderWithinTheirRoom := by
  intro s rid r hr
  obtain ⟨x, hx, hrests⟩ := drainGo_drained r.filled.length 0 hr (Nat.le_refl _)
  have hindex : ∃ (u : State) (i : Nat) (w : Bool), s.drainRing rid = u.noteFull rid ∧
      RingDrained s u rid r { x with issued := i, waiting := w } := by
    simp only [State.drainRing, hr]
    split
    · exact ⟨_, x.issued, x.waiting, rfl, hx⟩
    · simp only [hx.look]
      have hwrite : RingDrained s ((drainGo r.filled.length s rid 0).1.hostWrite x.port x.idx (leBytes 8 x.prod)) rid r x :=
        ⟨by rw [State.hostWrite_nor]; exact hx.look, hx.drains, fun k hk => by rw [State.hostWrite_nor]; exact hx.other k hk⟩
      obtain ⟨i, w, h⟩ := State.noteIssued_drained hwrite.look
      obtain ⟨hlook, hdrains, hother⟩ := hwrite.trans h
      exact ⟨_, i, w, rfl, hlook, hdrains, hother⟩
  obtain ⟨u, i, w, hu, hd⟩ := hindex
  obtain ⟨i', w', hfull⟩ := State.noteFull_drained hd.look
  obtain ⟨hlook, hdrains, hother⟩ := hd.trans hfull
  rw [hu]
  exact ⟨_, hlook, hdrains.prod_le, hdrains.cons, hdrains.resv, hdrains.log2, hdrains.room, hdrains.taken, hdrains.kept, hrests, hother⟩

end Sys2Proof.Machine
end

section
/-! PROOFS. The counter operations, through SYC_OP_GO and through the counter window (R385, R386, R390, R391, R410). -/

namespace Sys2Proof.Machine

/-! ### The meaning that a command runs -/

section
variable (s : State) (req : Requester) (wh : Nat)
@[simp] theorem exec_sycRead : exec (.sycRead req wh) s = .next (sycGo s req wh 0 0) := rfl
@[simp] theorem exec_sycAdd : exec (.sycAdd req wh) s = .next (sycGo s req wh 1 0) := rfl
@[simp] theorem exec_sycWait : exec (.sycWait req wh) s = .next (sycGo s req wh 2 0) := rfl
@[simp] theorem exec_sycCas : exec (.sycCas req wh) s = .next (sycGo s req wh 3 0) := rfl

theorem exec_sycClaim {core : Nat} (h : core < 16) : exec (.sycClaim req wh core) s = .next (sycGo s req wh 4 core) :=
  next_mod_of_lt h (sycGo s req wh 4)

theorem exec_sycRelease {core : Nat} (h : core < 16) : exec (.sycRelease req wh core) s = .next (sycGo s req wh 5 core) :=
  next_mod_of_lt h (sycGo s req wh 5)

theorem exec_counterWindowRead {port : Nat} (h : port < 2) (off width : Nat) :
    exec (.counterWindowRead port off width) s = .next (counterWindowRead s port off width) :=
  next_mod_of_lt h (fun p => counterWindowRead s p off width)

theorem exec_counterWindowAdd {port : Nat} (h : port < 2) (off width : Nat) (v : Word) :
    exec (.counterWindowAdd port off width v) s = .next (counterWindowAdd s port off width v.toNat) :=
  next_mod_of_lt h (fun p => counterWindowAdd s p off width v.toNat)
end

/-! ### A counter after an operation (R385) -/

section
variable (s : State) (op c a b owner : Nat)

@[simp] theorem State.ctrOp_old : (s.ctrOp op c a b owner).2.1 = (s.ctr c).toNat := rfl

@[simp] theorem State.ctrOp_status : (s.ctrOp op c a b owner).2.2 = (ctrApply op (s.ctr c).toNat a b owner).2 := rfl

/-- The counts of SYC_COUNT leave every counter; the operation sets its own. -/
theorem State.ctr_ctrOp (k : Nat) : (s.ctrOp op c a b owner).1.ctr k =
    (s.setCtr c (BitVec.ofNat 32 (ctrApply op (s.ctr c).toNat a b owner).1)).ctr k := by
  simp only [State.ctrOp]
  split
  · rfl
  · rfl

@[simp] theorem State.ctr_ctrOp_same :
    (s.ctrOp op c a b owner).1.ctr c = BitVec.ofNat 32 (ctrApply op (s.ctr c).toNat a b owner).1 := by
  rw [State.ctr_ctrOp, State.ctr_setCtr]

theorem State.ctr_ctrOp_other {k : Nat} (h : k ≠ c) : (s.ctrOp op c a b owner).1.ctr k = s.ctr k := by
  rw [State.ctr_ctrOp, State.ctr_setCtr_other _ _ h]
end

/-! ### SYC_OP_GO (R391) -/

section
variable {s : State} {req : Requester} {wh : Nat} (hwh : wh < 4) (hgate : s.gate req wh 32 3 = (s, true))
include hwh hgate

/-- Past the gate, the operation of the requester's context runs unless one is under way. -/
theorem sycGo_of_pass (op core : Nat) : sycGo s req wh op core =
    if (s.syc wh req).state = 1 then s.err wh 32 1
    else if op = 2 ∨ 5 < op then s.setSyc wh req { s.syc wh req with state := 2, status := 2, old := s.ctr (s.syc wh req).id }
    else
      let r := s.ctrOp op (s.syc wh req).id (s.syc wh req).a.toNat (s.syc wh req).b.toNat
        (requesterOwner req core ((s.syc wh req).b.toNat % 0x1000000))
      r.1.setSyc wh req { s.syc wh req with state := 2, status := r.2.2, old := BitVec.ofNat 32 r.2.1 } := by
  have hmod : wh % 4 = wh := Nat.mod_eq_of_lt hwh
  rw [sycGo, hmod, State.gated_of_pass hgate]

theorem sycGo_of_busy (hbusy : (s.syc wh req).state = 1) (op core : Nat) : sycGo s req wh op core = s.err wh 32 1 := by
  rw [sycGo_of_pass hwh hgate, if_pos hbusy]

variable {x : SycOp} (hx : x = s.syc wh req) (hidle : x.state ≠ 1)
include hx hidle

theorem sycGo_of_idle {op : Nat} (hwait : op ≠ 2) (hop : op ≤ 5) (core : Nat) {r : State × Nat × Nat}
    (hr : r = s.ctrOp op x.id x.a.toNat x.b.toNat (requesterOwner req core (x.b.toNat % 0x1000000))) :
    sycGo s req wh op core = r.1.setSyc wh req { x with state := 2, status := r.2.2, old := BitVec.ofNat 32 r.2.1 } := by
  subst hx hr
  rw [sycGo_of_pass hwh hgate, if_neg hidle, if_neg (not_or.2 ⟨hwait, Nat.not_lt.2 hop⟩)]

theorem sycGo_wait_of_idle (core : Nat) :
    sycGo s req wh 2 core = s.setSyc wh req { x with state := 2, status := 2, old := s.ctr x.id } := by
  subst hx
  rw [sycGo_of_pass hwh hgate, if_neg hidle, if_pos (.inl rfl)]
end

/-! ### The counter window (R390, R410) -/

section
variable {s : State} {port off width v : Nat}

theorem counterWindow_of_unserved (hbars : (s.hp port).bars = false) :
    counterWindowRead s port off width = s ∧ counterWindowAdd s port off width v = s := by
  simp only [counterWindowRead, counterWindowAdd, hbars, Bool.not_false, Bool.true_or, if_true, and_self]

variable (hbars : (s.hp port).bars = true)
include hbars

theorem counterWindow_of_safe (hsafe : s.flt.safe = true) :
    counterWindowRead s port off width = s.answer 0xFFFFFFFF ∧ counterWindowAdd s port off width v = s := by
  simp only [counterWindowRead, counterWindowAdd, hbars, hsafe, Bool.not_true, Bool.or_true, Bool.false_eq_true, if_false, if_true,
    and_self]

variable (hsafe : s.flt.safe = false)
include hsafe

theorem counterWindow_of_early (hready : s.boot.ready = false) :
    counterWindowRead s port off width = s.answer 0 ∧ counterWindowAdd s port off width v = s.hptDrop port := by
  simp only [counterWindowRead, counterWindowAdd, hbars, hsafe, hready, Bool.not_true, Bool.not_false, Bool.or_self,
    Bool.false_eq_true, if_false, if_true, and_self]

/-- In service, the access is a counter operation where it is aligned and 4 bytes wide, and logged where it is not. -/
theorem counterWindow_of_service (hready : s.boot.ready = true) :
    counterWindowRead s port off width = (if windowOk off width then (s.ctrOp 0 (off / 4 % 131072) 0 0 0).1.answer
      (s.ctr (off / 4 % 131072)).toNat else s.err (s.ctrWh (off / 4 % 131072)) 32 2) ∧
    counterWindowAdd s port off width v = (if windowOk off width then s.advance (off / 4 % 131072) v
      else s.err (s.ctrWh (off / 4 % 131072)) 32 2) := by
  cases hok : windowOk off width with
  | true => simp [counterWindowRead, counterWindowAdd, hbars, hsafe, hready, hok]
  | false => simp [counterWindowRead, counterWindowAdd, hbars, hsafe, hready, hok]
end

theorem windowOk_iff (off width : Nat) : windowOk off width = true ↔ off % 4 = 0 ∧ width = 4 := by
  simp [windowOk]

/-- Settles O40: the operation itself is a case of its table, and each access is one operation or an error. -/
theorem counterOperationsAreAtomic : Obligations.CounterOperationsAreAtomic := by
  refine ⟨?_, ?_, ?_, ?_, ?_⟩
  · intro s req wh core x hwh hcore hgate hx hidle
    have hgo {op core : Nat} (h2 : op ≠ 2) (h5 : op ≤ 5) {r : State × Nat × Nat}
        (hr : r = s.ctrOp op x.id x.a.toNat x.b.toNat (requesterOwner req core (x.b.toNat % 0x1000000))) :=
      congrArg (Host.Outcome.next (φ := Fault) (ρ := Refusal)) (sycGo_of_idle hwh hgate hx hidle h2 h5 core hr)
    rw [exec_sycClaim s req wh hcore, exec_sycRelease s req wh hcore]
    exact ⟨fun r hr => hgo (by decide) (by decide) hr, fun r hr => hgo (by decide) (by decide) hr,
      congrArg _ (sycGo_wait_of_idle hwh hgate hx hidle 0), fun r hr => hgo (by decide) (by decide) hr,
      fun r hr => hgo (by decide) (by decide) hr, fun r hr => hgo (by decide) (by decide) hr⟩
  · intro s op c a b owner _ howner
    refine ⟨rfl, by rw [State.ctr_ctrOp_same, BitVec.toNat_ofNat], fun k hk => State.ctr_ctrOp_other s op c a b owner hk, ?_, ?_, ?_⟩
    · rintro rfl
      rw [State.ctr_ctrOp_same]
      exact BitVec.eq_of_toNat_eq (by simp [ctrApply])
    · rintro rfl
      have hzero : s.ctr c = 0 ↔ (s.ctr c).toNat = 0 := by simp [← BitVec.toNat_inj]
      rw [State.ctrOp_status, hzero]
      by_cases h : (s.ctr c).toNat = 0 <;> simp [ctrApply, h]
    · rintro rfl hother
      have hne : (s.ctr c).toNat ≠ owner := fun h => hother (by rw [← h, BitVec.ofNat_toNat, BitVec.setWidth_eq])
      rw [State.ctrOp_status, State.ctr_ctrOp_same]
      simp [ctrApply, hne]
  · intro s port off v hport hbars hsafe hready
    have hservice {width : Nat} := counterWindow_of_service (off := off) (width := width) (v := v.toNat) hbars hsafe hready
    refine ⟨fun hal => ?_, fun hal => ?_, fun width hbad => ?_⟩
    · rw [exec_counterWindowRead s hport, hservice.1, if_pos ((windowOk_iff _ _).2 ⟨hal, rfl⟩)]
    · rw [exec_counterWindowAdd s hport, hservice.2, if_pos ((windowOk_iff _ _).2 ⟨hal, rfl⟩)]
    · have hno : ¬ windowOk off width = true := fun h => by
        obtain ⟨hal, hw⟩ := (windowOk_iff _ _).1 h
        exact hbad.elim (fun h => h hal) (fun h => h hw)
      rw [exec_counterWindowRead s hport, exec_counterWindowAdd s hport, hservice.1, hservice.2, if_neg hno, if_neg hno]
      exact ⟨rfl, rfl⟩
  · intro s req wh core hwh hcore hgate hbusy
    simp only [exec_sycRead, exec_sycAdd, exec_sycWait, exec_sycCas, exec_sycClaim s req wh hcore, exec_sycRelease s req wh hcore,
      sycGo_of_busy hwh hgate hbusy, and_self]
  · intro s port off width v hport
    rw [exec_counterWindowRead s hport, exec_counterWindowAdd s hport]
    refine ⟨fun hbars => ?_, fun hbars hsafe => ?_, fun hbars hsafe hready => ?_⟩
    · obtain ⟨hread, hadd⟩ := counterWindow_of_unserved (off := off) (width := width) (v := v.toNat) hbars
      rw [hread, hadd]
      exact ⟨rfl, rfl⟩
    · obtain ⟨hread, hadd⟩ := counterWindow_of_safe (off := off) (width := width) (v := v.toNat) hbars hsafe
      rw [hread, hadd]
      exact ⟨rfl, rfl⟩
    · obtain ⟨hread, hadd⟩ := counterWindow_of_early (off := off) (width := width) (v := v.toNat) hbars hsafe hready
      rw [hread, hadd]
      exact ⟨rfl, rfl⟩

end Sys2Proof.Machine
end

section
/-! PROOFS. Parked WAITs: which command parks, answers or issues a unit's WAIT (R385, R389). -/

namespace Sys2Proof.Machine

@[simp] theorem exec_waitPark (s : State) (u : WaitUnit) (c thr : Nat) : exec (.waitPark u c thr) s = .next (waitPark s u c thr) := rfl
@[simp] theorem exec_waitSatisfied (s : State) (w : Nat) : exec (.waitSatisfied w) s = .next (waitSatisfied s w) := rfl
@[simp] theorem exec_waitReissue (s : State) (w : Nat) : exec (.waitReissue w) s = .next (waitReissue s w) := rfl

/-! ### WAIT_PARK -/

section
variable {s : State} {u : WaitUnit} {c thr : Nat}

/-- The WAIT of a unit that has none is parked where its counter is below the threshold. -/
theorem waitPark_of_free (hfree : ∀ p ∈ s.nor.parked ++ s.nor.retry, p.unit ≠ u) :
    waitPark s u c thr = if s.ctrMet c thr then s else s.park { unit := u, ctr := c, thr := thr } := by
  have hnone : (s.nor.parked ++ s.nor.retry).any (fun p => decide (p.unit = u)) = false := by
    simpa only [List.any_eq_false, decide_eq_true_eq] using hfree
  rw [waitPark, hnone, Bool.or_false]

theorem waitPark_of_outstanding {p : Park} (hp : p ∈ s.nor.parked ++ s.nor.retry) (hu : p.unit = u) : waitPark s u c thr = s := by
  have hany : (s.nor.parked ++ s.nor.retry).any (fun p => decide (p.unit = u)) = true :=
    List.any_eq_true.2 ⟨p, hp, decide_eq_true hu⟩
  rw [waitPark, hany, Bool.or_true, if_pos rfl]
end

/-! ### WAIT_SATISFIED and WAIT_REISSUE -/

theorem waitSatisfied_of_met {s : State} {w : Nat} {p : Park}
    (hfind : s.nor.parked.find? (fun p => decide (s.ctrWh p.ctr = w) && s.ctrMet p.ctr p.thr) = some p) :
    waitSatisfied s w = ({ s with nor := { s.nor with parked := s.nor.parked.erase p } } : State).waitGo p := by
  simp only [waitSatisfied, hfind]

theorem waitSatisfied_of_none {s : State} {w : Nat} (hnone : ∀ p ∈ s.nor.parked, s.ctrWh p.ctr = w → s.ctrMet p.ctr p.thr = false) :
    waitSatisfied s w = s := by
  have hfind : s.nor.parked.find? (fun p => decide (s.ctrWh p.ctr = w) && s.ctrMet p.ctr p.thr) = none := by
    simpa only [List.find?_eq_none, Bool.and_eq_true, decide_eq_true_eq, not_and, Bool.not_eq_true] using hnone
  simp only [waitSatisfied, hfind]

theorem waitReissue_of_retry {s u : State} {w : Nat} {p : Park} (hfind : s.nor.retry.find? (fun p => decide (s.ctrWh p.ctr = w)) = some p)
    (hu : u = ({ s with nor := { s.nor with retry := s.nor.retry.erase p } } : State)) :
    waitReissue s w = if u.ctrMet p.ctr p.thr then u.waitGo p else u.park p := by
  subst hu
  simp only [waitReissue, hfind]

/-- Settles O41: the counter and the table's room decide what becomes of a WAIT. -/
theorem waitsParkAndResume : Obligations.WaitsParkAndResume := by
  refine ⟨?_, ?_, ?_, ?_⟩
  · intro s u c thr hfree
    rw [exec_waitPark, waitPark_of_free hfree]
    refine ⟨fun hbelow hroom => ?_, fun hbelow hfull => ?_, fun hmet => by rw [if_pos hmet]⟩
    · rw [hbelow, if_neg Bool.false_ne_true, State.park, if_neg (Nat.not_le.2 hroom)]
    · rw [hbelow, if_neg Bool.false_ne_true, State.park, if_pos hfull]
  · intro s u c thr p hp hu
    rw [exec_waitPark, waitPark_of_outstanding hp hu]
  · intro s w
    exact ⟨fun p hfind => congrArg _ (waitSatisfied_of_met hfind), fun hnone => congrArg _ (waitSatisfied_of_none hnone)⟩
  · intro s u w p hfind hu
    rw [exec_waitReissue, waitReissue_of_retry hfind hu]
    exact ⟨fun hmet => by rw [if_pos hmet], fun hbelow => by rw [hbelow]; rfl⟩

end Sys2Proof.Machine
end

section
/-! PROOFS. Host ports that come up and go down, and what their configuration and BAR2 accesses reach (R405, R408 to R413). -/

namespace Sys2Proof.Machine

/-! ### The meaning that a command runs -/

section
variable (s : State) {p : Nat} (hp : p < 2)
include hp
theorem exec_perstRelease : exec (.perstRelease p) s = .next (perstRelease s p) := next_mod_of_lt hp (perstRelease s)

theorem exec_portReset : exec (.portReset p) s = .next (portReset s p) := next_mod_of_lt hp (portReset s)

theorem exec_hostPortReturn (lanes speed : Nat) : exec (.hostPortReturn p lanes speed) s = .next (hostPortReturn s p lanes speed) :=
  next_mod_of_lt hp (fun p => hostPortReturn s p lanes speed)

theorem exec_hostReadFail (addr len : Nat) : exec (.hostReadFail p addr len) s = .next (hostReadFail s p addr len) :=
  next_mod_of_lt hp (fun p => hostReadFail s p addr len)

theorem exec_hostReadReissue (ok : Bool) : exec (.hostReadReissue p ok) s = .next (hostReadReissue s p ok) :=
  next_mod_of_lt hp (fun p => hostReadReissue s p ok)

theorem exec_configRequest (reg : Nat) (w rrs : Bool) (v : Word) :
    exec (.configRequest p reg w rrs v) s = .next (configRequest s p reg w rrs v.toNat) :=
  next_mod_of_lt hp (fun p => configRequest s p reg w rrs v.toNat)

theorem exec_bar2Access (off len : Nat) (w poisoned : Bool) (data : List Byte) :
    exec (.bar2Access p off len w poisoned data) s = .next (bar2Access s p off len w poisoned data) :=
  next_mod_of_lt hp (fun p => bar2Access s p off len w poisoned data)

theorem exec_hptWinWrite (req : Requester) (v : Word) : exec (.hptWinWrite req p v) s = .next (hptWinWrite s req p v.toNat) :=
  next_mod_of_lt hp (fun p => hptWinWrite s req p v.toNat)
end

/-! ### Ports (R410, R412, R413) -/

theorem hostReadReissue_of_down {s : State} {p : Nat} (hdown : (s.hp p).up = false) (ok : Bool) : hostReadReissue s p ok = s := by
  simp only [hostReadReissue, hdown, Bool.not_false, if_true]
  split
  · rfl
  · rfl

theorem hostReadReissue_of_up {s : State} {p a n : Nat} {t : List (Nat × Nat)} (hfailed : (s.hp p).failed = (a, n) :: t)
    (hup : (s.hp p).up = true) :
    hostReadReissue s p true = (s.setHp p { s.hp p with failed := t }).bumpWide p 13 3 0 n ∧
    hostReadReissue s p false = ((s.bumpWide p 13 4 0 1).event p 13 [sqBit 0x118 2] []).setHp p
      { s.hp p with failed := t ++ [(a, n)] } := by
  simp only [hostReadReissue, hfailed, hup, Bool.not_true, Bool.false_eq_true, if_false, if_true, true_and]
  rfl

/-- Settles O42: the port's own flags choose each command's case. -/
theorem hostPortsComeUpAndGoDown : Obligations.HostPortsComeUpAndGoDown := by
  intro s p hp
  refine ⟨fun hheld => ?_, fun hrel => ?_, ⟨_, rfl, ?_, ?_, ?_⟩, fun lanes speed => ?_, fun addr len => ?_, fun a n t hfailed =>
    ⟨fun hup => ?_, fun hup => ?_, fun ok hdown => ?_⟩⟩
  · rw [exec_perstRelease s hp, perstRelease, hheld, if_neg Bool.false_ne_true]
  · rw [exec_perstRelease s hp, perstRelease, if_pos hrel]
  · rw [exec_portReset s hp, portReset]
  · rw [State.hp_setHp]
  · rw [State.hp_setHp]
  · rw [exec_hostPortReturn s hp, hostPortReturn]
    rfl
  · rw [exec_hostReadFail s hp, hostReadFail]
    rfl
  · rw [exec_hostReadReissue s hp, (hostReadReissue_of_up hfailed hup).1]
  · rw [exec_hostReadReissue s hp, (hostReadReissue_of_up hfailed hup).2]
  · rw [exec_hostReadReissue s hp, hostReadReissue_of_down hdown]

/-! ### Configuration requests (R405, R410) -/

section
variable {s : State} {p reg v : Nat} {w rrs : Bool}

theorem configRequest_of_held (hheld : (s.hp p).released = false) : configRequest s p reg w rrs v = s := by
  simp only [configRequest, hheld, Bool.not_false, if_true]

variable (hrel : (s.hp p).released = true)
include hrel

theorem configRequest_of_early (hcfg : (s.hp p).cfgReady = false) :
    configRequest s p reg w rrs v = if w = false ∧ rrs = true ∧ reg = 0 then s.answer 1 else s := by
  simp only [configRequest, hrel, hcfg, Bool.not_true, Bool.not_false, Bool.false_eq_true, if_false, if_true, Bool.and_eq_true,
    Bool.not_eq_true', beq_iff_eq, and_assoc]

theorem configRequest_of_ready (hcfg : (s.hp p).cfgReady = true) :
    configRequest s p reg w rrs v = if w then s.configWrite p reg v else s.configRead reg := by
  simp only [configRequest, hrel, hcfg, Bool.not_true, Bool.false_eq_true, if_false]
end

/-! ### BAR2 in service (R408 to R411) -/

section
variable {s u : State} {p off len : Nat} {w poisoned : Bool} {data : List Byte} (hbars : (s.hp p).bars = true)
  (hsafe : s.flt.safe = false) (hu : u = s.bumpWide p 13 1 0 1)
include hbars hsafe hu

/-- Every access is counted first; a poisoned write does nothing but count. -/
theorem bar2Access_of_poisoned : bar2Access s p off len true true data = u := by
  subst hu
  simp only [bar2Access, hbars, hsafe, Bool.not_true, Bool.false_eq_true, if_false, Bool.and_self, if_true]

theorem bar2Access_of_doorbell {o : Nat} (ho : doorbellBase + o < counterBase) :
    bar2Access s p (doorbellBase + o) len true false data =
      doorbellWrite u p (o / 8) (leNat data) (decide (o % 8 = 0) && decide (data.length = 8)) ∧
    bar2Access s p (doorbellBase + o) len false false data =
      u.answer (if (s.hp p).pagesReady && s.boot.ready then u.doorbellRead (o / 8) else 0) := by
  subst hu
  simp only [bar2Access, hbars, hsafe, ho, Bool.not_true, Bool.false_eq_true, if_false, Bool.and_false, Nat.le_add_right, and_self, if_true,
    Nat.add_sub_cancel_left, Bool.and_self]
  exact ⟨trivial, rfl⟩

theorem bar2Access_of_counter {o : Nat} (ho : counterBase + o < bar2Reserved) :
    bar2Access s p (counterBase + o) len true false data = counterWindowAdd u p o data.length (leNat data) ∧
    bar2Access s p (counterBase + o) len false false data = counterWindowRead u p o len := by
  have hbelow : ¬(counterBase + o < counterBase ∧ doorbellBase ≤ counterBase + o) := fun h => by omega
  subst hu
  simp only [bar2Access, hbars, hsafe, hbelow, ho, Bool.not_true, Bool.false_eq_true, if_false, Bool.and_false, Nat.le_add_right, and_self,
    if_true, Nat.add_sub_cancel_left, Bool.and_self]

variable (hpages : (s.hp p).pagesReady = true)
include hpages

theorem bar2Access_of_reserved (o : Nat) (w : Bool) : bar2Access s p (bar2Reserved + o) len w false data = u.windowMiss p 2 := by
  have hdoor : ¬(bar2Reserved + o < counterBase ∧ doorbellBase ≤ bar2Reserved + o) := by
    simp only [bar2Reserved, counterBase]
    omega
  have hctr : ¬(bar2Reserved + o < bar2Reserved ∧ counterBase ≤ bar2Reserved + o) := fun h => by omega
  subst hu
  simp only [bar2Access, hbars, hsafe, hpages, hdoor, hctr, Bool.not_true, Bool.false_eq_true, if_false, Bool.and_false, Nat.le_add_right,
    if_true]

/-- A window access goes to the window's address, unless it runs past the host area. -/
theorem bar2Access_of_window (hoff : off < doorbellBase) {n : Nat} (hn : n = if w then data.length else len) :
    bar2Access s p off len w false data = if 3840 * 1073741824 < s.windowAddr p off + n then u.windowMiss p 1
      else if w then u.store .lpddr (s.windowAddr p off) data
      else u.answer (leNat (s.load .lpddr (s.windowAddr p off) n)) := by
  have hdoor : ¬(off < counterBase ∧ doorbellBase ≤ off) := fun h => Nat.not_le.2 hoff h.2
  have hctr : ¬(off < bar2Reserved ∧ counterBase ≤ off) := by
    simp only [doorbellBase, counterBase] at hoff ⊢
    omega
  have hres : ¬ bar2Reserved ≤ off := by
    simp only [doorbellBase, bar2Reserved] at hoff ⊢
    omega
  subst hu hn
  simp only [bar2Access, hbars, hsafe, hpages, hdoor, hctr, hres, Bool.not_true, Bool.false_eq_true, if_false, Bool.and_false]
  rfl
end

/-- Settles O43: the offset chooses the range, and the range the access. -/
theorem hostAccessesReachWhatTheirAddressNames : Obligations.HostAccessesReachWhatTheirAddressNames := by
  refine ⟨?_, ?_, ?_, ?_⟩
  · intro s p reg w rrs v hp
    simp only [exec_configRequest s hp]
    refine ⟨fun hheld => by rw [configRequest_of_held hheld], fun hrel hcfg => ⟨?_, fun hother => ?_⟩, fun hrel hcfg => ⟨?_, ?_⟩⟩
    · rw [configRequest_of_early hrel hcfg, if_pos ⟨rfl, rfl, rfl⟩]
    · rw [configRequest_of_early hrel hcfg, if_neg]
      rintro ⟨hw, hrrs, hreg⟩
      rcases hother with h | h | h
      · simp [hw] at h
      · simp [hrrs] at h
      · exact h hreg
    · rw [configRequest_of_ready hrel hcfg, if_pos rfl]
    · rw [configRequest_of_ready hrel hcfg, if_neg Bool.false_ne_true]
  · intro s u p off len a data hp hbars hpages hsafe hoff hu ha
    subst ha
    simp only [exec_bar2Access s hp]
    have hwrite := bar2Access_of_window (w := true) (len := len) (data := data) hbars hsafe hu hpages hoff rfl
    have hread := bar2Access_of_window (w := false) (len := len) (data := data) hbars hsafe hu hpages hoff rfl
    refine ⟨fun hin => ⟨?_, fun k hk => ?_⟩, fun hin => ?_, fun hpast => ⟨_, rfl, ?_, ?_⟩, ?_⟩
    · rw [hwrite, if_pos rfl, if_neg (Nat.not_lt.2 hin), if_pos rfl]
    · rw [hu]
      exact Memory.read_writeBytes_other _ _ _ hk
    · rw [hread, if_neg Bool.false_ne_true, if_neg (Nat.not_lt.2 hin), if_neg Bool.false_ne_true]
    · rw [hwrite, if_pos rfl, if_pos hpast]
    · rw [hwrite, if_pos rfl, if_pos hpast, hu]
      rfl
    · rw [bar2Access_of_poisoned hbars hsafe hu]
  · intro s u p o len data hp hbars hsafe hu
    simp only [exec_bar2Access s hp]
    refine ⟨fun ho => ?_, fun ho => ?_, fun hpages hready ho => ?_, fun hpages => ?_⟩
    · rw [(bar2Access_of_doorbell hbars hsafe hu ho).1]
    · obtain ⟨hadd, hread⟩ := bar2Access_of_counter (len := len) (data := data) hbars hsafe hu ho
      rw [hadd, hread]
      exact ⟨rfl, rfl⟩
    · rw [(bar2Access_of_doorbell hbars hsafe hu ho).2, hpages, hready]
      rfl
    · rw [bar2Access_of_reserved hbars hsafe hu hpages, bar2Access_of_reserved hbars hsafe hu hpages]
      exact ⟨rfl, rfl⟩
  · intro s req p v hp hgate
    rw [exec_hptWinWrite s hp, hptWinWrite, State.gated_of_pass hgate]

end Sys2Proof.Machine
end

section
/-! PROOFS. The Siphon's channels: the next descriptor, its transfer, and its completion (R393, R394, R396 to R399, R402). -/

namespace Sys2Proof.Machine

/-! ### The meaning that a command runs -/

section
variable (s : State) (die chan : Nat)
@[simp] theorem exec_siphonTransfer (fed : List Byte) : exec (.siphonTransfer die chan fed) s = .next (siphonTransfer s die chan fed) := rfl
@[simp] theorem exec_siphonEnd (fed : List Byte) : exec (.siphonEnd die chan fed) s = .next (siphonEnd s die chan fed) := rfl
@[simp] theorem exec_siphonComplete : exec (.siphonComplete die chan) s = .next (siphonComplete s die chan) := rfl
end

/-! ### The next descriptor (R394, R396 to R398) -/

section
variable {s : State} {die chan a : Nat} {fed d : List Byte} (hnext : s.sipNext die chan fed = some (a, d))
include hnext

theorem siphonEnd_of_end (hend : sipIsEnd d = true) :
    siphonEnd s die chan fed = s.setSip die chan { s.sipChan die chan with at_ := none } := by
  simp only [siphonEnd, hnext, hend, if_true]

variable (hend : sipIsEnd d = false)
include hend

theorem siphonTransfer_of_failed (hfail : s.sipCheck die d ≠ 0) :
    siphonTransfer s die chan fed = s.sipRefuse die chan a (s.sipCheck die d) d := by
  simp only [siphonTransfer, hnext, hend, hfail, Bool.false_eq_true, if_false, ne_eq, not_false_eq_true, if_true]

variable (hpass : s.sipCheck die d = 0)
include hpass

theorem siphonTransfer_of_bad_start (hstart : s.startOk die d = false) :
    siphonTransfer s die chan fed = s.sipRefuse die chan a 7 d := by
  simp only [siphonTransfer, hnext, hend, hpass, hstart, Bool.false_eq_true, if_false, ne_eq, not_true_eq_false, Bool.not_false, if_true]

variable (hstart : s.startOk die d = true) {w : Park}
  (hw : w = { unit := .siphon die chan, ctr := sipWait d % 0x20000, thr := fld d 0x38 4 })
include hstart hw

theorem siphonTransfer_of_waiting (hwait : (bitAt (sipWait d) 31 = true ∧ s.waitMet w = false) ∨ s.sideReady die d = false) :
    siphonTransfer s die chan fed = s := by
  subst hw
  simp only [siphonTransfer, hnext, hend, hpass, hstart, Bool.false_eq_true, if_false, ne_eq, not_true_eq_false, Bool.not_true]
  rcases hwait with ⟨hbit, hmet⟩ | hside
  · simp only [hbit, hmet, Bool.not_false, Bool.and_self, if_true]
  · simp only [hside, Bool.not_false, if_true, ite_self]

/-- A descriptor that may run is noted as moved, its stream read and laid, and its bytes counted both ways. -/
theorem siphonTransfer_of_ready (hmet : bitAt (sipWait d) 31 = false ∨ s.waitMet w = true) (hside : s.sideReady die d = true)
    {u : State} (hu : u = (s.waitUsed (sipWait d) w).sipTook die chan a) {j : Nat}
    (hj : j = (if die < 4 then 0 else s.jobOn (die - 8))) {r : List Byte × State}
    (hr : r = (u.setSip die chan { u.sipChan die chan with job := j, moved := some d, addr := a }).sipStream die j d) {v : State}
    (hv : v = r.2.sipLay die j d r.1) :
    siphonTransfer s die chan fed = (v.bumpWide die 30 1 chan r.1.length).bumpWide die 30 2 chan r.1.length := by
  have hgo : (bitAt (sipWait d) 31 && !s.waitMet w) = false := by
    rcases hmet with h | h <;> simp [h]
  subst hw hv hr hj hu
  simp only [siphonTransfer, hnext, hend, hpass, hstart, hgo, hside, Bool.false_eq_true, if_false, ne_eq, not_true_eq_false, Bool.not_true]
end

/-! ### SIPHON_COMPLETE (R399) -/

section
variable {s u : State} {die chan : Nat} {d : List Byte} (hmoved : (s.sipChan die chan).moved = some d)
include hmoved

theorem siphonComplete_of_flying (hflying : s.sipLanded die d = false) : siphonComplete s die chan = s := by
  simp only [siphonComplete, hmoved, hflying, Bool.not_false, Bool.or_true, if_true]

/-- Once its bytes have landed the transfer is counted; a START gives its list, any other kind advances its counter too. -/
theorem siphonComplete_of_landed (hu : u = (s.setSip die chan { s.sipChan die chan with moved := none }).bump die 30 0x108 1)
    (hthere : s.sipThere die chan = true) (hlanded : s.sipLanded die d = true) :
    siphonComplete s die chan =
      if sipKind d = 1 then u.sipStart die chan d else (u.sipStart die chan d).advanceFld (sipDone d) 1 := by
  subst hu
  simp only [siphonComplete, hmoved, hthere, hlanded, Bool.not_true, Bool.or_self, Bool.false_eq_true, if_false]
end

/-- Settles O44: the checks, the wait and the sides choose the transfer's case, done_kind the completion's. -/
theorem siphonsMoveBytesInTheirOrder : Obligations.SiphonsMoveBytesInTheirOrder := by
  refine ⟨?_, ?_, ?_⟩
  · intro s die chan a fed d w hnext hend hw
    refine ⟨fun hfail => ?_, fun hpass hstart => ?_, fun hpass hstart hwait => ?_, fun u j r v hpass hmet hstart hside hu hj hr hv => ?_⟩
    · exact congrArg _ (siphonTransfer_of_failed hnext hend hfail)
    · exact congrArg _ (siphonTransfer_of_bad_start hnext hend hpass hstart)
    · exact congrArg _ (siphonTransfer_of_waiting hnext hend hpass hstart hw hwait)
    · exact congrArg _ (siphonTransfer_of_ready hnext hend hpass hstart hw hmet hside hu hj hr hv)
  · intro s die chan a fed d hnext hend
    exact congrArg _ (siphonEnd_of_end hnext hend)
  · intro s u die chan d hmoved hu
    refine ⟨fun hthere hlanded hkind => ?_, fun hthere hlanded hkind hstart => ?_, fun hthere hlanded hkind hstart => ?_,
      fun hflying => congrArg _ (siphonComplete_of_flying hmoved hflying)⟩
    · rw [exec_siphonComplete, siphonComplete_of_landed hmoved hu hthere hlanded, if_neg (by omega), State.sipStart, if_pos hkind]
    · rw [exec_siphonComplete, siphonComplete_of_landed hmoved hu hthere hlanded, if_pos hkind, State.sipStart, if_neg (by omega),
        if_pos hstart]
    · rw [exec_siphonComplete, siphonComplete_of_landed hmoved hu hthere hlanded, if_pos hkind, State.sipStart, if_neg (by omega),
        hstart, if_neg Bool.false_ne_true]

end Sys2Proof.Machine
end

section
/-! PROOFS. Ziori messages: what arrives and its effect, credits and acknowledgements, resends and teardown (R422 to R427). -/

namespace Sys2Proof.Machine

/-! ### The meaning that a command runs -/

section
variable (s : State) (m : ZioMsg) (p : Nat)
@[simp] theorem exec_zioWrite : exec (.zioWrite m) s = .next (zioWrite s m) := rfl
@[simp] theorem exec_zioPartial : exec (.zioPartial m) s = .next (zioPartial s m) := rfl
@[simp] theorem exec_zioCtrAdd : exec (.zioCtrAdd m) s = .next (zioCtrAdd s m) := rfl
@[simp] theorem exec_zioCommand : exec (.zioCommand m) s = .next (zioCommand s m) := rfl
@[simp] theorem exec_zioRecord : exec (.zioRecord m) s = .next (zioRecord s m) := rfl
@[simp] theorem exec_zioCtrl (vc credits : Nat) (nak : Bool) (lseq src dst eack : Nat) :
    exec (.zioCtrl p vc credits nak lseq src dst eack) s = .next (zioCtrl s p vc credits nak lseq src dst eack) := rfl
@[simp] theorem exec_headerCrcNak : exec (.headerCrcNak p) s = .next (headerCrcNak s p) := rfl
@[simp] theorem exec_e2eResend : exec (.e2eResend p) s = .next (e2eResend s p) := rfl
@[simp] theorem exec_streamTeardown (dst vc w : Nat) : exec (.streamTeardown dst vc w) s = .next (streamTeardown s dst vc w) := rfl
end

/-! ### Taking a message (R422, R423, R426) -/

/-- A message that arrives, the state `u` after a next one of its stream: the stream expects the sequence past its flits. -/
def State.zioNext (a : State) (m : ZioMsg) : State :=
  { a with zio := { a.zio with
    rxNext := Tbl.set 0 a.zio.rxNext (m.src * 4 + m.vc) ((m.eseq + zioFlits (16 * m.length)) % 4294967296) } }

theorem State.zioArrived_node (s : State) (p n : Nat) : (s.zioArrived p n).node = s.node := rfl

section
variable {s a : State} {m : ZioMsg} {op : Nat} {spaces : List Nat} {f : State → State} (hdst : m.dst = s.node)
  (htakes : s.zioTakes m.port = true) (ha : a = s.zioArrived m.port (zioFlits (16 * m.length)))
include hdst htakes ha

/-- What is not the next of its stream only arrives. -/
theorem State.zioTake_of_out_of_order (hseq : m.eseq % 4294967296 ≠ Tbl.val 0 a.zio.rxNext (m.src * 4 + m.vc)) :
    s.zioTake m op spaces f = a := by
  subst ha
  have hnode : m.dst = (s.zioArrived m.port (zioFlits (16 * m.length))).node := hdst
  simp only [State.zioTake, ← hdst, ← hnode, htakes, hseq, ne_eq, not_true_eq_false, not_false_eq_true, false_and, if_false,
    if_true, Bool.not_true, Bool.false_eq_true]

variable (hseq : m.eseq % 4294967296 = Tbl.val 0 a.zio.rxNext (m.src * 4 + m.vc))
include hseq

theorem State.zioTake_of_next : s.zioTake m op spaces f =
    if m.op ≠ op ∨ spaces.contains m.space = false then (a.zioNext m).zioUnreach m.port 1 else f (a.zioNext m) := by
  subst ha
  have hnode : m.dst = (s.zioArrived m.port (zioFlits (16 * m.length))).node := hdst
  simp only [State.zioTake, ← hdst, ← hnode, htakes, hseq, ne_eq, not_true_eq_false, false_and, if_false, Bool.not_true,
    Bool.false_eq_true]
  rfl

theorem State.zioTake_of_foreign (hbad : m.op ≠ op ∨ m.space ∉ spaces) :
    s.zioTake m op spaces f = (a.zioNext m).zioUnreach m.port 1 := by
  rw [State.zioTake_of_next hdst htakes ha hseq, if_pos (hbad.imp_right (by simp))]

theorem State.zioTake_of_own (hop : m.op = op) (hspace : m.space ∈ spaces) : s.zioTake m op spaces f = f (a.zioNext m) := by
  rw [State.zioTake_of_next hdst htakes ha hseq, if_neg (by simp [hop, hspace])]

end

/-- A message for another module passes on where its ring pair forwards. -/
theorem State.zioTake_of_forward {s : State} {m : ZioMsg} (op : Nat) (spaces : List Nat) (f : State → State) (hdst : m.dst ≠ s.node)
    (hring : m.port < 16) (hin : m.port % 2 = 0) (hfwd : s.zioForwards (m.port / 2) = true) :
    s.zioTake m op spaces f = (s.zioArrived m.port (zioFlits (16 * m.length))).zioForward m := by
  simp only [State.zioTake, if_pos (And.intro hdst hring), hfwd, hin, decide_true, Bool.and_self, if_true]

/-! ### The effect of the next message of a stream (R153, R422, R427) -/

section
variable {s a u : State} {m : ZioMsg} (hdst : m.dst = s.node) (htakes : s.zioTakes m.port = true)
  (ha : a = s.zioArrived m.port (zioFlits (16 * m.length)))
  (hseq : m.eseq % 4294967296 = Tbl.val 0 a.zio.rxNext (m.src * 4 + m.vc)) (hu : u = a.zioNext m)
include hdst htakes ha hseq hu

section
variable (hop : m.op = 0)
include hop

theorem zioWrite_of_host (hspace : m.space = 2) (hin : u.inHost m.addr (m.payload.take (16 * m.length)).length = true) :
    zioWrite s m = (u.store .lpddr m.addr (m.payload.take (16 * m.length))).zioAdvance m := by
  subst hu
  simp only [zioWrite, State.zioTake_of_own hdst htakes ha hseq hop (show m.space ∈ [0, 2] by simp [hspace]), if_pos hspace, hin, if_true]

theorem zioWrite_of_outside (hspace : m.space = 2) (hout : u.inHost m.addr (m.payload.take (16 * m.length)).length = false) :
    zioWrite s m = u.zioUnreach m.port 1 := by
  subst hu
  simp only [zioWrite, State.zioTake_of_own hdst htakes ha hseq hop (show m.space ∈ [0, 2] by simp [hspace]), if_pos hspace, hout,
    Bool.false_eq_true, if_false]

theorem zioWrite_of_sram (hspace : m.space = 0) : zioWrite s m =
    if 68 ≤ m.tiller then u.zioUnreach m.port 1
    else u.leg (legPackets m 0 2) (fun v => (v.sramWrite m.tiller m.addr (m.payload.take (16 * m.length))).zioAdvance m) := by
  subst hu
  simp only [zioWrite, State.zioTake_of_own hdst htakes ha hseq hop (show m.space ∈ [0, 2] by simp [hspace]), hspace,
    show ¬ (0 : Nat) = 2 by decide, if_false]

end

variable (hspace : m.space = 0)
include hspace

/-- What a partial hands to the adder of the Tiller it names. -/
def partialContrib (m : ZioMsg) : Contrib :=
  { addr := m.addr, words := (List.range m.length).foldl (fun w i => Tbl.put w i (fld m.payload (16 * i) 16)) []
    ctr := if m.advEn then 0x80000000 + m.advCtr else 0 }

theorem zioPartial_of_sram (hop : m.op = 1) : zioPartial s m =
    if 68 ≤ m.tiller then u.zioUnreach m.port 1
    else u.leg (legPackets m 3 3) (fun v => v.setTiller m.tiller
      { v.tiller m.tiller with adder := (v.tiller m.tiller).adder ++ [partialContrib m] }) := by
  subst hu
  exact State.zioTake_of_own hdst htakes ha hseq hop (by simp [hspace])

theorem zioCtrAdd_of_own (hop : m.op = 2) : zioCtrAdd s m = u.drawWord.2.advance m.advCtr u.drawWord.1.toNat := by
  subst hu
  exact State.zioTake_of_own hdst htakes ha hseq hop (by simp [hspace])

theorem zioCommand_of_own (hop : m.op = 3) :
    zioCommand s m = (u.receive (decodeCmd 2 (m.payload.take 64))).zioAdvance m := by
  subst hu
  exact State.zioTake_of_own hdst htakes ha hseq hop (by simp [hspace])

theorem zioRecord_of_own (hop : m.op = 4) : zioRecord s m =
    State.zioAdvance { u with zio := { u.zio with records := u.zio.records ++ [m.payload.take (16 * m.length)] } } m := by
  subst hu
  exact State.zioTake_of_own hdst htakes ha hseq hop (by simp [hspace])

end

/-- A leg whose packets may all pass counts them before its effect (R18, R177). -/
theorem State.leg_of_clear {s : State} {ps : List Packet} (f : State → State) (hreach : ∀ p ∈ ps, s.unreach p.src p.dst = false)
    (hclear : ∀ p ∈ ps, s.stuckAt (s.routed p) = none) :
    s.leg ps f = f (ps.foldl (fun s p => s.countFlits (s.routed p)) s) := by
  have hany : ps.any (fun p => s.unreach p.src p.dst) = false := by simpa using hreach
  have hstuck : ps.any (fun p => (s.stuckAt (s.routed p)).isSome) = false := by
    simp only [List.any_eq_false, Option.isSome_iff_ne_none, ne_eq, not_not]
    exact hclear
  simp only [State.leg, hany, hstuck, Bool.false_eq_true, if_false]

/-! ### Credits, resends, teardown (R424 to R427) -/

theorem zioCtrl_of_taken {s u v : State} {port vc credits lseq src dst eack again : Nat} {nak : Bool} {x : ZioPort}
    (htaken : s.zioCtrlTaken port = true) (hagain : again = ((s.zport port).txSeq + 4096 - lseq % 4096) % 4096)
    (hx : x = { s.zport port with store := (s.zport port).store.drop ((s.zport port).store.length - again) })
    (hu : u = s.setZport port { (if vc = 1 then x else x.setCredits vc (min (x.credits vc + credits) (zioBuffer vc))) with
      txAck := lseq % 4096 })
    (hv : v = (if nak then (u.bumpWide (portWh port) 33 3 (portLocal port) again).bumpWide (portWh port) 33 1 (portLocal port) again
      else u)) :
    zioCtrl s port vc credits nak lseq src dst eack = (if src = v.node then v.zioAck dst vc eack else v).zioPump := by
  subst hv hu hx hagain
  simp only [zioCtrl, htaken, Bool.not_true, Bool.false_eq_true, if_false]

theorem headerCrcNak_of_up {s u : State} {p : Nat} (hp : p < 48) (hup : (s.zport p).state = 3)
    (hu : u = s.setZport p { s.zport p with dropping := true }) (hdrop : (s.zport p).dropping = false) :
    headerCrcNak s p = (u.bumpWide (portWh p) 33 4 (portLocal p) 1).event (portWh p) 33 [sqBit 0x118 1] [] := by
  subst hu
  have hgo : ¬ (48 ≤ p ∨ (s.zport p).state ≠ 3 ∨ (s.zport p).dropping = true) := by simp [hup, hdrop, Nat.not_le.2 hp]
  simp only [headerCrcNak, if_neg hgo]

theorem e2eResend_of_up {s u : State} {p : Nat} (hup : s.zioUp p = true)
    (hu : u = s.bumpWide (portWh p) 33 5 (portLocal p) (s.zio.out.filter (fun o => decide (o.msg.port = p) && o.sent)).length) :
    e2eResend s p = State.zioPump { u with zio := { u.zio with
      out := u.zio.out.map (fun o => if o.msg.port = p then { o with sent := false } else o) } } := by
  subst hu
  simp only [e2eResend, hup, Bool.not_true, Bool.false_eq_true, if_false]

section
variable {s : State} {dst vc w t : Nat} {mine : ZioOut → Bool} (hack : Tbl.look s.zio.ackNs (dst * 4 + vc) = some t)
include hack

theorem streamTeardown_of_early (hearly : s.nowNs < t + 100000000) : streamTeardown s dst vc w = s := by
  simp only [streamTeardown, hack, hearly, or_true, if_true]

theorem streamTeardown_of_late (hmine : mine = fun o => decide (o.msg.dst = dst) && decide (o.msg.vc = vc))
    (hlate : t + 100000000 ≤ s.nowNs) {gone kept : List ZioOut} {ack : Tbl Nat} {u : State}
    (hgone : gone = s.zio.out.filter (fun o => mine o && decide (portWh o.msg.port = w))) (hsome : gone ≠ [])
    (hkept : kept = s.zio.out.filter (fun o => !(mine o && decide (portWh o.msg.port = w))))
    (hleft : ack = (if kept.any mine then s.zio.ackNs else Tbl.del s.zio.ackNs (dst * 4 + vc)))
    (hu : u = { s with zio := { s.zio with out := kept, ackNs := ack } }) :
    streamTeardown s dst vc w = ((u.bump w 33 0x110 gone.length).err w 33 4).zioPump := by
  have hgo : ¬ (gone.isEmpty = true ∨ s.nowNs < t + 100000000) := by simp [hsome, hlate]
  subst hu hleft hkept hgone hmine
  simp only [streamTeardown, hack, if_neg hgo]

end

/-! ### The obligation -/

/-- Settles O45, its parts in their order: a message for this module, one passed on, a leg of the Rhizome, and what the sender
hears back. -/
theorem messagesAreTakenInTheirOrderAndResent : Obligations.MessagesAreTakenInTheirOrderAndResent := by
  refine ⟨fun s m hdst htakes => ⟨_, _, rfl, rfl, ?_, fun hseq => ⟨?_, ?_, ?_, ?_, ?_, ?_, ?_, ?_, ?_⟩⟩, ?_, ?_, ?_, ?_, ?_, ?_⟩
  · intro hseq
    have hdrop (op : Nat) (spaces : List Nat) (f : State → State) := congrArg (Host.Outcome.next (φ := Fault) (ρ := Refusal))
      (State.zioTake_of_out_of_order (op := op) (spaces := spaces) (f := f) hdst htakes rfl hseq)
    exact ⟨hdrop _ _ _, hdrop _ _ _, hdrop _ _ _, hdrop _ _ _, hdrop _ _ _⟩
  · exact fun hbad => congrArg _ (State.zioTake_of_foreign hdst htakes rfl hseq (hbad.imp_right (by simp)))
  · exact fun hbad => congrArg _ (State.zioTake_of_foreign hdst htakes rfl hseq (hbad.imp_right (by simp)))
  · exact fun hbad => congrArg _ (State.zioTake_of_foreign hdst htakes rfl hseq (hbad.imp_right (by simp)))
  · exact fun hbad => congrArg _ (State.zioTake_of_foreign hdst htakes rfl hseq (hbad.imp_right (by simp)))
  · exact fun hbad => congrArg _ (State.zioTake_of_foreign hdst htakes rfl hseq (hbad.imp_right (by simp)))
  · exact fun hop hspace => ⟨fun hin => congrArg _ (zioWrite_of_host hdst htakes rfl hseq rfl hop hspace hin),
      fun hout => congrArg _ (zioWrite_of_outside hdst htakes rfl hseq rfl hop hspace hout)⟩
  · exact fun hspace hbeyond =>
      ⟨fun hop => congrArg _ ((zioWrite_of_sram hdst htakes rfl hseq rfl hop hspace).trans (if_pos hbeyond)),
        fun hop => congrArg _ ((zioPartial_of_sram hdst htakes rfl hseq rfl hspace hop).trans (if_pos hbeyond))⟩
  · exact fun hspace hthere =>
      ⟨fun hop => congrArg _ ((zioWrite_of_sram hdst htakes rfl hseq rfl hop hspace).trans (if_neg (Nat.not_le.2 hthere))),
        fun hop => ⟨partialContrib m, congrArg _ ((zioPartial_of_sram hdst htakes rfl hseq rfl hspace hop).trans
          (if_neg (Nat.not_le.2 hthere))), rfl, rfl, rfl⟩⟩
  · exact fun hspace => ⟨fun hop => congrArg _ (zioCtrAdd_of_own hdst htakes rfl hseq rfl hspace hop),
      fun hop => congrArg _ (zioCommand_of_own hdst htakes rfl hseq rfl hspace hop),
      fun hop => congrArg _ (zioRecord_of_own hdst htakes rfl hseq rfl hspace hop)⟩
  · rintro s t m hdst hring hin hfwd rfl
    have hpass (op : Nat) (spaces : List Nat) (f : State → State) := congrArg (Host.Outcome.next (φ := Fault) (ρ := Refusal))
      (State.zioTake_of_forward op spaces f hdst hring hin hfwd)
    exact ⟨hpass _ _ _, hpass _ _ _, hpass _ _ _, hpass _ _ _, hpass _ _ _⟩
  · exact fun s ps f => State.leg_of_clear f
  · intro s u v port vc credits lseq src dst eack again nak x htaken hagain hx hu hv
    rw [exec_zioCtrl, zioCtrl_of_taken htaken hagain hx hu hv]
    exact ⟨fun hmine => by rw [if_pos hmine], fun hother => by rw [if_neg hother]⟩
  · exact fun s u p hp hup hu hdrop => congrArg _ (headerCrcNak_of_up hp hup hu hdrop)
  · exact fun s u p hup hu => congrArg _ (e2eResend_of_up hup hu)
  · exact fun s dst vc w t mine hack hmine => ⟨fun hearly => congrArg _ (streamTeardown_of_early hack hearly),
      fun hlate gone kept ack u hgone hsome hkept hleft hu =>
        congrArg _ (streamTeardown_of_late hack hmine hlate hgone hsome hkept hleft hu)⟩

end Sys2Proof.Machine
end

section
/-! PROOFS. Ziori rings: frame marks, joining and leaving, lanes and ports that fail and return (R428 to R437, R51). -/

namespace Sys2Proof.Machine

/-! ### The meaning that a command runs -/

section
variable (s : State) (p i : Nat)
@[simp] theorem exec_frameMarkSend (ph : Nat) : exec (.frameMarkSend p ph) s = .next (frameMarkSend s p ph) := rfl
@[simp] theorem exec_frameMarkReceive (m : FrameMark) : exec (.frameMarkReceive m) s = .next (frameMarkReceive s m) := rfl
@[simp] theorem exec_pairJoin (k : Option FrameMark) : exec (.pairJoin i k) s = .next (pairJoin s i k) := rfl
@[simp] theorem exec_joinClear (req : Requester) : exec (.joinClear req i) s = .next (joinClear s req i) := rfl
@[simp] theorem exec_pairLeave : exec (.pairLeave i) s = .next (pairLeave s i) := rfl
@[simp] theorem exec_timingLeave : exec .timingLeave s = .next (timingLeave s) := rfl
@[simp] theorem exec_laneDrop (lane : Nat) : exec (.laneDrop p lane) s = .next (laneDrop s p lane) := rfl
@[simp] theorem exec_portTrainRetry (ok : Bool) : exec (.portTrainRetry p ok) s = .next (portTrainRetry s p ok) := rfl
@[simp] theorem exec_portQuarantineEnd (ok : Bool) : exec (.portQuarantineEnd p ok) s = .next (portQuarantineEnd s p ok) := rfl
@[simp] theorem exec_zioriPortTrained (lanes peer delay : Nat) :
    exec (.zioriPortTrained p lanes peer delay) s = .next (zioriPortTrained s p lanes peer delay) := rfl
end

/-! ### Frame marks (R428 to R430) -/

section
variable {s : State} {p ph : Nat} (hp : p < 48) (hph : ph ≤ 4) (hup : (s.zport p).state = 3)
include hp hph hup

theorem frameMarkSend_of_free {f : List Byte}
    (hf : f = zioFlit (zioHeader 3 0 true true 1 (s.zport p).txSeq s.node 255 (s.zport p).rxSeq 0) (s.markBytes p ph))
    (hfree : s.lengthened = false ∨ s.zio.timing ≠ some (p / 2) ∨ 16 ≤ p ∨ p % 2 = 0) : frameMarkSend s p ph =
      ((s.setZport p ((s.zport p).keep [f])).bumpWide (portWh p) 33 1 (portLocal p) 1).answer (leNat f) := by
  subst hf
  have hgo : ¬ (48 ≤ p ∨ 4 < ph ∨ (s.zport p).state ≠ 3) := by omega
  have hleaves : ¬ (s.lengthened = true ∧ s.zio.timing = some (p / 2) ∧ p < 16 ∧ p % 2 = 1) := by
    rintro ⟨hlong, htiming, hring, hout⟩
    rcases hfree with h | h | h | h
    · exact Bool.false_ne_true (h.symm.trans hlong)
    · exact h htiming
    · omega
    · omega
  simp only [frameMarkSend, if_neg hgo, if_neg hleaves]

theorem frameMarkSend_of_lengthened (hlong : s.lengthened = true) (htiming : s.zio.timing = some (p / 2)) (hring : p < 16)
    (hout : p % 2 = 1) : frameMarkSend s p ph = s := by
  have hgo : ¬ (48 ≤ p ∨ 4 < ph ∨ (s.zport p).state ≠ 3) := by omega
  simp only [frameMarkSend, if_neg hgo, if_pos (show _ ∧ _ ∧ _ ∧ _ from ⟨hlong, htiming, hring, hout⟩)]

end

section
variable {s u v : State} {m : FrameMark} {i : Nat} (hi : i < 8) (hport : m.port = 2 * i) (hup : (s.zport m.port).state = 3)
  (hu : u = s.zioArrived m.port 1) (hjoined : (u.zpair i).state = 2)
  (hv : v = u.setZpair i { u.zpair i with authority := (u.markAuthority m).1, hops := (u.markAuthority m).2 })
include hi hport hup hu hjoined hv

theorem frameMarkReceive_of_joined : frameMarkReceive s m =
    if v.zio.timing ≠ some i ∨ v.lengthened = true then v
    else { v with zio := { v.zio with
      badMarks := if (v.markError m).natAbs ≤ 100 then 0 else v.zio.badMarks + 1
      trimNs := if (u.markAuthority m).1 = v.node then 0 else max (-4) (min 4 (v.markError m)) } } := by
  have hgo : ¬ (48 ≤ m.port ∨ (s.zport m.port).state ≠ 3) := by omega
  have hpair : m.port / 2 = i := by omega
  have htakes : ¬ (16 ≤ m.port ∨ m.port % 2 = 1 ∨ (u.zpair i).state ≠ 2) := by omega
  subst hv hu
  simp only [frameMarkReceive, if_neg hgo, hpair, if_neg htakes]

/-- What a mark of the timing pair leaves: the correction and the count of bad marks, all else as in `v`. -/
theorem frameMarkReceive_of_timing (htiming : v.zio.timing = some i) (hlong : v.lengthened = false) :
    ∃ t, frameMarkReceive s m = t ∧ t.zio.trimNs.natAbs ≤ 4 ∧ ((u.markAuthority m).1 = v.node → t.zio.trimNs = 0) ∧
      ((v.markError m).natAbs ≤ 100 → t.zio.badMarks = 0) ∧
      (100 < (v.markError m).natAbs → t.zio.badMarks = v.zio.badMarks + 1) ∧
      { t with zio := { t.zio with trimNs := v.zio.trimNs, badMarks := v.zio.badMarks } } = v := by
  have hgo : ¬ (v.zio.timing ≠ some i ∨ v.lengthened = true) := by simp [htiming, hlong]
  refine ⟨_, (frameMarkReceive_of_joined hi hport hup hu hjoined hv).trans (if_neg hgo), ?_, fun h => if_pos h, fun h => if_pos h,
    fun h => if_neg (Nat.not_le.2 h), rfl⟩
  show (if (u.markAuthority m).1 = v.node then 0 else max (-4) (min 4 (v.markError m))).natAbs ≤ 4
  split
  · decide
  · omega

end

/-! ### Joining and leaving (R431 to R435) -/

section
variable {s : State} {i : Nat} (hi : i < 8)
include hi

section
variable (hloop : (s.zpair i).state = 0)
include hloop

theorem pairJoin_of_loopback (k : Option FrameMark) :
    pairJoin s i k = if s.mayJoin i && s.atBoundary then s.beginJoin i else s := by
  simp only [pairJoin, if_neg (Nat.not_le.2 hi), hloop, if_true]

end

section
variable (hjoining : (s.zpair i).state = 1) (hstay : (s.zpair i).leave = false) (hin : (s.zport (2 * i)).state = 3)
  (hout : (s.zport (2 * i + 1)).state = 3)
include hjoining hstay hin hout

theorem pairJoin_of_unchecked (m : FrameMark) (hnone : (s.zpair i).checked = none) : pairJoin s i (some m) = s.checkMarks i m := by
  simp [pairJoin, Nat.not_le.2 hi, hjoining, hstay, hin, hout, hnone]

theorem pairJoin_of_checked {m : FrameMark} (k : Option FrameMark) (hchecked : (s.zpair i).checked = some m) :
    pairJoin s i k = if s.atBoundary && decide ((s.zpair i).checkedAt < s.strokeN) then s.joined i m else s := by
  simp [pairJoin, Nat.not_le.2 hi, hjoining, hstay, hin, hout, hchecked]

end

theorem joinClear_of_pass {req : Requester} (hpass : s.gate req (i / 2) 33 3 = (s, true)) :
    joinClear s req i = s.pairCtlWrite i (s.pairCtl i % 65536) := by
  simp only [joinClear, if_neg (Nat.not_le.2 hi), State.gated_of_pass hpass]

theorem pairLeave_of_joined (hjoined : (s.zpair i).state = 2) (hleave : (s.zpair i).leave = true) (hat : s.atBoundary = true) :
    pairLeave s i = s.beginLeave i := by
  simp only [pairLeave, if_neg (Nat.not_le.2 hi), hjoined, hleave, hat, and_self, if_true]

theorem pairLeave_of_joining (hjoining : (s.zpair i).state = 1) (hleave : (s.zpair i).leave = true) (hat : s.atBoundary = true) :
    pairLeave s i = s.closePair i := by
  simp [pairLeave, Nat.not_le.2 hi, hjoining, hleave, hat]

theorem pairLeave_of_leaving (hleaving : (s.zpair i).state = 3) :
    pairLeave s i = if s.leftLong i = true then s.closePair i else s := by
  simp [pairLeave, Nat.not_le.2 hi, hleaving]

end

/-- TIMING_LEAVE's effect on one pair: a joined pair is told to leave and barred from joining (R430). -/
def State.leaveRing (s : State) (j : Nat) : State :=
  let x := s.zpair j
  if x.state = 2 then s.setZpair j { x with leave := true, barred := true } else s

theorem State.zpair_leaveRing (s : State) (k j : Nat) : (s.leaveRing k).zpair j =
    if j = k ∧ (s.zpair j).state = 2 then { s.zpair j with leave := true, barred := true } else s.zpair j := by
  simp only [State.leaveRing]
  by_cases hj : j = k
  · subst hj
    split <;> simp_all
  · simp only [hj, false_and, if_false]
    split
    · exact State.zpair_setZpair_other _ _ hj
    · rfl

theorem ZioPair.told_eq {x : ZioPair} (hleave : x.leave = true) (hbarred : x.barred = true) :
    { x with leave := true, barred := true } = x := by
  cases x
  cases hleave
  cases hbarred
  rfl

/-- A joined pair that `l` names is told to leave and barred, whatever else the round does. -/
theorem State.zpair_foldl_leaveRing {j : Nat} {l : List Nat} (hj : j ∈ l) {s : State} (hjoined : (s.zpair j).state = 2) :
    ((l.foldl State.leaveRing s).zpair j) = { s.zpair j with leave := true, barred := true } := by
  have hkeep : ∀ (l : List Nat) (s : State), (s.zpair j).state = 2 → (s.zpair j).leave = true → (s.zpair j).barred = true →
      (l.foldl State.leaveRing s).zpair j = s.zpair j := by
    intro l
    induction l with
    | nil => exact fun _ _ _ _ => rfl
    | cons k l ih =>
      intro s hstate hleave hbarred
      have hsame : (s.leaveRing k).zpair j = s.zpair j := by
        rw [State.zpair_leaveRing, ZioPair.told_eq hleave hbarred, ite_self]
      rw [List.foldl_cons, ih _ (hsame ▸ hstate) (hsame ▸ hleave) (hsame ▸ hbarred), hsame]
  induction l generalizing s with
  | nil => cases hj
  | cons k l ih =>
    rw [List.foldl_cons]
    by_cases hk : j = k
    · have hset := (State.zpair_leaveRing s k j).trans (if_pos ⟨hk, hjoined⟩)
      rw [hkeep l _ (by rw [hset, hjoined]) (by rw [hset]) (by rw [hset]), hset]
    · have hsame := (State.zpair_leaveRing s k j).trans (if_neg (fun h => hk h.1))
      rw [ih ((List.mem_cons.1 hj).resolve_left hk) (by rw [hsame, hjoined]), hsame]

section
variable {s : State} {i : Nat} (htiming : s.zio.timing = some i)
include htiming

theorem timingLeave_of_few (hfew : s.zio.badMarks < 16) : timingLeave s = s := by
  simp only [timingLeave, htiming, hfew, if_true]

/-- The module leaves every ring it has joined, and forgets its bad marks. -/
theorem timingLeave_of_many (hmany : 16 ≤ s.zio.badMarks) :
    ∃ u : State, timingLeave s = (u.event (i / 2) 33 [sqBit 0x118 4] []).postFault 8 (i / 2) (2 * i) ∧ u.zio.badMarks = 0 ∧
      ∀ j, j < 8 → (s.zpair j).state = 2 → (u.zpair j).leave = true ∧ (u.zpair j).barred = true := by
  obtain ⟨t, ht⟩ : ∃ t, t = (List.range 8).foldl State.leaveRing s := ⟨_, rfl⟩
  refine ⟨{ t with zio := { t.zio with badMarks := 0, trimNs := 0 } }, ?_, rfl, fun j hj hjoined => ?_⟩
  · have hround : t = (List.range 8).foldl (fun s j => if (s.zpair j).state = 2 then
        s.setZpair j { s.zpair j with leave := true, barred := true } else s) s := ht
    simp only [timingLeave, htiming, if_neg (Nat.not_lt.2 hmany), ← hround]
  · have hpair : t.zpair j = { s.zpair j with leave := true, barred := true } :=
      ht ▸ State.zpair_foldl_leaveRing (List.mem_range.2 hj) hjoined
    exact ⟨congrArg ZioPair.leave hpair, congrArg ZioPair.barred hpair⟩

end

/-! ### Lanes and ports (R436, R437) -/

section
variable {s : State} {p : Nat} (hp : p < 48)
include hp

theorem laneDrop_of_good {lane : Nat} {u : State} (hlane : lane < 8) (hstate : (s.zport p).state ≠ 4)
    (hgood : bitAt (s.zport p).good lane = true)
    (hu : u = ((s.setZport p { s.zport p with good := (s.zport p).good - 2 ^ lane }).event (portWh p) 33 [sqBit 0x118 2] []).postFault 7
      (portWh p) (8 * p + lane)) :
    laneDrop s p lane = if cleanHalf ((s.zport p).good - 2 ^ lane) = true then u.train p else u.failPort p := by
  subst hu
  have hgo : ¬ (48 ≤ p ∨ 8 ≤ lane ∨ (s.zport p).state = 4 ∨ bitAt (s.zport p).good lane = false) := by
    simp [hgood, hstate, Nat.not_le.2 hp, Nat.not_le.2 hlane]
  simp only [laneDrop, if_neg hgo]

theorem portTrainRetry_of_failed (hfailed : (s.zport p).state = 4) (ok : Bool) : portTrainRetry s p ok =
    if ok then s.setZport p { s.zport p with state := 2, since := s.strokeN } else s := by
  cases ok <;> simp [portTrainRetry, hfailed, Nat.not_le.2 hp]

section
variable (hquar : (s.zport p).state = 2)
include hquar

omit hp hquar in
theorem portQuarantineEnd_of_early (ok : Bool) (hearly : s.strokeN < (s.zport p).since + 20000) : portQuarantineEnd s p ok = s := by
  simp only [portQuarantineEnd, hearly, or_true, if_true]

variable (hlate : (s.zport p).since + 20000 ≤ s.strokeN)
include hlate

omit hp in
theorem not_quarantine_skips (hp : p < 48) : ¬ (48 ≤ p ∨ (s.zport p).state ≠ 2 ∨ s.strokeN < (s.zport p).since + 20000) := by omega

theorem portQuarantineEnd_of_fail : portQuarantineEnd s p false = s.setZport p { s.zport p with state := 4 } := by
  simp only [portQuarantineEnd, if_neg (not_quarantine_skips hquar hlate hp), Bool.not_false, if_true]

theorem portQuarantineEnd_of_inside (hat : s.atBoundary = false) : portQuarantineEnd s p true = s := by
  simp only [portQuarantineEnd, if_neg (not_quarantine_skips hquar hlate hp), hat, Bool.not_true, Bool.not_false, Bool.false_eq_true,
    if_false, if_true]

variable (hat : s.atBoundary = true)
include hat

theorem portQuarantineEnd_of_point (hpoint : 16 ≤ p) (hgood : (s.zport p).good = 255) :
    portQuarantineEnd s p true = (s.setZport p { (s.zport p).fresh with state := 3, width := 8 }).zioPump := by
  simp only [portQuarantineEnd, if_neg (not_quarantine_skips hquar hlate hp), hat, Bool.not_true, Bool.false_eq_true, if_false,
    if_pos hpoint, hgood, if_true]

theorem portQuarantineEnd_of_ring (hring : p < 16) {u : State} (hu : u = s.setZport p { (s.zport p).fresh with state := 1 }) :
    portQuarantineEnd s p true =
      if (s.zpair (p / 2)).state ≠ 4 ∨ (s.zport (p / 2 * 2 + (1 - p % 2))).state = 4 ∨
          (s.zport (p / 2 * 2 + (1 - p % 2))).state = 2 then u
      else if u.mayJoin (p / 2) = true then u.beginJoin (p / 2)
      else u.setZpair (p / 2) { u.zpair (p / 2) with state := 0, failed := false, leave := false } := by
  have hother : (if p % 2 = 0 then p + 1 else p - 1) = p / 2 * 2 + (1 - p % 2) := by split <;> omega
  have hport : u.zport (p / 2 * 2 + (1 - p % 2)) = s.zport (p / 2 * 2 + (1 - p % 2)) :=
    hu ▸ State.zport_setZport_other _ _ (by omega)
  have hpair : u.zpair (p / 2) = s.zpair (p / 2) := hu ▸ rfl
  simp only [portQuarantineEnd, if_neg (not_quarantine_skips hquar hlate hp), hat, Bool.not_true, Bool.false_eq_true, if_false,
    if_neg (Nat.not_le.2 hring), hother, ← hu, hport, hpair]

end

theorem zioriPortTrained_of_clean {lanes : Nat} (peer delay : Nat) (hquar : (s.zport p).state ≠ 2) (hfail : (s.zport p).state ≠ 4)
    (hlanes : (lanes = 8 ∧ (s.zport p).good = 255) ∨ (lanes = 4 ∧ cleanHalf (s.zport p).good = true)) :
    zioriPortTrained s p lanes peer delay = (s.setZport p { (s.zport p).fresh with
      state := 3, width := lanes, peer := peer % 256, delay := delay % 65536 }).zioPump := by
  have hgo : ¬ (48 ≤ p ∨ (s.zport p).state = 2 ∨ (s.zport p).state = 4 ∨ (lanes ≠ 4 ∧ lanes ≠ 8) ∨
      (lanes = 8 ∧ (s.zport p).good ≠ 255) ∨ cleanHalf (s.zport p).good = false) := by
    rcases hlanes with ⟨rfl, hgood⟩ | ⟨rfl, hclean⟩
    · simp [hquar, hfail, hgood, Nat.not_le.2 hp, show cleanHalf 255 = true from rfl]
    · simp [hquar, hfail, hclean, Nat.not_le.2 hp]
  simp only [zioriPortTrained, if_neg hgo]

end

/-! ### The obligation -/

/-- Settles O46, its parts in their order: frame marks sent and received, one ring pair, one port. -/
theorem ringsAreJoinedTimedAndLeft : Obligations.RingsAreJoinedTimedAndLeft := by
  refine ⟨fun s p ph f hp hph hup hf => ⟨fun hfree => congrArg _ (frameMarkSend_of_free hp hph hup hf hfree),
      fun hlong htiming hring hout => congrArg _ (frameMarkSend_of_lengthened hp hph hup hlong htiming hring hout)⟩,
    ?_, fun s i hi => ⟨?_, ?_, ?_, ?_, ?_, ?_, ?_, ?_⟩, fun s p hp => ⟨?_, ?_, ?_, ?_⟩⟩
  · intro s u v m i hi hport hup hu hjoined hv
    refine ⟨fun hother => congrArg _ ((frameMarkReceive_of_joined hi hport hup hu hjoined hv).trans (if_pos (.inl hother))),
      fun htiming hlong => ?_⟩
    obtain ⟨t, ht, hclauses⟩ := frameMarkReceive_of_timing hi hport hup hu hjoined hv htiming hlong
    exact ⟨t, congrArg _ ht, hclauses⟩
  · intro k hloop hmay hat
    rw [exec_pairJoin, pairJoin_of_loopback hi hloop, hmay, hat, Bool.and_self, if_pos rfl]
  · intro k hloop hmay
    rw [exec_pairJoin, pairJoin_of_loopback hi hloop, hmay, Bool.false_and, if_neg Bool.false_ne_true]
  · refine fun hjoining hstay hin hout => ⟨fun m hnone => congrArg _ (pairJoin_of_unchecked hi hjoining hstay hin hout m hnone),
      fun m k hchecked => ?_⟩
    rw [exec_pairJoin, pairJoin_of_checked hi hjoining hstay hin hout k hchecked]
    refine ⟨fun hat hpast => by rw [hat, decide_eq_true hpast, Bool.and_self, if_pos rfl], fun hwait => congrArg _ (if_neg ?_)⟩
    rcases hwait with hinside | hsame
    · simp [hinside]
    · simp [Nat.not_lt.2 hsame]
  · exact fun req hpass => congrArg _ (joinClear_of_pass hi hpass)
  · exact fun hleave hat => ⟨fun hjoined => congrArg _ (pairLeave_of_joined hi hjoined hleave hat),
      fun hjoining => congrArg _ (pairLeave_of_joining hi hjoining hleave hat)⟩
  · intro hleaving
    rw [exec_pairLeave, pairLeave_of_leaving hi hleaving]
    exact ⟨fun hlong => congrArg _ (if_pos hlong), fun hshort => congrArg _ (if_neg (hshort ▸ Bool.false_ne_true))⟩
  · exact fun htiming hfew => congrArg _ (timingLeave_of_few htiming hfew)
  · intro htiming hmany
    obtain ⟨u, hu, hclauses⟩ := timingLeave_of_many htiming hmany
    exact ⟨u, congrArg _ hu, hclauses⟩
  · intro lane u hlane hstate hgood hu
    rw [exec_laneDrop, laneDrop_of_good hp hlane hstate hgood hu]
    exact ⟨fun hclean => congrArg _ (if_pos hclean), fun hnot => congrArg _ (if_neg (hnot ▸ Bool.false_ne_true))⟩
  · exact fun hfailed => ⟨congrArg _ (portTrainRetry_of_failed hp hfailed true), congrArg _ (portTrainRetry_of_failed hp hfailed false)⟩
  · refine fun hquar => ⟨fun hearly ok => congrArg _ (portQuarantineEnd_of_early ok hearly), fun hlate =>
      ⟨congrArg _ (portQuarantineEnd_of_fail hp hquar hlate), fun hin => congrArg _ (portQuarantineEnd_of_inside hp hquar hlate hin),
        fun hpoint hat hgood => congrArg _ (portQuarantineEnd_of_point hp hquar hlate hat hpoint hgood), fun hring hat u hu => ?_⟩⟩
    rw [exec_portQuarantineEnd, portQuarantineEnd_of_ring hp hquar hlate hat hring hu]
    refine ⟨fun hpair hup hout => ?_, fun hpair => congrArg _ (if_pos (.inl hpair))⟩
    rw [if_neg (by simp [hpair, hup, hout])]
    exact ⟨fun hmay => congrArg _ (if_pos hmay), fun hnot => congrArg _ (if_neg (hnot ▸ Bool.false_ne_true))⟩
  · exact fun lanes peer delay hquar hfail hlanes => congrArg _ (zioriPortTrained_of_clean hp peer delay hquar hfail hlanes)

end Sys2Proof.Machine
end

section
/-! PROOFS. Register pages: acknowledgements, requester contexts, indirect access, the mailbox and register writes
(R444, R449 to R455). -/

namespace Sys2Proof.Machine

/-! ### A page operand and what a command does to its page -/

section
variable {g : Nat} (hg : g < 256) (s : State) (req : Requester) (d : Nat) (v : Word)
include hg

theorem pageOperand_die : (256 * d + g) / 256 = d := by omega
theorem pageOperand_page : (256 * d + g) % 256 = g := by omega

theorem exec_pgStatAck_of_page : exec (.pgStatAck req (256 * d + g) v) s = .next (s.writeReg req d g 0x014 v.toNat) := by
  show Host.Outcome.next (pgStatAck s req (256 * d + g) v.toNat) = _
  rw [pgStatAck, pageOperand_die hg, pageOperand_page hg]

theorem exec_pgErrAck_of_page : exec (.pgErrAck req (256 * d + g) v) s = .next (s.writeReg req d g 0x01C v.toNat) := by
  show Host.Outcome.next (pgErrAck s req (256 * d + g) v.toNat) = _
  rw [pgErrAck, pageOperand_die hg, pageOperand_page hg]

theorem exec_pgIndAddrWrite_of_page : exec (.pgIndAddrWrite req (256 * d + g) v) s = .next (s.writeReg req d g 0x020 v.toNat) := by
  show Host.Outcome.next (pgIndAddrWrite s req (256 * d + g) v.toNat) = _
  rw [pgIndAddrWrite, pageOperand_die hg, pageOperand_page hg]

theorem exec_pgIndDataWrite_of_page : exec (.pgIndDataWrite req (256 * d + g) v) s = .next (s.writeReg req d g 0x024 v.toNat) := by
  show Host.Outcome.next (pgIndDataWrite s req (256 * d + g) v.toNat) = _
  rw [pgIndDataWrite, pageOperand_die hg, pageOperand_page hg]

theorem exec_pgMboxReq_of_page : exec (.pgMboxReq req (256 * d + g) v) s = .next (s.writeReg req d g 0x02C v.toNat) := by
  show Host.Outcome.next (pgMboxReq s req (256 * d + g) v.toNat) = _
  rw [pgMboxReq, pageOperand_die hg, pageOperand_page hg]

theorem exec_pgIndDataRead_of_page : exec (.pgIndDataRead req (256 * d + g)) s = .next (s.answerReg req d g 0x024 true) := by
  show Host.Outcome.next (pgIndDataRead s req (256 * d + g)) = _
  rw [pgIndDataRead, pageOperand_die hg, pageOperand_page hg]

theorem exec_pgMboxData3Read_of_page : exec (.pgMboxData3Read req (256 * d + g)) s = .next (s.answerReg req d g 0x03C true) := by
  show Host.Outcome.next (pgMboxData3Read s req (256 * d + g)) = _
  rw [pgMboxData3Read, pageOperand_die hg, pageOperand_page hg]

theorem exec_mboxSnapshot_of_page : exec (.mboxSnapshot req (256 * d + g)) s = .next (mboxSnapshot s req d g) := by
  show Host.Outcome.next (mboxSnapshot s req ((256 * d + g) / 256) ((256 * d + g) % 256)) = _
  rw [pageOperand_die hg, pageOperand_page hg]

theorem exec_sqFieldWrite_of_page {off : Nat} (hoff : off = 0x010 ∨ isStat (tableKey d g) off = true) :
    exec (.sqFieldWrite req (256 * d + g) off v) s = .next (s.writeReg req d g off v.toNat) := by
  show Host.Outcome.next (sqFieldWrite s req (256 * d + g) off v.toNat) = _
  rw [sqFieldWrite, pageOperand_die hg, pageOperand_page hg, if_pos hoff]

theorem exec_registerWrite_of_page {off : Nat} (be : Nat) (hoff : off < 4096) :
    exec (.registerWrite req (256 * d + g) off be v) s = .next (s.writeBytesOf req d g off be v.toNat) := by
  show Host.Outcome.next (registerWrite s req (256 * d + g) off be v.toNat) = _
  rw [registerWrite, pageOperand_die hg, pageOperand_page hg, if_neg (Nat.not_le.2 hoff)]

end

/-! ### Writes past the gate (R445, R450, R451) -/

/-- The top byte of a word: the sequence an acknowledgement names. -/
theorem bitsOf_top_byte (v : Word) : bitsOf v.toNat 31 24 = v.toNat / 16777216 := by
  have hv := v.isLt
  simp only [bitsOf, Nat.shiftRight_eq_div_pow]
  omega

section
variable {s : State} {req : Requester} {d g : Nat}

/-- A write of a header register that passes the gate. -/
theorem State.writeReg_of_header {off : Nat} (v : Word) (halign : off % 4 = 0) (hoff : off < 0x44)
    (hpass : s.gate req d g (writeClass d g off false req) = (s, true)) :
    s.writeReg req d g off v.toNat = s.headerWrite req d g off v.toNat := by
  have hword : off / 4 * 4 = off := by omega
  have hthere : regThere d g off = true := by simp [regThere, hword, hoff]
  simp only [State.writeReg, hword, hthere, Bool.true_eq_false, if_false, if_pos (show off < 0x100 by omega),
    State.gated_of_pass hpass, Nat.mod_eq_of_lt v.isLt]

/-- A write of a register of SQ fields that passes the gate. -/
theorem State.writeReg_of_stat {off : Nat} (v : Word) (halign : off % 4 = 0) (hoff : 0x100 ≤ off)
    (hstat : isStat (tableKey d g) off = true) (hfield : (pvBits (tableKey d g) off).isSome = true)
    (hpass : s.gate req d g 0 = (s, true)) :
    s.writeReg req d g off v.toNat = s.setPage d g ((s.page d g).sqWrite off v) := by
  have hword : off / 4 * 4 = off := by omega
  have hthere : regThere d g off = true := by simp [regThere, hword, hoff, hfield]
  simp only [State.writeReg, hword, hthere, Bool.true_eq_false, if_false, if_neg (Nat.not_lt.2 hoff), hstat, if_true,
    State.gated_of_pass hpass, Nat.mod_eq_of_lt v.isLt, BitVec.ofNat_toNat, BitVec.setWidth_eq]

/-- Only the page that is written changes its header. -/
theorem State.page_setPage_elsewhere (x : Page) (hg : g < 256) {d' g' : Nat} (hg' : g' < 256) (hother : (d', g') ≠ (d, g)) :
    (s.setPage d g x).page d' g' = s.page d' g' :=
  State.page_setPage_other s x hg hg' (fun h => hother (Prod.ext h.1 h.2))

end

/-! ### Acknowledgements (R450, R451) -/

theorem Page.mem_sq_statAck (p : Page) (sv : Nat) (e : Nat × Nat) : e ∈ (p.statAck sv).sq ↔ e ∈ p.sq ∧ atOrBefore e.2 sv = false := by
  simp [Page.statAck]

theorem Page.mem_sq_sqWrite (p : Page) (off : Nat) (v : Word) (e : Nat × Nat) : e ∈ (p.sqWrite off v).sq ↔ e ∈ p.sq ∧
    ¬ (e.1 / 32 = off ∧ bitAt v.toNat (e.1 % 32) = true ∧ atOrBefore e.2 (v.toNat / 16777216) = true) := by
  simp only [Page.sqWrite, List.mem_filter, bitsOf_top_byte, Bool.not_eq_true', ← Bool.not_eq_true, Bool.and_eq_true,
    decide_eq_true_eq, and_assoc]

theorem Page.errAck_of_seen {p : Page} {sv : Nat} (hcode : p.errCode ≠ 0) (hseen : atOrBefore p.errSeq sv = true) :
    p.errAck sv = { p with errCode := 0, errCount := 0 } := by
  simp [Page.errAck, hcode, hseen]

theorem Page.errAck_of_unseen {p : Page} {sv : Nat} (hunseen : atOrBefore p.errSeq sv = false) : p.errAck sv = p := by
  simp [Page.errAck, hunseen]

@[simp] theorem Page.sq_errAck (p : Page) (sv : Nat) : (p.errAck sv).sq = p.sq := by
  simp only [Page.errAck]
  split <;> rfl

/-- Settles O47: each acknowledgement is one change of the header of its page. -/
theorem acknowledgementsClearWhatWasSeen : Obligations.AcknowledgementsClearWhatWasSeen := by
  refine ⟨fun _ _ => rfl, fun s req d g v hg hpass => ?_⟩
  have hstat : s.writeReg req d g 0x014 v.toNat = s.setPage d g ((s.page d g).statAck (v.toNat / 16777216)) := by
    rw [State.writeReg_of_header v rfl (by decide) hpass, ← bitsOf_top_byte]
    rfl
  have herr : s.writeReg req d g 0x01C v.toNat = s.setPage d g ((s.page d g).errAck (v.toNat / 16777216)) := by
    rw [State.writeReg_of_header v rfl (by decide) hpass, ← bitsOf_top_byte]
    rfl
  refine ⟨_, _, (exec_pgStatAck_of_page hg s req d v).trans (congrArg _ hstat),
    (exec_pgErrAck_of_page hg s req d v).trans (congrArg _ herr), ?_⟩
  simp only [State.page_setPage]
  refine ⟨Page.mem_sq_statAck _ _, rfl, rfl, fun hcode hseen => ?_, fun hunseen => by rw [Page.errAck_of_unseen hunseen],
    Page.sq_errAck _ _, fun d' g' hg' hother => ⟨State.page_setPage_elsewhere _ hg hg' hother,
      State.page_setPage_elsewhere _ hg hg' hother⟩, ?_⟩
  · rw [Page.errAck_of_seen hcode hseen]
    exact ⟨rfl, rfl, rfl⟩
  · intro off t halign hoff hisStat hfield ht e
    rw [exec_sqFieldWrite_of_page hg s req d v (.inr hisStat), State.writeReg_of_stat v halign hoff hisStat hfield hpass] at ht
    rw [← Host.Outcome.next.inj ht, State.page_setPage]
    exact Page.mem_sq_sqWrite _ _ _ _

end Sys2Proof.Machine
end

section
/-! PROOFS. Register pages, their contexts: indirect access, the mailbox, register writes and the node id (R435, R440,
R443, R444, R453 to R455). -/

namespace Sys2Proof.Machine

/-! ### Indirect access (R453) -/

theorem bitsOf_indAddr (x : Nat) : bitsOf x 25 2 = x / 4 % 16777216 := by
  simp only [bitsOf, Nat.shiftRight_eq_div_pow]
  rfl

section
variable {s : State} {req : Requester} {d g : Nat}

theorem State.headerWrite_indAddr (v : Nat) (hind : 0 < indWords d g) : s.headerWrite req d g 0x020 v =
    s.setCtx req d g { s.ctxOf req d g with indAddr := v / 4 % 16777216 % indWords d g } := by
  show s.setCtx req d g { s.ctxOf req d g with indAddr := if indWords d g = 0 then 0 else bitsOf v 25 2 % indWords d g } = _
  rw [if_neg hind.ne', bitsOf_indAddr]

theorem State.indDataWrite_of_none (v : Nat) (hnone : indWords d g = 0) : s.indDataWrite req d g v = s.err d g 0xFD := by
  simp only [State.indDataWrite, hnone, if_true]

theorem State.indDataWrite_of_some {t : State} {v : Nat} (hind : 0 < indWords d g)
    (ht : t = s.indWrite req d g (s.ctxOf req d g).indAddr v) : s.indDataWrite req d g v =
      t.setCtx req d g { t.ctxOf req d g with indAddr := nextInd (indWords d g) (s.ctxOf req d g).indAddr } := by
  subst ht
  simp only [State.indDataWrite, if_neg hind.ne']

/-! ### Reads of a live page (R453, R454) -/

section
variable (hsee : s.portBlind req = none) (hlive : s.pageLive req d g = true)
include hsee hlive

theorem State.readReg_indData : s.readReg req d g 0x024 true = s.indRead req d g true := by
  obtain ⟨hthere, hon⟩ := (Bool.and_eq_true_iff).1 hlive
  simp [State.readReg, hsee, hthere, Bool.not_eq_true' _ ▸ hon]

theorem State.readReg_data3 : s.readReg req d g 0x03C true = s.data3Read req d g true := by
  obtain ⟨hthere, hon⟩ := (Bool.and_eq_true_iff).1 hlive
  simp [State.readReg, hsee, hthere, Bool.not_eq_true' _ ▸ hon]

theorem State.answerReg_indData_of_some {r : Nat × State} (hind : 0 < indWords d g)
    (hr : r = s.indWord d g (s.ctxOf req d g).indAddr) : s.answerReg req d g 0x024 true =
      (r.2.setCtx req d g { r.2.ctxOf req d g with
        indAddr := nextInd (indWords d g) (s.ctxOf req d g).indAddr }).answer (r.1 % 4294967296) := by
  subst hr
  simp only [State.answerReg, State.readReg_indData hsee hlive, State.indRead, if_neg hind.ne', if_true]

theorem State.answerReg_indData_of_none (hnone : indWords d g = 0) :
    s.answerReg req d g 0x024 true = (s.err d g 0xFD).answer 0 := by
  simp only [State.answerReg, State.readReg_indData hsee hlive, State.indRead, hnone, if_true]

theorem State.answerReg_data3 : s.answerReg req d g 0x03C true =
    (s.setCtx req d g { s.ctxOf req d g with valid := false }).answer (s.ctxOf req d g).d3.toNat := by
  simp only [State.answerReg, State.readReg_data3 hsee hlive, State.data3Read, if_true]

end

/-! ### The mailbox (R454, R455) -/

section
variable {sel : Word} {r : Option (Nat × Nat) × State} (hreq : (s.ctxOf req d g).req = some sel) (hlive : s.pageLive req d g = true)
  (hr : r = s.mboxValue d g (sel.toNat / 0x10000000) (sel.toNat % 0x10000000))
include hreq hlive hr

theorem mboxSnapshot_of_value {x y : Nat} (hval : r.1 = some (x, y)) :
    mboxSnapshot s req d g = r.2.setCtx req d g { r.2.ctxOf req d g with
      valid := true, badSel := false, req := none
      d0 := BitVec.ofNat 32 x, d1 := BitVec.ofNat 32 (x / 4294967296)
      d2 := BitVec.ofNat 32 y, d3 := BitVec.ofNat 32 (y / 4294967296) } := by
  subst hr
  simp only [mboxSnapshot, hreq, hlive, Bool.not_true, Bool.false_eq_true, if_false, hval]

theorem mboxSnapshot_of_none (hnone : r.1 = none) :
    mboxSnapshot s req d g = (r.2.setCtx req d g { r.2.ctxOf req d g with
      valid := true, badSel := true, req := none, d0 := 0, d1 := 0, d2 := 0, d3 := 0 }).err d g 0xFB := by
  subst hr
  simp only [mboxSnapshot, hreq, hlive, Bool.not_true, Bool.false_eq_true, if_false, hnone]

end

/-! ### Register writes and the node id (R435, R440, R443, R444) -/

theorem State.writeBytesOf_of_word (off v : Nat) : s.writeBytesOf req d g off 15 v = s.writeReg req d g off v := rfl

theorem State.writeBytesOf_of_narrow {off be : Nat} (v : Nat) (hbe : be < 15) (hthere : regThere d g off = true)
    (hpass : s.gate req d g 0 = (s, true)) : s.writeBytesOf req d g off be v = s.err d g 0xFC := by
  simp only [State.writeBytesOf, if_neg (show ¬ be % 16 = 15 by omega), hthere, if_true, State.gated_of_pass hpass]

omit s req in
theorem regThere_word (off : Nat) : regThere d g (off / 4 * 4) = regThere d g off := by
  have hword : off / 4 * 4 / 4 * 4 = off / 4 * 4 := by omega
  have hblock : (0x100 ≤ off / 4 * 4) = (0x100 ≤ off) := propext ⟨by omega, by omega⟩
  simp only [regThere, hword, hblock]

theorem State.writeBytesOf_of_nowhere {off : Nat} (be v : Nat) (hnone : regThere d g off = false) :
    s.writeBytesOf req d g off be v = s := by
  simp only [State.writeBytesOf, State.writeReg, regThere_word, hnone, if_true, Bool.false_eq_true, if_false, ite_self]

theorem nodeWrite_of_free {v : Nat} (hpass : s.gate req 120 13 3 = (s, true)) (hnode : v % 256 ≠ 255)
    (hpairs : ∀ i, i < 8 → (s.zpair i).state = 0) (hports : ∀ p, 16 ≤ p → p < 48 → (s.zport p).state ≠ 3) :
    nodeWrite s req v = s.setRegN 120 13 0x100 (v % 256) := by
  have hloop : (List.range 8).any (fun i => decide ((s.zpair i).state ≠ 0)) = false :=
    List.any_eq_false.2 (fun i hi => by simp [hpairs i (List.mem_range.1 hi)])
  have hdown : (List.range 48).any (fun p => decide (16 ≤ p) && decide ((s.zport p).state = 3)) = false :=
    List.any_eq_false.2 (fun p hp => by
      simp only [Bool.and_eq_true, decide_eq_true_eq, not_and]
      exact fun hpoint => hports p hpoint (List.mem_range.1 hp))
  have hfree : ¬ (v % 256 = 255 ∨ (v % 256 ≠ s.node ∧ (false || false) = true)) := by simp [hnode]
  simp only [nodeWrite, State.gated_of_pass hpass, State.nodeWrite, hloop, hdown, if_neg hfree]

end

@[simp] theorem exec_nodeWrite (req : Requester) (v : Word) (s : State) : exec (.nodeWrite req v) s = .next (nodeWrite s req v.toNat) := rfl

/-! ### The obligations -/

/-- Settles O48, its parts in their order: writes of STATUS class, indirect writes, reads, snapshots, register writes, the
node id. -/
theorem pageRegistersAreReadAndWritten : Obligations.PageRegistersAreReadAndWritten := by
  refine ⟨fun s req d g v hg hpass => ⟨?_, ?_, ?_, ?_⟩, fun s req d g v hg hpass => ⟨?_, ?_⟩,
    fun s req d g hg hsee hlive => ⟨?_, ?_, ?_⟩, fun s req d g sel r c hg hreq hlive hr hc => ⟨?_, ?_⟩,
    fun s req d g off v hg hoff => ⟨?_, ?_, ?_, ?_⟩, ?_⟩
  · intro off halign hoff hstat hfield
    rw [exec_sqFieldWrite_of_page hg s req d v (.inr hstat), State.writeReg_of_stat v halign hoff hstat hfield hpass]
  · rw [exec_sqFieldWrite_of_page hg s req d v (.inl rfl), State.writeReg_of_header v rfl (by decide) hpass]
    simp only [State.headerWrite, BitVec.ofNat_toNat, BitVec.setWidth_eq]
  · intro hind
    rw [exec_pgIndAddrWrite_of_page hg, State.writeReg_of_header v rfl (by decide) hpass, State.headerWrite_indAddr _ hind]
  · rw [exec_pgMboxReq_of_page hg, State.writeReg_of_header v rfl (by decide) hpass]
    rfl
  · intro hnone
    rw [exec_pgIndDataWrite_of_page hg, State.writeReg_of_header v rfl (by decide) hpass]
    exact congrArg _ (State.indDataWrite_of_none _ hnone)
  · intro hind
    refine ⟨_, rfl, ?_⟩
    rw [exec_pgIndDataWrite_of_page hg, State.writeReg_of_header v rfl (by decide) hpass]
    exact congrArg _ (State.indDataWrite_of_some hind rfl)
  · intro r hind hr
    rw [exec_pgIndDataRead_of_page hg, State.answerReg_indData_of_some hsee hlive hind hr]
  · intro hnone
    rw [exec_pgIndDataRead_of_page hg, State.answerReg_indData_of_none hsee hlive hnone]
  · rw [exec_pgMboxData3Read_of_page hg, State.answerReg_data3 hsee hlive]
  · intro x y hval
    rw [exec_mboxSnapshot_of_page hg, mboxSnapshot_of_value hreq hlive hr hval, hc]
  · intro hnone
    rw [exec_mboxSnapshot_of_page hg, mboxSnapshot_of_none hreq hlive hr hnone, hc]
  · rw [exec_registerWrite_of_page hg s req d v 15 hoff, State.writeBytesOf_of_word]
  · intro be hbe hthere hpass
    rw [exec_registerWrite_of_page hg s req d v be hoff, State.writeBytesOf_of_narrow _ hbe hthere hpass]
  · intro be hnone
    rw [exec_registerWrite_of_page hg s req d v be hoff, State.writeBytesOf_of_nowhere be _ hnone]
  · intro hpass
    rw [exec_registerWrite_of_page hg s req d v 15 (by decide), State.writeBytesOf_of_word,
      State.writeReg_of_header v rfl (by decide) hpass]
    rfl
  · exact fun s req v hpass hnode hpairs hports => congrArg _ (nodeWrite_of_free hpass hnode hpairs hports)

/-! ### Kind 0 of every page (R455) -/

/-- A value split over two data words reads back modulo 2^64. -/
theorem toNat_words_of_value (x : Nat) :
    (BitVec.ofNat 32 x).toNat + 2 ^ 32 * (BitVec.ofNat 32 (x / 4294967296)).toNat = x % 2 ^ 64 := by
  simp only [BitVec.toNat_ofNat]
  omega

theorem Page.ctx_events (p : Page) (sqs errs : List Nat) (req : Requester) : (p.events sqs errs).ctx req = p.ctx req := by
  have hlog : ∀ (errs : List Nat) (p : Page), (errs.foldl Page.logErr p).ctx req = p.ctx req := by
    intro errs
    induction errs with
    | nil => exact fun _ => rfl
    | cons e errs ih =>
      intro p
      rw [List.foldl_cons, ih, Page.logErr]
      split <;> cases req <;> rfl
  simp only [Page.events]
  split
  · rfl
  · rw [hlog]
    cases req <;> rfl

theorem State.ctxOf_err (s : State) (req : Requester) (d g code : Nat) : (s.err d g code).ctxOf req d g = s.ctxOf req d g := by
  show ((s.setPage d g ((s.page d g).events [] [code])).page d g).ctx req = (s.page d g).ctx req
  rw [State.page_setPage, Page.ctx_events]

/-- An error on a page whose log is not frozen stands as its code. -/
theorem State.errCode_err (s : State) (d g code : Nat) (hthaw : (s.page d g).errFreeze = false) :
    ((s.err d g code).page d g).errCode = code := by
  show ((s.setPage d g ((s.page d g).events [] [code])).page d g).errCode = code
  rw [State.page_setPage]
  simp [Page.events, Page.logErr, hthaw]

theorem State.errFreeze_setCtx (s : State) (req : Requester) (d g : Nat) (c : Ctx) :
    ((s.setCtx req d g c).page d g).errFreeze = (s.page d g).errFreeze := by
  rw [State.setCtx, State.page_setPage]
  cases req <;> rfl

/-- The state of a kind 0 snapshot is the one it is taken in. -/
theorem State.mboxValue_common (s : State) (d g i : Nat) :
    s.mboxValue d g 0 i = (if i = 0 then some (s.strokeN, s.nowNs) else none, s) := rfl

/-- Settles O49: index 0 names the stroke counter and the time, every other index of kind 0 names nothing. -/
theorem commonMailboxValueIsStrokeAndTime : Obligations.CommonMailboxValueIsStrokeAndTime := by
  intro s req d g sel hg hlive hreq hkind
  have hindex : sel.toNat % 0x10000000 = sel.toNat := by omega
  have hval : (s.mboxValue d g (sel.toNat / 0x10000000) (sel.toNat % 0x10000000)) =
      (if sel.toNat = 0 then some (s.strokeN, s.nowNs) else none, s) := by rw [hkind, hindex, State.mboxValue_common]
  rw [exec_mboxSnapshot_of_page hg]
  by_cases hsel : sel = 0
  · subst hsel
    have hsnap := mboxSnapshot_of_value hreq hlive rfl (congrArg Prod.fst hval)
    rw [hsnap, hval]
    refine ⟨_, _, rfl, rfl, ?_⟩
    rw [State.ctxOf_setCtx]
    refine ⟨rfl, rfl, fun _ => ⟨rfl, ?_, toNat_words_of_value _⟩, fun h => absurd rfl h⟩
    exact (toNat_words_of_value _).trans (Nat.mod_eq_of_lt s.time.stroke.isLt)
  · have hne : sel.toNat ≠ 0 := fun h => hsel (BitVec.eq_of_toNat_eq h)
    have hsnap := mboxSnapshot_of_none hreq hlive rfl ((congrArg Prod.fst hval).trans (if_neg hne))
    rw [hsnap, hval]
    refine ⟨_, _, rfl, rfl, ?_⟩
    rw [State.ctxOf_err, State.ctxOf_setCtx]
    exact ⟨rfl, rfl, fun h => absurd h hsel, fun _ => ⟨rfl, rfl, rfl, rfl, rfl, _, rfl,
      fun hthaw => State.errCode_err _ _ _ _ ((State.errFreeze_setCtx _ _ _ _ _).trans hthaw)⟩⟩

end Sys2Proof.Machine
end

section
/-! PROOFS. The check-value units: register feeds and presets, the scan engine, and the stored check (R481 to R489). -/

namespace Sys2Proof.Machine

/-! ### The meaning that a command runs -/

section
variable (s : State) (req : Requester) (u : Nat) (v : Word)
@[simp] theorem exec_chkFeed8 : exec (.chkFeed8 req u v) s = .next (s.chkFeed req u 1 v.toNat) := rfl
@[simp] theorem exec_chkFeed16 : exec (.chkFeed16 req u v) s = .next (s.chkFeed req u 2 v.toNat) := rfl
@[simp] theorem exec_chkFeed32 : exec (.chkFeed32 req u v) s = .next (s.chkFeed req u 4 v.toNat) := rfl
@[simp] theorem exec_chkRestart : exec (.chkRestart req u) s = .next (chkRestart s req u) := rfl
@[simp] theorem exec_chkCfgWrite : exec (.chkCfgWrite req u v) s = .next (chkCfgWrite s req u v.toNat) := rfl
@[simp] theorem exec_chkScanCompute : exec (.chkScanCompute req u) s = .next (s.scanGo req u 0) := rfl
@[simp] theorem exec_chkScanAppend : exec (.chkScanAppend req u) s = .next (s.scanGo req u 1) := rfl
@[simp] theorem exec_chkScanVerify : exec (.chkScanVerify req u) s = .next (s.scanGo req u 2) := rfl
@[simp] theorem exec_chkScanDone : exec (.chkScanDone u) s = .next (chkScanDone s u) := rfl
end

/-! ### Register accesses (R483, R484, R489) -/

theorem bitsOf_top_nibble (v : Word) : bitsOf v.toNat 31 28 = v.toNat / 0x10000000 := by
  have hv := v.isLt
  simp only [bitsOf, Nat.shiftRight_eq_div_pow]
  omega

theorem leBytes_one (v : Word) : leBytes 1 v.toNat = [v.setWidth 8] := by
  refine congrArg (fun b => [b]) (BitVec.eq_of_toNat_eq ?_)
  simp

section
variable {s : State} {req : Requester} {u : Nat} (hpass : s.gate req (u / 4) 14 3 = (s, true))
include hpass

theorem State.chkWrite_of_busy (f : State → ChkUnit → State) (hbusy : (s.chkUnit u).busy.isSome = true) :
    s.chkWrite req u f = s.err (u / 4) 14 1 := by
  simp only [State.chkWrite, State.gated_of_pass hpass, hbusy, if_true]

theorem State.chkWrite_of_idle (f : State → ChkUnit → State) (hidle : (s.chkUnit u).busy = none) :
    s.chkWrite req u f = f s (s.chkUnit u) := by
  simp only [State.chkWrite, State.gated_of_pass hpass, hidle, Option.isSome_none, Bool.false_eq_true, if_false]

variable (hu : u < 16) (hidle : (s.chkUnit u).busy = none)
include hu hidle

theorem State.chkFeed_of_idle (n v : Nat) :
    s.chkFeed req u n v = (s.setChk u ((s.chkUnit u).feeds (leBytes n v))).bumpWide (u / 4) 14 2 (u % 4) n := by
  rw [State.chkFeed, if_neg (Nat.not_le.2 hu), State.chkWrite_of_idle hpass _ hidle]

theorem chkRestart_of_idle : chkRestart s req u = s.setChk u (s.chkUnit u).restart := by
  rw [chkRestart, if_neg (Nat.not_le.2 hu), State.chkWrite_of_idle hpass _ hidle]

theorem chkCfgWrite_of_bad (v : Word)
    (hbad : 10 < v.toNat / 0x10000000 ∨ (v.toNat / 0x10000000 = 0 ∧ (v.toNat % 128 < 3 ∨ 64 < v.toNat % 128))) :
    chkCfgWrite s req u v.toNat = s.err (u / 4) 14 2 := by
  simp only [chkCfgWrite, if_neg (Nat.not_le.2 hu), State.chkWrite_of_idle hpass _ hidle, bitsOf_top_nibble, if_pos hbad]

theorem chkCfgWrite_of_preset (v : Word) (hsome : (chkPreset (v.toNat / 0x10000000)).isSome = true) :
    chkCfgWrite s req u v.toNat = s.setChk u ((s.chkUnit u).load (v.toNat / 0x10000000)) := by
  have hrange : 1 ≤ v.toNat / 0x10000000 ∧ v.toNat / 0x10000000 ≤ 10 := by
    generalize v.toNat / 0x10000000 = n at hsome
    unfold chkPreset at hsome
    split at hsome <;> simp_all
  have hgood : ¬ (10 < v.toNat / 0x10000000 ∨ (v.toNat / 0x10000000 = 0 ∧ (v.toNat % 128 < 3 ∨ 64 < v.toNat % 128))) := by omega
  simp only [chkCfgWrite, if_neg (Nat.not_le.2 hu), State.chkWrite_of_idle hpass _ hidle, bitsOf_top_nibble, if_neg hgood,
    if_pos (show v.toNat / 0x10000000 ≠ 0 by omega)]

theorem chkCfgWrite_of_custom (v : Word) (hcustom : v.toNat / 0x10000000 = 0) (hlow : 3 ≤ v.toNat % 128)
    (hhigh : v.toNat % 128 ≤ 64) : chkCfgWrite s req u v.toNat = s.setChk u { s.chkUnit u with
      preset := 0, width := v.toNat % 128, refin := bitAt v.toNat 8, refout := bitAt v.toNat 9
      c := (s.chkUnit u).c % 2 ^ (v.toNat % 128) } := by
  have hgood : ¬ (10 < v.toNat / 0x10000000 ∨ (v.toNat / 0x10000000 = 0 ∧ (v.toNat % 128 < 3 ∨ 64 < v.toNat % 128))) := by omega
  simp only [chkCfgWrite, if_neg (Nat.not_le.2 hu), State.chkWrite_of_idle hpass _ hidle, bitsOf_top_nibble, if_neg hgood,
    if_neg (not_not.2 hcustom)]

end

/-- What loading a preset leaves (R483). -/
theorem ChkUnit.load_of_preset (x : ChkUnit) {n w p i o : Nat} {r : Bool} (h : chkPreset n = some (w, p, i, r, o)) :
    x.load n = { x with preset := n, width := w, poly := p, init := i, refin := r, refout := r, xorout := o, c := i % 2 ^ w } := by
  simp only [ChkUnit.load, h, ChkUnit.restart]

/-! ### The scan engine (R486 to R488) -/

section
variable {s : State} {req : Requester} {u r addr : Nat} {d : List Byte} {x : ChkUnit} (hu : u < 16)
  (hpass : s.gate req (u / 4) 14 3 = (s, true)) (hx : x = s.chkUnit u) (hidle : x.busy = none) (hr : r = 0x200 + 0x40 * (u % 4))
  (haddr : addr = (s.reg (u / 4) 14 (r + 0x14)).toNat / 32 * 32 + (s.reg (u / 4) 14 (r + 0x18)).toNat % 65536 * 4294967296)
  (hd : d = s.load .lpddr addr 32)
include hu hpass hx hidle hr haddr hd

omit hd in
theorem State.scanGo_of_outside (op : Nat) (hout : s.inHost addr 32 = false) :
    s.scanGo req u op = s.setChk u { x.restart with busy := some (4, 0, 0) } := by
  subst haddr hr hx
  simp only [State.scanGo, if_neg (Nat.not_le.2 hu), State.chkWrite_of_idle hpass _ hidle, hout, Bool.not_false, if_true]

variable (hin : s.inHost addr 32 = true)
include hin

theorem State.scanGo_of_failed (op : Nat) (hfail : s.scanCheck d x.checkBytes ≠ 0) :
    s.scanGo req u op = s.setChk u { x.restart with busy := some (s.scanCheck d x.checkBytes, 0, fld d 0x1C 4) } := by
  subst hd haddr hr hx
  simp only [State.scanGo, if_neg (Nat.not_le.2 hu), State.chkWrite_of_idle hpass _ hidle, hin, Bool.not_true, Bool.false_eq_true,
    if_false, if_pos hfail]

theorem State.scanGo_of_pass {op : Nat} (hcheck : s.scanCheck d x.checkBytes = 0) (hop : fld d 5 1 = op)
    {g : State × ChkUnit × Nat × Nat} (hg : g = s.scanRun x d) :
    s.scanGo req u op = (g.1.setChk u { g.2.1 with busy := some (g.2.2.1, g.2.2.2, fld d 0x1C 4) }).bumpWide (u / 4) 14 2 (u % 4)
      (if op = 2 then fld d 0x18 4 - x.checkBytes else fld d 0x18 4) := by
  subst hg hop hd haddr hr hx
  simp only [State.scanGo, if_neg (Nat.not_le.2 hu), State.chkWrite_of_idle hpass _ hidle, hin, Bool.not_true, Bool.false_eq_true,
    if_false, hcheck, ne_eq, not_true_eq_false]

end

theorem chkScanDone_of_busy {s t : State} {u st n ctr : Nat} (hbusy : (s.chkUnit u).busy = some (st, n, ctr))
    (ht : t = (s.setChk u { s.chkUnit u with busy := none, status := some st, payload := n }).bumpWide (u / 4) 14 3 (u % 4) 1) :
    chkScanDone s u =
      (((if st = 1 then t.bumpWide (u / 4) 14 4 (u % 4) 1 else t).event (u / 4) 14
        (sqBit 0x118 (u % 4) :: (if st = 1 then [sqBit 0x118 (4 + u % 4)] else [])) []).advanceFld ctr 1) := by
  subst ht
  simp only [chkScanDone, hbusy]

/-- Settles O51, its parts in their order: register accesses, scans, their completion. -/
theorem checkUnitsFeedAndScan : Obligations.CheckUnitsFeedAndScan := by
  refine ⟨fun s req u v hu hpass => ⟨fun hbusy => ?_, fun hidle => ⟨?_, ?_, ?_, ?_, ?_, ?_⟩⟩,
    fun s req u r addr d x hu hpass hx hidle hr haddr hd => ⟨fun c hc => ?_, fun hin hcheck g hg => ⟨?_, ?_, ?_⟩⟩,
    fun s u st n ctr hbusy t ht => ⟨fun hst => ?_, fun hst => ?_⟩⟩
  · simp only [exec_chkFeed8, exec_chkFeed16, exec_chkFeed32, exec_chkRestart, exec_chkCfgWrite, State.chkFeed, chkRestart, chkCfgWrite,
      if_neg (Nat.not_le.2 hu), State.chkWrite_of_busy hpass _ hbusy, and_self]
  · rw [exec_chkFeed8, State.chkFeed_of_idle hpass hu hidle, leBytes_one]
  · exact congrArg _ (State.chkFeed_of_idle hpass hu hidle 2 _)
  · exact congrArg _ (State.chkFeed_of_idle hpass hu hidle 4 _)
  · exact congrArg _ (chkRestart_of_idle hpass hu hidle)
  · rintro n w p i r o rfl hpreset
    rw [exec_chkCfgWrite, chkCfgWrite_of_preset hpass hu hidle v (by rw [hpreset]; rfl), ChkUnit.load_of_preset _ hpreset]
  · exact fun hbad => congrArg _ (chkCfgWrite_of_bad hpass hu hidle v hbad)
  · have hop : ∃ op, exec c s = .next (s.scanGo req u op) := by
      rcases hc with rfl | rfl | rfl
      · exact ⟨0, rfl⟩
      · exact ⟨1, rfl⟩
      · exact ⟨2, rfl⟩
    obtain ⟨op, hop⟩ := hop
    exact ⟨fun hout => hop.trans (congrArg _ (State.scanGo_of_outside hu hpass hx hidle hr haddr op hout)),
      fun hin hfail => hop.trans (congrArg _ (State.scanGo_of_failed hu hpass hx hidle hr haddr hd hin op hfail))⟩
  · exact fun hop => congrArg _ (State.scanGo_of_pass hu hpass hx hidle hr haddr hd hin hcheck hop hg)
  · exact fun hop => congrArg _ (State.scanGo_of_pass hu hpass hx hidle hr haddr hd hin hcheck hop hg)
  · exact fun hop => congrArg _ (State.scanGo_of_pass hu hpass hx hidle hr haddr hd hin hcheck hop hg)
  · rw [exec_chkScanDone, chkScanDone_of_busy hbusy ht, if_neg hst, if_neg hst]
  · rw [exec_chkScanDone, chkScanDone_of_busy hbusy ht, if_pos hst, if_pos hst]

/-! ### The stored check (R482) -/

theorem reverseBits_lt (n v : Nat) : reverseBits n v < 2 ^ n := by
  induction n generalizing v with
  | zero => simp [reverseBits]
  | succ n ih =>
    have hlow := ih (v / 2)
    have hbit : v % 2 * 2 ^ n ≤ 1 * 2 ^ n := Nat.mul_le_mul_right _ (by omega)
    simp only [reverseBits, Nat.pow_succ]
    omega

theorem ChkUnit.value_lt (x : ChkUnit) : x.value < 2 ^ x.width := by
  refine Nat.xor_lt_two_pow ?_ (Nat.mod_lt _ (Nat.two_pow_pos _))
  split
  · exact reverseBits_lt _ _
  · exact Nat.mod_lt _ (Nat.two_pow_pos _)

theorem ChkUnit.length_check (x : ChkUnit) : x.check.length = x.checkBytes := by
  simp only [ChkUnit.check]
  split <;> simp [leBytes_length]

/-- The bytes of a check, read in refout's order, are its value. -/
theorem ChkUnit.leNat_check (x : ChkUnit) : leNat (if x.refout then x.check else x.check.reverse) = x.value := by
  have hroom : x.value < 256 ^ x.checkBytes := calc
    x.value < 2 ^ x.width := x.value_lt
    _ ≤ 2 ^ (8 * x.checkBytes) := Nat.pow_le_pow_right (by decide) (by simp only [ChkUnit.checkBytes, ceilDiv]; omega)
    _ = 256 ^ x.checkBytes := by rw [Nat.pow_mul]
  have hbytes : (if x.refout then x.check else x.check.reverse) = leBytes x.checkBytes x.value := by
    cases hout : x.refout <;> simp [ChkUnit.check, hout]
  rw [hbytes, leNat_leBytes _ _ hroom]

theorem State.length_load (s : State) (sp : Space) (a n : Nat) : (s.load sp a n).length = n := by
  have hlen : ∀ (m : Memory) (k : Nat), (Memory.readBytes m k n).length = n := by
    intro m
    induction n with
    | zero => exact fun _ => rfl
    | succ n ih => exact fun k => congrArg Nat.succ (ih (k + 1))
  exact hlen _ _

/-- A record read in two parts, where the first does not pass the end of the address space. -/
theorem State.load_add (s : State) (sp : Space) {a n : Nat} (k : Nat) (hend : a + n < 2 ^ 64) :
    s.load sp a (n + k) = s.load sp a n ++ s.load sp (a + n) k := by
  have happend : ∀ (m : Memory) (j : Nat), Memory.readBytes m j (n + k) = Memory.readBytes m j n ++ Memory.readBytes m (j + n) k := by
    intro m
    clear hend
    induction n with
    | zero => intro j; simp [Memory.readBytes]
    | succ n ih =>
      intro j
      rw [Nat.add_right_comm, ← Nat.add_assoc, Nat.add_right_comm j]
      exact congrArg (Memory.read m j :: ·) (ih (j + 1))
  have hkey : sp.key a + n = sp.key (a + n) := by
    unfold Space.key
    omega
  rw [State.load, happend, hkey]
  rfl

/-- Feeding bytes changes a unit's c alone. -/
theorem ChkUnit.feeds_eq (x : ChkUnit) (bs : List Byte) : ∃ c, x.feeds bs = { x with c := c } := by
  induction bs generalizing x with
  | nil => exact ⟨x.c, rfl⟩
  | cons b bs ih =>
    obtain ⟨c, hc⟩ := ih (x.feed b)
    exact ⟨c, hc⟩

theorem ChkUnit.restart_feeds (x : ChkUnit) (bs : List Byte) : (x.restart.feeds bs).restart = x.restart := by
  obtain ⟨c, hc⟩ := x.restart.feeds_eq bs
  rw [hc]
  rfl

theorem ChkUnit.checkBytes_feeds (x : ChkUnit) (bs : List Byte) : (x.restart.feeds bs).checkBytes = x.checkBytes := by
  obtain ⟨c, hc⟩ := x.restart.feeds_eq bs
  rw [hc]
  rfl

section
variable {s : State} {x : ChkUnit} {d : List Byte} {src len : Nat} (hsrc : fld d 8 8 = src) (hlen : fld d 0x18 4 = len)
  (hdst : fld d 0x10 8 = 0)
include hsrc hlen hdst

/-- An APPEND in place stores the check of its record behind it, and nothing else. -/
theorem State.scanRun_of_append (hop : fld d 5 1 = 1) : s.scanRun x d =
    (s.store .lpddr (src + len) (x.restart.feeds (s.load .lpddr src len)).check,
      x.restart.feeds (s.load .lpddr src len), 0, len) := by
  simp only [State.scanRun, hop, hdst, hsrc, hlen, if_true]

/-- A VERIFY of a record whose last bytes are its check matches. -/
theorem State.scanRun_of_verify {bs : List Byte} (hop : fld d 5 1 = 2) (hbs : s.load .lpddr src len = bs ++ (x.restart.feeds bs).check) :
    s.scanRun x d = (s, x.restart.feeds bs, 0, len - x.checkBytes) := by
  have hbytes : len - x.checkBytes = bs.length := by
    have h := congrArg List.length hbs
    rw [State.length_load, List.length_append, ChkUnit.length_check, ChkUnit.checkBytes_feeds] at h
    omega
  simp only [State.scanRun, hop, hdst, hsrc, hlen, hbs, hbytes, List.take_left, List.drop_left, if_true]

end

/-- Settles O52: the check's bytes are its value's, and what an APPEND leaves is what a VERIFY reads. -/
theorem storedChecksAreRightAlignedAndVerify : Obligations.StoredChecksAreRightAlignedAndVerify := by
  refine ⟨fun x _ _ => ⟨(x.length_check).trans rfl, x.leNat_check, x.value_lt⟩, ?_⟩
  intro s x d e _ _ hop hdst hope hdste hsrc hlen hend
  obtain ⟨bs, hbs⟩ : ∃ bs, bs = s.load .lpddr (fld d 8 8) (fld d 0x18 4) := ⟨_, rfl⟩
  have happend := State.scanRun_of_append (s := s) (x := x) rfl rfl hdst hop
  rw [← hbs] at happend
  have hcheck : (x.restart.feeds bs).check.length = x.checkBytes := by rw [ChkUnit.length_check, ChkUnit.checkBytes_feeds]
  have hread : (s.scanRun x d).1.load .lpddr (fld d 8 8) (fld d 0x18 4 + x.checkBytes) =
      bs ++ ((x.restart.feeds bs).restart.feeds bs).check := by
    rw [happend, State.load_add _ _ _ hend, load_store_other _ _ _ _ ⟨.inl (Nat.le_refl _), hend, by omega⟩, ← hbs, ← hcheck,
      State.load_store, ChkUnit.restart_feeds]
  have hverify := State.scanRun_of_verify (s := (s.scanRun x d).1) (x := x.restart.feeds bs) hsrc hlen hdste hope hread
  rw [ChkUnit.restart_feeds, ChkUnit.checkBytes_feeds, Nat.add_sub_cancel] at hverify
  rw [happend] at hverify ⊢
  refine ⟨fun k hk => Memory.read_writeBytes_other _ _ _ ?_, congrArg (fun r => r.2.2) hverify,
    congrArg (fun r => r.2.1.value) hverify⟩
  rwa [hcheck]

/-! ### The presets (R483) -/

/-- R483's table: preset, width, polynomial, initial value, reflection, final XOR, and the check over "123456789". -/
def presetTable : List (Nat × Nat × Nat × Nat × Bool × Nat × Nat) :=
  [(1, 32, 0x1EDC6F41, 0xFFFFFFFF, true, 0xFFFFFFFF, 0xE3069283), (2, 32, 0x04C11DB7, 0xFFFFFFFF, true, 0xFFFFFFFF, 0xCBF43926),
    (3, 32, 0x04C11DB7, 0xFFFFFFFF, false, 0, 0x0376E6E7),
    (4, 64, 0x42F0E1EBA9EA3693, 0xFFFFFFFFFFFFFFFF, true, 0xFFFFFFFFFFFFFFFF, 0x995DC9BBDF1939FA),
    (5, 64, 0x42F0E1EBA9EA3693, 0, false, 0, 0x6C40DF5F0B497347), (6, 24, 0x864CFB, 0xB704CE, false, 0, 0x21CF02),
    (7, 16, 0x1021, 0xFFFF, false, 0, 0x29B1), (8, 16, 0x1021, 0, true, 0, 0x2189), (9, 16, 0x8005, 0, true, 0, 0xBB3D),
    (10, 8, 0x07, 0, false, 0, 0xF4)]

/-- The model's presets are the table's, and every initial value fits its width. -/
theorem chkPreset_of_table : ∀ e ∈ presetTable, chkPreset e.1 = some (e.2.1, e.2.2.1, e.2.2.2.1, e.2.2.2.2.1, e.2.2.2.2.2.1) ∧
    e.2.2.2.1 % 2 ^ e.2.1 = e.2.2.2.1 := by
  decide

/-- A unit without its scan: what its value depends on. -/
def ChkUnit.bare (x : ChkUnit) : ChkUnit := { x with busy := none, status := none, payload := 0 }

theorem ChkUnit.value_feeds_bare (x : ChkUnit) (bs : List Byte) : (x.bare.feeds bs).value = (x.feeds bs).value := by
  induction bs generalizing x with
  | nil => rfl
  | cons b bs ih => exact ih (x.feed b)

theorem ChkUnit.bare_load_of_table (x : ChkUnit) : ∀ e ∈ presetTable, (x.load e.1).bare = ChkUnit.load {} e.1 := by
  intro e he
  rw [ChkUnit.load_of_preset x (chkPreset_of_table e he).1, ChkUnit.load_of_preset {} (chkPreset_of_table e he).1]
  rfl

theorem ChkUnit.value_load_nine_of_reset : ∀ e ∈ presetTable,
    ((ChkUnit.load {} e.1).feeds [0x31, 0x32, 0x33, 0x34, 0x35, 0x36, 0x37, 0x38, 0x39]).value = e.2.2.2.2.2.2 := by
  decide +kernel

/-- The check over "123456789" depends on the parameters a preset loads, not on what the unit held. -/
theorem ChkUnit.value_load_nine (x : ChkUnit) {e : Nat × Nat × Nat × Nat × Bool × Nat × Nat} (he : e ∈ presetTable) :
    ((x.load e.1).feeds [0x31, 0x32, 0x33, 0x34, 0x35, 0x36, 0x37, 0x38, 0x39]).value = e.2.2.2.2.2.2 := by
  rw [← ChkUnit.value_feeds_bare, ChkUnit.bare_load_of_table x e he, ChkUnit.value_load_nine_of_reset e he]

/-- A write of a parameter's word makes the preset CUSTOM. -/
theorem State.preset_chkParam {s : State} {u word : Nat} (v : Nat) (hidle : (s.chkUnit u).busy = none) (hword : word < 6) :
    ((s.chkParam u word v).chkUnit u).preset = 0 := by
  have hparam : word / 2 = 0 ∨ word / 2 = 1 ∨ word / 2 = 2 := by omega
  rcases hparam with h | h | h <;>
    simp only [State.chkParam, hidle, Option.isSome_none, Bool.false_eq_true, if_false, h, State.chkUnit_setChk]

theorem checkPage_type : ∀ d < 4, pageType d 14 = 16 := by decide

theorem checkPage_indWords : ∀ d < 4, indWords d 14 = 32 := by decide

/-- A check page's indirect words are of class PLATFORM. -/
theorem checkPage_writeClass {d : Nat} (req : Requester) (hd : d < 4) : writeClass d 14 0x024 false req = 3 := by
  simp [writeClass, checkPage_type d hd]

/-- A write of the indirect space of a check page is a write of a parameter word of one of its units (R489). -/
theorem State.indWrite_of_check (s : State) (req : Requester) {d : Nat} (k v : Nat) (hd : d < 4) :
    s.indWrite req d 14 k v = s.chkParam (4 * d + k / 8) (k % 8) v := by
  simp only [State.indWrite, checkPage_type d hd]

/-- Settles O53: a preset's write loads it, and two writes leave the preset CUSTOM. -/
theorem presetsLoadEveryParameterAndGiveTheirCheck : Obligations.PresetsLoadEveryParameterAndGiveTheirCheck := by
  intro s req u v hu hpass hidle
  refine ⟨?_, fun hcustom hlow hhigh => ?_, ?_⟩
  · rintro e he n w p i x k r rfl hn
    obtain ⟨hpreset, hinit⟩ := chkPreset_of_table _ he
    have hload := ChkUnit.load_of_preset (s.chkUnit u) hpreset
    rw [hinit] at hload
    refine ⟨_, ?_, rfl, ?_⟩
    · rw [exec_chkCfgWrite, chkCfgWrite_of_preset hpass hu hidle v (by rw [hn, hpreset]; rfl), hn, hload]
    · rw [State.chkUnit_setChk, ← hload]
      exact ChkUnit.value_load_nine _ he
  · refine ⟨_, congrArg Host.Outcome.next (chkCfgWrite_of_custom hpass hu hidle v hcustom hlow hhigh), ?_⟩
    rw [State.chkUnit_setChk]
    exact ⟨rfl, rfl⟩
  · rintro d word hd hword rfl hind
    have hunit : 4 * (u / 4) + (8 * (u % 4) + word) / 8 = u := by omega
    have hpart : (8 * (u % 4) + word) % 8 = word := by omega
    have hwrite : s.writeReg req (u / 4) 14 0x024 v.toNat = _ :=
      (State.writeReg_of_header v rfl (by decide) ((checkPage_writeClass req hd).symm ▸ hpass)).trans
        (State.indDataWrite_of_some (by rw [checkPage_indWords _ hd]; decide) rfl)
    refine ⟨_, (exec_pgIndDataWrite_of_page (by decide) s req _ v).trans (congrArg Host.Outcome.next hwrite), ?_⟩
    show ((s.indWrite req (u / 4) 14 (s.ctxOf req (u / 4) 14).indAddr v.toNat).chkUnit u).preset = 0
    rw [hind, State.indWrite_of_check s req _ _ hd, hunit, hpart]
    exact State.preset_chkParam _ hidle hword

end Sys2Proof.Machine
end

section
/-! PROOFS. Failures of HBM, flash, Wellheads and cores, and the margin planner (R496 to R499, R503, R504). -/

namespace Sys2Proof.Machine

/-! ### The meaning that a command runs -/

section
variable (s : State) (t w ch : Nat)
@[simp] theorem exec_hbmFrameRetire (frame : Nat) : exec (.hbmFrameRetire t frame) s = .next (hbmFrameRetire s t frame) := rfl
@[simp] theorem exec_hbmStackFail : exec (.hbmStackFail t) s = .next (hbmStackFail s t) := rfl
@[simp] theorem exec_flashDieFail (die : Nat) : exec (.flashDieFail w ch die) s = .next (flashDieFail s w ch die) := rfl
@[simp] theorem exec_flashChannelFail : exec (.flashChannelFail w ch) s = .next (flashChannelFail s w ch) := rfl
@[simp] theorem exec_wellheadFailure : exec (.wellheadFailure w) s = .next (s.wellheadFail w) := rfl
@[simp] theorem exec_coreFailure (c : Nat) : exec (.coreFailure c) s = .next (coreFailure s c) := rfl
@[simp] theorem exec_marginPlannerRun (slack : List Int) (failing : List (Nat × Nat)) (quiet : Bool) :
    exec (.marginPlannerRun t slack failing quiet) s = .next (marginPlannerRun s t slack failing quiet) := rfl
end

/-! ### HBM (R496) -/

theorem hbmFrameRetire_of_free {s u : State} {t frame : Nat} (ht : t < 68) (hframe : frame < 393216)
    (hrole : (s.tiller t).role = .inService) (hfresh : t * 16777216 + frame ∉ s.cis.hbmRetired)
    (hu : u = { s with
      cis := { s.cis with hbmRetired := insNat (t * 16777216 + frame) s.cis.hbmRetired
                          hbmUsed := s.cis.hbmUsed.filter (fun k => k ≠ t * 16777216 + frame) }
      mem := Memory.clear s.mem (Space.key (.hbm t) (tierPage * frame)) tierPage })
    (hempty : ∀ e ∈ s.cis.ptes, ¬ (e.2.valid = true ∧ e.2.tier = 1 ∧ e.2.tiller = t ∧ e.2.loc = frame)) :
    hbmFrameRetire s t frame =
      if 64 < (u.cis.hbmRetired.filter (fun k => k / 16777216 = t)).length then hbmStackFail u t else u := by
  have hgo : ¬ (68 ≤ t ∨ 393216 ≤ frame ∨ (s.tiller t).role ≠ .inService ∨
      s.cis.hbmRetired.contains (t * 16777216 + frame) = true) := by
    simp [hrole, hfresh, Nat.not_le.2 ht, Nat.not_le.2 hframe]
  have hnone : s.cis.ptes.filter (fun e => e.2.valid && decide (e.2.tier = 1) && decide (e.2.tiller = t) && decide (e.2.loc = frame)) =
      [] := by
    refine List.filter_eq_nil_iff.2 (fun e he => ?_)
    simpa only [Bool.and_eq_true, decide_eq_true_eq, and_assoc] using hempty e he
  subst hu
  simp only [hbmFrameRetire, if_neg hgo, hnone, List.foldl_nil]

theorem hbmStackFail_of_there {s : State} {t : Nat} (ht : t < 68) (hretired : (s.tiller t).role ≠ .retired)
    (hunknown : (s.tiller t).role ≠ .unknown) : hbmStackFail s t = (s.postFault 3 (8 + t) 0).tillerFail t true false := by
  simp only [hbmStackFail, Nat.not_le.2 ht, hretired, hunknown, or_self, if_false]

/-! ### Flash (R497) -/

section
variable {s : State} {w ch : Nat} (hup : s.wellUp w = true) (hch : ch < 8)
include hup hch

theorem flashDieFail_of_alive {die : Nat} (hdie : die < 4) (halive : w * 32 + ch * 4 + die ∉ s.wdl.deadDies) :
    flashDieFail s w ch die = (s.postFault 5 (80 + w) (4 * ch + die)).dieLoss (w * 32 + ch * 4 + die) := by
  have hgo : ¬ (s.wellUp w = false ∨ 8 ≤ ch ∨ 4 ≤ die ∨ s.wdl.deadDies.contains (w * 32 + ch * 4 + die) = true) := by
    simp [hup, halive, Nat.not_le.2 hch, Nat.not_le.2 hdie]
  simp only [flashDieFail, if_neg hgo]

theorem flashChannelFail_of_alive {u v : State} (halive : w * 8 + ch ∉ s.wdl.deadChans) (hu : u = s.postFault 6 (80 + w) ch)
    (hv : v = [0, 1, 2, 3].foldl (fun s i =>
      if s.wdl.deadDies.contains ((w * 8 + ch) * 4 + i) then s else s.dieLoss ((w * 8 + ch) * 4 + i))
        ({ u with wdl := { u.wdl with deadChans := insNat (w * 8 + ch) u.wdl.deadChans } } : State)) :
    flashChannelFail s w ch = if 3 ≤ (v.wdl.deadChans.filter (fun x => x / 8 = w)).length then v.wellFailure w else v := by
  have hgo : ¬ (s.wellUp w = false ∨ 8 ≤ ch ∨ s.wdl.deadChans.contains (w * 8 + ch) = true) := by
    simp [hup, halive, Nat.not_le.2 hch]
  subst hv hu
  simp only [flashChannelFail, if_neg hgo]

end

/-! ### Wellheads and cores (R498, R499) -/

theorem State.wellheadFail_of_fresh {s u : State} {w : Nat} (hw : w < 4) (hfresh : w ∉ s.flt.failedWh)
    (hu : u = (if w < 2 then s.setHp w { s.hp w with linkUp := false } else s).postFault 9 w 0) :
    s.wellheadFail w = ({ u with flt := { u.flt with failedWh := insNat w u.flt.failedWh } } : State).safeStates := by
  have hgo : ¬ (4 ≤ w ∨ s.flt.failedWh.contains w = true) := by simp [hfresh, Nat.not_le.2 hw]
  subst hu
  simp only [State.wellheadFail, if_neg hgo]

theorem State.wellheadFail_of_failed {s : State} {w : Nat} (hfailed : w ∈ s.flt.failedWh) : s.wellheadFail w = s := by
  simp only [State.wellheadFail, List.contains_iff_mem.2 hfailed, or_true, if_true]

theorem coreFailure_eq (s : State) {c : Nat} (hc : c < 16) : coreFailure s c = if s.coreLive c = false then s else s.coreFail c := by
  simp only [coreFailure, Nat.not_le.2 hc, false_or]

/-! ### The margin planner (R503, R504) -/

section
variable {s v : State} {t off o : Nat} {slack : List Int} (ht : t < 68)
  (hrole : (s.tiller t).role = .inService ∨ (s.tiller t).role = .spare) (hdue : s.plannerDue t = true)
  (hoff : off = max ((marginStep slack).getD 12) ((s.planner t).offset - 1))
include ht hrole hdue hoff

/-- A run that marks the columns `bad`: what it leaves before a Tiller for which no step suffices is taken out of service. -/
theorem marginPlannerRun_of_due {failing bad : List (Nat × Nat)} {quiet : Bool} {u w : State}
    (hbad : bad = (if !quiet then [] else failing.filter (fun e => decide (e.1 < 96) && decide (e.2 < 64) &&
      !((s.tiller t).array e.1).retired && !((s.tiller t).array e.1).bypass.contains e.2 &&
      !((s.tiller t).array e.1).pending.contains e.2)).foldl (fun l e => if l.contains e then l else l ++ [e]) [])
    (hu : u = bad.foldl (fun s e => s.markColumn t e.1 e.2) s)
    (ho : o = if (marginStep slack).isNone = true then 4 else if bad ≠ [] then 3 else if (!quiet) = true then 5
      else if (s.planner t).offset < off then 1 else if off < (s.planner t).offset then 2 else 0)
    (hw : w = ((u.setPlanner t { s.planner t with
      running := false, done := true, offset := off, lastRunNs := some u.nowNs, outcome := o }).bumpWide (8 + t) 36 1 0 1).event
        (8 + t) 36 (sqBit 0x118 0 :: (if quiet then [] else [sqBit 0x118 2])) []) :
    marginPlannerRun s t slack failing quiet =
      if (marginStep slack).isNone = true ∧ w.til.leaving.contains t = false then
        { w with til := { w.til with leaving := w.til.leaving ++ [t] }
                 flt := { w.flt with permanent := insNat t w.flt.permanent } }
      else w := by
  have hgo : ¬ (68 ≤ t ∨ ¬ ((s.tiller t).role = .inService ∨ (s.tiller t).role = .spare) ∨ s.plannerDue t = false) := by
    simp [hrole, hdue, Nat.not_le.2 ht]
  subst hw ho hu hbad hoff
  simp only [marginPlannerRun, if_neg hgo]

variable (hv : v = s.setPlanner t { s.planner t with
  running := false, done := true, offset := off, lastRunNs := some s.nowNs, outcome := o })
include hv

section
variable (hstep : (marginStep slack).isSome = true)
include hstep

theorem marginPlannerRun_of_no_window (ho : o = 5) (failing : List (Nat × Nat)) : marginPlannerRun s t slack failing false =
    (v.bumpWide (8 + t) 36 1 0 1).event (8 + t) 36 [sqBit 0x118 0, sqBit 0x118 2] [] := by
  have hfits : (marginStep slack).isNone = false := by rw [Option.isNone_eq_false_iff, hstep]
  rw [marginPlannerRun_of_due (bad := []) (o := o) ht hrole hdue hoff rfl rfl (by simp [hfits, ho]) rfl, if_neg (by simp [hfits]), hv]
  rfl

theorem marginPlannerRun_of_clean
    (ho : o = if (s.planner t).offset < off then 1 else if off < (s.planner t).offset then 2 else 0) :
    marginPlannerRun s t slack [] true = (v.bumpWide (8 + t) 36 1 0 1).event (8 + t) 36 [sqBit 0x118 0] [] := by
  have hfits : (marginStep slack).isNone = false := by rw [Option.isNone_eq_false_iff, hstep]
  rw [marginPlannerRun_of_due (bad := []) (o := o) ht hrole hdue hoff rfl rfl (by simp [hfits, ho]) rfl, if_neg (by simp [hfits]), hv]
  rfl

omit hv in
theorem marginPlannerRun_of_column {a c : Nat} {u : State} (ha : a < 96) (hc : c < 64)
    (hlive : ((s.tiller t).array a).retired = false) (hbypass : c ∉ ((s.tiller t).array a).bypass)
    (hpending : c ∉ ((s.tiller t).array a).pending) (hu : u = s.markColumn t a c) : marginPlannerRun s t slack [(a, c)] true =
      ((u.setPlanner t { s.planner t with
        running := false, done := true, offset := off, lastRunNs := some u.nowNs, outcome := 3 }).bumpWide (8 + t) 36 1 0 1).event
          (8 + t) 36 [sqBit 0x118 0] [] := by
  have hfits : (marginStep slack).isNone = false := by rw [Option.isNone_eq_false_iff, hstep]
  have hfound : [(a, c)].filter (fun e => decide (e.1 < 96) && decide (e.2 < 64) && !((s.tiller t).array e.1).retired &&
      !((s.tiller t).array e.1).bypass.contains e.2 && !((s.tiller t).array e.1).pending.contains e.2) = [(a, c)] := by
    simp [ha, hc, hlive, hbypass, hpending]
  rw [marginPlannerRun_of_due (bad := [(a, c)]) (o := 3) ht hrole hdue hoff (by rw [hfound]; rfl) rfl (by simp [hfits]) rfl,
    if_neg (by simp [hfits]), hu]
  rfl

end

theorem marginPlannerRun_of_short (hshort : (marginStep slack).isSome = false) (hstays : t ∉ s.til.leaving) (ho : o = 4) {u : State}
    (hu : u = (v.bumpWide (8 + t) 36 1 0 1).event (8 + t) 36 [sqBit 0x118 0, sqBit 0x118 2] []) :
    marginPlannerRun s t slack [] false = { u with
      til := { u.til with leaving := u.til.leaving ++ [t] }, flt := { u.flt with permanent := insNat t u.flt.permanent } } := by
  have hnone : (marginStep slack).isNone = true := by simpa using hshort
  have hleaving : u.til.leaving.contains t = false := by
    subst hu hv
    simpa [State.setPlanner] using hstays
  rw [marginPlannerRun_of_due (bad := []) (o := o) (w := u) ht hrole hdue hoff rfl rfl (by simp [hnone, ho]) (by rw [hu, hv]; rfl),
    if_pos ⟨hnone, hleaving⟩]

end

/-- Settles O54, its parts in their order: HBM, flash, Wellheads, cores, the margin planner. -/
theorem failuresArePostedAndHandled : Obligations.FailuresArePostedAndHandled := by
  refine ⟨fun s u t frame ht hframe hrole hfresh hu hempty => ?_,
    fun s t ht hretired hunknown => congrArg _ (hbmStackFail_of_there ht hretired hunknown),
    fun s w ch hup hch => ⟨fun die hdie halive => congrArg _ (flashDieFail_of_alive hup hch hdie halive),
      fun halive u v hu hv => ?_⟩,
    fun s w hw => ⟨fun hfresh u hu => congrArg _ (State.wellheadFail_of_fresh hw hfresh hu),
      fun hfailed => congrArg _ (State.wellheadFail_of_failed hfailed)⟩, fun s c hc => ?_,
    fun s t off slack ht hrole hdue hoff => ⟨by omega, fun o v hv => ⟨fun hstep => ⟨?_, ?_, ?_⟩, ?_⟩⟩⟩
  · rw [exec_hbmFrameRetire, hbmFrameRetire_of_free ht hframe hrole hfresh hu hempty]
    exact ⟨fun hfew => congrArg _ (if_neg (Nat.not_lt.2 hfew)), fun hmany => congrArg _ (if_pos hmany)⟩
  · rw [exec_flashChannelFail, flashChannelFail_of_alive hup hch halive hu hv]
    exact ⟨fun hfew => congrArg _ (if_neg (Nat.not_le.2 hfew)), fun hmany => congrArg _ (if_pos hmany)⟩
  · rw [exec_coreFailure, coreFailure_eq s hc]
    exact ⟨fun hlive => by rw [if_neg (by simp [hlive])], fun hdead => congrArg _ (if_pos hdead)⟩
  · exact fun ho failing => congrArg _ (marginPlannerRun_of_no_window ht hrole hdue hoff hv hstep ho failing)
  · exact fun ho => congrArg _ (marginPlannerRun_of_clean ht hrole hdue hoff hv hstep ho)
  · exact fun a c u ha hc hlive hbypass hpending hu =>
      ⟨_, rfl, congrArg _ (marginPlannerRun_of_column ht hrole hdue hoff hstep ha hc hlive hbypass hpending hu)⟩
  · exact fun hshort hstays ho u hu => congrArg _ (marginPlannerRun_of_short ht hrole hdue hoff hv hshort hstays ho hu)

end Sys2Proof.Machine
end

section
/-! PROOFS. Clocks and power: domain multiplexers, start-up checks, trim, loss of a root, the sequencer, power entry, caps and
temperature (R464 to R479). -/

namespace Sys2Proof.Machine

/-! ### The meaning that a command runs -/

section
variable (s : State) (req : Requester) (d t : Nat) (v : Word)
@[simp] theorem exec_clkMuxSwitch : exec (.clkMuxSwitch req d v) s = .next (clkMuxSwitch s req d v.toNat) := rfl
@[simp] theorem exec_muxSwitchComplete (dom : Nat) : exec (.muxSwitchComplete d dom) s = .next (muxSwitchComplete s d dom) := rfl
@[simp] theorem exec_muxHang (dom : Nat) : exec (.muxHang d dom) s = .next (muxHang s d dom) := rfl
@[simp] theorem exec_clkDomReset : exec (.clkDomReset req d v) s = .next (clkDomReset s req d v.toNat) := rfl
@[simp] theorem exec_oscStable : exec (.oscStable d) s = .next (oscStable s d) := rfl
@[simp] theorem exec_pllLockConfirm : exec (.pllLockConfirm d) s = .next (pllLockConfirm s d) := rfl
@[simp] theorem exec_trimSourceSwitch (src : Nat) (trim : Int) :
    exec (.trimSourceSwitch d src trim) s = .next (trimSourceSwitch s d src trim) := rfl
@[simp] theorem exec_rootLoss : exec (.rootLoss d) s = .next (rootLoss s d) := rfl
@[simp] theorem exec_restartWait (w : Option Nat) : exec (.restartWait w) s = .next (restartWait s w) := rfl
@[simp] theorem exec_sequencerChange : exec (.sequencerChange t) s = .next (sequencerChange s t) := rfl
@[simp] theorem exec_inputLow (cv : Nat) : exec (.inputLow cv) s = .next (inputLow s cv) := rfl
@[simp] theorem exec_pwrCapWrite (off : Nat) : exec (.pwrCapWrite req off v) s = .next (pwrCapWrite s req off v.toNat) := rfl
@[simp] theorem exec_hotspotHigh (e : Int) : exec (.hotspotHigh t e) s = .next (hotspotHigh s t e) := rfl
@[simp] theorem exec_hotspotTrip : exec (.hotspotTrip d) s = .next (hotspotTrip s d) := rfl
end

/-! ### Domain multiplexers (R471, R472) -/

/-- The stroke from which each domain has been pending, after a switch asks for `pend`. -/
def pendSince (pend old now : Nat) (since : Tbl Nat) : Tbl Nat :=
  [0, 1, 2].foldl (fun m i => if bitAt pend i && !bitAt old i then Tbl.put m i now else m) since

theorem look_pendSince (pend old now : Nat) (since : Tbl Nat) (k : Nat) : Tbl.look (pendSince pend old now since) k =
    if k < 3 ∧ bitAt pend k = true ∧ bitAt old k = false then some now else Tbl.look since k := by
  have hround : ∀ (l : List Nat) (m : Tbl Nat),
      Tbl.look (l.foldl (fun m i => if bitAt pend i && !bitAt old i then Tbl.put m i now else m) m) k =
        if k ∈ l ∧ bitAt pend k = true ∧ bitAt old k = false then some now else Tbl.look m k := by
    intro l
    induction l with
    | nil => intro m; simp
    | cons i l ih =>
      intro m
      rw [List.foldl_cons, ih]
      by_cases hset : k = i ∧ bitAt pend k = true ∧ bitAt old k = false
      · obtain ⟨rfl, hpend, hold⟩ := hset
        simp [hpend, hold, Tbl.look_put_same]
      · have hkeep : Tbl.look (if bitAt pend i && !bitAt old i then Tbl.put m i now else m) k = Tbl.look m k := by
          split
          · next hi =>
            refine Tbl.look_put_other m now (fun hk => hset ?_)
            subst hk
            simpa using hi
          · rfl
        rw [hkeep]
        have hmem : (k ∈ i :: l ∧ bitAt pend k = true ∧ bitAt old k = false) =
            (k ∈ l ∧ bitAt pend k = true ∧ bitAt old k = false) := by
          simp only [List.mem_cons, or_and_right, hset, false_or]
        simp only [hmem]
  have hthree : k ∈ [0, 1, 2] ↔ k < 3 := by simp; omega
  simp only [pendSince, hround, hthree]

theorem clkMuxSwitch_of_pass {s : State} {req : Requester} {d v : Nat} (hpass : s.gate req d 34 3 = (s, true)) {pend : Nat}
    (hpend : pend = (v % 8) ^^^ (s.clkDie d).cur) : clkMuxSwitch s req d v = s.setClk d { s.clkDie d with
      sel := v % 8, pend := pend, hung := (s.clkDie d).hung.filter (fun i => bitAt pend i)
      since := pendSince pend (s.clkDie d).pend s.strokeN (s.clkDie d).since } := by
  subst hpend
  simp only [clkMuxSwitch, State.gated_of_pass hpass]
  rfl

theorem clkDomReset_of_pass {s : State} {req : Requester} {d : Nat} (v : Nat) (hpass : s.gate req d 34 3 = (s, true)) :
    clkDomReset s req d v = [2, 1, 0].foldl (fun s dom => if bitAt v dom then s.domReset d dom else s) s := by
  simp only [clkDomReset, State.gated_of_pass hpass]

/-- A single bit resets its domain alone. -/
theorem domReset_of_bit (s : State) (d : Nat) {k : Nat} (hk : k < 3) :
    [2, 1, 0].foldl (fun s dom => if bitAt (2 ^ k) dom then s.domReset d dom else s) s = s.domReset d k := by
  have hcase : k = 0 ∨ k = 1 ∨ k = 2 := by omega
  rcases hcase with rfl | rfl | rfl <;> rfl

section
variable {s : State} {d dom : Nat} (hdom : dom < 3) (hpend : bitAt (s.clkDie d).pend dom = true)
include hdom hpend

theorem muxSwitchComplete_of_pending : muxSwitchComplete s d dom =
    if (if bitAt (s.clkDie d).cur dom then (s.clkDie d).pllAlive else (s.clkDie d).oscAlive) = false then s
    else s.setClk d { s.clkDie d with
      cur := putBit (s.clkDie d).cur dom (bitAt (s.clkDie d).sel dom), pend := putBit (s.clkDie d).pend dom false
      hung := (s.clkDie d).hung.filter (fun i => i ≠ dom) } := by
  simp only [muxSwitchComplete, Nat.not_le.2 hdom, hpend, Bool.true_eq_false, false_or]

theorem muxHang_of_late (hlate : Tbl.val 0 (s.clkDie d).since dom + 20 ≤ s.strokeN) (hthere : s.dieThere d = true)
    (hfresh : dom ∉ (s.clkDie d).hung) : muxHang s d dom =
      (s.setClk d { s.clkDie d with hung := (s.clkDie d).hung ++ [dom] }).event d 34 [sqBit 0x118 3] [1] := by
  have hgo : ¬ (3 ≤ dom ∨ bitAt (s.clkDie d).pend dom = false ∨ s.strokeN < Tbl.val 0 (s.clkDie d).since dom + 20 ∨
      s.dieThere d = false ∨ (s.clkDie d).hung.contains dom = true) := by
    simp [hpend, hthere, hfresh, Nat.not_le.2 hdom, Nat.not_lt.2 hlate]
  simp only [muxHang, if_neg hgo]

omit hdom hpend in
theorem muxHang_of_early (hskip : s.strokeN < Tbl.val 0 (s.clkDie d).since dom + 20 ∨ dom ∈ (s.clkDie d).hung) :
    muxHang s d dom = s := by
  have hstop : 3 ≤ dom ∨ bitAt (s.clkDie d).pend dom = false ∨ s.strokeN < Tbl.val 0 (s.clkDie d).since dom + 20 ∨
      s.dieThere d = false ∨ (s.clkDie d).hung.contains dom = true :=
    .inr (.inr (hskip.imp_right (fun h => .inr (List.contains_iff_mem.2 h))))
  simp only [muxHang, if_pos hstop]

end

/-! ### Start-up checks and trim (R464, R469) -/

section
variable {s : State} {d : Nat}

theorem oscStable_of_new (hpower : s.boot.powered = true) (hthere : s.dieThere d = true) (hnew : (s.clkDie d).oscOk = false) :
    oscStable s d = s.setClk d { s.clkDie d with oscOk := true, oscAlive := true, pllAlive := true, lost := false } := by
  simp [oscStable, hpower, hthere, hnew]

section
variable {u : State} (hpower : s.boot.powered = true) (hosc : (s.clkDie d).oscOk = true) (hfree : (s.clkDie d).locked = false)
  (hpll : (s.clkDie d).pllAlive = true)
include hpower hosc hfree hpll

/-- The first stroke begins once the last live die has locked (R50). -/
def State.startStrokes (u : State) : State :=
  if u.boot.started || u.flt.safe || !u.allLocked then u
  else
    { u with time := { u.time with stroke := 0, boundNs := 0, phaseUs := 0, strokeNs := 50000 }
             boot := { u.boot with started := true } }

omit hpower hosc hfree hpll in
theorem State.startStrokes_of_wait (hwait : u.allLocked = false ∨ u.boot.started = true ∨ u.flt.safe = true) : u.startStrokes = u := by
  rcases hwait with h | h | h <;> simp [State.startStrokes, h]

omit hpower hosc hfree hpll in
theorem State.startStrokes_of_last (hall : u.allLocked = true) (hnew : u.boot.started = false) (hsafe : u.flt.safe = false) :
    u.startStrokes = { u with time := { u.time with stroke := 0, boundNs := 0, phaseUs := 0, strokeNs := 50000 }
                              boot := { u.boot with started := true } } := by
  simp only [State.startStrokes, hall, hnew, hsafe, Bool.or_self, Bool.not_true, Bool.false_eq_true, if_false]

/-- What a lock leaves: every domain on the PLL, a Tiller at P3, a Wellhead's point-to-point ports in training. -/
theorem pllLockConfirm_of_ready
    (htiller : 8 ≤ d → d < 76 → u = s.setClk d { s.clkDie d with
        locked := true, sel := 7, cur := 7, pend := 0, op := 3, offset := (s.planner (d - 8)).offset
        mv := nominalMv 3 + 5 * (s.planner (d - 8)).offset })
    (hwell : 76 ≤ d → u = s.setClk d { s.clkDie d with locked := true, sel := 7, cur := 7, pend := 0 })
    (hhead : d < 4 → u = ((List.range 48).filter (fun p => portWh p = d)).foldl (fun s p => if p < 16 then s else s.train p)
        (s.setClk d { s.clkDie d with locked := true, sel := 7, cur := 7, pend := 0 }))
    (hdie : d < 4 ∨ 8 ≤ d) : pllLockConfirm s d = u.startStrokes := by
  have hgo : ¬ ((s.clkDie d).oscOk = false ∨ (s.clkDie d).locked = true ∨ (s.clkDie d).pllAlive = false ∨ s.boot.powered = false) := by
    simp [hpower, hosc, hfree, hpll]
  simp only [pllLockConfirm, if_neg hgo]
  by_cases hlow : d < 4
  · rw [hhead hlow]
    simp only [if_neg (show ¬ (8 ≤ d ∧ d < 76) by omega), if_pos hlow]
    rfl
  · by_cases htil : d < 76
    · have h8 : 8 ≤ d := by omega
      rw [htiller h8 htil]
      simp only [if_pos (show 8 ≤ d ∧ d < 76 from ⟨h8, htil⟩), if_neg hlow]
      rfl
    · rw [hwell (by omega)]
      simp only [if_neg (show ¬ (8 ≤ d ∧ d < 76) by omega), if_neg hlow]
      rfl

end

theorem trimSourceSwitch_of_boundary {src : Nat} (trim : Int) (hat : s.atBoundary = true) (hthere : s.dieThere d = true) (hlow : 1 ≤ src)
    (hhigh : src ≤ 3) (hnew : src ≠ (s.clkDie d).src) (hmarks : src = 2 → s.zio.timing ≠ none) :
    trimSourceSwitch s d src trim = (s.setClk d { s.clkDie d with src := src, trim := unsigned 16 trim }).event d 34
      (sqBit 0x118 1 :: (if (s.clkDie d).src = 1 then [sqBit 0x118 0] else [])) [] := by
  have hgo : ¬ (s.atBoundary = false ∨ s.dieThere d = false ∨ 3 < src ∨ src = 0 ∨ src = (s.clkDie d).src ∨
      (src = 2 ∧ s.zio.timing = none)) := by
    simp only [hat, hthere, Bool.true_eq_false, false_or, not_or, not_and]
    exact ⟨by omega, by omega, hnew, hmarks⟩
  simp only [trimSourceSwitch, if_neg hgo]

/-! ### Loss of a root, restart and sequencer (R468, R473, R474) -/

/-- What the loss of a locked die's root leaves, before its die is dealt with; which root was lost is a free value. -/
def State.rootGone (s : State) (d : Nat) : State :=
  (({ s with freeCount := s.freeCount + 1 } : State).setClk d { s.clkDie d with
    locked := false, oscOk := false, oscAlive := Config.freeBool s.freeCount, pllAlive := false, lost := true }).event d 34
      [sqBit 0x118 2] []

section
variable (hlocked : (s.clkDie d).locked = true) (hthere : s.dieThere d = true)
include hlocked hthere

theorem rootLoss_of_wellhead (hd : d < 4) : rootLoss s d = (s.rootGone d).safeStates := by
  simp only [rootLoss, hlocked, hthere, Bool.true_eq_false, or_self, if_false, if_pos hd]
  rfl

theorem rootLoss_of_inService (h8 : 8 ≤ d) (h76 : d < 76) (hrole : ((s.rootGone d).tiller (d - 8)).role = .inService) :
    rootLoss s d = ((s.rootGone d).setClk d { (s.rootGone d).clkDie d with mv := 0, want := none }).tillerFail (d - 8) false true := by
  simp only [State.rootGone] at hrole ⊢
  simp only [rootLoss, hlocked, hthere, Bool.true_eq_false, or_self, if_false, if_neg (show ¬ d < 4 by omega),
    if_pos (show d < 80 by omega), hrole]

theorem rootLoss_of_spare (h8 : 8 ≤ d) (h76 : d < 76) (hrole : ((s.rootGone d).tiller (d - 8)).role = .spare) :
    rootLoss s d = (((s.rootGone d).setClk d { (s.rootGone d).clkDie d with mv := 0, want := none }).routerDown
      (tillerSite (d - 8))).spareFail (d - 8) false := by
  simp only [State.rootGone] at hrole ⊢
  simp only [rootLoss, hlocked, hthere, Bool.true_eq_false, or_self, if_false, if_neg (show ¬ d < 4 by omega),
    if_pos (show d < 80 by omega), hrole]

theorem rootLoss_of_well (h80 : 80 ≤ d) : rootLoss s d = (s.rootGone d).wellFailure (d - 80) := by
  simp only [rootLoss, hlocked, hthere, Bool.true_eq_false, or_self, if_false, if_neg (show ¬ d < 4 by omega),
    if_neg (show ¬ d < 80 by omega)]
  rfl

end

end

section
variable {s : State} (hsafe : s.flt.safe = true) (hfew : s.flt.failedWh.length < 2)
include hsafe hfew

theorem restartWait_of_all : restartWait s none =
    if s.allLocked then { s with boot := { s.boot with restartDue := true } } else s := by
  simp only [restartWait, hsafe, Bool.true_eq_false, Nat.not_le.2 hfew, or_self, if_false]

theorem restartWait_of_unstable {w : Nat} (hfree : (s.clkDie w).locked = false) : restartWait s (some w) = s.wellheadFail w := by
  simp only [restartWait, hsafe, hfree, Bool.true_eq_false, Bool.false_eq_true, Nat.not_le.2 hfew, or_self, if_false]

end

theorem sequencerChange_of_want {s : State} {t op off : Nat} (ht : t < 68) (hrole : (s.tiller t).role ≠ .retired)
    (hwant : (s.clkDie (8 + t)).want = some (op, off)) : sequencerChange s t = s.setClk (8 + t) { s.clkDie (8 + t) with
      op := op, offset := off, mv := nominalMv op + 5 * off, want := none } := by
  simp only [sequencerChange, hwant, Nat.not_le.2 ht, hrole, or_self, if_false]

/-! ### Power entry, caps and temperature (R475, R477, R479) -/

theorem inputLow_of_low (s : State) {cv : Nat} (h46 : 4600 ≤ cv) (h48 : cv < 4800) :
    inputLow s cv = s.event s.capDie 35 [sqBit 0x118 2] [] := by
  simp only [inputLow, if_neg (show ¬ (cv < 4600 ∨ 4800 ≤ cv) by omega)]

theorem hotspotTrip_of_there {s : State} {d : Nat} (hthere : s.dieThere d = true) :
    hotspotTrip s d = { s with pwr := { s.pwr with cut := true } } := by
  simp only [hotspotTrip, hthere, if_true]

section
variable {s : State} {req : Requester} (hpass : s.gate req s.capDie 35 3 = (s, true)) (v : Nat)
include hpass

theorem pwrCapWrite_of_cap : pwrCapWrite s req 0x110 v =
    if 2000 ≤ v % 65536 ∧ v % 65536 ≤ 16000 then s.setRegN s.capDie 35 0x110 (v % 65536) else s.err s.capDie 35 1 := by
  simp only [pwrCapWrite, State.gated_of_pass hpass, State.pwrWrite, ne_eq, not_true_eq_false, if_false, if_true]

theorem pwrCapWrite_of_ceiling {off : Nat} (hoff : off = 0x120 ∨ off = 0x124) : pwrCapWrite s req off v =
    if ceilOk v then s.setRegN s.capDie 35 off v else s.err s.capDie 35 1 := by
  simp only [pwrCapWrite, State.gated_of_pass hpass, State.pwrWrite, ne_eq, not_true_eq_false, if_false,
    if_neg (show ¬ off = 0x110 by omega), if_pos hoff]

end

section
variable {s u : State} {t : Nat} {e : Int} (ht : t < 68)
include ht

theorem hotspotHigh_of_cool (hcool : e ≤ 800) :
    hotspotHigh s t e = { s with pwr := { s.pwr with hot := s.pwr.hot.filter (fun x => x ≠ t) } } := by
  simp only [hotspotHigh, if_neg (Nat.not_le.2 ht), if_pos hcool]

theorem hotspotHigh_of_warm (hlow : 800 < e) (hhigh : e < 840) (hfresh : t ∉ s.pwr.hot) : hotspotHigh s t e = s := by
  have hwarm : e < 840 ∧ s.pwr.hot.contains t = false := ⟨hhigh, by simpa using hfresh⟩
  simp only [hotspotHigh, if_neg (Nat.not_le.2 ht), if_neg (Int.not_le.2 hlow), if_pos hwarm]

theorem hotspotHigh_of_hot (hu : u = { s with pwr := { s.pwr with hot := insNat t s.pwr.hot } })
    (hhot : 840 ≤ e ∨ (800 < e ∧ t ∈ s.pwr.hot)) : hotspotHigh s t e = u.coolTiller t := by
  have hover : ¬ e ≤ 800 := by omega
  have hstays : ¬ (e < 840 ∧ s.pwr.hot.contains t = false) := by
    rintro ⟨hlow, hfresh⟩
    rcases hhot with h | ⟨_, h⟩
    · omega
    · simp [h] at hfresh
  subst hu
  simp only [hotspotHigh, if_neg (Nat.not_le.2 ht), if_neg hover, if_neg hstays]

end

section
variable {u v : State} {t p : Nat} (hpad : (u.tiller t).pad = some p)
include hpad

theorem State.coolTiller_of_recent {n : Nat} (hheat : Tbl.look u.pwr.heatAt p = some n) (hrecent : u.strokeN < n + 20) :
    u.coolTiller t = u := by
  simp only [State.coolTiller, hpad, hheat, decide_eq_false (Nat.not_le.2 hrecent), Bool.not_false, Bool.true_or, if_true]

theorem State.coolTiller_of_lowest (hlow : 4 ≤ max (u.padPoint p) (Tbl.val 0 u.pwr.allow p)) : u.coolTiller t = u := by
  simp only [State.coolTiller, hpad, decide_eq_true hlow, Bool.or_true, if_true]

theorem State.coolTiller_of_due (hdue : ∀ n, Tbl.look u.pwr.heatAt p = some n → n + 20 ≤ u.strokeN)
    (hhigh : max (u.padPoint p) (Tbl.val 0 u.pwr.allow p) < 4)
    (hv : v = u.lowerPad p (u.pwr.watts.foldl (· + ·) 0 / max 1 u.pwr.watts.length)) :
    u.coolTiller t = ({ v with pwr := { v.pwr with heatAt := Tbl.put v.pwr.heatAt p v.strokeN } } : State).event (8 + t) 35
      [sqBit 0x118 3] [] := by
  subst hv
  simp only [State.coolTiller, hpad, decide_eq_false (Nat.not_le.2 hhigh), Bool.or_false]
  cases hheat : Tbl.look u.pwr.heatAt p with
  | none => rfl
  | some n =>
    simp only [decide_eq_true (hdue n hheat), Bool.not_true, Bool.false_eq_true, if_false]
    rfl

end

theorem State.coolTiller_of_unplaced {u : State} {t : Nat} (hpad : (u.tiller t).pad = none) : u.coolTiller t = u := by
  simp only [State.coolTiller, hpad]

/-! ### The obligation -/

/-- Settles O50, its parts in their order: domains, pending switches, one die's checks and losses, the restart, the sequencer,
the caps, a Tiller's heat. -/
theorem clocksAndPowerFollowTheirRules : Obligations.ClocksAndPowerFollowTheirRules := by
  refine ⟨fun s req d v hpass => ⟨?_, ?_, congrArg _ (clkDomReset_of_pass _ hpass)⟩,
    fun s d dom hdom hpend => ⟨fun halive => ?_, fun hstill => ?_, ?_, ?_⟩,
    fun s d hpower hthere => ⟨fun hnew => congrArg _ (oscStable_of_new hpower hthere hnew), ?_, ?_, ?_, ?_, rfl,
      congrArg _ (hotspotTrip_of_there hthere)⟩,
    fun s hsafe hfew => ⟨fun hall => ?_, fun hsome => ?_, fun w hfree => congrArg _ (restartWait_of_unstable hsafe hfew hfree)⟩,
    fun s t op off ht hrole hwant => congrArg _ (sequencerChange_of_want ht hrole hwant),
    fun s req v hpass => ⟨fun hlow hhigh => ?_, fun hbad => ?_, fun off hoff => ⟨fun hok => ?_, fun hbad => ?_⟩⟩,
    fun s u v t e ht hu => ⟨fun hcool => congrArg _ (hotspotHigh_of_cool ht hcool),
      fun hlow hhigh hfresh => congrArg _ (hotspotHigh_of_warm ht hlow hhigh hfresh), fun hhot => ?_⟩⟩
  · refine ⟨_, _, _, rfl, congrArg _ (clkMuxSwitch_of_pass hpass rfl), fun k => List.mem_filter, fun k hk hnow hold => ?_, fun k hk => ?_⟩
    · rw [look_pendSince, if_pos ⟨hk, hnow, hold⟩]
    · rw [look_pendSince, if_neg]
      rintro ⟨-, hnow, hold⟩
      rcases hk with h | h <;> simp_all
  · intro k hk hv
    rw [exec_clkDomReset, clkDomReset_of_pass _ hpass, hv, domReset_of_bit s d hk]
  · rw [exec_muxSwitchComplete, muxSwitchComplete_of_pending hdom hpend, if_neg (by rw [halive]; exact Bool.noConfusion)]
  · rw [exec_muxSwitchComplete, muxSwitchComplete_of_pending hdom hpend, if_pos hstill]
  · exact fun hlate hthere hfresh => congrArg _ (muxHang_of_late hdom hpend hlate hthere hfresh)
  · exact fun hskip => congrArg _ (muxHang_of_early hskip)
  · intro hosc hfree hpll u htiller hwell hhead hdie
    rw [exec_pllLockConfirm, pllLockConfirm_of_ready hpower hosc hfree hpll htiller hwell hhead hdie]
    exact ⟨fun hwait => congrArg _ (State.startStrokes_of_wait hwait),
      fun hall hnew hsafe => congrArg _ (State.startStrokes_of_last hall hnew hsafe)⟩
  · exact fun src trim hat hlow hhigh hnew hmarks => congrArg _ (trimSourceSwitch_of_boundary trim hat hthere hlow hhigh hnew hmarks)
  · intro hlocked
    refine ⟨_, Config.freeBool s.freeCount, rfl, ?_⟩
    rintro v rfl
    exact ⟨fun hd => congrArg _ (rootLoss_of_wellhead hlocked hthere hd),
      fun h8 h76 hrole => congrArg _ (rootLoss_of_inService hlocked hthere h8 h76 hrole),
      fun h8 h76 hrole => congrArg _ (rootLoss_of_spare hlocked hthere h8 h76 hrole),
      fun h80 => congrArg _ (rootLoss_of_well hlocked hthere h80)⟩
  · exact fun cv h46 h48 => congrArg _ (inputLow_of_low s h46 h48)
  · rw [exec_restartWait, restartWait_of_all hsafe hfew, if_pos hall]
  · rw [exec_restartWait, restartWait_of_all hsafe hfew, if_neg (by rw [hsome]; exact Bool.noConfusion)]
  · rw [exec_pwrCapWrite, pwrCapWrite_of_cap hpass, if_pos ⟨hlow, hhigh⟩]
  · rw [exec_pwrCapWrite, pwrCapWrite_of_cap hpass, if_neg (by omega)]
  · rw [exec_pwrCapWrite, pwrCapWrite_of_ceiling hpass _ hoff, if_pos hok]
  · rw [exec_pwrCapWrite, pwrCapWrite_of_ceiling hpass _ hoff, if_neg (by rw [hbad]; exact Bool.noConfusion)]
  · have hpads : (u.tiller t).pad = (s.tiller t).pad := hu ▸ rfl
    have hheats : u.pwr.heatAt = s.pwr.heatAt := hu ▸ rfl
    have hallow : u.pwr.allow = s.pwr.allow := hu ▸ rfl
    have hnow : u.strokeN = s.strokeN := hu ▸ rfl
    rw [exec_hotspotHigh, hotspotHigh_of_hot ht hu hhot, ← hpads, ← hheats, ← hallow, ← hnow]
    exact ⟨fun hpad => congrArg _ (State.coolTiller_of_unplaced hpad), fun p hpad =>
      ⟨fun n hheat hrecent => congrArg _ (State.coolTiller_of_recent hpad hheat hrecent),
        fun hlow => congrArg _ (State.coolTiller_of_lowest hpad hlow),
        fun hdue hhigh hv => congrArg _ (State.coolTiller_of_due hpad hdue hhigh hv)⟩⟩

end Sys2Proof.Machine
end

section
/-! PROOFS. The debug port: harts, memory and claims behind it, the TAP's instructions, and the management bus (R458, R522 to R528,
R531, R532). -/

namespace Sys2Proof.Machine

/-! ### The meaning that a command runs -/

section
variable (s : State) (req : Requester) (c a n : Nat) (w : Bool) (v : Word64)
@[simp] theorem exec_hartHalt : exec (.hartHalt c) s = .next (hartHalt s c) := rfl
@[simp] theorem exec_hartResume : exec (.hartResume c) s = .next (hartResume s c) := rfl
@[simp] theorem exec_hartStep : exec (.hartStep c) s = .next (hartStep s c) := rfl
@[simp] theorem exec_triggerHit (k acc : Nat) : exec (.triggerHit c k acc a) s = .next (triggerHit s c k acc a) := rfl
@[simp] theorem exec_accessRegister (r : Nat) : exec (.accessRegister c r w v) s = .next (accessRegister s c r w v.toNat) := rfl
@[simp] theorem exec_accessMemory : exec (.accessMemory c a n w v) s = .next (accessMemory s c a n w v.toNat) := rfl
@[simp] theorem exec_systemBusAccess : exec (.systemBusAccess a n w v) s = .next (systemBusAccess s a n w v.toNat) := rfl
@[simp] theorem exec_ndmreset : exec .ndmreset s = .next (ndmreset s) := rfl
@[simp] theorem exec_dbgClaimScan (v : Word) : exec (.dbgClaimScan req v) s = .next (dbgClaimScan s req v.toNat) := rfl
@[simp] theorem exec_claimScanDone : exec .claimScanDone s = .next (claimScanDone s) := rfl
@[simp] theorem exec_dbgClaimForce : exec (.dbgClaimForce req) s = .next (dbgClaimForce s req) := rfl
end

/-! ### Harts (R525, R526) -/

section
variable {s : State} {c : Nat} (hopen : s.portOpen = true)
include hopen

theorem hartHalt_of_there (hthere : s.coreThere c = true) :
    hartHalt s c = { s with dbg := { s.dbg with halted := insNat c s.dbg.halted } } := by
  simp only [hartHalt, hopen, hthere, Bool.and_self, if_true]

theorem ndmreset_of_open : ndmreset s = s.askRestart := by
  simp only [ndmreset, hopen, if_true]

/-! ### What a register, memory or bus access does, by what its operands are (R525, R528) -/

theorem accessRegister_of_beyond {r : Nat} (w : Bool) (v : Nat) (hreg : regnoOk r = false) : accessRegister s c r w v = s.cmdErr 2 := by
  simp only [accessRegister, hopen, hreg, Bool.true_eq_false, if_false, if_true]

section
variable {a n : Nat}

theorem accessMemory_of_size (w : Bool) (v : Nat) (h4 : n ≠ 4) (h8 : n ≠ 8) : accessMemory s c a n w v = s.cmdErr 2 := by
  simp only [accessMemory, hopen, Bool.true_eq_false, if_false, if_pos (show n ≠ 4 ∧ n ≠ 8 from ⟨h4, h8⟩)]

theorem systemBusAccess_of_size (w : Bool) (v : Nat) (h4 : n ≠ 4) (h8 : n ≠ 8) : systemBusAccess s a n w v = s.sbErr 4 := by
  simp only [systemBusAccess, hopen, Bool.true_eq_false, if_false, if_pos (show n ≠ 4 ∧ n ≠ 8 from ⟨h4, h8⟩)]

variable (hsize : n = 4 ∨ n = 8)
include hsize

theorem systemBusAccess_of_unaligned (w : Bool) (v : Nat) (halign : a % n ≠ 0) : systemBusAccess s a n w v = s.sbErr 3 := by
  simp only [systemBusAccess, hopen, Bool.true_eq_false, if_false, if_neg (show ¬ (n ≠ 4 ∧ n ≠ 8) by omega), if_pos halign]

variable (halign : a % n = 0)
include halign

theorem systemBusAccess_of_outside (w : Bool) (v : Nat) (hout : lpddrOk a n = false) : systemBusAccess s a n w v = s.sbErr 2 := by
  simp only [systemBusAccess, hopen, Bool.true_eq_false, if_false, if_neg (show ¬ (n ≠ 4 ∧ n ≠ 8) by omega), halign, ne_eq,
    not_true_eq_false, hout, if_true]

theorem systemBusAccess_of_legal (w : Bool) (v : Nat) (hin : lpddrOk a n = true) : systemBusAccess s a n w v =
    if w then s.debugStore a n v else (s.debugLoad a n).2.answer (s.debugLoad a n).1 := by
  simp only [systemBusAccess, hopen, Bool.true_eq_false, if_false, if_neg (show ¬ (n ≠ 4 ∧ n ≠ 8) by omega), halign, ne_eq,
    not_true_eq_false, hin]

end

section
variable (hhalt : c ∈ s.dbg.halted)
include hhalt

theorem hartStep_of_halted : hartStep s c = s.coreRan c := by
  simp only [hartStep, hopen, List.contains_iff_mem.2 hhalt, Bool.and_self, if_true]

theorem hartResume_of_forced (hforced : c ∈ s.dbg.forced) : hartResume s c = (s.coreRan c).coreFail c := by
  simp only [hartResume, hopen, List.contains_iff_mem.2 hhalt, List.contains_iff_mem.2 hforced, Bool.and_self, Bool.not_true,
    Bool.false_eq_true, if_false, if_true]

/-- A core that was not forced runs on: it alone is no longer halted. -/
theorem hartResume_of_free (hfree : c ∉ s.dbg.forced) : ∃ t, hartResume s c = t ∧ c ∉ t.dbg.halted ∧
    (∀ x, x ≠ c → (x ∈ t.dbg.halted ↔ x ∈ s.dbg.halted)) := by
  have hforced : s.dbg.forced.contains c = false := by simpa using hfree
  refine ⟨_, rfl, ?_⟩
  simp only [hartResume, hopen, List.contains_iff_mem.2 hhalt, hforced, Bool.and_self, Bool.not_true, Bool.false_eq_true, if_false]
  exact ⟨by simp, fun x hx => by simp [State.coreRan, hx]⟩

theorem accessRegister_of_halted {r : Nat} (w : Bool) (v : Nat) (hreg : regnoOk r = true) : accessRegister s c r w v =
    if w then s.setCoreReg c r v else (s.coreReg c r).2.answer (s.coreReg c r).1 := by
  simp only [accessRegister, hopen, hreg, List.contains_iff_mem.2 hhalt, Bool.true_eq_false, if_false]

section
variable {a n : Nat} (hsize : n = 4 ∨ n = 8)
include hsize

theorem accessMemory_of_bad_address (w : Bool) (v : Nat) (hbad : a % n ≠ 0 ∨ lpddrOk a n = false) :
    accessMemory s c a n w v = s.cmdErr 5 := by
  simp only [accessMemory, hopen, List.contains_iff_mem.2 hhalt, Bool.true_eq_false, if_false,
    if_neg (show ¬ (n ≠ 4 ∧ n ≠ 8) by omega), if_pos hbad]

theorem accessMemory_of_legal (w : Bool) (v : Nat) (halign : a % n = 0) (hin : lpddrOk a n = true) : accessMemory s c a n w v =
    if w then s.debugStore a n v else (s.debugLoad a n).2.answer (s.debugLoad a n).1 := by
  simp only [accessMemory, hopen, List.contains_iff_mem.2 hhalt, Bool.true_eq_false, if_false,
    if_neg (show ¬ (n ≠ 4 ∧ n ≠ 8) by omega), halign, hin, ne_eq, not_true_eq_false, or_self]

end

end

section
variable (hruns : c ∉ s.dbg.halted)
include hruns

theorem accessRegister_of_running {r : Nat} (w : Bool) (v : Nat) (hreg : regnoOk r = true) :
    accessRegister s c r w v = s.cmdErr 4 := by
  have hfree : s.dbg.halted.contains c = false := by simpa using hruns
  simp only [accessRegister, hopen, hreg, hfree, Bool.true_eq_false, if_false, if_true]

theorem accessMemory_of_running {a n : Nat} (w : Bool) (v : Nat) (hsize : n = 4 ∨ n = 8) :
    accessMemory s c a n w v = s.cmdErr 4 := by
  have hfree : s.dbg.halted.contains c = false := by simpa using hruns
  simp only [accessMemory, hopen, hfree, Bool.true_eq_false, if_false, if_neg (show ¬ (n ≠ 4 ∧ n ≠ 8) by omega), if_true]

omit hopen in
theorem triggerHit_of_match {k acc a : Nat} (hthere : s.coreThere c = true)
    (hmatch : trigMatch (Tbl.val (0, 0) s.dbg.trig (c * 4 + k % 4)).1 (Tbl.val (0, 0) s.dbg.trig (c * 4 + k % 4)).2 acc a = true) :
    triggerHit s c k acc a = { s with dbg := { s.dbg with halted := insNat c s.dbg.halted } } := by
  have hfree : s.dbg.halted.contains c = false := by simpa using hruns
  simp only [triggerHit, hthere, hfree, hmatch, Bool.not_false, Bool.and_self, if_true]

end

end

section
variable {s : State} (hclosed : s.portOpen = false) (c a n : Nat) (w : Bool) (v : Nat)
include hclosed

theorem hartHalt_of_closed : hartHalt s c = s := by simp only [hartHalt, hclosed, Bool.false_and, Bool.false_eq_true, if_false]
theorem hartResume_of_closed : hartResume s c = s := by simp only [hartResume, hclosed, Bool.false_and, Bool.not_false, if_true]
theorem hartStep_of_closed : hartStep s c = s := by simp only [hartStep, hclosed, Bool.false_and, Bool.false_eq_true, if_false]
theorem accessRegister_of_closed : accessRegister s c a w v = s := by simp only [accessRegister, hclosed, if_true]
theorem accessMemory_of_closed : accessMemory s c a n w v = s := by simp only [accessMemory, hclosed, if_true]
theorem systemBusAccess_of_closed : systemBusAccess s a n w v = s := by simp only [systemBusAccess, hclosed, if_true]
theorem ndmreset_of_closed : ndmreset s = s := by simp only [ndmreset, hclosed, Bool.false_eq_true, if_false]
end

/-! ### Claims (R527) -/

section
variable {s : State} {req : Requester} (hpass : s.gate req 0 16 3 = (s, true))
include hpass

theorem dbgClaimScan_of_pass (v : Word) :
    dbgClaimScan s req v.toNat = { s with dbg := { s.dbg with scan := some (v.toNat / 16777216) } } := by
  simp only [dbgClaimScan, State.gated_of_pass hpass, bitsOf_top_byte]

variable {o : Nat} {r : State × Nat × Nat} (ho : o = (s.reg 0 16 0x110).toNat)
  (hr : r = s.ctrOp 3 ((s.reg 0 16 0x10C).toNat % 131072) o 0 0)
include ho hr

theorem dbgClaimForce_of_other (hother : r.2.2 ≠ 0) : dbgClaimForce s req = r.1.event 0 16 [sqBit 0x118 2] [] := by
  subst hr ho
  simp only [dbgClaimForce, State.gated_of_pass hpass, if_pos hother]

/-- A claim that is as expected is forced; a core's is remembered. -/
theorem dbgClaimForce_of_owner (hown : r.2.2 = 0) : ∃ f, dbgClaimForce s req =
      ((({ r.1 with dbg := { r.1.dbg with forced := f } } : State).bump 0 16 0x12C 1).event 0 16 [sqBit 0x118 1] []) ∧
    (o / 268435456 = 2 → o / 16777216 % 16 ∈ f) ∧ (∀ x ∈ r.1.dbg.forced, x ∈ f) := by
  refine ⟨if o / 268435456 = 2 then insNat (o / 16777216 % 16) r.1.dbg.forced else r.1.dbg.forced, ?_, fun hcore => ?_, fun x hx => ?_⟩
  · subst hr ho
    simp only [dbgClaimForce, State.gated_of_pass hpass, if_neg (not_not.2 hown)]
  · rw [if_pos hcore]
    exact mem_insNat.2 (.inl rfl)
  · split
    · exact mem_insNat.2 (.inr hx)
    · exact hx

end

theorem claimScanDone_of_scan {s : State} {m : Nat} (hscan : s.dbg.scan = some m) : claimScanDone s =
    ({ s with dbg := { s.dbg with scan := none, claims := s.claimIds m } } : State).event 0 16 [sqBit 0x118 3] [] := by
  simp only [claimScanDone, hscan]

/-- Settles O56, its parts in their order: the open port's harts and accesses, the closed port, claims. -/
theorem debugReachesHartsAndClaims : Obligations.DebugReachesHartsAndClaims := by
  refine ⟨fun s c hopen _ => ⟨fun hthere => congrArg _ (hartHalt_of_there hopen hthere),
      fun hhalt => ⟨congrArg _ (hartStep_of_halted hopen hhalt), fun hforced => congrArg _ (hartResume_of_forced hopen hhalt hforced),
        fun hfree => ?_, fun r v hreg => ⟨congrArg _ (accessRegister_of_halted hopen hhalt true _ hreg),
          congrArg _ (accessRegister_of_halted hopen hhalt false v.toNat hreg)⟩,
        fun a n v hsize halign hin => ⟨congrArg _ (accessMemory_of_legal hopen hhalt hsize true _ halign hin),
          congrArg _ (accessMemory_of_legal hopen hhalt hsize false v.toNat halign hin)⟩,
        fun a n w v hsize hbad => congrArg _ (accessMemory_of_bad_address hopen hhalt hsize w _ hbad)⟩,
      fun hruns => ⟨fun r w v hreg => congrArg _ (accessRegister_of_running hopen hruns w _ hreg),
        fun a n w v hsize => congrArg _ (accessMemory_of_running hopen hruns w _ hsize),
        fun k acc a hthere hmatch => congrArg _ (triggerHit_of_match hruns hthere hmatch)⟩,
      fun r w v hreg => congrArg _ (accessRegister_of_beyond hopen w _ hreg),
      fun a n w v h4 h8 => ⟨congrArg _ (accessMemory_of_size hopen w _ h4 h8), congrArg _ (systemBusAccess_of_size hopen w _ h4 h8)⟩,
      fun a n v hsize halign hin => ⟨congrArg _ (systemBusAccess_of_legal hopen hsize halign true _ hin),
        congrArg _ (systemBusAccess_of_legal hopen hsize halign false v.toNat hin)⟩,
      fun a n w v hsize => ⟨fun halign => congrArg _ (systemBusAccess_of_unaligned hopen hsize w _ halign),
        fun halign hout => congrArg _ (systemBusAccess_of_outside hopen hsize halign w _ hout)⟩,
      congrArg _ (ndmreset_of_open hopen)⟩,
    fun s c a n w v hclosed => ⟨congrArg _ (hartHalt_of_closed hclosed c), congrArg _ (hartResume_of_closed hclosed c),
      congrArg _ (hartStep_of_closed hclosed c), congrArg _ (accessRegister_of_closed hclosed c a w _),
      congrArg _ (accessMemory_of_closed hclosed c a n w _), congrArg _ (systemBusAccess_of_closed hclosed a n w _),
      congrArg _ (ndmreset_of_closed hclosed)⟩,
    fun s req v hpass => ⟨congrArg _ (dbgClaimScan_of_pass hpass v), fun o r ho hr =>
      ⟨fun hother => congrArg _ (dbgClaimForce_of_other hpass ho hr hother), fun hown => ?_⟩⟩,
    fun s m hscan => congrArg _ (claimScanDone_of_scan hscan)⟩
  · obtain ⟨t, ht, hclauses⟩ := hartResume_of_free hopen hhalt hfree
    exact ⟨t, congrArg _ ht, hclauses⟩
  · obtain ⟨f, hf, hclauses⟩ := dbgClaimForce_of_owner hpass ho hr hown
    exact ⟨f, congrArg _ hf, hclauses⟩

end Sys2Proof.Machine
end

section
/-! PROOFS. The TAP's instructions and the management bus (R458, R522 to R525, R531, R532). -/

namespace Sys2Proof.Machine

/-! ### The meaning that a command runs -/

section
variable (s : State) (pins : List Bool) (b : Bool)
@[simp] theorem exec_tapIdcode : exec .tapIdcode s = .next (tapIdcode s) := rfl
@[simp] theorem exec_tapSamplePreload : exec (.tapSamplePreload pins) s = .next (tapSamplePreload s pins) := rfl
@[simp] theorem exec_tapExtest : exec (.tapExtest pins b) s = .next (tapExtest s pins b) := rfl
@[simp] theorem exec_tapDtmcs (v : Word) : exec (.tapDtmcs b v) s = .next (tapDtmcs s) := rfl
@[simp] theorem exec_tapDmi (op a : Nat) (v : Word) : exec (.tapDmi op a v) s = .next (tapDmi s op a v.toNat) := rfl
@[simp] theorem exec_tapRegacc (act : Bool) (off : Nat) (v : Word) :
    exec (.tapRegacc act b off v) s = .next (tapRegacc s act b off v.toNat) := rfl
@[simp] theorem exec_tapUnlock (key sig : List Byte) : exec (.tapUnlock key sig) s = .next (tapUnlock s key sig) := rfl
@[simp] theorem exec_tapBypass : exec (.tapBypass b) s = .next s.tapBypassed := rfl
@[simp] theorem exec_smbPresence : exec .smbPresence s = .next (smbPresence s) := rfl
@[simp] theorem exec_smbInletTemp : exec .smbInletTemp s = .next (s.smbSensor 200 2) := rfl
@[simp] theorem exec_smbOutletTemp : exec .smbOutletTemp s = .next (s.smbSensor 200 3) := rfl
@[simp] theorem exec_smbHotspot : exec .smbHotspot s = .next (smbHotspot s) := rfl
@[simp] theorem exec_smbInputPower : exec .smbInputPower s = .next (smbInputPower s) := rfl
@[simp] theorem exec_smbPhase : exec .smbPhase s = .next (smbPhase s) := rfl
@[simp] theorem exec_smbSerial : exec .smbSerial s = .next (smbSerial s) := rfl
end

/-! ### The TAP's instructions while it runs (R458, R522 to R525) -/

section
variable {s : State} (hlive : s.tapLive = true)
include hlive

theorem State.tapBypassed_of_live : s.tapBypassed = s.answer 0 := by
  simp only [State.tapBypassed, hlive, if_true]

theorem State.tapIf_of_permitted {ok : Bool} (f : State → State) (hok : ok = true) : s.tapIf ok f = f s := by
  simp only [State.tapIf, hlive, hok, Bool.and_self, if_true]

theorem State.tapIf_of_denied {ok : Bool} (f : State → State) (hno : ok = false) : s.tapIf ok f = s.answer 0 := by
  simp only [State.tapIf, hno, Bool.and_false, Bool.false_eq_true, if_false, State.tapBypassed_of_live hlive]

/-- IDCODE: the part code in bits [27:12], bit 0 set. -/
theorem tapIdcode_of_live : ∃ v, tapIdcode s = s.answer v ∧ v % 2 = 1 ∧ v / 4096 % 65536 = 0x0640 := by
  simp only [tapIdcode, hlive, if_true]
  exact ⟨_, rfl, by omega, by omega⟩

theorem tapSamplePreload_of_live (pins : List Bool) {r : List Byte × State} (hr : r = s.drawBytes ((pins.length + 7) / 8)) :
    tapSamplePreload s pins = ({ r.2 with dbg := { r.2.dbg with cells := pins } } : State).answer (leNat r.1 % 2 ^ pins.length) := by
  subst hr
  simp only [tapSamplePreload, hlive, if_true]
  rfl

theorem tapExtest_of_shut (pins : List Bool) (hopen : s.portOpen = true) (hshut : s.boot.resetState = 2) :
    tapExtest s pins false = { s with dbg := { s.dbg with extest := true, cells := pins } } := by
  simp only [tapExtest, Bool.false_eq_true, if_false]
  exact State.tapIf_of_permitted hlive _ (by simp [hopen, hshut])

theorem tapExtest_of_denied (pins : List Bool) (hno : s.portOpen = false ∨ s.boot.resetState ≠ 2) :
    tapExtest s pins false = s.answer 0 := by
  simp only [tapExtest, Bool.false_eq_true, if_false]
  refine State.tapIf_of_denied hlive _ ?_
  rcases hno with h | h <;> simp [h]

omit hlive in
theorem tapExtest_of_leave (pins : List Bool) (hin : s.dbg.extest = true) :
    tapExtest s pins true = ({ s with dbg := { s.dbg with extest := false } } : State).askRestart := by
  simp only [tapExtest, hin, if_true]

theorem tapDmi_of_write (a v : Nat) (hopen : s.portOpen = true) : tapDmi s 2 a v = (s.dmWrite a v).answer 0 :=
  State.tapIf_of_permitted hlive _ hopen

theorem tapDmi_of_read {a : Nat} (v : Nat) (hopen : s.portOpen = true) (ha : a ≠ 0x3C) : tapDmi s 1 a v = s.answer (s.dmRead a) := by
  refine (State.tapIf_of_permitted hlive _ hopen).trans ?_
  simp only [ha, false_and, if_false, if_true]

section
variable {act : Bool} {off v : Nat} {u : State} (hu : u = s.answer (s.dbg.regData.toNat * 4 + s.dbg.regStat))
include hu

theorem tapRegacc_of_denied (w : Bool) (hno : s.regReached (off / 0x100000) (off / 0x1000 % 256) = false) :
    tapRegacc s act w off v = { u with dbg := { u.dbg with regStat := 2 } } := by
  have hdenied : u.regReached (off / 0x100000) (off / 0x1000 % 256) = false := hu ▸ hno
  simp only [tapRegacc, hlive, Bool.true_eq_false, if_false, ← hu, hdenied, if_true]

variable (hok : s.regReached (off / 0x100000) (off / 0x1000 % 256) = true)
include hok

theorem tapRegacc_of_write {t : State} (ht : t = u.writeReg .debug (off / 0x100000) (off / 0x1000 % 256) (off % 0x1000) v) :
    tapRegacc s act true off v = { t with dbg := { t.dbg with regStat := 0 } } := by
  have hreached : u.regReached (off / 0x100000) (off / 0x1000 % 256) = true := hu ▸ hok
  subst ht
  simp only [tapRegacc, hlive, ← hu, hreached, Bool.true_eq_false, if_false, if_true]

theorem tapRegacc_of_read {r : Nat × State}
    (hr : r = u.readReg .debug (off / 0x100000) (off / 0x1000 % 256) (off % 0x1000) act) : tapRegacc s act false off v =
      { r.2 with dbg := { r.2.dbg with regStat := 0, regData := BitVec.ofNat 32 r.1 } } := by
  have hreached : u.regReached (off / 0x100000) (off / 0x1000 % 256) = true := hu ▸ hok
  subst hr
  simp only [tapRegacc, hlive, ← hu, hreached, Bool.true_eq_false, Bool.false_eq_true, if_false]

end

section
variable {key sig : List Byte} (hreach : s.unlockReached = true) (hfree : s.dbg.barred = false)
include hreach hfree

theorem tapUnlock_of_good (hgood : s.unlockOk key sig = true) :
    tapUnlock s key sig = ({ s with dbg := { s.dbg with unlocked := true } } : State).event 0 16 [sqBit 0x118 0] [] := by
  refine (State.tapIf_of_permitted hlive _ hreach).trans ?_
  simp only [hfree, hgood, Bool.false_eq_true, if_false, if_true]

/-- A failed UNLOCK is counted, and the eighth bars the port. -/
theorem tapUnlock_of_bad (hbad : s.unlockOk key sig = false) : ∃ t, tapUnlock s key sig = t ∧
    t.dbg.failures = s.dbg.failures + 1 ∧ (t.dbg.barred = true ↔ 8 ≤ s.dbg.failures + 1) ∧ t.dbg.unlocked = s.dbg.unlocked := by
  refine ⟨_, State.tapIf_of_permitted hlive _ hreach, ?_⟩
  simp only [hfree, hbad, Bool.false_eq_true, if_false, decide_eq_true_eq, and_self]

end

/-! ### The management bus (R531, R532) -/

theorem State.smb_of_late {n : Nat} (v : Nat) (hlate : n ≤ s.boot.upStrokes) : s.smb n v = s.answer v := by
  simp only [State.smb, hlive, Bool.true_eq_false, if_false, if_pos hlate]

theorem State.smbSensor_of_late {n : Nat} (code : Nat) {r : Word × State} (hr : r = s.drawWord) (hlate : n ≤ s.boot.upStrokes) :
    s.smbSensor n code = r.2.answer (smbSent code 2 (r.1.toNat % 65536)) := by
  subst hr
  exact State.smb_of_late (s := s.drawWord.2) hlive _ hlate

theorem smbPresence_of_late (hlate : 200 ≤ s.boot.upStrokes) :
    smbPresence s = s.answer (smbSent 1 1 (if s.boot.fuses.variant = 1 then 3 else 1)) := by
  have hbyte : 1 + 2 * b2n (decide (s.boot.fuses.variant = 1)) = if s.boot.fuses.variant = 1 then 3 else 1 := by
    split <;> simp_all [b2n]
  rw [smbPresence, hbyte, State.smb_of_late hlive _ hlate]

end

theorem State.smb_of_off {s : State} (hoff : s.tapLive = false) (n v : Nat) : s.smb n v = { s with reply := none } := by
  simp only [State.smb, hoff, if_true]

/-- Settles O57, its parts in their order: the TAP's instructions, the management bus, a module that is not live. -/
theorem tapAndManagementBusAnswer : Obligations.TapAndManagementBusAnswer := by
  refine ⟨fun s hlive => ⟨?_, fun pins => ⟨_, rfl, congrArg _ (tapSamplePreload_of_live hlive pins rfl)⟩,
      fun pins hopen hshut => congrArg _ (tapExtest_of_shut hlive pins hopen hshut),
      fun pins hno => congrArg _ (tapExtest_of_denied hlive pins hno), fun pins hin => congrArg _ (tapExtest_of_leave pins hin),
      fun b v => ⟨fun hopen => congrArg _ (State.tapIf_of_permitted hlive _ hopen),
        fun hclosed => ⟨congrArg _ (State.tapIf_of_denied hlive _ hclosed),
          fun op a => congrArg _ (State.tapIf_of_denied hlive _ hclosed)⟩⟩,
      fun a v hopen => ⟨congrArg _ (tapDmi_of_write hlive a _ hopen), fun ha => congrArg _ (tapDmi_of_read hlive _ hopen ha)⟩,
      fun act off v u hu => ⟨fun hno w => congrArg _ (tapRegacc_of_denied hlive hu w hno),
        fun hok => ⟨⟨_, rfl, congrArg _ (tapRegacc_of_write hlive hu hok rfl)⟩,
          ⟨_, rfl, congrArg _ (tapRegacc_of_read hlive hu hok rfl)⟩⟩⟩,
      fun key sig hreach hfree => ⟨fun hgood => congrArg _ (tapUnlock_of_good hlive hreach hfree hgood), fun hbad => ?_⟩,
      fun b => congrArg _ (State.tapBypassed_of_live hlive), fun hlate => ⟨_, rfl, congrArg _ (smbPresence_of_late hlive hlate),
        congrArg _ (State.smbSensor_of_late hlive 2 rfl hlate), congrArg _ (State.smbSensor_of_late hlive 3 rfl hlate),
        fun hearly => ?_, fun hphase => ?_⟩,
      fun hlate => ⟨fun hnone => ?_, fun hsome => ?_, ?_, congrArg _ (State.smb_of_late hlive _ hlate)⟩⟩,
    fun s hoff => ⟨congrArg _ (State.smb_of_off hoff _ _), congrArg _ (State.smb_of_off hoff _ _), congrArg _ (State.smb_of_off hoff _ _),
      ?_, fun b => ?_⟩⟩
  · obtain ⟨v, hv, hclauses⟩ := tapIdcode_of_live hlive
    exact ⟨v, congrArg _ hv, hclauses⟩
  · obtain ⟨t, ht, hclauses⟩ := tapUnlock_of_bad hlive hreach hfree hbad
    exact ⟨t, congrArg _ ht, hclauses⟩
  · rw [exec_smbHotspot, smbHotspot, if_pos hearly, State.smb_of_late hlive _ hlate]
  · rw [exec_smbHotspot, smbHotspot, if_neg hphase, State.smbSensor_of_late hlive _ rfl hlate]
  · rw [exec_smbInputPower, smbInputPower, if_pos hnone, State.smbSensor_of_late hlive _ rfl hlate]
  · rw [exec_smbInputPower, smbInputPower, if_neg hsome, State.smb_of_late hlive _ hlate]
  · exact congrArg _ (State.smb_of_late hlive _ hlate)
  · simp only [exec_tapIdcode, tapIdcode, hoff, Bool.false_eq_true, if_false]
  · simp only [exec_tapBypass, State.tapBypassed, hoff, Bool.false_eq_true, if_false]

end Sys2Proof.Machine
end
